-- ==== Sys2Proof/Word.lean ====
section
/-!
DEFINITION. The widths of the L2048: a 32-bit register or exchange word, and a byte of memory.
-/
namespace Sys2Proof

/-- A register word, an exchange slot or a local-memory word: 32 bits (R6, R14). -/
abbrev Word := BitVec 32

/-- A byte of Grid-addressed memory (R6). -/
abbrev Byte := BitVec 8

/-- The word that holds `n` modulo 2^32. -/
def Word.ofNat (n : Nat) : Word := BitVec.ofNat 32 n

/-- The word that holds the two's-complement image of `z`. -/
def Word.ofInt (z : Int) : Word := BitVec.ofInt 32 z

end Sys2Proof
end

