-- ==== Sys2Proof/Syntax.lean ====
section
/-!
DEFINITION. The commands of the L2048: one constructor per row of spec/opcode_table.json, with the operands that the rule of
the row names, and the data types those operands are made of. Times are raw counts of 2^-16 ns (R250).
-/
namespace Sys2Proof

/-- A Grid master: its class code (R536) and its index within the class. -/
structure Master where
  cls : Nat
  idx : Nat
deriving DecidableEq, Repr

/-- The fields of a PTP event message that the engine uses (R264 to R268): `corr` the correctionField in 2^-16 ns, `sec` and
`ns` the time-stamp it carries, `seq` its sequenceId and `twoStep` its twoStepFlag. -/
structure PtpMsg where
  domain : Nat
  sdo : Nat
  seq : Nat
  corr : Int
  sec : Nat
  ns : Nat
  twoStep : Bool
deriving DecidableEq, Repr

/-- The multiply operation of an M slot (R116). -/
inductive MOp where
  | none | mac | msu | mpy | mpyn
deriving DecidableEq, Repr

/-- A multiply slot (R115): predicate, multiply operation with its fractional shift, accumulator and multiplicands, and the
load mode, pointer and destination. -/
structure MSlot where
  pred : Nat := 0
  op : MOp := .none
  fs : Bool := false
  acc : Nat := 0
  sa : Nat := 0
  sb : Nat := 0
  lm : Nat := 0
  lp : Nat := 0
  ld : Nat := 0
deriving DecidableEq, Repr

/-- The operations of the A slot (R118, R119); register operands are register numbers, `n` a count, `imm` and `s6` the raw
bits of the field. -/
inductive AOp where
  | nop
  | add (dd da db : Nat) | sub (dd da db : Nat) | adds (dd da db : Nat) | subs (dd da db : Nat)
  | and (dd da db : Nat) | or (dd da db : Nat) | xor (dd da db : Nat)
  | not (dd da : Nat) | neg (dd da : Nat) | abs (dd da : Nat)
  | min (dd da db : Nat) | max (dd da db : Nat) | mov (dd da : Nat) | shv (dd da db : Nat)
  | addi (dd da imm : Nat) | shli (dd da n : Nat) | shri (dd da n : Nat) | srai (dd da n : Nat) | shlsi (dd da n : Nat)
  | extr (aca dd s6 : Nat) | norm (aca dd : Nat) | expa (aca dd : Nat) | expd (da dd : Nat)
  | aclr (acd : Nat) | amov (acd aca : Nat) | aadd (acd aca : Nat) | asub (acd aca : Nat) | aneg (acd aca : Nat)
  | ashi (acd aca s6 : Nat) | ashd (acd aca da : Nat) | dtoa (acd da s6 : Nat)
  | ard (aca dd part : Nat) | awr (acd da part : Nat)
  | cmpeq (fk da db : Nat) | cmplt (fk da db : Nat) | cmple (fk da db : Nat) | cmpltu (fk da db : Nat)
  | cmpeqi (fk da imm : Nat) | cmplti (fk da imm : Nat) | cmpgti (fk da imm : Nat) | btst (fk da n : Nat)
  | atstn (fk aca : Nat) | atstz (fk aca : Nat) | fop (fk fa fb tt : Nat)
deriving DecidableEq, Repr

/-- The A slot with its predicate (R113). -/
structure ASlot where
  pred : Nat := 0
  op : AOp := .nop
deriving DecidableEq, Repr

/-- The operations of the T slot (R122, R123); `imm` is the raw bits of the field. -/
inductive TOp where
  | nop
  | ldc (dr p am imm : Nat) | stx (dr p am imm : Nat) | sty (dr p am imm : Nat) | stc (dr p am imm : Nat)
  | modp (p am imm : Nat) | far (p am imm : Nat)
  | movi (dd imm : Nat) | movhi (dd imm : Nat)
  | movs (sreg d : Nat) | movr (sreg d : Nat) | movsi (sreg imm : Nat)
  | br (target : Nat) | call (target : Nat) | ret | loop (rot : Bool) (stop count : Nat) | loopd (rot : Bool) (stop d : Nat)
  | lexit (target : Nat) | iret | sdone | swait (j : Nat) | fwait (n : Nat) | mbrd (d : Nat) | mbwr (d : Nat)
deriving DecidableEq, Repr

/-- The T slot with its predicate (R113). -/
structure TSlot where
  pred : Nat := 0
  op : TOp := .nop
deriving DecidableEq, Repr

/-- A bundle: its four slot instructions, which issue together (R110). An all-NOP bundle is the default. -/
structure Bundle where
  m1 : MSlot := {}
  m2 : MSlot := {}
  a : ASlot := {}
  t : TSlot := {}
deriving DecidableEq, Repr

/-- The commands: one constructor per row of spec/opcode_table.json, in the table's order. -/
inductive Instr where
  /-- R277. The datum reaches n divided by the engine rate and the strobe of boundary n reaches every block. -/
  | sampleBoundary (pdm : List (Nat × List Bool)) (inDone outDone : Option Nat) (active : Nat)
  /-- R39. A 1 ms level window ends and the loop steps the VCORE code by at most one. -/
  | levelWindow
  /-- R41. EMERG_SETTLE elapses after an emergency write and the loop returns from SETTLE to LEVEL. -/
  | emergSettleEnd
  /-- R41. 64 ms after the last emergency raise, downward steps are allowed again. -/
  | downstepBarEnd
  /-- R44. An AVSBus frame completes; an error is retried, and after four failures the loop enters FAULT. -/
  | avsFrameResponse (ok : Bool) (v : Nat)
  /-- R45. The regulator signals an alert on LVL_ALERT and the engine reads and latches its status. -/
  | regAlert
  /-- R46. Every 10 ms the engine reads back VCORE and the regulator current. -/
  | vcoreReadback
  /-- R54. A write of LVL_CFG sets PROJECT and FREEZE; FREEZE moves the loop to or from HOLD. -/
  | lvlCfgWrite (m : Master) (v : Nat)
  /-- R56. A write of VMAX or VMIN that passes the present code makes the loop command the new limit at once. -/
  | vcoreLimitsWrite (m : Master) (v : Nat)
  /-- R53. A new VCORE_START is commanded at once when the loop is in HOLD without FREEZE. -/
  | vcoreStartWrite (m : Master) (v : Nat)
  /-- R27. A write that changes RATE discards the committed graph and the staged image and clears the exchange. -/
  | engineRateWrite (m : Master) (v : Nat)
  /-- R25. A read of SAMPLE_INDEX_LO latches the high word into SAMPLE_INDEX_HI. -/
  | sampleIndexLoRead (m : Master)
  /-- R562. A Grid write to memory, or to a register without a row of its own, is tested for protection, value and room and then applied, stored or refused. -/
  | gridWrite (m : Master) (id addr : Nat) (data : List (Byte × Bool)) (clash : List Nat) (ext : Bool)
  /-- R539. A Grid read of memory returns its data or a failure response. -/
  | gridRead (m : Master) (id addr len : Nat) (ext : Option (List Byte))
  /-- R93. The gather DMA writes the sample header or one gather entry into X memory. -/
  | gatherWrite (k : Nat)
  /-- R95. After SDONE and every result in flight, the scatter DMA writes scatter entries to the exchange. -/
  | scatterWrite (k t : Nat)
  /-- R96. A pool transfer started by FAR completes, or ends with an error and sets FAR_ERR. -/
  | farComplete (k j : Nat)
  /-- R86. A strip processor takes a pending fault, debug break or mailbox interrupt and enters its handler at 0x7F0. -/
  | interruptEntry (k : Nat)
  /-- R112. A bundle with an illegal slot issues and raises the fault ILLEGAL without executing. -/
  | illegalEncoding (k w : Nat)
  /-- R119. A slot does nothing. -/
  | nop (k : Nat) (inT : Bool) (pred : Nat) (o : Bundle)
  /-- R116. An M slot adds SA times SB to an accumulator. -/
  | mac (k : Nat) (second : Bool) (slot : MSlot) (o : Bundle)
  /-- R116. An M slot subtracts SA times SB from an accumulator. -/
  | msu (k : Nat) (second : Bool) (slot : MSlot) (o : Bundle)
  /-- R116. An M slot writes SA times SB to an accumulator. -/
  | mpy (k : Nat) (second : Bool) (slot : MSlot) (o : Bundle)
  /-- R116. An M slot writes minus SA times SB to an accumulator. -/
  | mpyn (k : Nat) (second : Bool) (slot : MSlot) (o : Bundle)
  /-- R117. An M slot loads a D register from X or Y memory with an optional post-modify. -/
  | ld (k : Nat) (second : Bool) (slot : MSlot) (o : Bundle)
  /-- R119. A slot adds two D registers modulo 2^32. -/
  | add (k pred dd da db : Nat) (o : Bundle)
  /-- R119. A slot subtracts two D registers modulo 2^32. -/
  | sub (k pred dd da db : Nat) (o : Bundle)
  /-- R119. A slot adds two D registers with saturation. -/
  | adds (k pred dd da db : Nat) (o : Bundle)
  /-- R119. A slot subtracts two D registers with saturation. -/
  | subs (k pred dd da db : Nat) (o : Bundle)
  /-- R119. A slot forms the bitwise AND of two D registers. -/
  | and (k pred dd da db : Nat) (o : Bundle)
  /-- R119. A slot forms the bitwise OR of two D registers. -/
  | or (k pred dd da db : Nat) (o : Bundle)
  /-- R119. A slot forms the bitwise XOR of two D registers. -/
  | xor (k pred dd da db : Nat) (o : Bundle)
  /-- R119. A slot inverts a D register. -/
  | not (k pred dd da : Nat) (o : Bundle)
  /-- R120. A slot negates a D register with saturation. -/
  | neg (k pred dd da : Nat) (o : Bundle)
  /-- R119. A slot takes the saturated absolute value of a D register. -/
  | abs (k pred dd da : Nat) (o : Bundle)
  /-- R119. A slot takes the signed smaller of two D registers. -/
  | min (k pred dd da db : Nat) (o : Bundle)
  /-- R119. A slot takes the signed larger of two D registers. -/
  | max (k pred dd da db : Nat) (o : Bundle)
  /-- R119. A slot copies one D register to another. -/
  | mov (k pred dd da : Nat) (o : Bundle)
  /-- R119. A slot shifts a D register by a signed count held in a D register. -/
  | shv (k pred dd da db : Nat) (o : Bundle)
  /-- R119. A slot adds a sign-extended immediate to a D register. -/
  | addi (k pred dd da imm : Nat) (o : Bundle)
  /-- R119. A slot shifts a D register left by an immediate count. -/
  | shli (k pred dd da n : Nat) (o : Bundle)
  /-- R119. A slot shifts a D register logically right by an immediate count. -/
  | shri (k pred dd da n : Nat) (o : Bundle)
  /-- R120. A slot shifts a D register arithmetically right by an immediate count. -/
  | srai (k pred dd da n : Nat) (o : Bundle)
  /-- R119. A slot shifts a D register left with saturation. -/
  | shlsi (k pred dd da n : Nat) (o : Bundle)
  /-- R70. A slot extracts a rounded, saturated 32-bit value from an accumulator at a scale. -/
  | extr (k pred aca dd s6 : Nat) (o : Bundle)
  /-- R71. A slot normalises an accumulator and writes the shift count to a D register. -/
  | norm (k pred aca dd : Nat) (o : Bundle)
  /-- R71. A slot counts the redundant sign bits of an accumulator. -/
  | expa (k pred aca dd : Nat) (o : Bundle)
  /-- R71. A slot counts the redundant sign bits of a D register. -/
  | expd (k pred da dd : Nat) (o : Bundle)
  /-- R119. A slot clears an accumulator. -/
  | aclr (k pred acd : Nat) (o : Bundle)
  /-- R119. A slot copies one accumulator to another. -/
  | amov (k pred acd aca : Nat) (o : Bundle)
  /-- R120. A slot adds two accumulators under SPMODE.ACS. -/
  | aadd (k pred acd aca : Nat) (o : Bundle)
  /-- R120. A slot subtracts two accumulators under SPMODE.ACS. -/
  | asub (k pred acd aca : Nat) (o : Bundle)
  /-- R120. A slot negates an accumulator. -/
  | aneg (k pred acd aca : Nat) (o : Bundle)
  /-- R120. A slot shifts an accumulator by an immediate signed scale. -/
  | ashi (k pred acd aca s6 : Nat) (o : Bundle)
  /-- R120. A slot shifts an accumulator by a signed count held in a D register. -/
  | ashd (k pred acd aca da : Nat) (o : Bundle)
  /-- R120. A slot loads a D register into an accumulator at a scale. -/
  | dtoa (k pred acd da s6 : Nat) (o : Bundle)
  /-- R121. A slot reads one part of an accumulator into a D register. -/
  | ard (k pred aca dd part : Nat) (o : Bundle)
  /-- R121. A slot writes one part of an accumulator from a D register. -/
  | awr (k pred acd da part : Nat) (o : Bundle)
  /-- R119. A slot sets a flag when two D registers are equal. -/
  | cmpeq (k pred fk da db : Nat) (o : Bundle)
  /-- R119. A slot sets a flag on a signed less-than. -/
  | cmplt (k pred fk da db : Nat) (o : Bundle)
  /-- R119. A slot sets a flag on a signed less-or-equal. -/
  | cmple (k pred fk da db : Nat) (o : Bundle)
  /-- R119. A slot sets a flag on an unsigned less-than. -/
  | cmpltu (k pred fk da db : Nat) (o : Bundle)
  /-- R119. A slot sets a flag when a D register equals an immediate. -/
  | cmpeqi (k pred fk da imm : Nat) (o : Bundle)
  /-- R119. A slot sets a flag when a D register is less than an immediate. -/
  | cmplti (k pred fk da imm : Nat) (o : Bundle)
  /-- R119. A slot sets a flag when a D register is greater than an immediate. -/
  | cmpgti (k pred fk da imm : Nat) (o : Bundle)
  /-- R119. A slot sets a flag from one bit of a D register. -/
  | btst (k pred fk da n : Nat) (o : Bundle)
  /-- R119. A slot sets a flag when an accumulator is negative. -/
  | atstn (k pred fk aca : Nat) (o : Bundle)
  /-- R119. A slot sets a flag when an accumulator is zero. -/
  | atstz (k pred fk aca : Nat) (o : Bundle)
  /-- R121. A slot combines two flags through a truth table. -/
  | fop (k pred fk fa fb tt : Nat) (o : Bundle)
  /-- R123. The T slot loads a D register from C memory. -/
  | ldc (k pred dr p am imm : Nat) (o : Bundle)
  /-- R123. The T slot stores a D register to X memory. -/
  | stx (k pred dr p am imm : Nat) (o : Bundle)
  /-- R123. The T slot stores a D register to Y memory. -/
  | sty (k pred dr p am imm : Nat) (o : Bundle)
  /-- R123. The T slot stores a D register to C memory. -/
  | stc (k pred dr p am imm : Nat) (o : Bundle)
  /-- R123. The T slot post-modifies a pointer only. -/
  | modp (k pred p am imm : Nat) (o : Bundle)
  /-- R96. The T slot starts a pool transfer from a descriptor in Y memory. -/
  | far (k pred p am imm : Nat) (o : Bundle)
  /-- R123. The T slot loads a sign-extended 17-bit immediate into a D register. -/
  | movi (k pred dd imm : Nat) (o : Bundle)
  /-- R123. The T slot loads the upper half of a D register. -/
  | movhi (k pred dd imm : Nat) (o : Bundle)
  /-- R125. The T slot writes a special register from a D register. -/
  | movs (k pred sreg d : Nat) (o : Bundle)
  /-- R125. The T slot reads a special register into a D register. -/
  | movr (k pred sreg d : Nat) (o : Bundle)
  /-- R125. The T slot writes a special register from an immediate. -/
  | movsi (k pred sreg imm : Nat) (o : Bundle)
  /-- R126. The T slot branches after one delay bundle. -/
  | br (k pred target : Nat) (o : Bundle)
  /-- R83. The T slot pushes a return address and branches. -/
  | call (k pred target : Nat) (o : Bundle)
  /-- R83. The T slot pops the return stack and branches. -/
  | ret (k pred : Nat) (o : Bundle)
  /-- R79. The T slot takes a hardware loop level with an immediate count. -/
  | loop (k pred : Nat) (rot : Bool) (stop count : Nat) (o : Bundle)
  /-- R79. The T slot takes a hardware loop level with a count held in a D register. -/
  | loopd (k pred : Nat) (rot : Bool) (stop d : Nat) (o : Bundle)
  /-- R82. The T slot ends the innermost loop and branches. -/
  | lexit (k pred target : Nat) (o : Bundle)
  /-- R88. The T slot returns from an interrupt handler. -/
  | iret (k pred : Nat) (o : Bundle)
  /-- R98. The T slot ends the sample's code. -/
  | sdone (k pred : Nat) (o : Bundle)
  /-- R93. The T slot stalls issue until the header and gather entries up to J have landed. -/
  | swait (k pred j : Nat) (o : Bundle)
  /-- R123. The T slot stalls issue until at most N pool transfers are outstanding. -/
  | fwait (k pred n : Nat) (o : Bundle)
  /-- R91. The T slot reads MBOX_IN and clears the pending mailbox interrupt. -/
  | mbrd (k pred d : Nat) (o : Bundle)
  /-- R91. The T slot writes MBOX_OUT and raises MBOX_OUT. -/
  | mbwr (k pred d : Nat) (o : Bundle)
  /-- R91. A boundary-applied write of MBOX_IN makes a mailbox interrupt pending at its boundary. -/
  | mboxInWrite (m : Master) (k v : Nat)
  /-- R105. A write of DBG_CTRL.BREAK_NOW raises a debug break. -/
  | breakNow (m : Master) (k v : Nat)
  /-- R100. A write of BANK_CTRL.SWAP requests a program-bank swap at a boundary. -/
  | bankCtrlSwap (m : Master) (k : Nat)
  /-- R132. A batten's lanes finish their pass and write their bus sums with rounding and saturation. -/
  | battenSumWrite (k t : Nat) (errs : List (Nat × Int))
  /-- R163. A write of REH_CTRL.EN starts the spare lane or stops it at the next boundary. -/
  | rehCtrlWrite (m : Master) (k v : Nat)
  /-- R147. An XF_REQ SWAP starts a crossfade to the shadow plane, or is queued or deferred. -/
  | swap (m : Master) (k curve time : Nat)
  /-- R147. An XF_REQ HOLD freezes a running crossfade. -/
  | hold (m : Master) (k : Nat)
  /-- R147. An XF_REQ RELEASE resumes a held crossfade. -/
  | release (m : Master) (k : Nat)
  /-- R147. An XF_REQ REVERSE reverses the direction of a crossfade. -/
  | reverse (m : Master) (k : Nat)
  /-- R147. An XF_REQ CANCEL_QUEUED discards a queued or deferred swap. -/
  | cancelQueued (m : Master) (k : Nat)
  /-- R150. A master writes its own copy of the ramp target gain. -/
  | rampReqLoWrite (m : Master) (k v : Nat)
  /-- R152. A write of RAMP_REQ_HI submits a ramp request to the batten's queue, or is refused. -/
  | rampReqHiWrite (m : Master) (k v : Nat)
  /-- R138. Command 0x01 on a BAT page copies 64 KiB into the shadow plane. -/
  | loadPlane (m : Master) (k a0 a1 : Nat)
  /-- R138. A plane load finishes with DONE or FAILED, and the plane becomes ready at m + D. -/
  | loadPlaneComplete (k : Nat)
  /-- R568. A block starts the next command in its queue once the one before it has completed. -/
  | queuedCommandStart (p : Nat)
  /-- R566. A CMD write with a code the page does not accept is queued and completes with REFUSED. -/
  | cmdUnknown (m : Master) (p code : Nat)
  /-- R186. Command 0x01 on GRAPH checks a show image and stages it. -/
  | loadGraph (m : Master) (a0 a1 : Nat)
  /-- R191. Command 0x02 on GRAPH puts the staged image into service at boundary c. -/
  | graphCommit (m : Master) (a0 a1 a2 : Nat)
  /-- R188. Command 0x03 on GRAPH releases the staged image. -/
  | discard (m : Master) (a0 : Nat)
  /-- R201. The copies of a topology change complete or fail; a failure marks the graph BROKEN. -/
  | commitCopyDone
  /-- R224. A write of IN_ROUTE changes the selected input entry at its boundary and advances AUTOINC. -/
  | inRouteWrite (m : Master) (v : Nat)
  /-- R224. A write of OUT_ROUTE changes the selected output entry at its boundary and advances AUTOINC. -/
  | outRouteWrite (m : Master) (v : Nat)
  /-- R228. A boundary-applied write of TONE_CFG sets a tone generator and restarts it on a mode or frequency change. -/
  | toneCfgWrite (m : Master) (v : Nat)
  /-- R233. A boundary-applied write of an interpolator register reconfigures the channel and clears its history. -/
  | interpWrite (m : Master) (j v : Nat)
  /-- R230. A write of FAST_CFG.MULT sets the fast-rate multiple. -/
  | fastCfgWrite (m : Master) (v : Nat)
  /-- R559. A write of CTRL.ENABLE enables or disables a port, bridge or network port. -/
  | ctrlEnableWrite (m : Master) (p : Nat) (en : Bool)
  /-- R246. A write of BR_CFG.CLK_GROUP returns the bridge to NO_CLOCK, fading out first. -/
  | brCfgWrite (m : Master) (b v : Nat)
  /-- R235. A boundary-applied write of IN_MAP or OUT_MAP maps a bridge channel to a foreign slot. -/
  | bridgeMapWrite (m : Master) (b : Nat) (out : Bool) (v : Nat)
  /-- R236. A bridge sees no FSYNC edge for 250 µs and goes to NO_CLOCK. -/
  | bridgeEdgeGap (b : Nat)
  /-- R236. Edges have been present for 2 ms and the bridge enters ACQUIRE. -/
  | bridgeEdgesPresent (b : Nat)
  /-- R236. A 16 ms rate window ends and the bridge locks, relocks or enters RANGE. -/
  | bridgeWindow (b r : Nat)
  /-- R240. Every 1 ms a locked bridge updates RATIO and its published delays. -/
  | bridgeRatioUpdate (b r : Nat) (inOff outOff : Int)
  /-- R237. A bridge fade-out or ramp-in reaches its end. -/
  | bridgeFadeEnd (b : Nat)
  /-- R250. The PLL first locks to REFCLK_IN and the raw counter starts. -/
  | pllLock
  /-- R251. REFCLK_IN stops or departs from 25 MHz and REF_OK clears. -/
  | refFault
  /-- R251. REFCLK_IN has been within limits for 10 ms and the PLL relocks. -/
  | refRecover
  /-- R256. A read of NOW_FRAC latches the datum and the raw counter. -/
  | nowFracRead (m : Master) (t : Nat)
  /-- R258. Command 0x01 on DATUM steps the datum by a signed amount. -/
  | step (m : Master)
  /-- R257. A step is applied right after the next strobe and waiting writes fall due at the next boundary. -/
  | stepApply
  /-- R261. A slew plan has removed its offset and RATE returns to I. -/
  | slewPlanEnd
  /-- R262. No offset arrives for HOLD_TIMEOUT; the servo switches source or enters HOLDOVER. -/
  | holdTimeoutExpiry (t : Nat)
  /-- R263. A write of DATUM_CTRL sets the servo's sources; a write of SRC returns the servo to FREE. -/
  | datumCtrlWrite (m : Master) (v : Nat)
  /-- R259. A write of SERVO_OFFSET_IN_HI delivers a firmware offset to the servo. -/
  | servoOffsetInHiWrite (m : Master) (v : Nat)
  /-- R269. A write of ASYMMETRY or TP_LAT_ADJ of the servo's source puts the servo into SLEW at the next offset. -/
  | asymmetryWrite (m : Master) (p : Nat) (adj : Bool) (v : Nat)
  /-- R288. A write of TP_CTRL sets a time port; a STATE other than SLAVE clears its path and jump state. -/
  | tpCtrlWrite (m : Master) (p v : Nat)
  /-- R267. A port receives a PTP Sync and time-stamps it. -/
  | syncRx (p t : Nat) (msg : PtpMsg)
  /-- R267. A slave port receives a Follow_Up, computes an offset and delivers it unless withheld. -/
  | followUpRx (p : Nat) (msg : PtpMsg)
  /-- R265. A master port receives a Delay_Req and answers with a Delay_Resp. -/
  | delayReqRx (p t : Nat) (msg : PtpMsg)
  /-- R270. A slave port receives a Delay_Resp and measures and filters the mean path delay. -/
  | delayRespRx (p : Nat) (msg : PtpMsg)
  /-- R268. A port receives a Pdelay_Req and answers with a Pdelay_Resp. -/
  | pdelayReqRx (p t2 t3 : Nat) (msg : PtpMsg)
  /-- R267. A port receives a Pdelay_Resp of its peer-delay exchange. -/
  | pdelayRespRx (p t : Nat) (msg : PtpMsg)
  /-- R267. A port receives a Pdelay_Resp_Follow_Up and measures the peer delay. -/
  | pdelayRespFollowUpRx (p : Nat) (msg : PtpMsg)
  /-- R268. Every 2^LOG_SYNC s a master port sends a Sync, one-step or two-step. -/
  | ptpSyncSend (p t : Nat)
  /-- R268. A port sends a Delay_Req or Pdelay_Req at its randomised interval. -/
  | ptpDelayReqSend (p t : Nat)
  /-- R274. A PPS_IN edge is accepted and gives an offset. -/
  | ppsEdge (t : Nat) (falling : Bool)
  /-- R274. No PPS_IN edge is accepted for 1.5 s and PPS_OK clears. -/
  | ppsLost
  /-- R275. A 1 s gate of CLK10M_IN ends, the error is published and the integrator may be steered. -/
  | clk10mGate (t : Nat) (err : Int)
  /-- R275. CLK10M_IN has no edge for 1 µs and CLK10M_OK clears. -/
  | clk10mLost
  /-- R276. At each datum whole second plus PPS_OUT_OFFSET, PPS_OUT pulses. -/
  | ppsOutPulse
  /-- R320. Command 0x01 on PROMPT triggers a cue or the standby at once. -/
  | go (m : Master) (a0 : Nat)
  /-- R320. Command 0x02 on PROMPT triggers a cue or the standby at a given datum. -/
  | goAt (m : Master) (a0 a1 a2 : Nat)
  /-- R303. Command 0x03 on PROMPT removes a waiting trigger if its boundary is far enough away. -/
  | cancel (m : Master) (a0 : Nat)
  /-- R303. Command 0x04 on PROMPT removes every trigger that can be removed. -/
  | cancelAll (m : Master)
  /-- R295. An edge on CUE_GO triggers the standby, unless it falls within the lockout. -/
  | cueGoEdge (t : Nat) (rising : Bool)
  /-- R296. A write of STANDBY sets the standby cue at once. -/
  | standbyWrite (m : Master) (v : Nat)
  /-- R293. The Prompt issues a GRAPH_COMMIT tagged with b in the later of the acceptance sample and b − D. -/
  | actionGraphCommit
  /-- R308. An edge on TABLEAU_IN triggers a tableau. -/
  | tableauInEdge (t : Nat) (rising : Bool)
  /-- R316. Command 0x01 on TABLEAU triggers a tableau at acceptance or at a datum. -/
  | trigger (m : Master) (a0 a1 a2 : Nat)
  /-- R316. The datum of a timed tableau trigger arrives and the tableau is captured. -/
  | tableauTimedCapture (t : Nat)
  /-- R314. The extended copy into the tableau memory completes. -/
  | tableauExtDone
  /-- R310. A write of 1 to ACK clears UNREAD. -/
  | tableauAck (m : Master)
  /-- R328. A write of CG_CFG or CG_RATE sets a clock group's format and direction. -/
  | cgCfgWrite (m : Master) (g : Nat) (rate : Bool) (v : Nat)
  /-- R332. A write of MCLK_CFG starts, stops or holds low an MCLK output. -/
  | mclkCfgWrite (m : Master) (n v : Nat)
  /-- R333. A write of PORT_CFG enables directions and sets a port's format. -/
  | portCfgWrite (m : Master) (p v : Nat)
  /-- R340. A port time-stamps an FSYNC leading edge and assigns the frame to a sample, or finds a slip. -/
  | fsyncEdge (p t bclks : Nat) (slots : List Nat) (done : Option Nat)
  /-- R345. A frame's window ends with no leading edge in it, which is a MISSING fault. -/
  | frameWindowEnd (p t bclks : Nat) (slots : List Nat)
  /-- R330. A slave group sees no leading edge for four frame periods and CLK_OK clears. -/
  | clkLost (g t : Nat)
  /-- R346. N_F frames of RAMP_IN have passed and the direction enters RUN. -/
  | portRampEnd (p : Nat) (tx : Bool) (t : Nat)
  /-- R346. N_F frames of FADE have passed and the direction enters ACQUIRE. -/
  | portFadeEnd (p : Nat) (tx : Bool) (t : Nat)
  /-- R338. A boundary-applied write of MASK_COMMIT captures SLOT_MASK_NEXT and changes the mask at its boundary. -/
  | maskCommit (m : Master) (p : Nat)
  /-- R343. A read of BLK_FRAC latches the block stamp set. -/
  | blkFracRead (m : Master) (p : Nat)
  /-- R369. A boundary-applied write of DEC_SRC, DEC_ST01, DEC_ST23 or DEC_PHASE reconfigures and may clear a decimator channel. -/
  | decConfigWrite (m : Master) (j v : Nat)
  /-- R366. A boundary-applied write of GCORR changes a stage's gain and keeps the history. -/
  | decGcWrite (m : Master) (j v : Nat)
  /-- R362. A write of PDM_CLK_CFG starts or stops a PDM clock. -/
  | pdmClkCfgWrite (m : Master) (k v : Nat)
  /-- R373. Command 0x01 on DECIM clears the channels of a mask of sync groups at an instant. -/
  | sync (m : Master) (a0 a1 a2 : Nat)
  /-- R368. The instant of a SYNC arrives and the channels of its groups are cleared. -/
  | syncInstant (t : Nat)
  /-- R390. A write of LANE_CFG enables a lane into SEEK or sends it to OFF. -/
  | laneCfgWrite (m : Master) (i v : Nat)
  /-- R398. A write of LANE_CTRL.RETRAIN sends the lane to SEEK and clears RATE_FAIL. -/
  | retrain (m : Master) (i : Nat)
  /-- R390. A lane receives an error-free TS1 and advances its training. -/
  | ts1Rx (i peer : Nat) (ack : Bool)
  /-- R392. A lane receives a TS2 and, after eight naming one rate, changes to it. -/
  | ts2Rx (i peer rate : Nat)
  /-- R391. A 1 ms attempt in SEEK ends without LOCK and the lane waits at idle. -/
  | seekAttemptEnd (i : Nat)
  /-- R391. A back-off wait ends and the next attempt starts. -/
  | seekWaitEnd (i : Nat)
  /-- R390. A lane stays 1 ms in LOCK or AGREE without progress and returns to SEEK. -/
  | trainTimeout (i : Nat)
  /-- R392. A receiver does not align within 100 µs of a rate change; the rate is struck. -/
  | rateChangeTimeout (i : Nat)
  /-- R393. Alignment of a bond completes and its lanes enter UP, or a lane fails to join. -/
  | deskewDone (n : Nat) (lag : List Nat)
  /-- R388. The receive amplitude stays below threshold and loss of signal is declared. -/
  | losDetect (i : Nat)
  /-- R388. The receive amplitude returns and LOS clears. -/
  | losClear (i : Nat)
  /-- R389. Frequency, alignment or error limits are broken and loss of lock is declared. -/
  | lolDetect (i errs : Nat)
  /-- R394. A receiver recognises the electrical idle ordered set and enters idle. -/
  | eiosRx (i : Nat)
  /-- R395. An idle receiver detects amplitude and begins the exit. -/
  | idleExitDetect (i : Nat)
  /-- R395. No exit begins within IDLE_TIMEOUT and the lane declares LOS. -/
  | idleTimeout (i : Nat)
  /-- R396. A fast training burst ends and the receiver aligns or declares LOL. -/
  | ftbEnd (i pairs : Nat)
  /-- R501. A 1 ms loopback test of an idle lane ends, passes or fails. -/
  | loopbackTestEnd (i : Nat) (ok : Bool)
  /-- R425. A write of LINK_CFG enables or configures an Islos link. -/
  | linkCfgWrite (m : Master) (n v : Nat)
  /-- R405. A write of LINK_CTRL.PARK parks or unparks lanes from the next frame start. -/
  | linkCtrlWrite (m : Master) (n v : Nat)
  /-- R409. Once the output patch is done with a block's last sample, the link sends that block's audio frames. -/
  | audioBlockSend (n k : Nat)
  /-- R411. An audio frame is received, checked for time and map, and its samples held for presentation. -/
  | audioFrameRx (n lanes g c b idx : Nat) (held silent hdr errs : Bool) (samples : List (List Word))
  /-- R413. A receive group completes its ramp-in and enters RUN. -/
  | groupRampEnd (n g : Nat)
  /-- R413. A receive group completes its fade and enters ACQUIRE. -/
  | groupFadeEnd (n g : Nat)
  /-- R416. A control frame is received; its ACK is taken and the expected frame is accepted. -/
  | controlFrameRx (n lanes seq ack : Nat) (ackOnly ok good : Bool)
  /-- R416. Nothing carrying an ACK leaves within 2 µs of an acceptance and an ACK_ONLY frame is sent. -/
  | ackOnlyTimer (n : Nat)
  /-- R416. ACK does not advance within RETX_TIMEOUT; frames are resent or the channel fails. -/
  | retxTimeout (n : Nat)
  /-- R459. A forwarded WRITE record is held and applied at its boundary. -/
  | forwardWrite (n b who addr : Nat) (words : List Word)
  /-- R459. A forwarded partial-byte write record is held and applied at its boundary. -/
  | forwardWriteBytes (n b who addr mask : Nat) (v : Word)
  /-- R459. A forwarded ramp request is submitted for its boundary. -/
  | forwardRamp (n b bat : Nat) (lo : Word) (hi : Nat)
  /-- R460. A forwarded trigger is kept and runs as source 0x7 at its boundary. -/
  | forwardTrigger (n b cue standby : Nat)
  /-- R459. A forwarded CANCEL removes a waiting trigger. -/
  | forwardCancel (n b cue : Nat)
  /-- R459. A forwarded STANDBY value is applied on receipt. -/
  | forwardStandby (n v : Nat)
  /-- R204. A forwarded commit makes the understudy commit its own staged image at c. -/
  | forwardCommit (n b id crc : Nat)
  /-- R459. A forwarded plane-ready boundary marks the understudy's shadow ready there. -/
  | forwardPlaneReady (n b bat : Nat)
  /-- R459. A forwarded decimator SYNC clears the named groups at its instant. -/
  | forwardDsync (n mask t : Nat)
  /-- R459. A forwarded write to a select-reached register or MASK_COMMIT is applied to the entry it names. -/
  | forwardSelected (n b who addr sel : Nat) (v : Word)
  /-- R467. An ABDICATE message from the principal makes the understudy take over at T. -/
  | abdicate (n t cause : Nat)
  /-- R455. A HELLO is compared with the part's own and may raise STRAP_CLASH. -/
  | hello (n cfg primary rank version graphId : Nat)
  /-- R684. A joiner's REQUEST makes the source fix the hold boundary h and send START. -/
  | request (n : Nat)
  /-- R477. A START with h moves the joiner into COPY. -/
  | start (n h : Nat)
  /-- R478. A REGION of state captured in sample r is received for installation. -/
  | region (n r addr : Nat) (words : List Word)
  /-- R477. COPY_DONE with every REGION installed moves the joiner into WARM. -/
  | copyDone (n count : Nat)
  /-- R480. A JOINED message gives the join boundary j, which the source records. -/
  | joined (n j : Nat)
  /-- R477. A REFUSE from the source ends catch-up with FAILED. -/
  | refuse (n reason : Nat)
  /-- R304. A mirrored GO is accepted, merged with a held run, or discarded. -/
  | mirrorGo (n cue b : Nat)
  /-- R317. A tableau message over Islos triggers a tableau at its datum, or is late. -/
  | tableauMessage (n t : Nat)
  /-- R417. A MAILBOX message is delivered to the far end's management firmware. -/
  | mailbox (n : Nat) (body : List Byte)
  /-- R418. Every 1 ms an end sends a time frame with its departure time. -/
  | timeFrameSend (n t : Nat)
  /-- R272. A time frame is received and gives a path delay and offset. -/
  | timeFrameRx (n t : Nat) (dep ownDep ownArr : Int)
  /-- R273. A K28.3 marker is time-stamped and BOUNDARY_SKEW is published. -/
  | markerRx (n t residual b : Nat)
  /-- R420. A valid heartbeat latches the peer's role, health and index. -/
  | heartbeatRx (n lanes : Nat) (ok : Bool) (role ack idx health : Nat)
  /-- R420. No valid heartbeat arrives for HB_TIMEOUT intervals and HB_OK clears. -/
  | hbTimeoutExpiry (n : Nat)
  /-- R431. A network port's link comes up or goes down after synchronisation and negotiation. -/
  | netLinkChange (p : Nat) (sync up full : Bool) (speed : Nat)
  /-- R432. A received Ethernet frame is sorted to PTP, control datagrams, a listener, firmware or discard. -/
  | netFrameRx (p : Nat) (frame : List Byte)
  /-- R433. Management firmware sends a frame in traffic class TC_0. -/
  | mgmtFrameSend (p : Nat) (frame : List Byte)
  /-- R437. Command 0x01 on NET_0 reads a stream descriptor and adds a talker or listener context. -/
  | streamAdd (m : Master) (a0 a1 : Nat)
  /-- R437. Command 0x02 on NET_0 stops a stream context and returns its bandwidth. -/
  | streamRemove (m : Master) (a0 : Nat)
  /-- R438. After the done point of a packet's last sample, a talker sends one RTP packet. -/
  | talkerPacketSend (c k : Nat)
  /-- R440. A listener takes an RTP packet, merges the two paths and holds its samples for presentation. -/
  | listenerPacketRx (p : Nat) (frame : List Byte)
  /-- R444. A control datagram is checked for length, CRC, key, tag, sequence and time. -/
  | controlDatagramRx (p : Nat) (frame : List Byte)
  /-- R445. A datagram GO triggers a cue as source 0x3. -/
  | cdgGo
  /-- R445. A datagram GO_AT triggers a cue at a datum as source 0x4. -/
  | cdgGoAt
  /-- R445. A datagram WRITE makes a 32-bit management-core write. -/
  | cdgWrite
  /-- R445. A datagram READ reads a 32-bit register and returns it in the reply. -/
  | cdgRead
  /-- R445. A datagram MAILBOX is delivered to management firmware. -/
  | cdgMailbox
  /-- R452. A write of ROLE_CFG sets the configuration in BOOT or DARK. -/
  | roleCfgWrite (m : Master) (v : Nat)
  /-- R470. The start-up listening period ends and the part takes a role. -/
  | electionTimeout
  /-- R465. A W1C write of SD_PENDING withdraws an abdication or allows rejoining. -/
  | sdPendingClear (m : Master) (v : Nat)
  /-- R466. Command 0x01 on REDUNDANCY abdicates to an eligible understudy. -/
  | handover (m : Master)
  /-- R489. Command 0x02 on REDUNDANCY starts catch-up of an ISOLATED part. -/
  | join (m : Master)
  /-- R477. WARM elapses and catch-up enters MATCH. -/
  | catchWarmEnd
  /-- R477. 60 s of MATCH pass without MATCH_RUN agreements and catch-up fails. -/
  | catchMatchTimeout
  /-- R493. A write of LOAN offers banks for loan, or recalls banks whose bit is cleared. -/
  | loanWrite (m : Master) (i v : Nat)
  /-- R509. A write of REH_CFG enables activities; clearing MARCH_EN recalls every bank on loan. -/
  | rehCfgWrite (m : Master) (v : Nat)
  /-- R493. An offered bank idle for RECALL_HOLD is borrowed for March testing. -/
  | bankBorrow (b t : Nat)
  /-- R494. The March test of one block completes and the block is restored, or a mismatch is judged. -/
  | marchBlockDone (b : Nat) (bad : Bool)
  /-- R495. An owner's access reaches a bank on loan and the loan is recalled. -/
  | bankRecall (b : Nat)
  /-- R495. The recall finishes its element and restore, and the stalled access proceeds. -/
  | recallComplete (b t : Nat)
  /-- R498. The scrub reads a word in a free slot and corrects it. -/
  | scrubRead (mem addr page : Nat) (upset : List Nat) (words : Nat)
  /-- R498. A SCRUB_PERIOD ends with the pass incomplete and SCRUB_BEHIND is raised. -/
  | scrubPeriodEnd
  /-- R500. A self-test segment finishes and its signature is compared. -/
  | selftestSegmentDone (k g : Nat) (ok : Bool)
  /-- R507. Every 10 ms of datum the health report is latched and optionally written. -/
  | healthReport (n : Nat)
  /-- R507. The report write ends, with REPORT_WR_FAIL on an error. -/
  | reportWriteComplete (ext : Bool)
  /-- R510. Command 0x01 on REHEARSAL clears the fail maps and the POOL FAULT. -/
  | clearFail (m : Master)
  /-- R521. A write of an owner register starts a handover of each changed bank port, or is refused. -/
  | ownerWrite (m : Master) (off v : Nat)
  /-- R520. The old owner's drain ends and the new owner takes the bank port. -/
  | handoverComplete (bank : Nat) (portB : Bool)
  /-- R533. A write of ECC_INJECT arms an error injection into the next pool write. -/
  | eccInjectWrite (m : Master) (v : Nat)
  /-- R529. A read of ECC_LAST_HI releases the error latch. -/
  | eccLastHiRead (m : Master)
  /-- R544. A write of 1 to GRID_LOCK holds every class to its windows and freezes BT fields. -/
  | gridLockSet (m : Master)
  /-- R540. A transaction has no response for TIMEOUT and completes with FAULT. -/
  | gridTimeout (m : Master) (id : Nat)
  /-- R551. A master resets with transactions outstanding and they retire with ABORTED. -/
  | masterReset (m : Master)
  /-- R552. A read of LAST_ERR_LO latches both error words. -/
  | lastErrLoRead (m : Master)
  /-- R550. The management core reads fuse words over the Catwalk. -/
  | fuseRead (first n : Nat)
  /-- R653. Boot code passes a wrapped key to the key store, which unwraps and stores it. -/
  | keyStoreWrite (slot : Nat) (wrapped : List Byte)
  /-- R636. The management core commands VCORE directly over the Catwalk in BOOT or SERVICE. -/
  | levelDirectCommand (code : Nat)
  /-- R560. A write of CTRL.SOFT_RESET makes the block's soft reset. -/
  | softReset (m : Master) (p : Nat)
  /-- R573. A write of 1 to an EVENT_FORCE bit sets the EVENT bit. -/
  | eventForceWrite (m : Master) (p v : Nat)
  /-- R570. A write of RING_TAIL releases records and lets waiting records enter the ring. -/
  | ringTailWrite (m : Master) (v : Nat)
  /-- R579. A PCI Express configuration request is retried before GRID_LOCK and served after it. -/
  | pcieConfigRequest (cfg : Option (Bool × Bool × Bool))
  /-- R580. A host request to BAR0 or BAR2 is decided by a HOST window and answered. -/
  | pcieInboundRequest (bar0 : Bool) (id a : Nat) (wr : Option (List (Byte × Bool))) (len : Nat)
  /-- R597. The PCI Express link reaches L0. -/
  | pcieLinkUp (speed width : Nat)
  /-- R583. The PCI Express link goes down and the HOST master resets. -/
  | pcieLinkDown
  /-- R586. SYS command 0x01 copies CAL_FACTORY into CAL_USER. -/
  | restoreFactory (m : Master) (a0 : Nat)
  /-- R588. SYS command 0x02 verifies a firmware image and writes it into the other flash slot. -/
  | fwLoad (m : Master) (a0 a1 a2 : Nat)
  /-- R589. SYS command 0x03 hot-restarts the management core into the other slot. -/
  | fwRestart (m : Master) (a0 : Nat)
  /-- R589. A write of FW_CTRL.READY ends the hot restart. -/
  | fwReady (m : Master)
  /-- R590. READY is not written within 1 s and the engine falls back to the old slot. -/
  | fwRestartTimeout
  /-- R587. SYS command 0x04 writes every CAL_USER area to flash. -/
  | calSaveUser (m : Master)
  /-- R587. SYS command 0x05 writes every CAL_FACTORY area to flash in SERVICE. -/
  | calSaveFactory (m : Master)
  /-- R609. The sealed core starts, checks its firmware CRC and writes a START entry. -/
  | benchCoreStart (crc : Nat)
  /-- R607. A 100 ms measuring period ends and the core sends a record. -/
  | benchPeriodEnd (lv : List (Nat × Nat × Nat × Nat)) (overload fault : Nat) (sealLow : Bool)
  /-- R609. An RTC minute ends and the core writes a MINUTE log entry. -/
  | benchMinuteEnd (laeq : List Nat)
  /-- R600. The hourly firmware CRC is computed and INTEGRITY is set on a mismatch. -/
  | benchIntegrityCheck (crc : Nat)
  /-- R608. A record arrives at BENCH_MAILBOX and is checked and latched. -/
  | benchRecord (t : Nat) (err : List Nat)
  /-- R608. No record is accepted for 300 ms and LIVE clears. -/
  | benchSilent
  /-- R608. A read of REC_0 latches the rest of the record and the arrival set. -/
  | rec0Read (m : Master)
  /-- R611. Command 0x01 on BENCH_MAILBOX copies log entries into LOG_BUF. -/
  | readLog (m : Master) (a0 a1 : Nat)
  /-- R611. Command 0x02 on BENCH_MAILBOX fills ID_BUF with the core's identity. -/
  | readId (m : Master)
  /-- R614. Command 0x03 draws a fresh nonce for calibration entry. -/
  | calChallenge (m : Master)
  /-- R615. Command 0x04 checks the tag, increments the seal counter and enters calibration. -/
  | calEnter (m : Master)
  /-- R617. Command 0x05 starts a 10 s calibrator measurement of a channel. -/
  | calMeasure (m : Master) (a0 : Nat)
  /-- R617. The 10 s measurement ends and sets the pending FS_SPL or fails. -/
  | calMeasureComplete (level : Int) (tone : Bool)
  /-- R616. Command 0x06 sets pending channel settings and INT_LEN. -/
  | calSettings (m : Master) (a0 a1 a2 : Nat)
  /-- R616. Command 0x07 sets the pending RTC. -/
  | calSetRtc (m : Master) (a0 : Nat)
  /-- R618. Command 0x08 writes the pending values to flash with a CAL entry. -/
  | calCommit (m : Master)
  /-- R616. Command 0x09 leaves calibration and discards the pending copy. -/
  | calExit (m : Master)
  /-- R618. SEAL_N high, 30 minutes or a lost path makes the core leave calibration. -/
  | calAutoExit (sealN : Bool)
  /-- R614. A calibration nonce expires after 60 s. -/
  | nonceExpiry
  /-- R614. The 10-minute lockout after three failed entries ends. -/
  | calLockoutEnd
  /-- R612. The line ID on METRO_RX is answered with the identity. -/
  | uartId
  /-- R612. The line NOW is answered with the RTC time and present levels. -/
  | uartNow
  /-- R612. The line LOG s n is answered with n log entries. -/
  | uartLog (i n : Nat)
  /-- R612. Any other line is answered with ERR. -/
  | uartErr
  /-- R622. A write of GOV_CTRL enables the governor; clearing EN ramps ATT back to zero. -/
  | govCtrlWrite (m : Master) (v : Nat)
  /-- R629. VIN rises through the under-voltage threshold and the supervisor makes a power-on. -/
  | vinRise
  /-- R629. VIN falls through the under-voltage threshold; the Stage die is reset and the part enters WATCH. -/
  | vinFall
  /-- R629. VIN rises through the over-voltage shutdown and the rails are sequenced down. -/
  | vinOvervoltage
  /-- R629. VIN falls below the keep-alive threshold and PD0 and PD1 stop. -/
  | keepAliveLoss
  /-- R633. A rail's PG rises and the power-on sequence goes on, releasing the reset after PG_5. -/
  | pgRise (i : Nat)
  /-- R634. A PG does not rise within 10 ms of its EN, which is a rail fault. -/
  | pgTimeout (i : Nat)
  /-- R634. A PG falls for 2 µs after rising, which is a rail fault. -/
  | pgDrop (i : Nat)
  /-- R630. A V_AUX load above 250 mA for 1 ms is a rail fault. -/
  | vauxOverload
  /-- R637. The junction reaches 125 °C and is treated as a rail fault. -/
  | thermalShutdown
  /-- R634. 1 s, or 10 s after a thermal fault, the supervisor tries a new power-on. -/
  | railRetry
  /-- R631. The RTC reaches WAKE_AT in OFF or WATCH and the supervisor makes a power-on. -/
  | rtcWake
  /-- R645. RESET_N is held low, which resets the Stage die or wakes the part. -/
  | resetNAssert
  /-- R645. RESET_N returns high and the Stage-die reset is released. -/
  | resetNRelease
  /-- R651. At reset release the straps are sampled and the boot ROM verifies and starts an image. -/
  | bootRomStart (primary : Bool) (cfg bootsel : Nat) (answered : Bool) (version : Nat)
  /-- R637. Every 1 ms the junction temperature is read and HOT updated. -/
  | tempSample (t : Int)
  /-- R656. Every 1 ms VIN is measured and VIN_LOW updated. -/
  | vinMeasure (mv : Nat)
  /-- R639. A write of PD_CTRL switches domains on or off, or sets PD8 retention. -/
  | pdCtrlWrite (m : Master) (v : Nat)
  /-- R639. A waking power domain reaches full operation and PD_ON is raised. -/
  | domainOn (d : Nat)
  /-- R642. Command 0x01 on POWER changes the mode at c under the transitions of R643. -/
  | setMode (m : Master) (a0 : Nat)
  /-- R647. A write of 0xA5C3 to WDOG_KICK restarts the watchdog count. -/
  | wdogKick (m : Master) (v : Nat)
  /-- R647. The watchdog count reaches TIMEOUT and a watchdog reset follows. -/
  | watchdogTimeout
  /-- R422. A quiet Islos transmitter at electrical idle requests its exit early enough for the first symbol of its next scheduled send to leave on time. -/
  | idleExitRequest (n : Nat)
  /-- R635. During a power-down sequence a rail's PG falls and the next EN in reverse order is driven low. -/
  | powerDownPgFall (i : Nat)
  /-- R633. The 1 ms sequencing delay after a PG rise, or after an EN fall in power-down, expires and the supervisor moves the next EN or releases the reset. -/
  | railSequenceDelay
  /-- R629. After an over-voltage shutdown VIN falls below 60.0 V, which allows the supervisor to make a power-on again. -/
  | overVoltageRecovery
  /-- R437. The SGMII in-band word changes the link speed while the link stays up; NET_STAT.SPEED follows it, and talkers are shed with BW_SHED or resumed. -/
  | sgmiiSpeedChange (p speed : Nat)
deriving DecidableEq, Repr

end Sys2Proof
end

