-- ==== Sys2Proof/Decode.lean ====
section
/-!
DEFINITION. The decoder of command words. The command table of the spec gives no row any bits: a command reaches the block on a
pin, a bus or a clock and not as a word, so that no word spells one.
-/
namespace Sys2Proof

/-- The command that the word `w` of `nbits` bits spells under the table's bits: the table gives none. -/
def decodeTableWord (_nbits _w : Nat) : Option Instr := none

end Sys2Proof
end

