-- ==== Sys2Proof/Machine/Bits.lean ====
section
/-!
DEFINITION. Bit fields, signed readings and byte order, stated once over Nat and Int (R5, R6).
-/
namespace Sys2Proof.Machine

/-- Bits `[hi:lo]` of `n`. -/
def bits (n hi lo : Nat) : Nat := n / 2 ^ lo % 2 ^ (hi + 1 - lo)

/-- Bit `i` of `n`. -/
def bit (n i : Nat) : Bool := n / 2 ^ i % 2 == 1

/-- `n` with bits `[hi:lo]` replaced by `v`, taken modulo the field's width. -/
def setBits (n hi lo v : Nat) : Nat :=
  n - bits n hi lo * 2 ^ lo + v % 2 ^ (hi + 1 - lo) * 2 ^ lo

/-- `n` with bit `i` set to `b`. -/
def setBit (n i : Nat) (b : Bool) : Nat := setBits n i i (if b then 1 else 0)

/-- The two's-complement reading of the low `w` bits of `n`. -/
def sext (w n : Nat) : Int :=
  let m := n % 2 ^ w
  if m < 2 ^ (w - 1) then m else (m : Int) - 2 ^ w

/-- The low `w` bits of the two's-complement image of `z`. -/
def toBits (w : Nat) (z : Int) : Nat := (z % (2 ^ w : Int)).toNat

/-- `z` held within `lo` and `hi`. -/
def clampI (lo hi z : Int) : Int := if z < lo then lo else if hi < z then hi else z

/-- Saturation to the signed `w`-bit range. -/
def satI (w : Nat) (z : Int) : Int := clampI (-(2 ^ (w - 1) : Int)) (2 ^ (w - 1) - 1) z

/-- Division truncated toward zero. -/
def divZ (a b : Int) : Int := Int.tdiv a b

/-- `round(a / b)` with a half rounded toward minus infinity (R32, R33); `b > 0`. -/
def roundHalfDown (a b : Int) : Int := -(Int.fdiv (-2 * a + b) (2 * b))

/-- `round(a / b)` with a half rounded to even (R70, R132); `b > 0`. -/
def roundHalfEven (a b : Int) : Int :=
  let q := Int.fdiv a b
  let r := a - q * b
  if 2 * r < b then q else if 2 * r > b then q + 1 else if q % 2 = 0 then q else q + 1

/-- `round(a / b)` with a half rounded away from zero; `b > 0`. -/
def roundHalfUp (a b : Int) : Int := Int.fdiv (2 * a + b) (2 * b)

/-- The least integer not below `a / b`; `b > 0`. -/
def ceilDiv (a b : Int) : Int := -(Int.fdiv (-a) b)

/-- The `k` bytes of `n`, least significant first (R6). -/
def leBytes : Nat → Nat → List Byte
  | 0, _ => []
  | k + 1, n => BitVec.ofNat 8 n :: leBytes k (n / 256)

/-- The number whose bytes, least significant first, are `l` (R6). -/
def ofLeBytes : List Byte → Nat
  | [] => 0
  | b :: t => b.toNat + 256 * ofLeBytes t

/-- The number whose bytes, most significant first, are `l`. -/
def ofBeBytes (l : List Byte) : Nat := l.foldl (fun a b => a * 256 + b.toNat) 0

/-- The `k` bytes of `n`, most significant first. -/
def beBytes (k n : Nat) : List Byte := (leBytes k n).reverse

/-- A counter that stops at `top`. -/
def satInc (top n : Nat) : Nat := if n < top then n + 1 else n

/-- `l` with element `i` replaced by `v`; unchanged when there is no element `i`. -/
def setAt {α : Type} (l : List α) (i : Nat) (v : α) : List α := l.set i v

/-- The indices from 0 to `n - 1`, ascending. -/
def upTo (n : Nat) : List Nat := List.range n

/-- The number of one bits of `n` below position `w`. -/
def popCount (w n : Nat) : Nat := ((upTo w).filter (bit n)).length

end Sys2Proof.Machine
end

