-- ==== Sys2Proof/Machine/Aes.lean ====
section
/-!
DEFINITION. AES-256 decryption and the AES Key Unwrap of RFC 3394, by which the key store takes its keys (R653).
-/
namespace Sys2Proof.Machine

/-- A field element doubled in GF(2^8). -/
def gfDouble (a : Nat) : Nat := if 128 ≤ a then Nat.xor (a * 2 % 256) 0x1B else a * 2

/-- A product in GF(2^8), over the `n` bits of the second factor that are left. -/
def gfMulBits : Nat → Nat → Nat → Nat
  | 0, _, _ => 0
  | n + 1, a, b => Nat.xor (if b % 2 = 1 then a else 0) (gfMulBits n (gfDouble a) (b / 2))

def gfMul (a b : Nat) : Nat := gfMulBits 8 a b

/-- The inverse in GF(2^8), 0 for 0: the 254th power. -/
def gfInv (a : Nat) : Nat :=
  let a2 := gfMul a a
  let a3 := gfMul a2 a
  let a6 := gfMul a3 a3
  let a12 := gfMul a6 a6
  let a15 := gfMul a12 a3
  let a30 := gfMul a15 a15
  let a60 := gfMul a30 a30
  let a120 := gfMul a60 a60
  let a126 := gfMul a120 a6
  let a127 := gfMul a126 a
  gfMul a127 a127

def rotByte (a k : Nat) : Nat := (a * 2 ^ k) % 256 + a / 2 ^ (8 - k)

/-- The S-box of AES and its inverse. -/
def aesSub (a : Nat) : Nat :=
  let b := gfInv a
  [b, rotByte b 1, rotByte b 2, rotByte b 3, rotByte b 4].foldl Nat.xor 0x63
def aesUnsub (a : Nat) : Nat := gfInv ([rotByte a 1, rotByte a 3, rotByte a 6].foldl Nat.xor 0x05)

def xorBytes : List Nat → List Nat → List Nat := List.zipWith Nat.xor

/-- The key schedule of AES-256: `i` more words, from word `60 - i` on; the words so far are held newest first. -/
def aesExtend : Nat → Nat → List (List Nat) → List (List Nat)
  | 0, _, w => w
  | i + 1, rcon, w =>
    let j := 60 - (i + 1)
    let p := w.headD []
    let t := if j % 8 = 0 then xorBytes ((p.drop 1 ++ p.take 1).map aesSub) [rcon, 0, 0, 0]
             else if j % 8 = 4 then p.map aesSub else p
    aesExtend i (if j % 8 = 0 then gfDouble rcon else rcon) (xorBytes (w.getD 7 []) t :: w)

/-- The 15 round keys of 16 bytes, in order. -/
def aesKeys (key : List Nat) : List (List Nat) :=
  let w := (aesExtend 52 1 ((upTo 8).map (fun i => (key.drop (4 * i)).take 4)).reverse).reverse
  (upTo 15).map fun r => ((w.drop (4 * r)).take 4).flatten

def unshiftRows (s : List Nat) : List Nat := (upTo 16).map fun i => s.getD ((i + 16 - 4 * (i % 4)) % 16) 0

/-- One column of the inverse MixColumns. -/
def unmixCol (c : List Nat) : List Nat :=
  (upTo 4).map fun r => ((upTo 4).map fun j => gfMul (c.getD j 0) ([14, 11, 13, 9].getD ((j + 4 - r) % 4) 0)).foldl Nat.xor 0

def unmix (s : List Nat) : List Nat := (upTo 4).flatMap fun c => unmixCol ((s.drop (4 * c)).take 4)

/-- A block of 16 bytes decrypted. -/
def aesDecrypt (key s : List Nat) : List Nat :=
  match (aesKeys key).reverse with
  | [] => s
  | k14 :: ks =>
    let r := (ks.take 13).foldl (fun s k => unmix (xorBytes ((unshiftRows s).map aesUnsub) k)) (xorBytes s k14)
    xorBytes ((unshiftRows r).map aesUnsub) ((ks.drop 13).headD [])

/-- The unwrapping steps of RFC 3394, `t` counting down: the register A and the registers R of 8 bytes each. -/
def unwrapSteps (kek : List Nat) : Nat → List Nat × List (List Nat) → List Nat × List (List Nat)
  | 0, x => x
  | t + 1, (a, r) =>
    let n := r.length
    let i := t % n
    let b := aesDecrypt kek (xorBytes a ((beBytes 8 (t + 1)).map (·.toNat)) ++ r.getD i [])
    unwrapSteps kek t (b.take 8, setAt r i (b.drop 8))

/-- A 256-bit key unwrapped from its 40 bytes; none where the integrity check fails (R653). -/
def keyUnwrap (kek wrapped : List Byte) : Option (List Byte) :=
  let w := wrapped.map (·.toNat)
  let (a, r) := unwrapSteps (kek.map (·.toNat)) 24 (w.take 8, (upTo 4).map fun i => (w.drop (8 + 8 * i)).take 8)
  if a = List.replicate 8 0xA6 then some (r.flatten.map (BitVec.ofNat 8 ·)) else none

end Sys2Proof.Machine
end

