-- ==== Sys2Proof/Config.lean ====
section
/-!
DEFINITION. The free values: what the spec leaves open, as constants without a body, so that no proof can use a value of them.
Each is applied to a draw of the model's own counter (Stage.fresh) or to the operands it depends on.
-/
namespace Sys2Proof

/-- Which of the free ramp slots a starting ramp takes (R152 says "a free slot"). -/
opaque Config.rampSlot : Nat → Nat

/-- Step j of N of a DB ramp between two zero gains, for which the spec gives no sign (R155). -/
opaque Config.dbSilent : Nat → Nat → Int

/-- The value of a tone generator (R228): mode, frequency, attenuation, engine-rate code, samples since its restart. -/
opaque Config.tone : Nat → Nat → Nat → Nat → Nat → BitVec 32

/-- A converted sample of a bridge (R236, R239), per draw. -/
opaque Config.bridgeSample : Nat → BitVec 32

/-- Whether the multiplier of an interpolator stage of length `l`, held to 24 fraction bits, is rounded up (R231). -/
opaque Config.mulUp : Nat → Bool

/-- The residual a sample-block marker carries, in 1/16 ns (R419), per draw. -/
opaque Config.markerResidual : Nat → Nat

/-- Which of the free contexts STREAM_ADD takes (R437), per draw. -/
opaque Config.streamContext : Nat → Nat

/-- The reduction a governor adopts from a gain of the sign opposite to REF (R622), per draw. -/
opaque Config.govAtt : Nat → Nat

/-- Byte `i` of the sealed core's identity string (R611). -/
opaque Config.identity : Nat → BitVec 8

/-- The nonce of a challenge (R614), per draw. -/
opaque Config.nonce : Nat → BitVec 64

/-- Byte `i` of the seal key (R614). -/
opaque Config.sealKey : Nat → BitVec 8

/-- Whether a flash write reads back (R587, R588, R618), per draw. -/
opaque Config.flashOk : Nat → Bool

/-- Byte `i` of a flash region whose write or read-back failed (R587, R588), per draw. -/
opaque Config.flashByte : Nat → Nat → BitVec 8

/-- The version of the firmware that a hot restart has started (R558, R589), per draw. -/
opaque Config.fwVersion : Nat → Nat

/-- Byte `i` of the key hash in fuses (R650). -/
opaque Config.keyHash : Nat → BitVec 8

/-- Byte `i` of the key-encryption key in fuses (R653). -/
opaque Config.kek : Nat → BitVec 8

/-- The least security version, held in fuses (R650). -/
opaque Config.minSvn : Nat

/-- The MAC address of NET_n, held in fuses (R446, R550). -/
opaque Config.mac : Nat → BitVec 48

/-- Fuse word `i` as the Catwalk reads it (R550). -/
opaque Config.fuseWord : Nat → BitVec 32

/-- The value of a split vote where every part that is present reports a self-diagnosis fault (R482): sample and channel. -/
opaque Config.voteTie : Nat → Nat → BitVec 32

/-- The part is an L2048-E (R558). -/
opaque Config.partE : Bool

/-- An accumulator (0 to 7 a lane, 8 the spare) of a batten that is at work, and the words it has read so far, at a capture (R312, R313): per
draw and batten. -/
opaque Config.laneAcc : Nat → Nat → Nat → Int
opaque Config.laneWords : Nat → Nat → Nat

end Sys2Proof
end

