-- ==== Sys2Proof/Machine/Mathx.lean ====
section
/-!
DEFINITION. The exact real functions the spec rounds (R142, R155, R205, R683), by integer arithmetic with 256 fraction bits:
cosine, base-2 logarithm and power. The error stays far below the distance of any argument used from a rounding boundary.
-/
namespace Sys2Proof.Machine

/-- floor(π × 2^256). -/
def piFix : Int := 363771576891766324280234942777729862653393377328392429958772151117938894466185

/-- floor(ln 2 × 2^256). -/
def ln2Fix : Int := 80260960185991308862233904206310070533990667611589946606122867505419956976171

/-- The scale 2^256. -/
def fixOne : Int := 2 ^ 256

/-- The product of two scaled values. -/
def fixMul (a b : Int) : Int := Int.fdiv (a * b) fixOne

/-- The sum of the terms of a power series: `k` terms left, `i` the index of the present term `t`, `step` giving the next. -/
def series (step : Nat → Int → Int) : Nat → Nat → Int → Int
  | 0, _, _ => 0
  | k + 1, i, t => t + series step k (i + 1) (step i t)

/-- cos x for a scaled x from 0 to π. -/
def cosFix (x : Int) : Int :=
  let x2 := fixMul x x
  series (fun i t => -(Int.fdiv (fixMul t x2) ((2 * i + 1 : Int) * (2 * i + 2)))) 70 0 fixOne

/-- e^x for a scaled x from 0 to 1. -/
def expFix (x : Int) : Int := series (fun i t => Int.fdiv (fixMul t x) ((i : Int) + 1)) 70 0 fixOne

/-- cos(π × a / b), scaled. -/
def cosPi (a b : Nat) : Int := cosFix (Int.fdiv (piFix * a) b)

/-- The raised-cosine factor with 32 fraction bits (R683): an up half from 0 to 1, a down half from 1 to 0. -/
def raisedCos (up : Bool) (j n : Nat) : Int :=
  if j = 0 then (if up then 0 else 2 ^ 32)
  else if n ≤ j then (if up then 2 ^ 32 else 0)
  else
    let c := cosPi j n
    roundHalfEven (if up then fixOne - c else fixOne + c) (2 ^ 225)

/-- round(32768 × sin(π × i / 2046)) (R142). -/
def sinCurve (i : Nat) : Int := roundHalfEven (32768 * cosPi (1023 - i) 2046) fixOne

/-- Fraction bits of log2 of `x / 2^256`, for x from 2^256 to 2^257, most significant first, as a number of `k` bits. -/
def logBits : Nat → Nat → Nat → Nat
  | 0, _, acc => acc
  | k + 1, x, acc =>
    let y := x * x / 2 ^ 256
    if 2 ^ 257 ≤ y then logBits k (y / 2) (2 * acc + 1) else logBits k y (2 * acc)

/-- round(2^24 × log2 m) for m > 0 (R155). -/
def log24 (m : Nat) : Int :=
  let k := Nat.log2 m
  if m = 2 ^ k then (k : Int) * 2 ^ 24
  else roundHalfEven ((k : Int) * 2 ^ 120 + logBits 120 (m * 2 ^ 256 / 2 ^ k) 0) (2 ^ 96)

/-- round(2^(l / 2^24)) for l ≥ 0 (R155). -/
def pow24 (l : Nat) : Int :=
  let i : Nat := l / 2 ^ 24
  let f : Nat := l % 2 ^ 24
  if f = 0 then 2 ^ i
  else roundHalfEven (expFix (Int.fdiv (ln2Fix * f) (2 ^ 24)) * 2 ^ i) fixOne

/-- THR = round(2^31 × 10^(−level ÷ 20)) (R205): the largest m with (2m − 1)^20 × 10^level not above 2^640. -/
def silenceThr (level : Nat) : Nat :=
  ((upTo 24).reverse).foldl (fun m b =>
    let c := m + 2 ^ b
    if (2 * c - 1) ^ 20 * 10 ^ level ≤ 2 ^ 640 then c else m) 0

end Sys2Proof.Machine
end

