-- ==== Sys2Proof/Machine/Regs.lean ====
section
/-!
DEFINITION. The register pages of R548 and, page by page, the registers the chapters name: reset value, writable bits,
access code and the legal ranges of single fields. The rows follow the register tables of spec/ (R25, R53, R101, R105,
R166, R209, R242, R246, R281, R287, R318, R322, R353, R376, R398, R424, R448, R486, R508, R530, R552, R591, R595, R623, R656, R660).
-/
namespace Sys2Proof.Machine

/-- The kinds of register page (R548). -/
inductive PageKind where
  | sys | grid | pool | sp | bat | port | decim | bridge | net | lanes | link | datum | prompt | tableau
  | redundancy | rehearsal | bench | power | level | patch | graph | host
deriving DecidableEq, Repr

/-- One register of a page: `rst` its reset word, `rw` the bits a write sets, `w1c` the bits a 1 clears, `wo` the bits that
only trigger, `prot` 0 none, 1 EX, 2 SV, 3 BT (R7), `bnd` whether a write is boundary-applied (R20), and `rng` the legal
range of single fields as (high bit, low bit, least, greatest) (R563). -/
structure RegDef where
  off : Nat
  rst : Nat
  rw : Nat := 0
  w1c : Nat := 0
  wo : Nat := 0
  prot : Nat := 0
  bnd : Bool := false
  rng : List (Nat × Nat × Nat × Nat) := []
deriving DecidableEq, Repr

/-- The page table: the kind and the instance of page index `p`, or none where R548 lists no page. -/
def pageOf (p : Nat) : Option (PageKind × Nat) :=
  if p = 0x000 then some (.sys, 0) else if p = 0x001 then some (.grid, 0) else if p = 0x002 then some (.pool, 0)
  else if 0x100 ≤ p ∧ p ≤ 0x13F then some (.sp, p - 0x100)
  else if 0x140 ≤ p ∧ p ≤ 0x17F then some (.bat, p - 0x140)
  else if 0x200 ≤ p ∧ p ≤ 0x21F then some (.port, p - 0x200)
  else if p = 0x220 then some (.decim, 0)
  else if 0x228 ≤ p ∧ p ≤ 0x22F then some (.bridge, p - 0x228)
  else if 0x240 ≤ p ∧ p ≤ 0x247 then some (.net, p - 0x240)
  else if p = 0x260 then some (.lanes, 0)
  else if 0x270 ≤ p ∧ p ≤ 0x273 then some (.link, p - 0x270)
  else if p = 0x280 then some (.datum, 0) else if p = 0x290 then some (.prompt, 0)
  else if p = 0x291 then some (.tableau, 0) else if p = 0x2A0 then some (.redundancy, 0)
  else if p = 0x2B0 then some (.rehearsal, 0) else if p = 0x2C0 then some (.bench, 0)
  else if p = 0x2D0 then some (.power, 0) else if p = 0x2D1 then some (.level, 0)
  else if p = 0x2E0 then some (.patch, 0) else if p = 0x2F0 then some (.graph, 0)
  else if p = 0x300 then some (.host, 0) else none

/-- Every page index of R548, ascending. -/
def allPages : List Nat :=
  [0, 1, 2] ++ (upTo 64).map (0x100 + ·) ++ (upTo 64).map (0x140 + ·) ++ (upTo 32).map (0x200 + ·) ++ [0x220]
    ++ (upTo 8).map (0x228 + ·) ++ (upTo 8).map (0x240 + ·) ++ [0x260] ++ (upTo 4).map (0x270 + ·)
    ++ [0x280, 0x290, 0x291, 0x2A0, 0x2B0, 0x2C0, 0x2D0, 0x2D1, 0x2E0, 0x2F0, 0x300]

/-- The page index of instance `i` of a kind (R548). -/
def PageKind.page (k : PageKind) (i : Nat) : Nat :=
  match k with
  | .sys => 0 | .grid => 1 | .pool => 2 | .sp => 0x100 + i | .bat => 0x140 + i | .port => 0x200 + i | .decim => 0x220
  | .bridge => 0x228 + i | .net => 0x240 + i | .lanes => 0x260 | .link => 0x270 + i | .datum => 0x280 | .prompt => 0x290
  | .tableau => 0x291 | .redundancy => 0x2A0 | .rehearsal => 0x2B0 | .bench => 0x2C0 | .power => 0x2D0 | .level => 0x2D1
  | .patch => 0x2E0 | .graph => 0x2F0 | .host => 0x300

/-- The TYPE code of ID (R557). -/
def PageKind.typeCode : PageKind → Nat
  | .sys => 0x01 | .grid => 0x02 | .pool => 0x03 | .sp => 0x10 | .bat => 0x11 | .port => 0x20 | .decim => 0x21
  | .bridge => 0x22 | .net => 0x24 | .lanes => 0x26 | .link => 0x27 | .datum => 0x28 | .prompt => 0x29 | .tableau => 0x2A
  | .redundancy => 0x2B | .rehearsal => 0x2C | .bench => 0x2D | .power => 0x2E | .level => 0x2F | .patch => 0x30
  | .graph => 0x31 | .host => 0x32

/-- Registers of SYS (R25, R591, R660). -/
def sysDefs : List RegDef :=
  [ /- SAMPLE_INDEX_LO -/ { off := 0x080, rst := 0x0 }
  , /- SAMPLE_INDEX_HI -/ { off := 0x084, rst := 0x0 }
  , /- ENGINE_RATE -/ { off := 0x088, rst := 0x1, rw := 0x7, rng := [(2, 0, 0, 5)] }
  , /- APPLY_DELAY_NOW -/ { off := 0x08C, rst := 0x1 }
  , /- TAG_HOST_LO -/ { off := 0x090, rst := 0x0, rw := 0xFFFFFFFF }
  , /- TAG_HOST_HI -/ { off := 0x094, rst := 0x0, rw := 0xFFFFFFFF }
  , /- TAG_HOST_CTRL -/ { off := 0x098, rst := 0x0, rw := 0x3 }
  , /- TAG_MGMT_LO -/ { off := 0x0A0, rst := 0x0, rw := 0xFFFFFFFF }
  , /- TAG_MGMT_HI -/ { off := 0x0A4, rst := 0x0, rw := 0xFFFFFFFF }
  , /- TAG_MGMT_CTRL -/ { off := 0x0A8, rst := 0x0, rw := 0x3 }
  , /- TAG_LATE_COUNT -/ { off := 0x0B0, rst := 0x0 }
  , /- EXCH_DOUBLE_COUNT -/ { off := 0x0B4, rst := 0x0 }
  , /- WRITES_PENDING -/ { off := 0x0B8, rst := 0x0 }
  , /- RING_HEAD -/ { off := 0x0C0, rst := 0x0 }
  , /- RING_TAIL -/ { off := 0x0C4, rst := 0x0, rw := 0x7FF }
  , /- RING_COUNT -/ { off := 0x0C8, rst := 0x0 }
  , /- RING_CFG -/ { off := 0x0CC, rst := 0x20000000, rw := 0xE000001F }
  , /- BAD_COUNT -/ { off := 0x0D0, rst := 0x0 }
  , /- BAD_INFO -/ { off := 0x0D4, rst := 0x0 }
  , /- FW_STAT -/ { off := 0x0D8, rst := 0x0 }
  , /- FW_CTRL -/ { off := 0x0DC, rst := 0x0, wo := 0x1 }
  , /- SYS_MODE -/ { off := 0x0E0, rst := 0x2 }
  , /- MODE_SINCE_LO -/ { off := 0x0E4, rst := 0x0 }
  , /- MODE_SINCE_HI -/ { off := 0x0E8, rst := 0x0 } ]

/-- Registers of LEVEL (R53). -/
def levelDefs : List RegDef :=
  [ /- LVL_CFG -/ { off := 0x080, rst := 0x100, rw := 0x101 }
  , /- SLACK_TARGET -/ { off := 0x084, rst := 0x1E00C8, rw := 0x3FF03FF, rng := [(25, 16, 10, 100), (9, 0, 100, 500)] }
  , /- VCORE_LIMITS -/ { off := 0x088, rst := 0x600000, rw := 0x7F007F, rng := [(22, 16, 0, 96), (6, 0, 0, 96)] }
  , /- VCORE_START -/ { off := 0x08C, rst := 0x48, rw := 0x7F, rng := [(6, 0, 0, 96)] }
  , /- VCORE_NOW -/ { off := 0x090, rst := 0x48 }
  , /- SLACK_MIN -/ { off := 0x094, rst := 0x0 }
  , /- SLACK_MIN_SRC -/ { off := 0x098, rst := 0x0 }
  , /- SLACK_WIN_MIN -/ { off := 0x09C, rst := 0x0 }
  , /- LATE_TOTAL -/ { off := 0x0A0, rst := 0x0 }
  , /- EMERG_COUNT -/ { off := 0x0A4, rst := 0x0 }
  , /- EMERG_SETTLE -/ { off := 0x0A8, rst := 0x64, rw := 0x3FF, rng := [(9, 0, 20, 1000)] }
  , /- LVL_BUS_CFG -/ { off := 0x0AC, rst := 0x2, rw := 0xF03, rng := [(11, 8, 0, 14)] }
  , /- VCORE_READ -/ { off := 0x0B0, rst := 0x0 }
  , /- IOUT_READ -/ { off := 0x0B4, rst := 0x0 }
  , /- REG_STATUS -/ { off := 0x0B8, rst := 0x0 }
  , /- LATE_MAP_SP_LO -/ { off := 0x0C0, rst := 0x0, w1c := 0xFFFFFFFF }
  , /- LATE_MAP_SP_HI -/ { off := 0x0C4, rst := 0x0, w1c := 0xFFFFFFFF }
  , /- LATE_MAP_BAT_LO -/ { off := 0x0C8, rst := 0x0, w1c := 0xFFFFFFFF }
  , /- LATE_MAP_BAT_HI -/ { off := 0x0CC, rst := 0x0, w1c := 0xFFFFFFFF } ]

/-- Registers of SP_n (R101, R105). -/
def spDefs : List RegDef :=
  [ /- BANK_CTRL -/ { off := 0x080, rst := 0x0, wo := 0x10000 }
  , /- ENTRY -/ { off := 0x084, rst := 0x0, rw := 0x7FF07FF }
  , /- GATHER_LEN -/ { off := 0x088, rst := 0x0, rw := 0x1FF01FF, rng := [(24, 16, 0, 256), (8, 0, 0, 256)] }
  , /- SCATTER_LEN -/ { off := 0x08C, rst := 0x0, rw := 0x1FF01FF, rng := [(24, 16, 0, 256), (8, 0, 0, 256)] }
  , /- HDR_CFG -/ { off := 0x090, rst := 0x0, rw := 0x80007FFF, bnd := true, rng := [(14, 0, 0, 24565)] }
  , /- W_DECL -/ { off := 0x094, rst := 0x0, rw := 0xFFFFFFFF }
  , /- EXEC_COUNT -/ { off := 0x098, rst := 0x0 }
  , /- LATE_COUNT -/ { off := 0x09C, rst := 0x0 }
  , /- STICKY -/ { off := 0x0A0, rst := 0x0, w1c := 0x3F }
  , /- MBOX_IN -/ { off := 0x0A4, rst := 0x0, rw := 0xFFFFFFFF, bnd := true }
  , /- MBOX_OUT -/ { off := 0x0A8, rst := 0x0 }
  , /- FAULT_INFO -/ { off := 0x0AC, rst := 0x0 }
  , /- DBG_CTRL -/ { off := 0x400, rst := 0x0, rw := 0x1, wo := 0x2, prot := 1 }
  , /- BREAK_ADDR -/ { off := 0x404, rst := 0x0, rw := 0xFFF, prot := 1 }
  , /- PC_NOW -/ { off := 0x408, rst := 0x0 } ]

/-- Registers of BAT_n (R166). -/
def batDefs : List RegDef :=
  [ /- PLANE_STAT -/ { off := 0x080, rst := 0x4 }
  , /- XF_REQ -/ { off := 0x084, rst := 0x0, wo := 0xFC07FFFF, bnd := true }
  , /- XF_STAT -/ { off := 0x088, rst := 0x0 }
  , /- XF_LEN -/ { off := 0x08C, rst := 0x0 }
  , /- RAMP_REQ_LO -/ { off := 0x090, rst := 0x0, rw := 0xFFFFFFFF }
  , /- RAMP_REQ_HI -/ { off := 0x094, rst := 0x0, wo := 0xFFFFBFFF, rng := [(29, 15, 1, 20000)] }
  , /- RAMP_STAT -/ { off := 0x098, rst := 0x0 }
  , /- RAMP_REFUSED_COUNT -/ { off := 0x09C, rst := 0x0 }
  , /- LATE_COUNT -/ { off := 0x0A0, rst := 0x0 }
  , /- W_DECL -/ { off := 0x0A4, rst := 0x800, rw := 0xFFF, rng := [(11, 0, 0, 2048)] }
  , /- WORK_COUNT -/ { off := 0x0A8, rst := 0x0 }
  , /- SAT_COUNT -/ { off := 0x0AC, rst := 0x0 }
  , /- LANE_STICKY -/ { off := 0x0B0, rst := 0x0, w1c := 0xFFFF }
  , /- REH_CTRL -/ { off := 0x0B4, rst := 0x1, rw := 0x1 }
  , /- REH_STAT -/ { off := 0x0B8, rst := 0x0 }
  , /- REH_MISMATCH_COUNT -/ { off := 0x0BC, rst := 0x0 } ]

/-- Registers of GRAPH (R209). -/
def graphDefs : List RegDef :=
  [ /- GRAPH_STAT -/ { off := 0x080, rst := 0x0 }
  , /- GRAPH_CTRL -/ { off := 0x084, rst := 0x1, rw := 0x1 }
  , /- DIP_TIME -/ { off := 0x088, rst := 0x32, rw := 0x1FF, rng := [(8, 0, 10, 500)] }
  , /- SIL_CFG -/ { off := 0x08C, rst := 0x320060, rw := 0x3FF00FF, bnd := true, rng := [(25, 16, 5, 600), (7, 0, 60, 144)] }
  , /- SIL_THR -/ { off := 0x090, rst := 0x84F3 }
  , /- GRAPH_ID_LO -/ { off := 0x094, rst := 0x0 }
  , /- GRAPH_ID_HI -/ { off := 0x098, rst := 0x0 }
  , /- STAGED_ID_LO -/ { off := 0x09C, rst := 0x0 }
  , /- STAGED_ID_HI -/ { off := 0x0A0, rst := 0x0 }
  , /- STAGED_HANDLE -/ { off := 0x0A4, rst := 0x0 }
  , /- COMMIT_C_LO -/ { off := 0x0A8, rst := 0x0 }
  , /- COMMIT_C_HI -/ { off := 0x0AC, rst := 0x0 }
  , /- DIPPED_COUNT -/ { off := 0x0B0, rst := 0x0 }
  , /- FEEDBACK_COUNT -/ { off := 0x0B4, rst := 0x0 }
  , /- SIL_COUNT -/ { off := 0x0B8, rst := 0x0 }
  , /- LAT_SEL -/ { off := 0x0BC, rst := 0x0, rw := 0xFFF }
  , /- LAT_DATA -/ { off := 0x0C0, rst := 0x0 }
  , /- MAP_SEL -/ { off := 0x0C4, rst := 0x0, rw := 0x3007F }
  , /- MAP_DATA -/ { off := 0x0C8, rst := 0x0 } ]

/-- Registers of PATCH (R242). -/
def patchDefs : List RegDef :=
  [ /- PATCH_CTRL -/ { off := 0x080, rst := 0xA, rw := 0x7F, rng := [(6, 0, 0, 100)] }
  , /- FAST_CFG -/ { off := 0x084, rst := 0x0, rw := 0x3 }
  , /- IN_SEL -/ { off := 0x088, rst := 0x0, rw := 0x80000FFF }
  , /- IN_ROUTE -/ { off := 0x08C, rst := 0x0, rw := 0xFFFFFFFF, bnd := true }
  , /- OUT_SEL -/ { off := 0x090, rst := 0x0, rw := 0x80001FFF }
  , /- OUT_ROUTE -/ { off := 0x094, rst := 0x0, rw := 0xFFFFFFFF, bnd := true }
  , /- TONE_SEL -/ { off := 0x098, rst := 0x0, rw := 0x3 }
  , /- TONE_CFG -/ { off := 0x09C, rst := 0x0, rw := 0xC0FF7FFF, bnd := true, rng := [(23, 16, 0, 240)] }
  , /- INTERP_SEL -/ { off := 0x0A0, rst := 0x0, rw := 0x3F }
  , /- INTERP_TGT -/ { off := 0x0A4, rst := 0x0, rw := 0x8000031F, bnd := true }
  , /- INTERP_ST01 -/ { off := 0x0A8, rst := 0x10001, rw := 0x33FF33FF, bnd := true }
  , /- INTERP_ST23 -/ { off := 0x0AC, rst := 0x10001, rw := 0x33FF33FF, bnd := true }
  , /- INTERP_DELAY -/ { off := 0x0B0, rst := 0x0 }
  , /- DIP_COUNT -/ { off := 0x0B4, rst := 0x0 } ]

/-- Registers of BRIDGE_n (R246). -/
def bridgeDefs : List RegDef :=
  [ /- BR_CFG -/ { off := 0x080, rst := 0x8, rw := 0x7007F, rng := [(6, 0, 1, 64)] }
  , /- BR_STAT -/ { off := 0x084, rst := 0x0 }
  , /- RATIO -/ { off := 0x088, rst := 0x0 }
  , /- FOREIGN_RATE -/ { off := 0x08C, rst := 0x0 }
  , /- IN_DELAY -/ { off := 0x090, rst := 0x0 }
  , /- OUT_DELAY -/ { off := 0x094, rst := 0x0 }
  , /- IN_MAP_SEL -/ { off := 0x098, rst := 0x0, rw := 0x8000003F }
  , /- IN_MAP -/ { off := 0x09C, rst := 0x0, rw := 0x800003FF, bnd := true }
  , /- OUT_MAP_SEL -/ { off := 0x0A0, rst := 0x0, rw := 0x8000003F }
  , /- OUT_MAP -/ { off := 0x0A4, rst := 0x0, rw := 0x800003FF, bnd := true }
  , /- UNLOCK_COUNT -/ { off := 0x0A8, rst := 0x0 } ]

/-- Registers of DATUM (R281). -/
def datumDefs : List RegDef :=
  [ /- DATUM_CTRL -/ { off := 0x080, rst := 0x1, rw := 0xFF013771, rng := [(10, 8, 0, 4), (6, 4, 0, 4)] }
  , /- DATUM_STAT -/ { off := 0x084, rst := 0x0 }
  , /- NOW_FRAC -/ { off := 0x088, rst := 0x0 }
  , /- NOW_NS -/ { off := 0x08C, rst := 0x0 }
  , /- NOW_SEC_LO -/ { off := 0x090, rst := 0x0 }
  , /- NOW_SEC_HI -/ { off := 0x094, rst := 0x0 }
  , /- RAW_0 -/ { off := 0x098, rst := 0x0 }
  , /- RAW_1 -/ { off := 0x09C, rst := 0x0 }
  , /- RAW_2 -/ { off := 0x0A0, rst := 0x0 }
  , /- RATE_LO -/ { off := 0x0A4, rst := 0x0 }
  , /- RATE_HI -/ { off := 0x0A8, rst := 0x0 }
  , /- FREQ_LO -/ { off := 0x0AC, rst := 0x0 }
  , /- FREQ_HI -/ { off := 0x0B0, rst := 0x0 }
  , /- SERVO_GAIN -/ { off := 0x0B4, rst := 0x702, rw := 0x1F0F }
  , /- STEP_THR -/ { off := 0x0B8, rst := 0x3E8, rw := 0x3FFFFFFF, rng := [(29, 0, 100, 1000000000)] }
  , /- LOCK_THR -/ { off := 0x0BC, rst := 0x64, rw := 0x3FFF, rng := [(13, 0, 1, 10000)] }
  , /- SLEW_MAX -/ { off := 0x0C0, rst := 0x64, rw := 0x3FF, rng := [(9, 0, 1, 1000)] }
  , /- HOLD_TIMEOUT -/ { off := 0x0C4, rst := 0xBB8, rw := 0xFFFF, rng := [(15, 0, 100, 60000)] }
  , /- PATH_STEP_LIMIT -/ { off := 0x0C8, rst := 0x30003E8, rw := 0xF0FFFFF, rng := [(27, 24, 2, 15), (19, 0, 50, 1000000)] }
  , /- PATH_STEP_SIZE -/ { off := 0x0CC, rst := 0x0 }
  , /- PATH_STEP_SRC -/ { off := 0x0D0, rst := 0x0 }
  , /- OFFSET_LO -/ { off := 0x0D4, rst := 0x0 }
  , /- OFFSET_HI -/ { off := 0x0D8, rst := 0x0 }
  , /- SERVO_OFFSET_IN_LO -/ { off := 0x0DC, rst := 0x0, rw := 0xFFFFFFFF }
  , /- SERVO_OFFSET_IN_HI -/ { off := 0x0E0, rst := 0x0, wo := 0xFFFFFFFF }
  , /- STEP_SEC_LO -/ { off := 0x0E4, rst := 0x0, rw := 0xFFFFFFFF }
  , /- STEP_SEC_HI -/ { off := 0x0E8, rst := 0x0, rw := 0xFFFFFFFF }
  , /- STEP_NS -/ { off := 0x0EC, rst := 0x0, rw := 0xFFFFFFFF }
  , /- PPS_CFG -/ { off := 0x0F0, rst := 0x640000, rw := 0xC0FF0001, rng := [(23, 16, 1, 200)] }
  , /- PPS_IN_DELAY -/ { off := 0x0F4, rst := 0x0, rw := 0xFFFFFFFF }
  , /- PPS_OUT_OFFSET -/ { off := 0x0F8, rst := 0x0, rw := 0xFFFFFFFF }
  , /- PPS_IN_ERR -/ { off := 0x0FC, rst := 0x0 }
  , /- CLK10M_ERR -/ { off := 0x100, rst := 0x0 }
  , /- STEP_COUNT -/ { off := 0x104, rst := 0x0 }
  , /- SLEW_COUNT -/ { off := 0x108, rst := 0x0 }
  , /- HOLDOVER_COUNT -/ { off := 0x10C, rst := 0x0 } ]

/-- Registers of PROMPT (R318). -/
def promptDefs : List RegDef :=
  [ /- PROMPT_CTRL -/ { off := 0x080, rst := 0x100000, rw := 0xFF0F6D, rng := [(23, 16, 1, 255)] }
  , /- STANDBY -/ { off := 0x084, rst := 0x0, rw := 0x80000FFF }
  , /- PIN_LOCKOUT -/ { off := 0x088, rst := 0xFA, rw := 0x3FF, rng := [(9, 0, 0, 1000)] }
  , /- PENDING -/ { off := 0x08C, rst := 0x0 }
  , /- LAST_CUE -/ { off := 0x090, rst := 0x0 }
  , /- LAST_B_LO -/ { off := 0x094, rst := 0x0 }
  , /- LAST_B_HI -/ { off := 0x098, rst := 0x0 }
  , /- FAIL_INFO -/ { off := 0x09C, rst := 0x0 }
  , /- FAIL_COUNT -/ { off := 0x0A0, rst := 0x0 }
  , /- LATE_COUNT -/ { off := 0x0A4, rst := 0x0 }
  , /- EXPIRED_COUNT -/ { off := 0x0A8, rst := 0x0 }
  , /- IGNORED_COUNT -/ { off := 0x0AC, rst := 0x0 }
  , /- BOOK_STAT -/ { off := 0x0B0, rst := 0x0 }
  , /- PEND_SEL -/ { off := 0x0B4, rst := 0x0, rw := 0x7F }
  , /- PEND_INFO -/ { off := 0x0B8, rst := 0x0 }
  , /- PEND_B_LO -/ { off := 0x0BC, rst := 0x0 }
  , /- PEND_B_HI -/ { off := 0x0C0, rst := 0x0 } ]

/-- Registers of TABLEAU (R322). -/
def tableauDefs : List RegDef :=
  [ /- TAB_CTRL -/ { off := 0x080, rst := 0x10, rw := 0xF3F }
  , /- TAB_STAT -/ { off := 0x084, rst := 0x0 }
  , /- TIME_FRAC -/ { off := 0x088, rst := 0x0 }
  , /- TIME_NS -/ { off := 0x08C, rst := 0x0 }
  , /- TIME_SEC_LO -/ { off := 0x090, rst := 0x0 }
  , /- TIME_SEC_HI -/ { off := 0x094, rst := 0x0 }
  , /- TIME_INDEX_LO -/ { off := 0x098, rst := 0x0 }
  , /- TIME_INDEX_HI -/ { off := 0x09C, rst := 0x0 }
  , /- ACK -/ { off := 0x0A0, rst := 0x0, wo := 0x1 }
  , /- DROP_COUNT -/ { off := 0x0A4, rst := 0x0 }
  , /- EXT_SKIP_COUNT -/ { off := 0x0A8, rst := 0x0 }
  , /- EXT_ID -/ { off := 0x0AC, rst := 0x0 }
  , /- OUT_WIDTH -/ { off := 0x0B0, rst := 0xA, rw := 0xFF, rng := [(7, 0, 2, 255)] }
  , /- ISL_LEAD -/ { off := 0x0B4, rst := 0x14, rw := 0x3FFF, rng := [(13, 0, 5, 10000)] } ]

/-- Registers of PORT_n (R353). -/
def portDefs : List RegDef :=
  [ /- PORT_CFG -/ { off := 0x080, rst := 0x200000, rw := 0xC7310100, rng := [(21, 20, 0, 2)] }
  , /- PORT_STAT -/ { off := 0x084, rst := 0x0 }
  , /- SLOT_MASK -/ { off := 0x088, rst := 0x3 }
  , /- SLOT_MASK_NEXT -/ { off := 0x08C, rst := 0x3, rw := 0xFFFFFFFF }
  , /- MASK_COMMIT -/ { off := 0x090, rst := 0x0, wo := 0x1, bnd := true }
  , /- PRESENT_OFFSET -/ { off := 0x094, rst := 0x20002, rw := 0x1F001F, rng := [(20, 16, 2, 16), (4, 0, 2, 16)] }
  , /- FADE_TIME -/ { off := 0x098, rst := 0x8, rw := 0x7F, rng := [(6, 0, 1, 64)] }
  , /- RX_PHASE -/ { off := 0x09C, rst := 0x0 }
  , /- IN_DELAY -/ { off := 0x0A0, rst := 0x0 }
  , /- OUT_DELAY -/ { off := 0x0A4, rst := 0x0 }
  , /- BLK_FRAC -/ { off := 0x0A8, rst := 0x0 }
  , /- BLK_NS -/ { off := 0x0AC, rst := 0x0 }
  , /- BLK_SEC_LO -/ { off := 0x0B0, rst := 0x0 }
  , /- BLK_SEC_HI -/ { off := 0x0B4, rst := 0x0 }
  , /- BLK_INDEX_LO -/ { off := 0x0B8, rst := 0x0 }
  , /- BLK_INDEX_HI -/ { off := 0x0BC, rst := 0x0 }
  , /- CG_CFG -/ { off := 0x0C0, rst := 0x202, rw := 0xBB781F03, rng := [(29, 28, 0, 2), (25, 24, 0, 2), (1, 0, 0, 2)] }
  , /- CG_RATE -/ { off := 0x0C4, rst := 0xBB80, rw := 0x3FFFF, rng := [(17, 0, 8000, 216000)] }
  , /- CG_STAT -/ { off := 0x0C8, rst := 0x0 }
  , /- MCLK_CFG -/ { off := 0x0CC, rst := 0x0, rw := 0x800F0003 }
  , /- RX_FAULT_COUNT -/ { off := 0x0D0, rst := 0x0 }
  , /- TX_FAULT_COUNT -/ { off := 0x0D4, rst := 0x0 }
  , /- COMPACT_SEL -/ { off := 0x0D8, rst := 0x0, rw := 0x1F }
  , /- COMPACT -/ { off := 0x0DC, rst := 0x0 } ]

/-- Registers of DECIM (R376). -/
def decimDefs : List RegDef :=
  [ /- DEC_SEL -/ { off := 0x080, rst := 0x0, rw := 0x3F }
  , /- DEC_SRC -/ { off := 0x084, rst := 0x0, rw := 0xCF03007F, bnd := true }
  , /- DEC_ST01 -/ { off := 0x088, rst := 0x10001, rw := 0x73FF73FF, bnd := true }
  , /- DEC_ST23 -/ { off := 0x08C, rst := 0x10001, rw := 0x73FF73FF, bnd := true }
  , /- DEC_GC_0 -/ { off := 0x090, rst := 0x800000, rw := 0xFFFFFF, bnd := true, rng := [(23, 0, 1, 16777215)] }
  , /- DEC_GC_1 -/ { off := 0x094, rst := 0x800000, rw := 0xFFFFFF, bnd := true, rng := [(23, 0, 1, 16777215)] }
  , /- DEC_GC_2 -/ { off := 0x098, rst := 0x800000, rw := 0xFFFFFF, bnd := true, rng := [(23, 0, 1, 16777215)] }
  , /- DEC_GC_3 -/ { off := 0x09C, rst := 0x800000, rw := 0xFFFFFF, bnd := true, rng := [(23, 0, 1, 16777215)] }
  , /- DEC_PHASE -/ { off := 0x0A0, rst := 0x0, rw := 0xFFF, bnd := true }
  , /- DEC_STAT -/ { off := 0x0A4, rst := 0x0 }
  , /- DEC_SETTLE -/ { off := 0x0A8, rst := 0x0 }
  , /- DEC_DELAY -/ { off := 0x0AC, rst := 0x0 }
  , /- PDM_CLK_CFG_0 -/ { off := 0x0B0, rst := 0x2, rw := 0x80000007, rng := [(2, 0, 0, 3)] }
  , /- PDM_CLK_CFG_1 -/ { off := 0x0B4, rst := 0x2, rw := 0x80000007, rng := [(2, 0, 0, 3)] }
  , /- PDM_CLK_CFG_2 -/ { off := 0x0B8, rst := 0x2, rw := 0x80000007, rng := [(2, 0, 0, 3)] }
  , /- PDM_CLK_CFG_3 -/ { off := 0x0BC, rst := 0x2, rw := 0x80000007, rng := [(2, 0, 0, 3)] }
  , /- VALID_LO -/ { off := 0x0C0, rst := 0x0 }
  , /- VALID_HI -/ { off := 0x0C4, rst := 0x0 }
  , /- SAT_LO -/ { off := 0x0C8, rst := 0x0, w1c := 0xFFFFFFFF }
  , /- SAT_HI -/ { off := 0x0CC, rst := 0x0, w1c := 0xFFFFFFFF }
  , /- SYNC_COUNT -/ { off := 0x0D0, rst := 0x0 } ]

/-- Registers of ISL_LINK_n (R424). -/
def linkDefs : List RegDef :=
  [ /- LINK_CFG -/ { off := 0x080, rst := 0x308, rw := 0xC33F7F7F, rng := [(25, 24, 0, 2), (14, 8, 2, 80), (6, 0, 1, 64)] }
  , /- LINK_STAT -/ { off := 0x084, rst := 0x0 }
  , /- TX_MAP -/ { off := 0x088, rst := 0x0, rw := 0x1FFF0FFF, rng := [(28, 16, 0, 4096)] }
  , /- RX_MAP -/ { off := 0x08C, rst := 0x0, rw := 0x1FFF0FFF, rng := [(28, 16, 0, 4096)] }
  , /- LINK_CTRL -/ { off := 0x090, rst := 0x0, rw := 0xF }
  , /- CTRL_CFG -/ { off := 0x094, rst := 0x8000032, rw := 0xFF003FFF, rng := [(31, 24, 1, 255), (13, 0, 10, 10000)] }
  , /- HB_CFG -/ { off := 0x098, rst := 0x3, rw := 0xF, rng := [(3, 0, 2, 15)] }
  , /- PEER_ROLE -/ { off := 0x09C, rst := 0x0 }
  , /- PEER_HEALTH -/ { off := 0x0A0, rst := 0x0 }
  , /- PEER_INDEX_LO -/ { off := 0x0A4, rst := 0x0 }
  , /- PEER_INDEX_HI -/ { off := 0x0A8, rst := 0x0 }
  , /- LINK_DELAY -/ { off := 0x0AC, rst := 0x0 }
  , /- GROUP_OK_LO -/ { off := 0x0B0, rst := 0x0 }
  , /- GROUP_OK_HI -/ { off := 0x0B4, rst := 0x0 }
  , /- TX_LOAD -/ { off := 0x0B8, rst := 0x0 }
  , /- MISS_COUNT -/ { off := 0x0BC, rst := 0x0 }
  , /- LATE_COUNT -/ { off := 0x0C0, rst := 0x0 }
  , /- AUDIO_ERR_COUNT -/ { off := 0x0C4, rst := 0x0 }
  , /- CRC_FAIL_COUNT -/ { off := 0x0C8, rst := 0x0 }
  , /- RETX_COUNT -/ { off := 0x0CC, rst := 0x0 }
  , /- CTRL_PENDING -/ { off := 0x0D0, rst := 0x0 } ]

/-- Registers of NET_n (R448). -/
def netDefs : List RegDef :=
  [ /- NET_CFG -/ { off := 0x080, rst := 0x80000000, rw := 0x80000003, rng := [(1, 0, 0, 2)] }
  , /- NET_STAT -/ { off := 0x084, rst := 0x0 }
  , /- MAC_LO -/ { off := 0x088, rst := 0x0, rw := 0xFFFFFFFF }
  , /- MAC_HI -/ { off := 0x08C, rst := 0x0, rw := 0xFFFF }
  , /- IP_ADDR -/ { off := 0x090, rst := 0x0, rw := 0xFFFFFFFF }
  , /- IP_MASK -/ { off := 0x094, rst := 0x0, rw := 0xFFFFFFFF }
  , /- TC_CFG_0 -/ { off := 0x0A0, rst := 0x0, rw := 0xEFC00000 }
  , /- TC_CFG_1 -/ { off := 0x0A4, rst := 0x42800000, rw := 0xEFC07FFF, rng := [(14, 0, 0, 25000)] }
  , /- TC_CFG_2 -/ { off := 0x0A8, rst := 0xAB800000, rw := 0xEFC00000 }
  , /- TC_CFG_3 -/ { off := 0x0AC, rst := 0xEB800000, rw := 0xEFC00000 }
  , /- RX_FRAMES -/ { off := 0x0B0, rst := 0x0 }
  , /- TX_FRAMES -/ { off := 0x0B4, rst := 0x0 }
  , /- RX_DISCARD -/ { off := 0x0B8, rst := 0x0 }
  , /- RX_FCS_ERR -/ { off := 0x0BC, rst := 0x0 }
  , /- STREAM_SEL -/ { off := 0x100, rst := 0x0, rw := 0x1FF }
  , /- STREAM_INFO -/ { off := 0x104, rst := 0x0 }
  , /- STREAM_PKTS -/ { off := 0x108, rst := 0x0 }
  , /- STREAM_LOST_A -/ { off := 0x10C, rst := 0x0 }
  , /- STREAM_LOST_B -/ { off := 0x110, rst := 0x0 }
  , /- STREAM_DISCARD -/ { off := 0x114, rst := 0x0 }
  , /- STREAM_USE -/ { off := 0x118, rst := 0x0 }
  , /- CDG_CFG -/ { off := 0x11C, rst := 0x3E85A12, rw := 0xFFFFFFFF, rng := [(30, 16, 0, 30000), (15, 0, 1, 65535)] }
  , /- CDG_RIGHTS_0 -/ { off := 0x120, rst := 0x0, rw := 0xF, prot := 3 }
  , /- CDG_RIGHTS_1 -/ { off := 0x124, rst := 0x0, rw := 0xF, prot := 3 }
  , /- CDG_RIGHTS_2 -/ { off := 0x128, rst := 0x0, rw := 0xF, prot := 3 }
  , /- CDG_RIGHTS_3 -/ { off := 0x12C, rst := 0x0, rw := 0xF, prot := 3 }
  , /- CDG_RIGHTS_4 -/ { off := 0x130, rst := 0x0, rw := 0xF, prot := 3 }
  , /- CDG_RIGHTS_5 -/ { off := 0x134, rst := 0x0, rw := 0xF, prot := 3 }
  , /- CDG_RIGHTS_6 -/ { off := 0x138, rst := 0x0, rw := 0xF, prot := 3 }
  , /- CDG_RIGHTS_7 -/ { off := 0x13C, rst := 0x0, rw := 0xF, prot := 3 }
  , /- CDG_ACCEPT_COUNT -/ { off := 0x140, rst := 0x0 }
  , /- CDG_REJECT_COUNT -/ { off := 0x144, rst := 0x0 }
  , /- CDG_LAST_REJECT -/ { off := 0x148, rst := 0x0 } ]

/-- Registers of REDUNDANCY (R486). -/
def redDefs : List RegDef :=
  [ /- ROLE_CFG -/ { off := 0x080, rst := 0x100, rw := 0x307 }
  , /- RED_STAT -/ { off := 0x084, rst := 0x0 }
  , /- APPLY_DELAY -/ { off := 0x088, rst := 0x10, rw := 0xFF, rng := [(7, 0, 1, 255)] }
  , /- FWD_CFG -/ { off := 0x08C, rst := 0x0, rw := 0x1FFF, rng := [(12, 0, 0, 4095)] }
  , /- SD_EN -/ { off := 0x090, rst := 0xFF, rw := 0xF00FF }
  , /- SD_PENDING -/ { off := 0x094, rst := 0x0, w1c := 0xFF }
  , /- LIMITS -/ { off := 0x098, rst := 0x400000, rw := 0xFFFF00FF, rng := [(31, 16, 1, 65535)] }
  , /- CATCH_CFG -/ { off := 0x09C, rst := 0x1412C0, rw := 0xFFFFFFFF, rng := [(31, 16, 1, 6000), (15, 0, 1, 65535)] }
  , /- VOTE_CFG -/ { off := 0x0A0, rst := 0x10, rw := 0x1FFFFFFF, rng := [(28, 16, 0, 4095), (15, 0, 1, 65535)] }
  , /- JOIN_LO -/ { off := 0x0A4, rst := 0x0 }
  , /- JOIN_HI -/ { off := 0x0A8, rst := 0x0 }
  , /- DRIVE_LO -/ { off := 0x0AC, rst := 0x0 }
  , /- DRIVE_HI -/ { off := 0x0B0, rst := 0x0 }
  , /- TAKEOVER_COUNT -/ { off := 0x0B4, rst := 0x0 }
  , /- DIVERGE_COUNT -/ { off := 0x0B8, rst := 0x0 }
  , /- VOTE_SPLIT_COUNT -/ { off := 0x0BC, rst := 0x0 }
  , /- OUTVOTE_COUNT -/ { off := 0x0C0, rst := 0x0 }
  , /- HOLD_DEPTH -/ { off := 0x0C4, rst := 0x0 }
  , /- CATCH_STAT -/ { off := 0x0C8, rst := 0x0 }
  , /- FOLLOW_0_A -/ { off := 0x0D0, rst := 0x0, rw := 0x9FFF0FFF }
  , /- FOLLOW_1_A -/ { off := 0x0D8, rst := 0x0, rw := 0x9FFF0FFF }
  , /- FOLLOW_2_A -/ { off := 0x0E0, rst := 0x0, rw := 0x9FFF0FFF }
  , /- FOLLOW_3_A -/ { off := 0x0E8, rst := 0x0, rw := 0x9FFF0FFF }
  , /- FOLLOW_0_B -/ { off := 0x0D4, rst := 0x0, rw := 0xFFF }
  , /- FOLLOW_1_B -/ { off := 0x0DC, rst := 0x0, rw := 0xFFF }
  , /- FOLLOW_2_B -/ { off := 0x0E4, rst := 0x0, rw := 0xFFF }
  , /- FOLLOW_3_B -/ { off := 0x0EC, rst := 0x0, rw := 0xFFF } ]

/-- Registers of REHEARSAL (R508), part 0. -/
def rehDefs_0 : List RegDef :=
  [ /- REH_CFG -/ { off := 0x080, rst := 0xF, rw := 0x1F }
  , /- SCRUB_PERIOD -/ { off := 0x084, rst := 0x3C, rw := 0xFFF, rng := [(11, 0, 1, 3600)] }
  , /- RECALL_HOLD -/ { off := 0x088, rst := 0xA, rw := 0x3FF, rng := [(9, 0, 1, 1000)] }
  , /- LOAN_0 -/ { off := 0x090, rst := 0x0, rw := 0xFFFFFFFF }
  , /- LOAN_1 -/ { off := 0x094, rst := 0x0, rw := 0xFFFFFFFF }
  , /- LOAN_2 -/ { off := 0x098, rst := 0x0, rw := 0xFFFFFFFF }
  , /- LOAN_3 -/ { off := 0x09C, rst := 0x0, rw := 0xFFFFFFFF }
  , /- LOAN_4 -/ { off := 0x0A0, rst := 0x0, rw := 0xFFFFFFFF }
  , /- LOAN_5 -/ { off := 0x0A4, rst := 0x0, rw := 0xFFFFFFFF }
  , /- LOAN_6 -/ { off := 0x0A8, rst := 0x0, rw := 0xFFFFFFFF }
  , /- LOAN_7 -/ { off := 0x0AC, rst := 0x0, rw := 0xFFFFFFFF }
  , /- BANK_FAIL_0 -/ { off := 0x0B0, rst := 0x0 }
  , /- BANK_FAIL_1 -/ { off := 0x0B4, rst := 0x0 }
  , /- BANK_FAIL_2 -/ { off := 0x0B8, rst := 0x0 }
  , /- BANK_FAIL_3 -/ { off := 0x0BC, rst := 0x0 }
  , /- BANK_FAIL_4 -/ { off := 0x0C0, rst := 0x0 }
  , /- BANK_FAIL_5 -/ { off := 0x0C4, rst := 0x0 }
  , /- BANK_FAIL_6 -/ { off := 0x0C8, rst := 0x0 }
  , /- BANK_FAIL_7 -/ { off := 0x0CC, rst := 0x0 }
  , /- SP_FAIL_LO -/ { off := 0x0D0, rst := 0x0 }
  , /- SP_FAIL_HI -/ { off := 0x0D4, rst := 0x0 }
  , /- LANE_FAIL -/ { off := 0x0D8, rst := 0x0 }
  , /- PASS_COUNT -/ { off := 0x0DC, rst := 0x0 }
  , /- RECALL_COUNT -/ { off := 0x0E0, rst := 0x0 }
  , /- RECALL_MAX -/ { off := 0x0E4, rst := 0x0 }
  , /- TRANSIENT_COUNT -/ { off := 0x0E8, rst := 0x0 }
  , /- REPORT_ADDR_LO -/ { off := 0x0EC, rst := 0x0, rw := 0xFFFFFFFF }
  , /- REPORT_ADDR_HI -/ { off := 0x0F0, rst := 0x0, rw := 0xF }
  , /- REPORT_SEQ -/ { off := 0x0F4, rst := 0x0 }
  , /- REPORT_0 -/ { off := 0x100, rst := 0x0 }
  , /- REPORT_1 -/ { off := 0x104, rst := 0x0 }
  , /- REPORT_2 -/ { off := 0x108, rst := 0x0 }
  , /- REPORT_3 -/ { off := 0x10C, rst := 0x0 }
  , /- REPORT_4 -/ { off := 0x110, rst := 0x0 }
  , /- REPORT_5 -/ { off := 0x114, rst := 0x0 }
  , /- REPORT_6 -/ { off := 0x118, rst := 0x0 }
  , /- REPORT_7 -/ { off := 0x11C, rst := 0x0 }
  , /- REPORT_8 -/ { off := 0x120, rst := 0x0 }
  , /- REPORT_9 -/ { off := 0x124, rst := 0x0 }
  , /- REPORT_10 -/ { off := 0x128, rst := 0x0 } ]

/-- Registers of REHEARSAL (R508), part 1. -/
def rehDefs_1 : List RegDef :=
  [ /- REPORT_11 -/ { off := 0x12C, rst := 0x0 }
  , /- REPORT_12 -/ { off := 0x130, rst := 0x0 }
  , /- REPORT_13 -/ { off := 0x134, rst := 0x0 }
  , /- REPORT_14 -/ { off := 0x138, rst := 0x0 }
  , /- REPORT_15 -/ { off := 0x13C, rst := 0x0 } ]

/-- Registers of REHEARSAL (R508). -/
def rehDefs : List RegDef := rehDefs_0 ++ rehDefs_1

/-- Registers of POOL (R530, R533), part 0. -/
def poolDefs_0 : List RegDef :=
  [ /- HANDOVER_COUNT -/ { off := 0x080, rst := 0x0 }
  , /- DENIED_COUNT -/ { off := 0x084, rst := 0x0 }
  , /- DENIED_INFO -/ { off := 0x088, rst := 0x0 }
  , /- COLLIDE_COUNT -/ { off := 0x08C, rst := 0x0 }
  , /- COLLIDE_INFO -/ { off := 0x090, rst := 0x0 }
  , /- SEC_COUNT -/ { off := 0x094, rst := 0x0 }
  , /- UE_COUNT -/ { off := 0x098, rst := 0x0 }
  , /- ECC_LAST_LO -/ { off := 0x09C, rst := 0x0 }
  , /- ECC_LAST_HI -/ { off := 0x0A0, rst := 0x0 }
  , /- HANDOVER_PEND_0 -/ { off := 0x0B0, rst := 0x0 }
  , /- HANDOVER_PEND_1 -/ { off := 0x0B4, rst := 0x0 }
  , /- HANDOVER_PEND_2 -/ { off := 0x0B8, rst := 0x0 }
  , /- HANDOVER_PEND_3 -/ { off := 0x0BC, rst := 0x0 }
  , /- HANDOVER_PEND_4 -/ { off := 0x0C0, rst := 0x0 }
  , /- HANDOVER_PEND_5 -/ { off := 0x0C4, rst := 0x0 }
  , /- HANDOVER_PEND_6 -/ { off := 0x0C8, rst := 0x0 }
  , /- HANDOVER_PEND_7 -/ { off := 0x0CC, rst := 0x0 }
  , /- OWN_A_0 -/ { off := 0x100, rst := 0x43434343, rw := 0xFFFFFFFF }
  , /- OWN_A_1 -/ { off := 0x104, rst := 0x43434343, rw := 0xFFFFFFFF }
  , /- OWN_A_2 -/ { off := 0x108, rst := 0x43434343, rw := 0xFFFFFFFF }
  , /- OWN_A_3 -/ { off := 0x10C, rst := 0x43434343, rw := 0xFFFFFFFF }
  , /- OWN_A_4 -/ { off := 0x110, rst := 0x43434343, rw := 0xFFFFFFFF }
  , /- OWN_A_5 -/ { off := 0x114, rst := 0x43434343, rw := 0xFFFFFFFF }
  , /- OWN_A_6 -/ { off := 0x118, rst := 0x43434343, rw := 0xFFFFFFFF }
  , /- OWN_A_7 -/ { off := 0x11C, rst := 0x43434343, rw := 0xFFFFFFFF }
  , /- OWN_A_8 -/ { off := 0x120, rst := 0x43434343, rw := 0xFFFFFFFF }
  , /- OWN_A_9 -/ { off := 0x124, rst := 0x43434343, rw := 0xFFFFFFFF }
  , /- OWN_A_10 -/ { off := 0x128, rst := 0x43434343, rw := 0xFFFFFFFF }
  , /- OWN_A_11 -/ { off := 0x12C, rst := 0x43434343, rw := 0xFFFFFFFF }
  , /- OWN_A_12 -/ { off := 0x130, rst := 0x43434343, rw := 0xFFFFFFFF }
  , /- OWN_A_13 -/ { off := 0x134, rst := 0x43434343, rw := 0xFFFFFFFF }
  , /- OWN_A_14 -/ { off := 0x138, rst := 0x43434343, rw := 0xFFFFFFFF }
  , /- OWN_A_15 -/ { off := 0x13C, rst := 0x43434343, rw := 0xFFFFFFFF }
  , /- OWN_A_16 -/ { off := 0x140, rst := 0x43434343, rw := 0xFFFFFFFF }
  , /- OWN_A_17 -/ { off := 0x144, rst := 0x43434343, rw := 0xFFFFFFFF }
  , /- OWN_A_18 -/ { off := 0x148, rst := 0x43434343, rw := 0xFFFFFFFF }
  , /- OWN_A_19 -/ { off := 0x14C, rst := 0x43434343, rw := 0xFFFFFFFF }
  , /- OWN_A_20 -/ { off := 0x150, rst := 0x43434343, rw := 0xFFFFFFFF }
  , /- OWN_A_21 -/ { off := 0x154, rst := 0x43434343, rw := 0xFFFFFFFF }
  , /- OWN_A_22 -/ { off := 0x158, rst := 0x43434343, rw := 0xFFFFFFFF } ]

/-- Registers of POOL (R530, R533), part 1. -/
def poolDefs_1 : List RegDef :=
  [ /- OWN_A_23 -/ { off := 0x15C, rst := 0x43434343, rw := 0xFFFFFFFF }
  , /- OWN_A_24 -/ { off := 0x160, rst := 0x43434343, rw := 0xFFFFFFFF }
  , /- OWN_A_25 -/ { off := 0x164, rst := 0x43434343, rw := 0xFFFFFFFF }
  , /- OWN_A_26 -/ { off := 0x168, rst := 0x43434343, rw := 0xFFFFFFFF }
  , /- OWN_A_27 -/ { off := 0x16C, rst := 0x43434343, rw := 0xFFFFFFFF }
  , /- OWN_A_28 -/ { off := 0x170, rst := 0x43434343, rw := 0xFFFFFFFF }
  , /- OWN_A_29 -/ { off := 0x174, rst := 0x43434343, rw := 0xFFFFFFFF }
  , /- OWN_A_30 -/ { off := 0x178, rst := 0x43434343, rw := 0xFFFFFFFF }
  , /- OWN_A_31 -/ { off := 0x17C, rst := 0x43434343, rw := 0xFFFFFFFF }
  , /- OWN_A_32 -/ { off := 0x180, rst := 0x43434343, rw := 0xFFFFFFFF }
  , /- OWN_A_33 -/ { off := 0x184, rst := 0x43434343, rw := 0xFFFFFFFF }
  , /- OWN_A_34 -/ { off := 0x188, rst := 0x43434343, rw := 0xFFFFFFFF }
  , /- OWN_A_35 -/ { off := 0x18C, rst := 0x43434343, rw := 0xFFFFFFFF }
  , /- OWN_A_36 -/ { off := 0x190, rst := 0x43434343, rw := 0xFFFFFFFF }
  , /- OWN_A_37 -/ { off := 0x194, rst := 0x43434343, rw := 0xFFFFFFFF }
  , /- OWN_A_38 -/ { off := 0x198, rst := 0x43434343, rw := 0xFFFFFFFF }
  , /- OWN_A_39 -/ { off := 0x19C, rst := 0x43434343, rw := 0xFFFFFFFF }
  , /- OWN_A_40 -/ { off := 0x1A0, rst := 0x43434343, rw := 0xFFFFFFFF }
  , /- OWN_A_41 -/ { off := 0x1A4, rst := 0x43434343, rw := 0xFFFFFFFF }
  , /- OWN_A_42 -/ { off := 0x1A8, rst := 0x43434343, rw := 0xFFFFFFFF }
  , /- OWN_A_43 -/ { off := 0x1AC, rst := 0x43434343, rw := 0xFFFFFFFF }
  , /- OWN_A_44 -/ { off := 0x1B0, rst := 0x43434343, rw := 0xFFFFFFFF }
  , /- OWN_A_45 -/ { off := 0x1B4, rst := 0x43434343, rw := 0xFFFFFFFF }
  , /- OWN_A_46 -/ { off := 0x1B8, rst := 0x43434343, rw := 0xFFFFFFFF }
  , /- OWN_A_47 -/ { off := 0x1BC, rst := 0x43434343, rw := 0xFFFFFFFF }
  , /- OWN_A_48 -/ { off := 0x1C0, rst := 0x43434343, rw := 0xFFFFFFFF }
  , /- OWN_A_49 -/ { off := 0x1C4, rst := 0x43434343, rw := 0xFFFFFFFF }
  , /- OWN_A_50 -/ { off := 0x1C8, rst := 0x43434343, rw := 0xFFFFFFFF }
  , /- OWN_A_51 -/ { off := 0x1CC, rst := 0x43434343, rw := 0xFFFFFFFF }
  , /- OWN_A_52 -/ { off := 0x1D0, rst := 0x43434343, rw := 0xFFFFFFFF }
  , /- OWN_A_53 -/ { off := 0x1D4, rst := 0x43434343, rw := 0xFFFFFFFF }
  , /- OWN_A_54 -/ { off := 0x1D8, rst := 0x43434343, rw := 0xFFFFFFFF }
  , /- OWN_A_55 -/ { off := 0x1DC, rst := 0x43434343, rw := 0xFFFFFFFF }
  , /- OWN_A_56 -/ { off := 0x1E0, rst := 0x43434343, rw := 0xFFFFFFFF }
  , /- OWN_A_57 -/ { off := 0x1E4, rst := 0x43434343, rw := 0xFFFFFFFF }
  , /- OWN_A_58 -/ { off := 0x1E8, rst := 0x43434343, rw := 0xFFFFFFFF }
  , /- OWN_A_59 -/ { off := 0x1EC, rst := 0x43434343, rw := 0xFFFFFFFF }
  , /- OWN_A_60 -/ { off := 0x1F0, rst := 0x43434343, rw := 0xFFFFFFFF }
  , /- OWN_A_61 -/ { off := 0x1F4, rst := 0x43434343, rw := 0xFFFFFFFF }
  , /- OWN_A_62 -/ { off := 0x1F8, rst := 0x43434343, rw := 0xFFFFFFFF } ]

/-- Registers of POOL (R530, R533), part 2. -/
def poolDefs_2 : List RegDef :=
  [ /- OWN_A_63 -/ { off := 0x1FC, rst := 0x43434343, rw := 0xFFFFFFFF }
  , /- OWN_B_0 -/ { off := 0x200, rst := 0x43434343, rw := 0xFFFFFFFF }
  , /- OWN_B_1 -/ { off := 0x204, rst := 0x43434343, rw := 0xFFFFFFFF }
  , /- OWN_B_2 -/ { off := 0x208, rst := 0x43434343, rw := 0xFFFFFFFF }
  , /- OWN_B_3 -/ { off := 0x20C, rst := 0x43434343, rw := 0xFFFFFFFF }
  , /- ECC_INJECT -/ { off := 0x400, rst := 0x0, rw := 0xC1FF01FF, prot := 1 } ]

/-- Registers of POOL (R530, R533). -/
def poolDefs : List RegDef := poolDefs_0 ++ poolDefs_1 ++ poolDefs_2

/-- Registers of GRID (R552). -/
def gridDefs : List RegDef :=
  [ /- GRID_LOCK -/ { off := 0x080, rst := 0x0, rw := 0x1, prot := 3 }
  , /- TIMEOUT -/ { off := 0x084, rst := 0x64, rw := 0x3FFF, rng := [(13, 0, 10, 10000)] }
  , /- WIN_SEL -/ { off := 0x088, rst := 0x0, rw := 0x7F }
  , /- WIN_BASE_LO -/ { off := 0x08C, rst := 0x0, rw := 0xFFFFFFFF, prot := 3 }
  , /- WIN_BASE_HI -/ { off := 0x090, rst := 0x0, rw := 0xF, prot := 3 }
  , /- WIN_TARGET_LO -/ { off := 0x094, rst := 0x0, rw := 0xFFFFFFFF, prot := 3 }
  , /- WIN_TARGET_HI -/ { off := 0x098, rst := 0x0, rw := 0xF, prot := 3 }
  , /- WIN_CTRL -/ { off := 0x09C, rst := 0x0, rw := 0xC000003F, prot := 3 }
  , /- CAT_PERM -/ { off := 0x0A0, rst := 0x0, rw := 0x7, prot := 3 }
  , /- DENIED_COUNT -/ { off := 0x0A4, rst := 0x0 }
  , /- FAULT_COUNT -/ { off := 0x0A8, rst := 0x0 }
  , /- TIMEOUT_COUNT -/ { off := 0x0AC, rst := 0x0 }
  , /- ABORT_COUNT -/ { off := 0x0B0, rst := 0x0 }
  , /- LAST_ERR_LO -/ { off := 0x0B4, rst := 0x0 }
  , /- LAST_ERR_HI -/ { off := 0x0B8, rst := 0x0 } ]

/-- Registers of HOST (R595). -/
def hostDefs : List RegDef :=
  [ /- HOST_CFG -/ { off := 0x080, rst := 0x0, rw := 0x3F, prot := 3 }
  , /- HOST_STAT -/ { off := 0x084, rst := 0x0 }
  , /- OUT_BASE_LO -/ { off := 0x088, rst := 0x0, rw := 0xFFFFFFFF }
  , /- OUT_BASE_HI -/ { off := 0x08C, rst := 0x0, rw := 0xFFFFFFFF }
  , /- ROUTE_SEL -/ { off := 0x090, rst := 0x0, rw := 0xFFF }
  , /- ROUTE -/ { off := 0x094, rst := 0x20000000, rw := 0xE000001F }
  , /- POSTED_ERR_COUNT -/ { off := 0x098, rst := 0x0 }
  , /- POSTED_ERR_ADDR -/ { off := 0x09C, rst := 0x0 }
  , /- VEC_PENDING -/ { off := 0x0A0, rst := 0x0 }
  , /- MSIX_PBA_LO -/ { off := 0x1F8, rst := 0x0 }
  , /- MSIX_PBA_HI -/ { off := 0x1FC, rst := 0x0 } ]

/-- Registers of BENCH_MAILBOX (R623). -/
def benchDefs : List RegDef :=
  [ /- MBX_STAT -/ { off := 0x080, rst := 0x0 }
  , /- RX_COUNT -/ { off := 0x084, rst := 0x0 }
  , /- LOST_COUNT -/ { off := 0x088, rst := 0x0 }
  , /- CRC_FAIL_COUNT -/ { off := 0x08C, rst := 0x0 }
  , /- ARR_FRAC -/ { off := 0x090, rst := 0x0 }
  , /- ARR_NS -/ { off := 0x094, rst := 0x0 }
  , /- ARR_SEC_LO -/ { off := 0x098, rst := 0x0 }
  , /- ARR_SEC_HI -/ { off := 0x09C, rst := 0x0 }
  , /- CHAL_LO -/ { off := 0x0A0, rst := 0x0 }
  , /- CHAL_HI -/ { off := 0x0A4, rst := 0x0 }
  , /- AUTH_0 -/ { off := 0x0A8, rst := 0x0, wo := 0xFFFFFFFF }
  , /- AUTH_1 -/ { off := 0x0AC, rst := 0x0, wo := 0xFFFFFFFF }
  , /- AUTH_2 -/ { off := 0x0B0, rst := 0x0, wo := 0xFFFFFFFF }
  , /- AUTH_3 -/ { off := 0x0B4, rst := 0x0, wo := 0xFFFFFFFF }
  , /- REC_0 -/ { off := 0x0C0, rst := 0x0 }
  , /- REC_1 -/ { off := 0x0C4, rst := 0x0 }
  , /- REC_2 -/ { off := 0x0C8, rst := 0x0 }
  , /- REC_3 -/ { off := 0x0CC, rst := 0x0 }
  , /- REC_4 -/ { off := 0x0D0, rst := 0x0 }
  , /- REC_5 -/ { off := 0x0D4, rst := 0x0 }
  , /- REC_6 -/ { off := 0x0D8, rst := 0x0 }
  , /- REC_7 -/ { off := 0x0DC, rst := 0x0 }
  , /- REC_8 -/ { off := 0x0E0, rst := 0x0 }
  , /- REC_9 -/ { off := 0x0E4, rst := 0x0 }
  , /- REC_10 -/ { off := 0x0E8, rst := 0x0 }
  , /- REC_11 -/ { off := 0x0EC, rst := 0x0 }
  , /- REC_12 -/ { off := 0x0F0, rst := 0x0 }
  , /- REC_13 -/ { off := 0x0F4, rst := 0x0 }
  , /- REC_14 -/ { off := 0x0F8, rst := 0x0 }
  , /- REC_15 -/ { off := 0x0FC, rst := 0x0 }
  , /- GOV_CTRL -/ { off := 0x100, rst := 0x3C, rw := 0x800F03FF, rng := [(9, 0, 0, 600)] }
  , /- GOV_LIMIT -/ { off := 0x104, rst := 0x2710, rw := 0xFFFF, rng := [(15, 0, 5000, 14000)] }
  , /- GOV_CFG -/ { off := 0x108, rst := 0x64000A3C, rw := 0xFF00FFFF, rng := [(31, 24, 1, 100), (15, 8, 1, 60), (7, 0, 0, 200)] }
  , /- GOV_STAT -/ { off := 0x10C, rst := 0xFFFF }
  , /- GOV_SEL -/ { off := 0x110, rst := 0x0, rw := 0x1F }
  , /- GOV_XP -/ { off := 0x114, rst := 0x0, rw := 0xBF003FFF }
  , /- GOV_REF -/ { off := 0x118, rst := 0x0, rw := 0xFFFFFFFF } ]

/-- Registers of POWER (R656). -/
def powerDefs : List RegDef :=
  [ /- PWR_STAT -/ { off := 0x080, rst := 0x803F0000 }
  , /- VIN_MEAS -/ { off := 0x084, rst := 0x0 }
  , /- VIN_WARN -/ { off := 0x088, rst := 0x2260, rw := 0xFFFF, rng := [(15, 0, 8300, 60000)] }
  , /- PD_CTRL -/ { off := 0x08C, rst := 0xE00, rw := 0xF00 }
  , /- PD_STAT -/ { off := 0x090, rst := 0xE00010F }
  , /- TEMP -/ { off := 0x094, rst := 0x0 }
  , /- THERM_CFG -/ { off := 0x098, rst := 0x69, rw := 0xFF, rng := [(7, 0, 60, 120)] }
  , /- WDOG_CFG -/ { off := 0x09C, rst := 0x3E8, rw := 0x80003FFF, prot := 3, rng := [(13, 0, 100, 10000)] }
  , /- WDOG_KICK -/ { off := 0x0A0, rst := 0x0, wo := 0xFFFF }
  , /- WAKE_CFG -/ { off := 0x0A4, rst := 0x0, rw := 0x1 }
  , /- WAKE_AT -/ { off := 0x0A8, rst := 0x0, rw := 0xFFFFFFFF }
  , /- RTC_NOW -/ { off := 0x0AC, rst := 0x0 }
  , /- RTC_STAT -/ { off := 0x0B0, rst := 0x0 }
  , /- RESET_CAUSE -/ { off := 0x0B4, rst := 0x0 } ]

/-- Registers of the time port block (R287) on NET and ISL_LINK pages. -/
def tpDefs : List RegDef :=
  [ { off := 0x300, rst := 0, rw := 0x1F1F0373 } -- TP_CTRL
  , { off := 0x304, rst := 0 } -- TP_STAT
  , { off := 0x308, rst := 0, rw := 0xFFFFFFFF } -- ASYMMETRY
  , { off := 0x30C, rst := 0, rw := 0xFFFFFFFF } -- TP_LAT_ADJ
  , { off := 0x310, rst := 0 } -- MEAN_PATH
  , { off := 0x314, rst := 0 } -- PORT_OFFSET
  , { off := 0x318, rst := 0 } -- BOUNDARY_SKEW
  , { off := 0x31C, rst := 0 } ] -- TP_COUNTS

/-- The eight registers of lane block `i` (R398), with `cfg` the reset word of LANE_CFG. -/
def laneDefs (cfg i : Nat) : List RegDef :=
  [ { off := 0x080 + 0x20 * i, rst := cfg, rw := 0xFFFFFFFF, rng := [(23, 16, 16, 128), (15, 0, 100, 10000)] }
  , { off := 0x084 + 0x20 * i, rst := 0 }
  , { off := 0x088 + 0x20 * i, rst := 0x00640010, rw := 0x0FFFFFFF, rng := [(27, 16, 1, 4095), (15, 0, 1, 65535)] }
  , { off := 0x08C + 0x20 * i, rst := 0, wo := 1 }
  , { off := 0x090 + 0x20 * i, rst := 0 }
  , { off := 0x094 + 0x20 * i, rst := 0 }
  , { off := 0x098 + 0x20 * i, rst := 0 }
  , { off := 0x09C + 0x20 * i, rst := 0 } ]

/-- The MSI-X table (R595): per entry, address low and high, data and vector control. -/
def msixDefs : List RegDef :=
  (upTo 128).map fun i => { off := 0x200 + 4 * i, rst := if i % 4 = 3 then 1 else 0, rw := 0xFFFFFFFF }

end Sys2Proof.Machine
end

