-- ==== Sys2Proof/Machine/State.lean ====
section
/-!
DEFINITION. The state of the part as plain data, and its reset (R6, R66, R101 and the chapters each structure names). What an
unlisted register, byte or entry reads as is its reset value, so that State.reset lists nothing.
-/
namespace Sys2Proof.Machine

/-- Why the machine stops with a fault. No command of this block ends in one: an access that the spec answers with a
failure response is a next state that holds the response (R539). -/
inductive Fault where
  /-- Raised by nothing; the type is kept inhabited so that an outcome can be written down. Safe. -/
  | none
deriving DecidableEq, Repr

/-- Why a command is refused by the model. -/
inductive Refusal where
  /-- The command has no meaning in the model yet. Safe: nothing can be proved about it. -/
  | notModelled (mnemonic : String)
deriving DecidableEq, Repr

/-- The responses of R539. -/
inductive Resp where
  | okay | refused | denied | fault | collided | aborted
deriving DecidableEq, Repr

/-- What the last Grid access was answered: its response and, for a read, the data in ascending address order. -/
structure BusOut where
  resp : Resp
  data : List Byte
deriving DecidableEq, Repr

/-- A command accepted by a block (R566, R568): its sequence number, the class and index of the master that issued it, its
code and its arguments. -/
structure Cmd where
  seq : Nat
  cls : Nat
  idx : Nat
  code : Nat
  a0 : Word
  a1 : Word
  a2 : Word
deriving DecidableEq, Repr

/-- A completion record (R569): `datum` is its datum in units of 2^-16 ns. -/
structure CRec where
  handle : Nat
  cls : Nat
  status : Nat
  result : Word
  datum : Nat
deriving DecidableEq, Repr

/-- What a waiting boundary-applied write writes: a register, with the value its select register held when the write
completed (R224), bytes of memory, or an untimed SYNC of the decimators (R373). A forwarded ramp request and a forwarded
plane-ready boundary wait likewise (R459). -/
inductive WKind where
  | reg (addr sel : Nat) (v : Word)
  | mem (bytes : List (Nat × Byte))
  | sync (mask : Nat) (cmd : Option Cmd)
  | ramp (bat : Nat) (lo : Word) (hi : Nat)
  | ready (bat : Nat)
deriving DecidableEq, Repr

/-- A boundary-applied write that waits (R22, R23): the boundary it is due at, the class of its writer, and its
place in the order in which writes complete (R24). -/
structure WWrite where
  due : Nat
  cls : Nat
  kind : WKind
  ord : Nat := 0
  /-- Whether it takes one of the 4096 places: the further words of one Grid transaction share its place (R23). -/
  place : Bool := true
  /-- It has come in a FORWARD record (R459). -/
  fwd : Bool := false
deriving DecidableEq, Repr

/-- A window of a master class (R541); `size` 0 is disabled. -/
structure Window where
  base : Nat := 0
  target : Nat := 0
  size : Nat := 0
  r : Bool := false
  w : Bool := false
deriving DecidableEq, Repr

/-- An access that waits: at a bank, for a handover (R520) or a recall (R495), at its master before GRID_LOCK (R543), or behind one of its
own (R538). `at'` is the raw instant at which it came. -/
structure Stalled where
  master : Master
  id : Nat
  addr : Nat
  /-- `some` bytes with their enables for a write, `none` for a read. -/
  wr : Option (List (Byte × Bool))
  len : Nat
  at' : Nat := 0
  /-- It has passed its window, and `addr` is its Grid address. -/
  mapped : Bool := false
  /-- It is a PCI Express request to a BAR. -/
  pcie : Bool := false
deriving DecidableEq, Repr

/-- The Grid: windows by 16 × class + index, the lock (R544), and the accesses that wait. -/
structure GridSt where
  lock : Bool := false
  wins : Tab Window := []
  lastErr : Nat × Nat := (0, 0)
  stalled : List Stalled := []
deriving DecidableEq, Repr

/-- The loop states of R47. -/
inductive LoopState where
  | hold | level | emergency | settle | fault
deriving DecidableEq, Repr

/-- A frame on the AVSBus (R42): a Voltage write of a code, or one of the three reads. -/
inductive AvsCmd where
  | voltageWrite (code : Nat) (emergency : Bool) | voltageRead | currentRead | statusRead
deriving DecidableEq, Repr

/-- The levelling loop (R37 to R47): its state, the frames waiting or on the bus (the head is on the bus) with the attempts
made of the head, whether downward steps are barred (R41), whether a read-back is deferred (R46), and the smallest steering
slack of the window so far, in permille and nanoseconds. -/
structure LevelSt where
  loop : LoopState := .hold
  frames : List AvsCmd := []
  attempts : Nat := 0
  downBar : Bool := false
  readDeferred : Bool := false
  winMin : Option (Int × Int) := none
  /-- The smallest measured slack of the last sample was below 50 permille (R40, R47). -/
  low : Bool := false
  /-- Data of the late boundaries of the last second, for cause LATE (R463). -/
  lateTimes : List Nat := []
  /-- CEILING_LATE has been raised since the last soft reset of LEVEL (R505). -/
  ceilingSeen : Bool := false
  /-- The offset of the VCORE code applied from calibration (R584). -/
  trim : Int := 0
deriving DecidableEq, Repr

/-- A stage block (R30, R31): whether it works on a sample, which one, its done point of the last sample it completed as a
raw instant (none when none awaits measurement), the work E of that sample, and its last projected slack (R34). -/
structure Blk where
  busy : Bool := false
  n : Nat := 0
  done : Option Nat := none
  exec : Nat := 0
  proj : Option Int := none
deriving DecidableEq, Repr

/-- One exchange slot of the write bank: the rank of the producer that wrote it (R17) and the value. -/
structure Wr where
  rank : Nat
  v : Word
deriving DecidableEq, Repr

/-- The exchange (R14): `cur` reads this sample, `nxt` is written this sample. `tick` counts the boundaries since the reset;
`quiet` gives, per slot, the tick from which its present run of values below threshold counts, or none while its value is not
below threshold (R205); `srcQuiet` the same per fly-bus source. -/
structure Exch where
  cur : Tab Word := []
  nxt : Tab Wr := []
  tick : Nat := 0
  quiet : Tab (Option Nat) := []
  srcQuiet : Tab (Option Nat) := []
deriving DecidableEq, Repr

/-- The states of the servo (R262). -/
inductive ServoState where
  | free | acquire | locked | slew | holdover
deriving DecidableEq, Repr

/-- A pending step of the datum (R257): the amount in 2^-16 ns and, for the STEP command, the command that made it. -/
structure StepReq where
  amount : Int
  cmd : Option Cmd
deriving DecidableEq, Repr

/-- The datum and its servo (R249 to R263, R274, R275). `raw` counts 2^-16 ns, `offset` is in 2^-64 ns, `rate` and `integ` in
2^-48. `lastOff` gives, per source code, the raw instant of its last offset and the instant its present run without a gap began. -/
structure DatumSt where
  pll : Bool := false
  everLocked : Bool := false
  raw : Nat := 0
  offset : Int := 0
  rate : Int := 0
  integ : Int := 0
  index : Nat := 0
  started : Bool := false
  stepReq : List StepReq := []
  stepReady : List StepReq := []
  servo : ServoState := .free
  cause : Nat := 0
  srcNow : Nat := 0
  inBand : Nat := 0
  planEnd : Option Nat := none
  holdPending : Bool := false
  switched : Bool := false
  asym : Bool := false
  lastOff : Tab (Nat × Nat) := []
  ppsLast : Option Int := none
  ppsOk : Bool := false
  clk10mOk : Bool := false
  nowRaw : Nat := 0
  nowDatum : Nat := 0
deriving DecidableEq, Repr

/-- A time port of a NET or ISL_LINK page (R264 to R273): the filtered mean path delay, the anomalous measurements held, the
offsets withheld as a jump, the last offset delivered and the exchange in progress. Times are signed counts of 2^-16 ns.
`sync` is the latest Sync whose origin is awaited (sequence, receive time-stamp, correction), `last` the latest complete Sync
(t1, t2, c), `req` the outstanding request (sequence, send time-stamp), `presp` a two-step Pdelay_Resp awaiting its follow-up
(sequence, t2, t4, correction), and `peer` the last time frame over Islos (its departure, its arrival). -/
structure TimePort where
  dbar : Option Int := none
  held : List Int := []
  jumps : Nat := 0
  delivered : Option Int := none
  sync : Option (Nat × Int × Int) := none
  last : Option (Int × Int × Int) := none
  req : Option (Nat × Int) := none
  presp : Option (Nat × Int × Int × Int) := none
  seqSync : Nat := 0
  seqReq : Nat := 0
  peer : Option (Int × Int) := none
deriving DecidableEq, Repr

/-- Where a strip-processor result lands (R67, R76): a physical D register, an accumulator, a special register by its SREG
code (R125), or a flag. -/
inductive Dest where
  | d (i : Nat) | ac (i : Nat) | sr (code : Nat) | flag (i : Nat)
deriving DecidableEq, Repr

/-- A result in flight (R76, R78): the bundle count at which it lands, the rank of its slot (M1 0, M2 1, A 2, T 3), the
bundle count at which it was issued, its destination and its value. -/
structure Land where
  due : Nat
  rank : Nat
  iss : Nat
  dest : Dest
  val : Int
deriving DecidableEq, Repr

/-- A pool-port transfer (R96). -/
structure Far where
  toGrid : Bool
  addr : Nat
  isY : Bool
  loc : Nat
  len : Nat
deriving DecidableEq, Repr

/-- What follows the delay bundle of a control instruction (R76, R126): a target, or the end of the handler (R88). -/
inductive After where
  | jump (target : Nat) | iret
deriving DecidableEq, Repr

/-- STAT.RUN (R103), with the time between SDONE and the done point apart (R98). -/
inductive SpRun where
  | idle | running | draining | done | halted
deriving DecidableEq, Repr

/-- A strip processor (R59 to R100): `d` and `ac` by physical register, `sr` the special registers by SREG code (R125) in raw
bits, `iss` the count of bundles issued, `e` the work count of the sample (R65), `flt` a fault raised and not yet taken with its
address, `hdrDue`, `gNext` and `gLen` the progress of the gather (R93), `cache` the body in the repeat cache as (start, end,
bank), `capture` a body being captured and `serve` one being served (R63), `last` the last sample it ran (R94). -/
structure SpSt where
  run : SpRun := .idle
  inHandler : Bool := false
  pc : Nat := 0
  iss : Nat := 0
  pend : List Land := []
  delay : Option After := none
  rstack : List Nat := []
  d : Tab Word := []
  ac : Tab Int := []
  sr : Tab Nat := []
  e : Nat := 0
  mbox : Bool := false
  unread : Bool := false
  brk : Bool := false
  flt : Option (Nat × Nat) := none
  hdrDue : Bool := false
  gNext : Nat := 0
  gLen : Nat := 0
  far : List Far := []
  cache : Option (Nat × Nat × Nat) := none
  capture : Option (Nat × Nat) := none
  serve : Option (Nat × Nat) := none
  last : Option Nat := none
  skipped : Nat := 0
  swapped : Option Nat := none
deriving DecidableEq, Repr

/-- A staged image (R186, R191): the handle of its LOAD_GRAPH, its place in the pool and its GRAPH_ID, CRC and GAP, and whether it
is a live edit. -/
structure Staged where
  handle : Nat
  addr : Nat
  size : Nat
  id : Nat
  crc : Nat
  gap : Nat
  live : Bool
deriving DecidableEq, Repr

/-- A commit in progress (R196): its command (none for a forwarded one), the boundaries, the image, the dipping channels, the
replaced blocks (battens at 64 + k), whether it runs in a mode without a running graph (R202), has copied its memories, and has passed s. -/
structure Commit where
  cmd : Option Cmd
  c : Nat
  n : Nat
  s : Nat
  r : Nat
  u : Nat
  done : Nat
  img : Staged
  dips : List Nat
  replaced : List Nat
  dark : Bool
  /-- Boundary c has come (R196). -/
  started : Bool := false
  /-- REG_IMAGE has been written (R194). -/
  settings : Bool := false
  copied : Bool := false
  swapped : Bool := false
deriving DecidableEq, Repr

/-- The graph in service (chapter 06). -/
structure GraphSt where
  /-- Per stage block (SP_k at k, BAT_k at 64 + k): 8 + its stage when it is in the stage map, else 0 (R178). -/
  map : Tab Nat := []
  /-- The SOURCE_MAP in effect, 0x3000 where unlisted. -/
  src : Tab Nat := []
  /-- The HDR_CFG word held with the staged bank of SP k (R186). -/
  hdr : Tab (Option Word) := []
  /-- The battens the staged image stages into (R188). -/
  stagedBats : List Nat := []
  /-- The strip processors the staged image stages into (R188). -/
  stagedSps : List Nat := []
  staged : Option Staged := none
  commit : Option Commit := none
  /-- The LATENCY words of the running graph (R190). -/
  lat : Tab Nat := []
  /-- The FEEDBACK entries of the running graph (R189). -/
  feedback : List Nat := []
  /-- The channels of the last commit that dipped (R200). -/
  dipped : List Nat := []
  /-- Blocks that a commit keeps idle: until its r, or for good when it is BROKEN (R199, R201). -/
  idle : List Nat := []
  /-- Replaced strip processors that have not reached their done point since s (R199). -/
  leaving : List Nat := []
  /-- Forwarded commits that wait: c, GRAPH_ID and CRC (R204). -/
  fwd : List (Nat × Nat × Nat) := []
  /-- BROKEN holds these egress channels at gain 0 (R201). -/
  stuck : List Nat := []
  /-- The graph is BROKEN (R201). -/
  broken : Bool := false
  /-- The commit store: (Grid address, word) (R195). -/
  store : List (Nat × Word) := []
deriving DecidableEq, Repr

/-- The crossfade states (R146). -/
inductive XfState where
  | idle | running | held
deriving DecidableEq, Repr

/-- A running ramp (R153 to R157): its slot, its plane and crosspoint, start value, target, N, start boundary and shape. -/
structure Ramp where
  slot : Nat
  plane : Nat
  src : Nat
  dst : Nat
  g0 : Int
  gT : Word
  n : Nat
  start : Nat
  shape : Nat
deriving DecidableEq, Repr

/-- A ramp request in the queue (R152): its boundary, its place in the order of writes (R24), its two words and whether it
has been deferred. -/
structure RampReq where
  due : Nat
  ord : Nat
  lo : Word
  hi : Nat
  deferred : Bool
deriving DecidableEq, Repr

/-- The spare lane (R161 to R163): rotating; rechecking the lane; comparing the next lane after two mismatches; standing in
for a lane; or out. -/
inductive Spare where
  | rotate | recheck | neighbour (suspect : Nat) | subst (lane : Nat) | out
deriving DecidableEq, Repr

/-- A batten (chapter 05). `xfN`, `xfK`, `xfFrom` are N, the step of the sample in progress and the FROM plane, `fresh` that
the crossfade started at the boundary in progress; `queued` a queued or deferred swap as (curve, time). `verdict` is the
spare's comparison in the sample in progress, judged at the next boundary, `seen` the lanes compared since the reset and `turn` since the last rehearsal pass, `held` the lane results and count of a
late sample. -/
structure BatSt where
  live : Nat := 0
  loading : Bool := false
  ready : Bool := true
  readyAt : Option Nat := none
  xf : XfState := .idle
  xfRev : Bool := false
  xfCurve : Nat := 0
  xfN : Nat := 0
  xfK : Nat := 0
  xfFrom : Nat := 0
  fresh : Bool := false
  queued : Option (Nat × Nat) := none
  ramps : List Ramp := []
  queue : List RampReq := []
  spare : Spare := .rotate
  lane : Nat := 0
  shadowing : Bool := true
  verdict : Option Bool := none
  seen : List Nat := []
  turn : List Nat := []
  untested : Bool := true
  held : Option (List Int × Nat × Nat) := none
deriving DecidableEq, Repr

/-- A direction of a port (R346): its visible state code (0 OFF, 1 ACQUIRE, 2 RAMP_IN, 3 RUN, 4 FADE); `live` the first frame
carried and the N_F of its ramp; `fade` the first faded frame, its down step and N_F; `held` the values held in a fade, by slot;
`last` those of the last good frame; `clean` the frame from which no fault has come about, if any has been seen. -/
structure PortDir where
  st : Nat := 0
  live : Option (Nat × Nat) := none
  fade : Option (Nat × Nat × Nat) := none
  held : Tab Word := []
  last : Tab Word := []
  clean : Option Nat := none
deriving DecidableEq, Repr

/-- A serial audio port (chapter 10): ψ, the phases learnt so far while it learns, the frame of the last edge, the frames received
and not yet presented (by frame index), the masks in effect by boundary, the drive changes by boundary, the latched block set, and the frames received in the block in progress (R359). -/
structure PortSt where
  rx : PortDir := {}
  tx : PortDir := {}
  learning : Bool := false
  phases : List Int := []
  edge : Option Nat := none
  rcvd : Tab (Tab Word) := []
  masks : List (Nat × Nat) := []
  drives : List (Nat × Bool) := []
  barred : Bool := false
  blkAt : Nat × Nat := (0, 0)
  blkLatch : Nat × Nat := (0, 0)
  blkSet : Bool := false
  rxCount : Nat := 0
deriving DecidableEq, Repr

/-- A clock group (R326 to R331): the datum of its last leading edge, and the data of its last 33 edges. -/
structure ClkGroup where
  last : Option Nat := none
  edges : List Nat := []
  stopped : Bool := false
deriving DecidableEq, Repr

/-- What a decimator channel is to do for one sample: the sample, its three configuration words, P and the four GCORR, and the
input index within the sample at which it is cleared first. -/
structure DecJob where
  k : Nat
  src : Nat
  st01 : Nat
  st23 : Nat
  gc : List Nat
  phase : Nat
  clear : Option Nat
deriving DecidableEq, Repr

/-- A decimator channel (chapter 11): the words in effect, the clearing due in the present and in the next sample, the input line and the stage
histories (newest first), the inputs since the last clearing, the jobs whose inputs have not been presented, and the values that
wait to be written, as (sample, value, VALID). -/
structure DecSt where
  src : Nat := 0
  st01 : Nat := 0x00010001
  st23 : Nat := 0x00010001
  gc : List Nat := [0x800000, 0x800000, 0x800000, 0x800000]
  phase : Nat := 0
  clear : Option Nat := none
  line : List Int := []
  hist : List (List Int) := [[], [], [], []]
  since : Nat := 0
  clearNext : Option Nat := none
  bad : Bool := false
  jobs : List DecJob := []
  vals : List (Nat × Word × Bool) := []
  now : Word := 0#32
  valid : Bool := false
  ratioOk : Bool := false
deriving DecidableEq, Repr

/-- A timed SYNC that waits for its datum (2^-16 ns), or a SYNC that has come about and completes at boundary `doneAt` with the
count of the channels cleared (R368, R373). -/
structure SyncReq where
  mask : Nat
  datum : Nat
  cmd : Option Cmd
  fired : Bool := false
  doneAt : Nat := 0
  count : Nat := 0
deriving DecidableEq, Repr

/-- A patch dip of a route entry (R225, R226): the source heard on the down half, the half, the step of the sample in progress,
N_P, and whether a write of the boundary in progress began it. -/
structure Dip where
  old : Nat
  down : Bool
  j : Nat
  n : Nat
  fresh : Bool
deriving DecidableEq, Repr

/-- A half dip run by a mode change or by the start or stop of the graph (R222, R223). -/
structure HalfDip where
  down : Bool
  j : Nat
  n : Nat
deriving DecidableEq, Repr

/-- What the output patch handed on in one sample: values by destination, the transmit slots and Islos channels that are not
silent (R350, R410), the values of the interpolators by 32 × (port − 28) + slot, and the Islos channels that carry the held mark
(R473). -/
structure Handed where
  n : Nat
  vals : Tab Word
  loud : List Nat
  fast : Tab (List Word)
  marked : List Nat := []
deriving DecidableEq, Repr

/-- The fixed patch (chapter 07). Route words by entry; a dip by input entry, or 0x10000 + destination; tone words and the
boundaries of their last restart; interpolator words by 4 × channel (TGT, ST01, ST23) and stage histories; what a late patch still
holds; the samples presented by the bridges, the Islos links, the listeners and a principal; and what has been handed on, newest
first. -/
structure PatchSt where
  inRoute : Tab Nat := []
  outRoute : Tab Nat := []
  dips : Tab (Option Dip) := []
  hold : Tab Word := []
  holdRun : Tab (Option Nat) := []
  tone : Tab Nat := []
  toneFrom : Tab Nat := []
  interp : Tab Nat := []
  interpHist : Tab (List (List Int)) := []
  interpBad : List Nat := []
  interpClash : List Nat := []
  oddPorts : List Nat := []
  graphOn : Bool := false
  graphRamp : Option HalfDip := none
  patchOn : Bool := false
  patchFrom : Nat := 0
  patchRamp : Option HalfDip := none
  inHeld : Option (List (Nat × Word)) := none
  outHeld : List Handed := []
  brIn : Tab Word := []
  islosIn : Tab Word := []
  islosHeld : List Nat := []
  markNxt : List Nat := []
  markCur : List Nat := []
  markHold : List Nat := []
  netIn : Tab Word := []
  fwdIn : Tab Word := []
  handed : List Handed := []
deriving DecidableEq, Repr

/-- A bridge (R235 to R241): its last two window rates in millihertz, the rate it locked at, the step of a fade-out or ramp-in
with what follows the fade, and the last converted sample of each in-channel. -/
structure BridgeSt where
  window : Option Nat := none
  ratio : Nat := 0
  fade : Option HalfDip := none
  after : Nat := 0
  last : Tab Word := []
  inMap : Tab Nat := []
  outMap : Tab Nat := []
deriving DecidableEq, Repr

/-- One slot of a transmitted frame (R334, R335). -/
inductive SlotOut where
  | hiZ | low | word (v : Word)
deriving DecidableEq, Repr

/-- A serial lane (R390 to R397), ISL_LANE_i at i and NET_LANE_n at 16 + n; its visible state is LANE_STAT. `ts1`, `ack` and `ts2`
count consecutive training sets, `rate` is the rate those TS2 name; `offer` the partner's offer; `trying` that an attempt runs (else a
wait), `changing` that a rate change awaits alignment, `exiting` that an exit from idle is in progress; `desk` the order in which
it entered DESKEW. -/
structure LaneSt where
  ts1 : Nat := 0
  ack : Nat := 0
  ts2 : Nat := 0
  rate : Nat := 0
  trying : Bool := false
  changing : Bool := false
  exiting : Bool := false
  desk : Nat := 0
deriving DecidableEq, Repr

/-- The records a principal forwards (R459). Addresses are Grid addresses, `t` a datum in 2^-16 ns. -/
inductive FwdRec where
  | write (master addr : Nat) (words : List Word)
  | writeBytes (master addr mask : Nat) (v : Word)
  | ramp (bat : Nat) (lo : Word) (hi : Nat)
  | trigger (cue standby : Nat)
  | cancel (cue : Nat)
  | standby (v : Nat)
  | commit (id crc : Nat)
  | planeReady (bat : Nat)
  | dsync (mask t : Nat)
  | selected (master addr sel : Nat) (v : Word)
deriving DecidableEq, Repr

/-- The messages of the Islos control channel (R417, R475). -/
inductive CtlMsg where
  | forward (b : Nat) (r : FwdRec)
  | abdicate (t cause : Nat)
  | hello (cfg primary rank version graphId : Nat)
  | request
  | start (h : Nat)
  | region (r addr : Nat) (words : List Word)
  | copyDone (n : Nat)
  | joined (j : Nat)
  | refuse (reason : Nat)
  | mirrorGo (cue b : Nat)
  | tableau (t : Nat)
  | mailbox (body : List Byte)
deriving DecidableEq, Repr

/-- The control channel of a link (R416): the SEQ of the next new frame, the frames outstanding, the messages that wait, the SEQ
expected, whether an acceptance awaits its ACK, and the timeouts since ACK advanced. -/
structure CtlSt where
  seq : Nat := 0
  out : List (Nat × CtlMsg) := []
  queue : List CtlMsg := []
  expect : Nat := 0
  ackDue : Bool := false
  timeouts : Nat := 0
deriving DecidableEq, Repr

/-- A receive group (R413): its state code (0 OFF, 1 ACQUIRE, 2 RAMP_IN, 3 RUN, 4 FADE), the samples in time one after another, the
step and N_F of a ramp or fade, the missing samples one after another, and the values last presented. -/
structure LinkGroup where
  st : Nat := 0
  run : Nat := 0
  j : Nat := 0
  nf : Nat := 0
  miss : Nat := 0
  last : List Word := []
deriving DecidableEq, Repr

/-- A received sample of a group that waits for its presentation (R411). -/
structure LinkSample where
  k : Nat
  g : Nat
  held : Bool
  vals : List Word
deriving DecidableEq, Repr

/-- An Islos link (R403 to R427): its control channel, receive groups, received samples, per lane the frames without it and the
parking that followed (R405), whether a heartbeat has been received, and the residuals of the last two markers out of limit. -/
structure LinkSt where
  ctl : CtlSt := {}
  groups : Tab LinkGroup := []
  rx : List LinkSample := []
  absent : Tab Nat := []
  peerPark : Nat := 0
  skewBad : Nat := 0
  quiet : Bool := false
deriving DecidableEq, Repr


/-- A talker context (R435 to R439): its descriptor words, the boundary it starts at, and the packets it has sent. -/
structure Talker where
  words : List Nat
  start : Nat
  pkts : Nat := 0
deriving DecidableEq, Repr

/-- A received RTP packet whose samples wait for their presentation (R440, R441): its first sample index, RTP sequence number and
timestamp, and its values by sample and channel. -/
structure RtpHeld where
  k : Nat
  seq : Nat
  ts : Nat
  rows : List (List Word)
deriving DecidableEq, Repr

/-- A listener context (R435, R440, R441): its descriptor words, its state machine, the packets held, the last sequence number of each
path, and its counts. -/
structure Listener where
  words : List Nat
  gr : LinkGroup := { st := 1 }
  held : List RtpHeld := []
  seqA : Option Nat := none
  seqB : Option Nat := none
  pkts : Nat := 0
  lostA : Nat := 0
  lostB : Nat := 0
  discard : Nat := 0
deriving DecidableEq, Repr

/-- A control datagram that has passed its checks and waits to be acted on (R444): the port, the sender's MAC and IP addresses, VLAN
and UDP port, the key slot, the request's SEQ, its message code and body. -/
structure CdgMsg where
  port : Nat
  mac : Nat
  vid : Nat
  ip : Nat
  udp : Nat
  slot : Nat
  seq : Nat
  code : Nat
  body : List Byte
deriving DecidableEq, Repr

/-- Auto-negotiation or the SGMII in-band word of a port (R431): completed or link up, full duplex, and the speed code. -/
structure NetNeg where
  up : Bool := false
  full : Bool := false
  speed : Nat := 0
deriving DecidableEq, Repr

/-- The network ports above their lanes (chapter 14): contexts, negotiation by port, the talkers a slow port has shed, the boundaries from
which and until which talkers send (for SHADOW 0 and SHADOW 1), the last SEQ accepted and sent per key slot, the datagrams that wait, and
the key store. -/
structure NetSt where
  talkers : Tab (Option Talker) := []
  listeners : Tab (Option Listener) := []
  neg : Tab NetNeg := []
  shed : Tab (List Nat) := []
  drive : Option Nat × Option Nat := (none, none)
  shadow : Option Nat × Option Nat := (none, none)
  cdgSeq : Tab Nat := []
  cdgReply : Tab Nat := []
  cdg : List CdgMsg := []
  keys : Tab (List Byte) := []
deriving DecidableEq, Repr


/-- A trigger the Prompt holds (R294 to R299): the sequence number of its handle and the class of its command's master, the cue, the
source, the datum it names before the pre-delay when it is timed, the sample it was accepted in, its due and run boundaries, whether it is
late, and the GRAPH_COMMIT actions issued so far, by index, with 0 or the reason of their failure. -/
structure Trig where
  seq : Nat
  cls : Nat
  cue : Nat
  src : Nat
  t : Option Nat
  m : Nat
  b0 : Nat
  b : Nat
  late : Bool
  issued : List (Nat × Nat) := []
deriving DecidableEq, Repr

/-- The Prompt (chapter 09): its triggers in the order of acceptance, the raw instant of the last accepted pin edge, and the runs that have
opened within the merge window (R304). -/
structure PromptSt where
  trigs : List Trig := []
  pinLast : Option Nat := none
  ran : List (Nat × Nat) := []
deriving DecidableEq, Repr

/-- The tableau (R308 to R317): the raw instant of the last capture, the timed command that waits with its datum, the data of messages that
wait, the SNAP words and TABLEAU_ID of each page, and an extended copy in progress with its ID. -/
structure TabSt where
  last : Option Nat := none
  timed : Option (Nat × Cmd) := none
  msgs : List Nat := []
  ids : Tab Nat := []
  snaps : Tab (List Word) := []
  ext : Option (Nat × Tab Word) := none
deriving DecidableEq, Repr

/-- A REGION that has arrived and waits for the next boundary (R478). -/
structure RegionIn where
  r : Nat
  addr : Nat
  words : List Word
deriving DecidableEq, Repr

/-- Catch-up at the joiner (R477): its link, its command if any, the phase (1 HELLO, 2 COPY, 3 WARM, 4 MATCH), the hold boundary, the
REGIONs installed and announced, the datum at which WARM ends, the agreements one after another and the join boundary sent. -/
structure Catch where
  link : Nat
  cmd : Option Cmd
  phase : Nat := 1
  h : Nat := 0
  got : Nat := 0
  expect : Option Nat := none
  wait : List RegionIn := []
  warmEnd : Nat := 0
  agree : Nat := 0
  join : Option Nat := none
deriving DecidableEq, Repr

/-- Catch-up at the source (R684, R476): the joiner's link, the hold boundary, the piece being sent and the items of it sent, and the REGIONs
sent. -/
structure Source where
  link : Nat
  h : Nat := 0
  range : Nat := 0
  pos : Nat := 0
  sent : Nat := 0
  done : Bool := false
deriving DecidableEq, Repr

/-- The redundancy controller (chapter 15). `lines` the last sampled ACTIVE_IN levels (bit 0 A, bit 1 B); `held` the records that
have arrived during COPY, in order; `abdicating` this part's T with its command; `peerT` the T of an ABDICATE received, by link; `clash` the links
with STRAP_CLASH; `election` 1 or 2 while a start-up election runs; `lost` that step has been lost; `digests` this part's digests
of past samples; `peerDigest` those received; `own` the ingress values of past samples and `eg` the egress and held ingress reads, newest first. `handover` a HANDOVER that waits for its boundary, `arose`
the cause that has arisen since the last boundary, `conds` the conditions of R467 to R484 that held at it, `joined` the join boundaries
received by link, and `hellos` the version and graph of the last HELLO of each link. -/
structure RedSt where
  lines : Nat := 0
  held : List (Nat × FwdRec) := []
  abdicating : Option (Nat × Option Cmd) := none
  peerT : Tab (Option Nat) := []
  clash : List Nat := []
  election : Nat := 0
  lost : Bool := false
  catchup : Option Catch := none
  source : Option Source := none
  digests : List (Nat × Nat) := []
  diverge : Nat := 0
  outvoted : Nat := 0
  own : List (Nat × Tab Word) := []
  eg : List (Nat × Tab Word × Tab Word) := []
  voted : Option (Tab Word × Tab Word) := none
  enterAt : Option (Nat × Nat) := none
  strapped : Bool := false
  handover : Option Cmd := none
  arose : Nat := 0
  conds : Nat := 0
  joined : Tab Nat := []
  hellos : Tab (Option (Nat × Nat)) := []
  yieldAt : Option Nat := none
deriving DecidableEq, Repr


/-- The pool's bank ports (chapter 17): the handovers that are pending, as (bank, port B, new owner), and that the latch of errors holds an
uncorrectable one that has not been read (R529). -/
structure PoolSt where
  pend : List (Nat × Bool × Nat) := []
  latched : Bool := false
deriving DecidableEq, Repr

/-- A bank on loan (R493 to R497): the block under test, the background (false 0, true 0x55), whether the block is suspect, and whether a
recall is in progress. -/
structure LoanSt where
  block : Nat := 0
  bg : Bool := false
  suspect : Bool := false
  recalled : Bool := false
deriving DecidableEq, Repr

/-- The rehearsal engine (chapter 16). `loans` by bank; `resume` the block and background at which a recalled bank goes on; `lastUse` the raw
instant of the last access to a bank by its owner; `marched` the backgrounds finished per bank since the reset (bit 0 and 1) and `marchedNow`
since the last pass; `offered` the banks offered since the pass began and `borrowed` those borrowed in it; `scrubPos` the words of the scrub
pass that are done; `scrubOnce` that a pass has finished since the reset, `scrubbed` since the last rehearsal pass, `scrubPeriod` since the
last SCRUB_PERIOD end; `segs` and `segsNow` the self-test segments done per processor since its UNTESTED was set and in the pass; `rerun`
the (processor, segment) being run again; `laneOnce` the lanes that have been looped back or UP, `laneNow` those looped back in the pass,
`laneRerun` those being run again; `grace` that only offered banks never borrowed hold the pass back, `graceOnce` likewise for POOL's
UNTESTED; `used` the activities enabled at any time in the pass; `corr` the corrected errors by page; `poolUe` that an uncorrectable error has
been found in audio state since the last CLEAR_FAIL; `sec` and `ue` the errors since the last report; `report` the bytes of a report that
wait to be written, with their address; `passOnce`
that a pass has completed since the reset. -/
structure RehSt where
  loans : Tab (Option LoanSt) := []
  resume : Tab LoanSt := []
  lastUse : Tab Nat := []
  marched : Tab Nat := []
  marchedNow : Tab Nat := []
  offered : List Nat := []
  borrowed : List Nat := []
  scrubPos : Nat := 0
  scrubOnce : Bool := false
  scrubbed : Bool := false
  scrubPeriod : Bool := false
  segs : Tab Nat := []
  segsNow : Tab Nat := []
  rerun : List (Nat × Nat) := []
  laneOnce : List Nat := []
  laneNow : List Nat := []
  laneRerun : List Nat := []
  grace : Bool := false
  graceOnce : Bool := false
  used : Nat := 15
  corr : Tab Nat := []
  poolUe : Bool := false
  sec : Nat := 0
  ue : Nat := 0
  report : Option (Nat × List Byte) := none
  passOnce : Bool := false
deriving DecidableEq, Repr

/-- The sealed settings and constants of a measurement channel (R602, R604, R605): SRC, frequency and time weighting, and FS_SPL in 0.01 dB. -/
structure MeasChan where
  src : Nat := 0
  freq : Nat := 0
  time : Nat := 0
  fsSpl : Nat := 0
deriving DecidableEq, Repr

/-- The sealed values: the four channels and INT_LEN in seconds (R606, R616). -/
structure Sealed where
  chans : List MeasChan := [{}, {}, {}, {}]
  intLen : Nat := 1
deriving DecidableEq, Repr

/-- What the core has measured of a channel, in 0.01 dB (R604, R605): LAeq, level max and LCpeak of the period, LAeq of the interval so far. -/
structure Levels where
  laeq : Nat := 0xFFFF
  top : Nat := 0xFFFF
  peak : Nat := 0xFFFF
  run : Nat := 0xFFFF
deriving DecidableEq, Repr

/-- The sealed core (R598 to R618). `on` PD1; `period` the period within the second; `seq` the SEQ of the next record; `fwCrc` the CRC of the
start check and `bad` INTEGRITY; `next` values committed and not yet in effect, with the RTC; `calib` in calibration, with the pending copy and RTC;
`log` the entries held, oldest first; `mPeak` the largest LCpeak of the minute with its channel, `mFlags` the flag bits of byte 13 that have
held in it, `mPart` that it was not measured in full; `last` the LAeq of the last completed interval; `levels` those of the last record;
`sent` the records on their way to the mailbox. -/
structure BenchSt where
  on : Bool := true
  period : Nat := 0
  seq : Nat := 0
  fwCrc : Nat := 0
  bad : Bool := false
  vals : Sealed := {}
  next : Option (Sealed × Option Nat) := none
  calib : Option (Sealed × Option Nat) := none
  sealLow : Bool := false
  sealCount : Nat := 0
  nonce : Option Nat := none
  refused : Nat := 0
  lockout : Bool := false
  log : List (List Byte) := []
  mPeak : Option (Nat × Nat) := none
  mFlags : Nat := 0
  mPart : Bool := false
  last : List Nat := [0xFFFF, 0xFFFF, 0xFFFF, 0xFFFF]
  levels : List Levels := [{}, {}, {}, {}]
  sent : List (List Nat) := []
deriving DecidableEq, Repr

/-- The mailbox and the governor of the Stage die (R608, R619 to R622): the last SEQ accepted, the view latched by a read of REC_0 (ARR_FRAC
to ARR_SEC_HI, then REC_1 to REC_15), the entries as (GOV_XP, GOV_REF), `held`, the period LAeq values of the window by RTC second, and the entries
whose last request was refused. -/
structure MailSt where
  lastSeq : Option Nat := none
  view : List Nat := []
  ents : Tab (Nat × Nat) := []
  held : Nat := 0
  window : List (Nat × List Nat) := []
  retry : List Nat := []
deriving DecidableEq, Repr

/-- The state of the supervisor's sequencer (R633 to R635): OFF and WATCH; waiting for the PG of rail i; the 1 ms after it; up; held in reset by
RESET_N; in power-down before rail i. -/
inductive RailState where
  | off | watch | waitPg (i : Nat) | delayUp (i : Nat) | up | held | down (i : Nat)
deriving DecidableEq, Repr

/-- The supervisor and the RTC (R628 to R637, R656 to R659), which a reset of the Stage die leaves alone. `en` and `pg` by rail; `vinOk`, `ovp`
that an over-voltage shutdown awaits VIN below 60.0 V, `keep` PD0; `target` the state after a power-down, `retry` that a new power-on is to follow;
`faults` the rail faults one after another, `rail` and `fault` of the last, `cause` that of the power-on in progress. -/
structure SupSt where
  state : RailState := .up
  vinOk : Bool := true
  ovp : Bool := false
  keep : Bool := true
  vaux : Bool := true
  en : Nat := 0x3F
  pg : Nat := 0x3F
  target : RailState := .watch
  retry : Bool := false
  faults : Nat := 0
  rail : Nat := 0
  fault : Nat := 0
  cause : Nat := 0
  rtc : Nat := 0
  rtcValid : Bool := false
  wakeCfg : Nat := 0
  wakeAt : Nat := 0
  resetCause : Nat := 0
deriving DecidableEq, Repr

/-- A SET_MODE in progress (R642, R643): its command, the target code, c, and the boundary at which its down half ends. -/
structure ModeReq where
  cmd : Cmd
  target : Nat
  c : Nat
  leave : Option Nat := none
  result : Nat := 0
deriving DecidableEq, Repr

/-- The PTP event messages (R264). -/
inductive PtpKind where
  | sync | followUp | delayReq | delayResp | pdelayReq | pdelayResp | pdelayRespFollowUp
deriving DecidableEq, Repr

/-- What leaves the part. -/
inductive Out where
  | msix (addr data : Nat)
  | avs (rail : Nat) (cmd : AvsCmd) (mv : Nat)
  | ppsOut (width : Nat)
  | ptp (page : Nat) (kind : PtpKind) (msg : PtpMsg)
  | timeFrame (page : Nat) (dep peerDep peerArr : Int)
  | ctl (link seq ack : Nat) (msg : CtlMsg)
  | ackOnly (link ack : Nat)
  | audio (link group index : Nat) (silent held : Bool) (samples : List (List Word))
  | heartbeat (link role ack index health : Nat)
  | marker (link index residual : Nat)
  | toFirmware (link : Nat) (body : List Byte)
  | tdm (port frame : Nat) (slots : List SlotOut)
  | tableauOut (width : Nat)
  | net (port cls : Nat) (frame : List Byte)
  | netToFirmware (port : Nat) (frame : List Byte)
  | cdgToFirmware (slot : Nat) (body : List Byte)
  | uartId (crc count held : Nat)
  | uartNow (rtc : Nat) (levels : List Levels)
  | uartLog (entries : List (List Byte))
  | uartErr
  | pcieCpl (status : Nat) (data : List Byte)
  | pcieOut (addr : Nat) (write : Option (List (Byte × Bool))) (len : Nat)
  | fuse (data : List Nat)
  | catRefused
  | late (master : Master) (id : Nat) (resp : Resp) (data : List Byte)
deriving DecidableEq, Repr

/-- The PCI Express side of HOST (R578 to R583). -/
structure HostSt where
  linkUp : Bool := false
  speed : Nat := 0
  width : Nat := 0
  bme : Bool := false
  msixEn : Bool := false
  funcMask : Bool := false
deriving DecidableEq, Repr

/-- The part. A reset of the Stage die resets all of it but `bench`, `sup` and `flash`, which lie outside that die, `fresh`, which counts the draws
of free values, and `outs`, the log of what has left the part. `lockDue` is that GRID_LOCK has been set and BOOT ends at the next boundary; `txn` the place in the order
of writes at which the Grid transaction in progress began. -/
structure Stage where
  regs : Tab Word := []
  args : Tab Word := []
  routes : Tab Word := []
  cmdq : Tab (List Cmd) := []
  seqs : Tab Nat := []
  running : Tab (Option Cmd) := []
  recStore : List CRec := []
  recHeld : List CRec := []
  waiting : List WWrite := []
  mem : Tab Byte := []
  bus : BusOut := { resp := .okay, data := [] }
  outs : List Out := []
  fresh : Nat := 0
  host : HostSt := {}
  vecSent : Nat := 0
  grid : GridSt := {}
  level : LevelSt := {}
  datum : DatumSt := {}
  tports : Tab TimePort := []
  exch : Exch := {}
  blocks : Tab Blk := []
  sps : Tab SpSt := []
  graph : GraphSt := {}
  bats : Tab BatSt := []
  ports : Tab PortSt := []
  groups : Tab ClkGroup := []
  decs : Tab DecSt := []
  syncs : List SyncReq := []
  patch : PatchSt := {}
  lanes : Tab LaneSt := []
  links : Tab LinkSt := []
  red : RedSt := {}
  fwVersion : Nat := 0
  bridges : Tab BridgeSt := []
  net : NetSt := {}
  ecc : Tab Nat := []
  pool : PoolSt := {}
  reh : RehSt := {}
  prompt : PromptSt := {}
  tab : TabSt := {}
  bench : BenchSt := {}
  mail : MailSt := {}
  sup : SupSt := {}
  flash : Tab Byte := []
  modeReq : Option ModeReq := none
  lockDue : Bool := false
  txn : Option Nat := none
  order : Nat := 0
deriving DecidableEq, Repr

/-- The part, with the queue of the commands that wait. -/
structure State where
  stage : Stage := {}
  pending : List Instr := []
deriving DecidableEq, Repr

/-- The part right after reset. -/
def State.reset : State := {}

end Sys2Proof.Machine
end

