-- ==== Sys2Proof/Machine/Ops.lean ====
section
/-!
DEFINITION. The operations every unit shares: registers and fields, the datum and the sample index, events, commands,
completion records, memory, the test order of a register write and the store of waiting writes.
-/
namespace Sys2Proof.Machine

/-! ### Registers -/

/-- The registers a page names beside the common ones, in page-table order. -/
def pageDefs (k : PageKind) (i : Nat) : List RegDef :=
  match k with
  | .sys => sysDefs | .grid => gridDefs | .pool => poolDefs | .sp => spDefs | .bat => batDefs
  | .port => portDefs.filter fun d =>
      if d.off = 0x0C0 ∨ d.off = 0x0C4 ∨ d.off = 0x0C8 then i < 8 else if d.off = 0x0CC then i < 4 else true
  | .decim => decimDefs | .bridge => bridgeDefs
  | .net => (netDefs.filter fun d => i == 0 || decide (d.off < 0x100)) ++ tpDefs ++ laneDefs 0x014007D0 24
  | .lanes => (upTo 16).flatMap (laneDefs 0x1F4007D0) ++ [{ off := 0x280, rst := 0, w1c := 0xFFFF }]
  | .link => linkDefs ++ tpDefs | .datum => datumDefs | .prompt => promptDefs | .tableau => tableauDefs
  | .redundancy => redDefs | .rehearsal => rehDefs | .bench => benchDefs | .power => powerDefs | .level => levelDefs
  | .patch => patchDefs | .graph => graphDefs | .host => hostDefs ++ msixDefs

/-- Whether the page holds calibration (R584). -/
def holdsCal (k : PageKind) : Bool :=
  match k with
  | .lanes | .net | .host | .datum | .level => true
  | _ => false

/-- CTRL.ENABLE is written by software on PORT, BRIDGE and NET pages only (R559). -/
def enableRW (k : PageKind) : Bool :=
  match k with
  | .port | .bridge | .net => true
  | _ => false

/-- The common registers of a page (R556). -/
def commonDefs (k : PageKind) : List RegDef :=
  [ { off := 0x00C, rst := if enableRW k then 0 else 1, rw := if enableRW k then 5 else 4, wo := 2 }
  , { off := 0x010, rst := 0 }
  , { off := 0x014, rst := 0, w1c := 0xFFFFFFFF }
  , { off := 0x018, rst := 0, rw := 0xFFFFFFFF } ]

/-- The row of register `off` of a page, if the page names one. -/
def regDef (k : PageKind) (i off : Nat) : Option RegDef :=
  (commonDefs k ++ pageDefs k i).find? (fun d => d.off == off)

/-- What register `a` (page × 0x1000 + offset) reads as after a reset of the Stage die. -/
def regReset (a : Nat) : Word :=
  match pageOf (a / 4096) with
  | none => 0#32
  | some (k, i) => Word.ofNat (((regDef k i (a % 4096)).map (·.rst)).getD 0)

/-- The value register `off` of page `p` holds. -/
def Stage.reg (s : Stage) (p off : Nat) : Word := Tab.get (regReset (p * 4096 + off)) s.regs (p * 4096 + off)

/-- The value of register `off` of page `p`, as a number. -/
def Stage.regN (s : Stage) (p off : Nat) : Nat := (s.reg p off).toNat

/-- Field `[hi:lo]` of a register. -/
def Stage.fld (s : Stage) (p off hi lo : Nat) : Nat := bits (s.regN p off) hi lo

/-- Bit `i` of a register. -/
def Stage.flag (s : Stage) (p off i : Nat) : Bool := bit (s.regN p off) i

/-- Register `off` of page `p` set to `v`. -/
def Stage.setReg (s : Stage) (p off : Nat) (v : Word) : Stage :=
  { s with regs := Tab.put (regReset (p * 4096 + off)) s.regs (p * 4096 + off) v }

/-- Register `off` of page `p` set to the number `n`, modulo 2^32. -/
def Stage.setN (s : Stage) (p off n : Nat) : Stage := s.setReg p off (Word.ofNat n)

/-- Field `[hi:lo]` of a register set to `v`. -/
def Stage.setFld (s : Stage) (p off hi lo v : Nat) : Stage := s.setN p off (setBits (s.regN p off) hi lo v)

/-- Bit `i` of a register set to `b`. -/
def Stage.setFlag (s : Stage) (p off i : Nat) (b : Bool) : Stage := s.setN p off (setBit (s.regN p off) i b)

/-- A 64-bit value written to two consecutive registers, low word first (R6). -/
def Stage.set64 (s : Stage) (p off n : Nat) : Stage := (s.setN p off n).setN p (off + 4) (n / 2 ^ 32)

/-- The 64-bit value of two consecutive registers. -/
def Stage.reg64 (s : Stage) (p off : Nat) : Nat := s.regN p off + 2 ^ 32 * s.regN p (off + 4)

/-- A register that counts and stops at 0xFFFF_FFFF. -/
def Stage.bump (s : Stage) (p off : Nat) : Stage := s.setN p off (satInc 0xFFFFFFFF (s.regN p off))

/-- `k` counts at once, stopping at 0xFFFF_FFFF. -/
def Stage.bumpBy (s : Stage) (p off k : Nat) : Stage := s.setN p off (min 0xFFFFFFFF (s.regN p off + k))

/-- Event bit `b` of page `p` is raised (R573). -/
def Stage.raise (s : Stage) (p b : Nat) : Stage := s.setFlag p 0x014 b true

/-- The event is raised when `c` holds. -/
def Stage.raiseIf (s : Stage) (c : Bool) (p b : Nat) : Stage := if c then s.raise p b else s

/-- The registers of page `p` at the offsets that `f` names go back to their reset values. -/
def Stage.clearRegs (s : Stage) (p : Nat) (f : Nat → Bool) : Stage :=
  { s with regs := Tab.keep (fun a => !(a / 4096 == p && f (a % 4096))) s.regs }

/-- One output appended to the log of what leaves the part. -/
def Stage.emit (s : Stage) (o : Out) : Stage := { s with outs := o :: s.outs }

/-- A free value: the present draw of the model's own counter, and the state after the draw. -/
def Stage.draw (s : Stage) : Nat × Stage := (s.fresh, { s with fresh := s.fresh + 1 })

/-! ### Modes and power domains -/

/-- SYS_MODE: the mode in effect (R641). -/
def Stage.mode (s : Stage) : Nat := s.fld 0x000 0x0E0 3 0

def mOff : Nat := 0
def mWatch : Nat := 1
def mBoot : Nat := 2
def mDark : Nat := 3
def mSolo : Nat := 4
def mPrincipal : Nat := 5
def mUnderstudy : Nat := 6
def mCatchUp : Nat := 7
def mTriangulate : Nat := 8
def mIsolated : Nat := 9
def mFixedPatch : Nat := 10
def mService : Nat := 11

/-- The running modes: SOLO and the group modes (R641). -/
def isRunning (m : Nat) : Bool := decide (4 ≤ m ∧ m ≤ 9)

/-- The levelling modes (R38). -/
def isLevelling (m : Nat) : Bool := isRunning m || m == mFixedPatch

/-- The modes in which a step of the datum is made (R257). -/
def stepMode (m : Nat) : Bool := m == mBoot || m == mDark || m == mService

/-- ROLE_CFG.CFG (R452). -/
def Stage.roleCfg (s : Stage) : Nat := s.fld 0x2A0 0x080 1 0

/-- The power domain a page's block lies in (R638). -/
def pageDomain (k : PageKind) (i : Nat) : Nat :=
  match k with
  | .sp => if i < 32 then 4 else 5
  | .bat => if i < 32 then 6 else 7
  | .pool => 8
  | .port | .decim | .bridge | .patch => 9
  | .net => 10
  | .lanes | .link => 11
  | .bench | .power | .level | .sys | .grid | .datum | .prompt | .tableau | .redundancy | .rehearsal | .graph | .host => 3

/-- Domain `d` is on (PD_STAT.ON, R639). -/
def Stage.pdOn (s : Stage) (d : Nat) : Bool := s.flag 0x2D0 0x090 d

/-- The block of page `p` is powered. POOL answers on its page whenever PD8 is on or in retention. -/
def Stage.powered (s : Stage) (p : Nat) : Bool :=
  match pageOf p with
  | none => false
  | some (k, i) => s.pdOn (pageDomain k i)

/-! ### The datum and the sample index -/

/-- The engine rate in samples per second of rate code `c` (R26). -/
def fsOf (c : Nat) : Nat :=
  match c with
  | 0 => 44100 | 1 => 48000 | 2 => 88200 | 3 => 96000 | 4 => 176400 | _ => 192000

/-- ENGINE_RATE.RATE. -/
def Stage.rateCode (s : Stage) : Nat := s.fld 0x000 0x088 2 0

/-- The engine rate (R11). -/
def Stage.fs (s : Stage) : Nat := fsOf s.rateCode

/-- At 176.4 and 192 kHz every destination takes a pair of lanes (R13). -/
def Stage.highRate (s : Stage) : Bool := decide (4 ≤ s.rateCode)

/-- Units of 2^-16 ns in a nanosecond. -/
def unit : Nat := 65536

/-- Units of 2^-16 ns in a second. -/
def unitsPerSec : Nat := 65536000000000

/-- The datum at raw count `r`, in 2^-16 ns (R253). -/
def DatumSt.at (d : DatumSt) (r : Nat) : Int := Int.fdiv (d.offset + (r : Int) * (2 ^ 48 + d.rate)) (2 ^ 48)

/-- The datum now, in 2^-16 ns. -/
def Stage.now (s : Stage) : Nat := (s.datum.at s.datum.raw).toNat

/-- floor(datum × engine rate) (R11). -/
def indexAt (datum fs : Nat) : Nat := datum * fs / unitsPerSec

/-- The datum of boundary `n` in 2^-16 ns, rounded up to a whole unit (R277). -/
def boundaryDatum (n fs : Nat) : Nat := (n * unitsPerSec + fs - 1) / fs

/-- The exact raw instant of boundary `n` as a fraction (numerator, denominator) in 2^-16 ns (R277, R253). -/
def Stage.boundaryRaw (s : Stage) (n : Nat) : Int × Int :=
  ((n : Int) * unitsPerSec * 2 ^ 48 - s.datum.offset * s.fs, (s.fs : Int) * (2 ^ 48 + s.datum.rate))

/-- The first boundary whose datum is at or after `t` (2^-16 ns). -/
def firstBoundary (t fs : Nat) : Nat := (t * fs + unitsPerSec - 1) / unitsPerSec

/-- The raw count moves on to `r`; it never moves back (R250). -/
def Stage.tick (s : Stage) (r : Nat) : Stage := { s with datum := { s.datum with raw := max s.datum.raw r } }

/-- The effective apply delay D (R21). -/
def Stage.applyDelay (s : Stage) : Nat := if s.mode = mPrincipal then s.fld 0x2A0 0x088 7 0 else 1

/-- The boundary a change accepted now takes effect at: m + D. -/
def Stage.dueNow (s : Stage) : Nat := s.datum.index + s.applyDelay

/-! ### Memory -/

/-- The stored bits of the 256-bit word at `a` that are inverted, as a mask (R525). -/
def Stage.flips (s : Stage) (a : Nat) : Nat := Tab.get 0 s.ecc (a / 32)

/-- The word at `a` is uncorrectable: two of its stored bits are in error (R526). -/
def Stage.lost (s : Stage) (a : Nat) : Bool := let m := s.flips a; Nat.land m (m - 1) != 0

/-- The byte at Grid address `a`; an unlisted byte reads zero (R515, R570), and so does one of an uncorrectable word (R528). -/
def Stage.rd8 (s : Stage) (a : Nat) : Byte := if s.lost a then 0#8 else Tab.get 0#8 s.mem a

/-- The byte at `a` set to `b`; a write of part of an uncorrectable word is not made (R526). -/
def Stage.wr8 (s : Stage) (a : Nat) (b : Byte) : Stage :=
  if s.lost a then s else { s with mem := Tab.put 0#8 s.mem a b }

/-- The `k` bytes from `a` on. -/
def Stage.rdBytes (s : Stage) (a k : Nat) : List Byte := (upTo k).map fun j => s.rd8 (a + j)

/-- The little-endian number in the `k` bytes from `a` on (R6). -/
def Stage.rdN (s : Stage) (a k : Nat) : Nat := ofLeBytes (s.rdBytes a k)

/-- The 32-bit word at `a` (R6). -/
def Stage.rd32 (s : Stage) (a : Nat) : Word := Word.ofNat (s.rdN a 4)

/-- The bytes written from `a` on. -/
def Stage.wrBytes (s : Stage) (a : Nat) : List Byte → Stage
  | [] => s
  | b :: t => (s.wr8 a b).wrBytes (a + 1) t

/-- Addressed bytes written in order. -/
def Stage.wrCells (s : Stage) : List (Nat × Byte) → Stage
  | [] => s
  | (a, b) :: t => (s.wr8 a b).wrCells t

/-- The 32-bit word at `a` set to `v`, little-endian (R6). -/
def Stage.wr32 (s : Stage) (a : Nat) (v : Word) : Stage := s.wrBytes a (leBytes 4 v.toNat)

/-- Every byte from `a` to `a + k - 1` reads zero. -/
def Stage.zeroMem (s : Stage) (a k : Nat) : Stage :=
  { s with mem := Tab.keep (fun x => !(decide (a ≤ x) && decide (x < a + k))) s.mem }

/-! ### Responses -/

/-- The access is answered `r`, with no data. -/
def Stage.respond (s : Stage) (r : Resp) : Stage := { s with bus := { resp := r, data := [] } }

/-- A read is answered OKAY with the word `v`. -/
def Stage.answer (s : Stage) (v : Word) : Stage := { s with bus := { resp := .okay, data := leBytes 4 v.toNat } }

/-! ### Completion records (R569 to R572) -/

/-- RING_COUNT: HEAD − TAIL modulo 2048 (R570). -/
def Stage.ringCount (s : Stage) : Nat := (s.fld 0 0x0C0 10 0 + 2048 - s.fld 0 0x0C4 10 0) % 2048

/-- The Grid address of ring entry 0 (R569). -/
def ringBase : Nat := 0x0100F8000

/-- The eight words of a record written with phase `ph` (R569). -/
def CRec.words (r : CRec) (ph : Nat) : List Nat :=
  [ r.handle, r.cls % 256 * 256 + r.status % 256, r.result.toNat, r.datum % 65536
  , r.datum / 65536 % 1000000000, r.datum / unitsPerSec % 2 ^ 32, r.datum / unitsPerSec / 2 ^ 32, ph * 2 ^ 31 ]

/-- The record is written at HEAD, and HEAD advances (R570). -/
def Stage.ringWrite (s : Stage) (r : CRec) : Stage :=
  let h := s.fld 0 0x0C0 10 0
  (s.wrBytes (ringBase + 32 * (h % 1024)) ((r.words (1 - h / 1024)).flatMap (leBytes 4))).setN 0 0x0C0 ((h + 1) % 2048)

/-- A record enters the ring, waits in the store of 256, or is held by its block (R571). Record order is kept. -/
def Stage.putRecord (s : Stage) (r : CRec) : Stage :=
  if s.ringCount < 1024 ∧ s.recStore = [] then s.ringWrite r
  else
    let s := s.raise 0 0
    if s.recStore.length < 256 then { s with recStore := s.recStore ++ [r] }
    else { s with recHeld := s.recHeld ++ [r] }

/-- Waiting records enter the ring in their order while there is room, `n` of them at most (R571). -/
def Stage.drainRing (s : Stage) : Nat → Stage
  | 0 => s
  | n + 1 =>
    if s.ringCount < 1024 then
      match s.recStore with
      | [] => s
      | r :: t =>
        let s := { s with recStore := t }.ringWrite r
        (match s.recHeld with
         | [] => s
         | h :: t' => { s with recStore := s.recStore ++ [h], recHeld := t' }).drainRing n
    else s

/-- The handle of sequence number `q` on page `p` (R567). -/
def handleOf (p q : Nat) : Nat := p * 65536 + q

def stDone : Nat := 0
def stDoneLate : Nat := 1
def stFailed : Nat := 2
def stRefused : Nat := 3
def stExpired : Nat := 4
def stAborted : Nat := 5
def stNoContext : Nat := 6

/-- Command `c` of page `p` ends with `status` and `result`, with the datum `d` (R569). -/
def Stage.completeAt (s : Stage) (p : Nat) (c : Cmd) (status : Nat) (result : Word) (d : Nat) : Stage :=
  s.putRecord { handle := handleOf p c.seq, cls := c.cls, status := status, result := result, datum := d }

/-- The same, with the present datum (R569). -/
def Stage.complete (s : Stage) (p : Nat) (c : Cmd) (status : Nat) (result : Word) : Stage :=
  s.completeAt p c status result s.now

/-! ### Commands (R566 to R568) -/

/-- The store key of what page `p` holds per master (R150, R566): argument `j` (0 to 2), CMD_HANDLE (3) or RAMP_REQ_LO (4). -/
def argKey (p : Nat) (m : Master) (j : Nat) : Nat := ((p * 8 + m.cls) * 64 + m.idx) * 8 + j

/-- CMD_ARG_j of master `m`, or its CMD_HANDLE for `j` = 3. -/
def Stage.arg (s : Stage) (p : Nat) (m : Master) (j : Nat) : Word := Tab.get 0#32 s.args (argKey p m j)

def Stage.setArg (s : Stage) (p : Nat) (m : Master) (j : Nat) (v : Word) : Stage :=
  { s with args := Tab.put 0#32 s.args (argKey p m j) v }

/-- The commands accepted on page `p` and not yet started. -/
def Stage.queue (s : Stage) (p : Nat) : List Cmd := Tab.get [] s.cmdq p

/-- The next sequence number of page `p`; it wraps from 0xFFFF to 1 (R567). -/
def Stage.nextSeq (s : Stage) (p : Nat) : Nat := let q := Tab.get 0 s.seqs p; if q = 0xFFFF then 1 else q + 1

/-- A sequence number is taken on page `p`. -/
def Stage.takeSeq (s : Stage) (p : Nat) : Nat × Stage :=
  let q := s.nextSeq p
  (q, { s with seqs := Tab.put 0 s.seqs p q })

/-- A hot restart of the management core is in progress (R589). -/
def Stage.restarting (s : Stage) : Bool := s.flag 0 0x0D8 31

/-- A CMD write of `code` by `m` on page `p`: refused during a hot restart or with 8 commands queued, else queued with a
handle (R566 to R568, R589). -/
def Stage.cmdWrite (s : Stage) (m : Master) (p code : Nat) : Stage :=
  if s.restarting then s.respond .refused
  else if 8 ≤ (s.queue p).length then ((s.setArg p m 3 0#32).raise p 30).respond .refused
  else
    let (q, s) := s.takeSeq p
    let c : Cmd := { seq := q, cls := m.cls, idx := m.idx, code := code % 256,
                     a0 := s.arg p m 0, a1 := s.arg p m 1, a2 := s.arg p m 2 }
    ({ s with cmdq := Tab.put [] s.cmdq p (s.queue p ++ [c]) }.setArg p m 3 (Word.ofNat (handleOf p q))).respond .okay

/-- A block may start a queued command: it holds no record back (R571), and no hot restart is in progress (R589). -/
def Stage.mayStart (s : Stage) (p : Nat) : Bool :=
  !s.restarting && !(s.recHeld.any fun r => r.handle / 65536 == p)

/-- The command at the head of page `p`'s queue leaves it. -/
def Stage.popCmd (s : Stage) (p : Nat) : Stage := { s with cmdq := Tab.put [] s.cmdq p (s.queue p).tail }

/-- The command page `p` runs, for pages whose commands take time. -/
def Stage.runningCmd (s : Stage) (p : Nat) : Option Cmd := Tab.get none s.running p

def Stage.setRunning (s : Stage) (p : Nat) (c : Option Cmd) : Stage := { s with running := Tab.put none s.running p c }

/-- Each command queued and not started on page `p` completes with ABORTED (R560). -/
def Stage.abortQueue (s : Stage) (p : Nat) : Stage :=
  (s.queue p).foldl (fun s c => s.complete p c stAborted 0#32) { s with cmdq := Tab.put [] s.cmdq p [] }

/-! ### Register writes (R562, R563) -/

/-- A write that the uniform value rule stops: nothing is applied, the response is OKAY, the page raises BAD_WRITE and SYS
counts and latches it (R563, R592). -/
def Stage.badWrite (s : Stage) (cls p off : Nat) (isMem : Bool) : Stage :=
  (((s.raise p 31).bump 0 0x0D0).setN 0 0x0D4
    (cls % 8 * 2 ^ 29 + (if isMem then 2 ^ 28 else 0) + p % 4096 * 2 ^ 16 + off % 4096)).respond .okay

/-- The access code lets master class `cls` write the register (R7, R543). -/
def Stage.protOk (s : Stage) (cls p prot : Nat) : Bool :=
  match prot with
  | 0 => true
  | 1 => s.flag p 0x00C 2
  | 2 => s.mode == mService
  | _ => !s.grid.lock && cls == 0

/-- Every field of `v` lies in the legal range the register's row gives it (R563). -/
def RegDef.inRange (d : RegDef) (v : Nat) : Bool :=
  d.rng.all fun (h, l, a, b) => decide (a ≤ bits v h l) && decide (bits v h l ≤ b)

/-- The register's value after a write of `v`: written bits set, W1C bits cleared, the others kept (R7, R8). -/
def RegDef.merge (d : RegDef) (old v : Nat) : Nat :=
  Nat.lor (Nat.land v d.rw) (Nat.land old (Nat.xor 0xFFFFFFFF (Nat.lor d.rw (Nat.land v d.w1c))))

/-- The generic effect of a write on the register itself. -/
def Stage.store (s : Stage) (p off : Nat) (v : Word) : Stage :=
  match pageOf p with
  | none => s
  | some (k, i) =>
    match regDef k i off with
    | none => s
    | some d => s.setN p off (d.merge (s.regN p off) v.toNat)

/-! ### Waiting writes (R20 to R24) -/

/-- The tag master class `cls` has armed (R25, R28): HOST at 0x098, MGMT at 0x0A8. -/
def Stage.armedTag (s : Stage) (cls : Nat) : Option Nat :=
  if cls = 1 ∧ s.flag 0 0x098 0 then some (s.reg64 0 0x090)
  else if cls = 0 ∧ s.flag 0 0x0A8 0 then some (s.reg64 0 0x0A0)
  else none

/-- The tag lies more than 65,535 samples beyond the present sample (R23). -/
def Stage.tagTooFar (s : Stage) (cls : Nat) : Bool :=
  match s.armedTag cls with
  | none => false
  | some t => decide (s.datum.index + 65535 < t)

/-- ONESHOT: ARM clears once the next tagged write has been accepted (R28). -/
def Stage.oneShot (s : Stage) (cls : Nat) : Stage :=
  if cls = 1 then (if s.flag 0 0x098 1 then s.setFlag 0 0x098 0 false else s)
  else (if s.flag 0 0x0A8 1 then s.setFlag 0 0x0A8 0 false else s)

/-- The boundary a boundary-applied write of class `cls` completing now is due at, with its tag taken (R22). -/
def Stage.dueFor (s : Stage) (cls : Nat) : Nat × Stage :=
  match s.armedTag cls with
  | none => (s.dueNow, s)
  | some t =>
    let s1 := s.oneShot cls
    if s.dueNow ≤ t then (t, s1) else (s.dueNow, (s1.bump 0 0x0B0).raise 0 4)

/-- The boundary-applied writes waiting: one place for each transaction (R23). -/
def Stage.places (s : Stage) : Nat := (s.waiting.filter fun w => w.place).length

/-- The boundary-applied writes of the Grid transaction in progress that have taken their place. -/
def Stage.joined (s : Stage) : Option WWrite :=
  match s.txn with
  | some o => s.waiting.find? fun w => decide (o ≤ w.ord)
  | none => none

/-- A boundary-applied write takes a place among the 4096, or is refused (R22, R23). Its value and tag have been tested. A further word of one
transaction shares its place and its boundary. -/
def Stage.wait (s : Stage) (cls : Nat) (k : WKind) : Stage :=
  match s.joined with
  | some j =>
    let w : WWrite := { due := j.due, cls := cls, kind := k, ord := s.order, place := false }
    { s with waiting := s.waiting ++ [w], order := s.order + 1 }.respond .okay
  | none =>
    if 4096 ≤ s.places then s.respond .refused
    else
      let (due, s) := s.dueFor cls
      let w : WWrite := { due := due, cls := cls, kind := k, ord := s.order, place := true }
      { s with waiting := s.waiting ++ [w], order := s.order + 1 }.respond .okay

/-! ### Interrupts (R573 to R577) -/

/-- The route of page `p` (R575, R596). -/
def Stage.route (s : Stage) (p : Nat) : Nat := (Tab.get 0x20000000#32 s.routes p).toNat

/-- The pages whose EVENT AND EVENT_EN is not zero (R573). -/
def Stage.requesting (s : Stage) : List Nat :=
  (s.regs.filter fun e => e.1 % 4096 == 0x014 && Nat.land e.2.toNat (s.regN (e.1 / 4096) 0x018) != 0).map (·.1 / 4096)

/-- The routes of every request present, the ring's among them (R572, R575). -/
def Stage.requestRoutes (s : Stage) : List Nat :=
  s.requesting.map s.route ++ (if s.ringCount = 0 then [] else [s.regN 0 0x0CC])

/-- The vectors that are pending, as a mask (R575). -/
def Stage.vecPending (s : Stage) : Nat :=
  s.requestRoutes.foldl (fun m r => if bit r 31 then Nat.lor m (2 ^ bits r 4 0) else m) 0

/-- IRQ_N is driven low (R577). -/
def Stage.irqLow (s : Stage) : Bool := s.requestRoutes.any (bit · 30)

/-- The management core sees an interrupt request (R575). -/
def Stage.mgmtIrq (s : Stage) : Bool := s.requestRoutes.any (bit · 29)

/-- Vector `v` is deliverable (R576). -/
def Stage.deliverable (s : Stage) (v : Nat) : Bool :=
  s.host.msixEn && !s.host.funcMask && s.host.bme && !s.flag 0x300 (0x20C + 16 * v) 0

/-- Vector `v` sends its message when it is pending, deliverable and has sent none since it became pending (R576). -/
def Stage.sendVec (pend : Nat) (s : Stage) (v : Nat) : Stage :=
  if bit pend v && !bit s.vecSent v && s.deliverable v then
    { s with vecSent := Nat.lor s.vecSent (2 ^ v) }.emit
      (.msix (s.regN 0x300 (0x200 + 16 * v) + 2 ^ 32 * s.regN 0x300 (0x204 + 16 * v)) (s.regN 0x300 (0x208 + 16 * v)))
  else s

/-- The interrupt vectors follow the requests (R575, R576). -/
def Stage.vectors (s : Stage) : Stage :=
  let pend := s.vecPending
  if pend = 0 then { s with vecSent := 0 }
  else (upTo 32).foldl (Stage.sendVec pend) { s with vecSent := Nat.land s.vecSent pend }

end Sys2Proof.Machine
end

