-- ==== Sys2Proof/Machine/Exchange.lean ====
section
/-!
DEFINITION. The exchange (R14 to R19) and the silence flags (R205, R206).
-/
namespace Sys2Proof.Machine

/-- What a slot reads as in this sample; reserved slots read zero (R14, R18). -/
def Stage.exchRead (s : Stage) (slot : Nat) : Word :=
  if slot < 0x3000 then Tab.get 0#32 s.exch.cur slot else 0#32

/-- Producer ranks (R17): the input patch 0, SP_k 1 + k, BAT_k 65 + k. -/
def rankPatch : Nat := 0
def rankSp (k : Nat) : Nat := 1 + k
def rankBat (k : Nat) : Nat := 65 + k

/-- A producer writes a slot (R14, R17): of two producers in one sample the one first in the order keeps its write. -/
def Stage.exchWrite (s : Stage) (rank slot : Nat) (v : Word) : Stage :=
  if 0x3000 ≤ slot then s
  else
    let put (s : Stage) : Stage := { s with exch := { s.exch with nxt := Tab.ins s.exch.nxt slot { rank := rank, v := v } } }
    match Tab.find s.exch.nxt slot with
    | none => put s
    | some w =>
      if w.rank = rank then put s
      else
        let s := (s.bump 0 0x0B4).raise 0 5
        if rank < w.rank then put s else s

/-- THR and NH (R205, R206). -/
def Stage.silThr (s : Stage) : Nat := s.regN 0x2F0 0x090
def Stage.silNh (s : Stage) : Nat := s.fld 0x2F0 0x08C 25 16 * s.fs / 10

/-- A value is below threshold (R205). -/
def below (thr : Nat) (v : Word) : Bool := decide (v.toInt.natAbs < thr)

/-- The tick from which the run of slot `i` counts, or none; reserved slots count from the reset. -/
def Exch.run (e : Exch) (i : Nat) : Option Nat := if i < 0x3000 then Tab.get (some 1) e.quiet i else some 1

/-- One landed write: its value is read from now on, and judged by the threshold in effect when it was written (R205, R206). -/
def Exch.land (thr : Nat) (e : Exch) (w : Nat × Wr) : Exch :=
  let q := if below thr w.2.v then (match e.run w.1 with | some t => some t | none => some e.tick) else none
  { e with cur := Tab.put 0#32 e.cur w.1 w.2.v, quiet := Tab.put (some 1) e.quiet w.1 q }

/-- A boundary: the banks exchange roles (R14, R15). -/
def Stage.exchSwap (s : Stage) : Stage :=
  let e := { s.exch with tick := s.exch.tick + 1, nxt := [] }
  { s with exch := s.exch.nxt.foldl (Exch.land s.silThr) e }

/-- The slots that `p` names read zero until next written; the clearing counts as a write of zero in the sample it opens
(R16, R205). -/
def Stage.exchClear (s : Stage) (p : Nat → Bool) : Stage :=
  let e := s.exch
  let q := e.quiet.filterMap fun (i, r) =>
    if p i then (match r with | some t => some (i, some t) | none => some (i, some (e.tick + 1))) else some (i, r)
  { s with exch := { e with cur := Tab.keep (fun i => !p i) e.cur, nxt := Tab.keep (fun i => !p i) e.nxt,
                            quiet := q.filter (fun x => x.2 != some 1) } }

/-- A run is silent when it is NH samples long (R205). -/
def Stage.runSilent (s : Stage) (r : Option Nat) : Bool :=
  match r with
  | none => false
  | some t => decide (s.silNh ≤ s.exch.tick + 1 - t)

/-- The silence flag that accompanies a slot's present value (R205). -/
def Stage.slotSilent (s : Stage) (slot : Nat) : Bool := s.runSilent (s.exch.run slot)

/-- The SOURCE_MAP entry of source `i`: SLOT and NO_SKIP; reserved slot 0x3000 after a reset. -/
def Stage.srcMap (s : Stage) (i : Nat) : Nat := Tab.get 0x3000 s.graph.src i
def Stage.srcSlot (s : Stage) (i : Nat) : Nat := bits (s.srcMap i) 13 0
def Stage.srcNoSkip (s : Stage) (i : Nat) : Bool := bit (s.srcMap i) 15

/-- A source's run follows the value it reads in this sample (R205). -/
def Stage.srcTick (s : Stage) (i : Nat) : Stage :=
  let loud := (s.exch.run (s.srcSlot i)).isNone
  let r := Tab.get (some 1) s.exch.srcQuiet i
  let r' := if loud then none else (match r with | some t => some t | none => some s.exch.tick)
  { s with exch := { s.exch with srcQuiet := Tab.put (some 1) s.exch.srcQuiet i r' } }

/-- The sources whose run can change: those mapped, and those with a listed run. -/
def Stage.srcTicks (s : Stage) : Stage :=
  let listed := s.graph.src.map (·.1)
  let s1 := listed.foldl Stage.srcTick s
  (s.exch.srcQuiet.filter (fun x => !listed.contains x.1)).foldl (fun s x => s.srcTick x.1) s1

/-- The silence flag of source `i` (R205). -/
def Stage.srcSilent (s : Stage) (i : Nat) : Bool := s.runSilent (Tab.get (some 1) s.exch.srcQuiet i)

/-- SIL_COUNT (R209): silent ingress slots and silent sources. -/
def Stage.silCount (s : Stage) : Nat :=
  ((upTo 4096).filter s.slotSilent).length * 2 ^ 16 + ((upTo 2048).filter s.srcSilent).length

end Sys2Proof.Machine
end

