-- ==== Sys2Proof/Machine/Crc.lean ====
section
/-!
DEFINITION. The checks of stored and sent bytes: CRC-32C, the Ethernet frame check sequence, SHA-256 and HMAC-SHA-256. The spec
names them and their standards define them (PRESUMED, log entry 13).
-/
namespace Sys2Proof.Machine

/-- One bit of a reflected 32-bit CRC with polynomial `poly`. -/
def crcBit (poly c : Nat) : Nat := if c % 2 = 1 then Nat.xor (c / 2) poly else c / 2

/-- One byte of it. -/
def crcByte (poly c : Nat) (b : Byte) : Nat :=
  let c := Nat.xor c b.toNat
  crcBit poly (crcBit poly (crcBit poly (crcBit poly (crcBit poly (crcBit poly (crcBit poly (crcBit poly c)))))))

/-- A reflected 32-bit CRC with all ones before and after. -/
def crcWith (poly : Nat) (l : List Byte) : Nat := Nat.xor (l.foldl (crcByte poly) 0xFFFFFFFF) 0xFFFFFFFF

/-- CRC-32C (Castagnoli). -/
def crc32c (l : List Byte) : Nat := crcWith 0x82F63B78 l

/-- The CRC-32 of IEEE 802.3. -/
def crc32 (l : List Byte) : Nat := crcWith 0xEDB88320 l

/-! ### SHA-256 (FIPS 180-4) -/

def shaK : List (BitVec 32) :=
  [ 0x428a2f98, 0x71374491, 0xb5c0fbcf, 0xe9b5dba5, 0x3956c25b, 0x59f111f1, 0x923f82a4, 0xab1c5ed5
  , 0xd807aa98, 0x12835b01, 0x243185be, 0x550c7dc3, 0x72be5d74, 0x80deb1fe, 0x9bdc06a7, 0xc19bf174
  , 0xe49b69c1, 0xefbe4786, 0x0fc19dc6, 0x240ca1cc, 0x2de92c6f, 0x4a7484aa, 0x5cb0a9dc, 0x76f988da
  , 0x983e5152, 0xa831c66d, 0xb00327c8, 0xbf597fc7, 0xc6e00bf3, 0xd5a79147, 0x06ca6351, 0x14292967
  , 0x27b70a85, 0x2e1b2138, 0x4d2c6dfc, 0x53380d13, 0x650a7354, 0x766a0abb, 0x81c2c92e, 0x92722c85
  , 0xa2bfe8a1, 0xa81a664b, 0xc24b8b70, 0xc76c51a3, 0xd192e819, 0xd6990624, 0xf40e3585, 0x106aa070
  , 0x19a4c116, 0x1e376c08, 0x2748774c, 0x34b0bcb5, 0x391c0cb3, 0x4ed8aa4a, 0x5b9cca4f, 0x682e6ff3
  , 0x748f82ee, 0x78a5636f, 0x84c87814, 0x8cc70208, 0x90befffa, 0xa4506ceb, 0xbef9a3f7, 0xc67178f2 ]

def shaH : List (BitVec 32) :=
  [ 0x6a09e667, 0xbb67ae85, 0x3c6ef372, 0xa54ff53a, 0x510e527f, 0x9b05688c, 0x1f83d9ab, 0x5be0cd19 ]

/-- The eight working variables. -/
structure ShaSt where
  a : BitVec 32
  b : BitVec 32
  c : BitVec 32
  d : BitVec 32
  e : BitVec 32
  f : BitVec 32
  g : BitVec 32
  h : BitVec 32
deriving DecidableEq, Repr

/-- One round. -/
def ShaSt.round (s : ShaSt) (kw : BitVec 32 × BitVec 32) : ShaSt :=
  let s1 := s.e.rotateRight 6 ^^^ s.e.rotateRight 11 ^^^ s.e.rotateRight 25
  let ch := (s.e &&& s.f) ^^^ (~~~s.e &&& s.g)
  let t1 := s.h + s1 + ch + kw.1 + kw.2
  let s0 := s.a.rotateRight 2 ^^^ s.a.rotateRight 13 ^^^ s.a.rotateRight 22
  let maj := (s.a &&& s.b) ^^^ (s.a &&& s.c) ^^^ (s.b &&& s.c)
  { a := t1 + (s0 + maj), b := s.a, c := s.b, d := s.c, e := s.d + t1, f := s.e, g := s.f, h := s.g }

/-- The message schedule, newest word first, extended by `n` words. -/
def shaExtend : Nat → List (BitVec 32) → List (BitVec 32)
  | 0, w => w
  | n + 1, w =>
    let x15 := w.getD 14 0
    let x2 := w.getD 1 0
    let s0 := x15.rotateRight 7 ^^^ x15.rotateRight 18 ^^^ (x15 >>> 3)
    let s1 := x2.rotateRight 17 ^^^ x2.rotateRight 19 ^^^ (x2 >>> 10)
    shaExtend n ((s1 + w.getD 6 0 + s0 + w.getD 15 0) :: w)

/-- `n` blocks of 64 bytes are taken into the hash. -/
def shaBlocks : Nat → List Byte → List (BitVec 32) → List (BitVec 32)
  | 0, _, h => h
  | n + 1, m, h =>
    let ws := (upTo 16).map fun j => BitVec.ofNat 32 (ofBeBytes ((m.drop (4 * j)).take 4))
    let w := (shaExtend 48 ws.reverse).reverse
    let v : ShaSt := { a := h.getD 0 0, b := h.getD 1 0, c := h.getD 2 0, d := h.getD 3 0, e := h.getD 4 0, f := h.getD 5 0,
                       g := h.getD 6 0, h := h.getD 7 0 }
    let v' := (shaK.zip w).foldl ShaSt.round v
    shaBlocks n (m.drop 64)
      [v.a + v'.a, v.b + v'.b, v.c + v'.c, v.d + v'.d, v.e + v'.e, v.f + v'.f, v.g + v'.g, v.h + v'.h]

/-- SHA-256 of a string of bytes. -/
def sha256 (m : List Byte) : List Byte :=
  let n := (m.length + 9 + 63) / 64
  let pad := 64 * n - 9 - m.length
  let full := m ++ [0x80#8] ++ (upTo pad).map (fun _ => 0#8) ++ beBytes 8 (8 * m.length)
  (shaBlocks n full shaH).flatMap fun w => beBytes 4 w.toNat

/-- HMAC-SHA-256 under a 32-byte key (RFC 2104). -/
def hmac256 (key m : List Byte) : List Byte :=
  let k := key ++ (upTo (64 - key.length)).map (fun _ => 0#8)
  sha256 (k.map (fun b => b ^^^ 0x5C#8) ++ sha256 (k.map (fun b => b ^^^ 0x36#8) ++ m))

/-- One step of the CRC-16 of R609, most significant bit first. -/
def crc16Bit (c : Nat) : Nat := if bit c 15 then Nat.xor (c * 2 % 65536) 0x1021 else c * 2

/-- CRC-16 with polynomial 0x1021 and initial value 0xFFFF (R609). -/
def crc16 (l : List Byte) : Nat :=
  l.foldl (fun c b => (upTo 8).foldl (fun c _ => crc16Bit c) (Nat.xor c (b.toNat * 256))) 0xFFFF

end Sys2Proof.Machine
end

