-- ==== Sys2Proof/Machine/Cal.lean ====
section
/-!
DEFINITION. The calibration areas of the pages that hold them, and how a block applies them (R584, R585).
-/
namespace Sys2Proof.Machine

/-- The pages that hold calibration, ascending. -/
def calPages : List Nat := allPages.filter fun p =>
  match pageOf p with
  | some (k, _) => holdsCal k
  | none => false

/-- The offset of CAL_USER, or of CAL_FACTORY. -/
def calOff (factory : Bool) : Nat := if factory then 0xF80 else 0xF00

/-- The 128 bytes of an area. -/
def Stage.calBytes (s : Stage) (p : Nat) (factory : Bool) : List Byte :=
  (upTo 32).flatMap fun i => leBytes 4 (s.regN p (calOff factory + 4 * i))

/-- An area whose word 31 is the CRC of the others (R584). -/
def calSound (l : List Byte) : Bool := crc32c (l.take 124) == ofLeBytes (l.drop 124)

/-- An area written with 128 bytes. -/
def Stage.calPut (s : Stage) (p : Nat) (factory : Bool) (l : List Byte) : Stage :=
  (upTo 32).foldl (fun s i => s.setN p (calOff factory + 4 * i) (ofLeBytes ((l.drop (4 * i)).take 4))) s

/-- A block applies CAL_USER, or CAL_FACTORY with CAL_BAD when CAL_USER fails its CRC (R585). What it applies shows on the LEVEL page only: the
offset of the VCORE code. -/
def Stage.calApply (s : Stage) (p : Nat) : Stage :=
  let bad := !calSound (s.calBytes p false)
  let s := s.raiseIf bad 0 2
  if p = 0x2D1 then { s with level := { s.level with trim := sext 32 (s.regN p (calOff bad)) } } else s

end Sys2Proof.Machine
end

