-- ==== Sys2Proof/Machine/Level.lean ====
section
/-!
DEFINITION. Slack and the levelling loop (R32 to R58): measured and projected slack, level windows, the emergency raise,
the regulator bus, and the loop's answers to register writes and mode changes.
-/
namespace Sys2Proof.Machine

/-- The LEVEL page. -/
def pLevel : Nat := 0x2D1

/-- Self-diagnosis cause `c` arises (R463): when enabled it is pending (but for HANDOVER), latched and raised. -/
def Stage.sdCause (s : Stage) (c : Nat) : Stage :=
  if c = 9 then (s.setFld 0x2A0 0x084 3 0 c).raise 0x2A0 8
  else if s.flag 0x2A0 0x090 (c - 1) then
    let s := ((s.setFlag 0x2A0 0x094 (c - 1) true).setFld 0x2A0 0x084 3 0 c).raise 0x2A0 8
    { s with red := { s.red with arose := c, lost := s.red.lost || s.mode == mUnderstudy } }
  else s

/-- VMAX, VMIN and the code last commanded. -/
def Stage.vmax (s : Stage) : Nat := s.fld pLevel 0x088 22 16
def Stage.vmin (s : Stage) : Nat := s.fld pLevel 0x088 6 0
def Stage.vcoreNow (s : Stage) : Nat := s.fld pLevel 0x090 6 0

/-- LVL_CFG.FREEZE (R54). -/
def Stage.frozen (s : Stage) : Bool := s.flag pLevel 0x080 0

/-- VCORE_START held within VMIN and VMAX, beyond which the loop never commands (R37). -/
def Stage.startCode (s : Stage) : Nat := max s.vmin (min (s.fld pLevel 0x08C 6 0) s.vmax)

/-- The Voltage command value of a code in millivolts, rounded up (R43). -/
def codeToMv (code : Int) : Nat := (ceilDiv (1160 + 5 * code) 2).toNat

/-- The frame at the head of the queue is put on the bus (R42). -/
def Stage.avsSend (s : Stage) : Stage :=
  match s.level.frames with
  | [] => s
  | f :: _ => s.emit (.avs (s.fld pLevel 0x0AC 11 8) f (match f with | .voltageWrite c _ => codeToMv (c + s.level.trim) | _ => 0))

/-- A frame joins the queue; an emergency write goes ahead of every frame not on the bus (R40). -/
def Stage.avsQueue (s : Stage) (f : AvsCmd) (first : Bool) : Stage :=
  match s.level.frames with
  | [] => { s with level := { s.level with frames := [f], attempts := 0 } }.avsSend
  | h :: t => { s with level := { s.level with frames := if first then h :: f :: t else h :: (t ++ [f]) } }

/-- The loop commands `code`: VCORE_NOW takes it and a Voltage write is sent (R43, R53). -/
def Stage.command (s : Stage) (code : Nat) (emergency : Bool) : Stage :=
  (s.setFld pLevel 0x090 6 0 code).avsQueue (.voltageWrite code emergency) emergency

/-- The state the loop rests in: LEVEL in a levelling mode without FREEZE, else HOLD (R47). -/
def Stage.resting (s : Stage) : LoopState := if isLevelling s.mode && !s.frozen then .level else .hold

/-- The loop enters a state; into HOLD it applies its calibration (R585). -/
def Stage.setLoop (s : Stage) (l : LoopState) : Stage :=
  let t := { s with level := { s.level with loop := l } }
  if l = .hold ∧ s.level.loop ≠ .hold then t.calApply pLevel else t

/-- The emergency raise (R40, R41). -/
def Stage.emergencyRaise (s : Stage) : Stage :=
  let s := ((s.bump pLevel 0x0A4).raise pLevel 0)
  let s := { s with level := { s.level with downBar := true } }
  if s.vmax ≤ s.vcoreNow then (s.raise pLevel 1).setLoop .settle
  else (s.setLoop .emergency).command (min (s.vcoreNow + 10) s.vmax) true

/-- R46: VCORE and the regulator current are read back, or the reads are deferred. -/
def Stage.readBack (s : Stage) : Stage :=
  match s.level.loop with
  | .emergency | .settle => { s with level := { s.level with readDeferred := true } }
  | _ => ({ s with level := { s.level with readDeferred := false } }.avsQueue .voltageRead false).avsQueue .currentRead false

/-- SLACK_MIN's word: permille in [31:16], nanoseconds in [15:0] (R53). -/
def slackWord (perm ns : Int) : Nat := toBits 16 perm * 65536 + toBits 16 ns

/-- The end of a level window (R39, R44, R53). -/
def Stage.levelWindow (s : Stage) : Stage :=
  let w := s.level.winMin
  let s := { s with level := { s.level with winMin := none } }
  let s := match w with
    | some (p, ns) => s.setN pLevel 0x09C (slackWord p ns)
    | none => s
  match s.level.loop, w with
  | .fault, _ => s.avsQueue (.voltageWrite s.vcoreNow false) false
  | .level, some (p, _) =>
    let t : Int := s.fld pLevel 0x084 9 0
    let h : Int := s.fld pLevel 0x084 25 16
    if p < t - h then
      (if s.vmax ≤ s.vcoreNow then s.raise pLevel 1 else s.command (s.vcoreNow + 1) false)
    else if t + h < p then
      (if s.vcoreNow ≤ s.vmin then s.raise pLevel 5
       else if s.level.downBar then s else s.command (s.vcoreNow - 1) false)
    else s
  | _, _ => s

/-- EMERG_SETTLE has elapsed (R41, R46, R47). -/
def Stage.settleEnd (s : Stage) : Stage :=
  match s.level.loop with
  | .settle =>
    let s := s.setLoop s.resting
    let s := if s.level.readDeferred then s.readBack else s
    if s.level.low && isLevelling s.mode then s.emergencyRaise else s
  | _ => s

/-- The head frame succeeded with the value `v` read (R41, R44 to R47). -/
def Stage.avsOk (s : Stage) (f : AvsCmd) (v : Nat) : Stage :=
  let s := match f with
    | .voltageRead => s.setFld pLevel 0x0B0 15 0 v
    | .currentRead => s.setFld pLevel 0x0B4 15 0 v
    | .statusRead => (s.setFld pLevel 0x0B8 15 0 v).raise pLevel 3
    | .voltageWrite _ _ => s
  match s.level.loop, f with
  | .emergency, .voltageWrite _ true => s.setLoop .settle
  | .fault, _ => s.setLoop s.resting
  | _, _ => s

/-- A frame's response (R44): repeated up to three times, then REG_FAULT. -/
def Stage.avsResponse (s : Stage) (ok : Bool) (v : Nat) : Stage :=
  match s.level.frames with
  | [] => s
  | f :: t =>
    if ok then ({ s with level := { s.level with frames := t, attempts := 0 } }.avsOk f v).avsSend
    else if s.level.attempts < 3 then { s with level := { s.level with attempts := s.level.attempts + 1 } }.avsSend
    else (({ s with level := { s.level with frames := t, attempts := 0 } }.raise pLevel 4).setLoop .fault).avsSend

/-- The regulator signals an alert while the bus is idle (R45). -/
def Stage.regAlert (s : Stage) : Stage :=
  match s.level.frames with
  | [] => s.avsQueue .statusRead false
  | _ :: _ => s

/-- What a LEVEL register write changes beside the register (R47, R53, R56); `s` already holds the new value. -/
def Stage.levelWritten (s : Stage) (off : Nat) : Stage :=
  if off = 0x080 then
    (match s.level.loop with
     | .level => if s.frozen then s.setLoop .hold else s
     | .hold => if !s.frozen && isLevelling s.mode then s.setLoop .level else s
     | _ => s)
  else if off = 0x088 then
    (if s.vmax < s.vcoreNow then s.command s.vmax false
     else if s.vcoreNow < s.vmin then s.command s.vmin false else s)
  else if off = 0x08C then
    (match s.level.loop with
     | .hold => if s.frozen then s else s.command s.startCode false
     | _ => s)
  else s

/-- A mode in which the loop holds is entered (R38, R47). -/
def Stage.levelHold (s : Stage) : Stage :=
  let s := s.setLoop .hold
  if s.frozen then s else s.command s.startCode false

/-- The loop's part in a mode change (R38, R47). -/
def Stage.levelMode (s : Stage) (old new : Nat) : Stage :=
  if isLevelling new then
    (if isLevelling old then s
     else
       let s := (match s.level.loop with
         | .fault => s
         | _ => s.setLoop (if s.frozen then .hold else .level))
       if s.frozen then s else s.command s.startCode false)
  else if new = mOff ∨ new = mWatch then s.setLoop .hold
  else s.levelHold

/-! ### Slack (R32 to R35) -/

/-- The slack of a done point `done` (raw, 2^-16 ns) against boundary `n`, in whole nanoseconds (R32). -/
def Stage.slackNs (s : Stage) (done n : Nat) : Int :=
  let (a, b) := s.boundaryRaw n
  satI 16 (roundHalfDown (a - (done / unit * unit : Nat) * b) (b * unit))

/-- The permille value of a slack at engine rate `fs` (R33). -/
def permille (slack : Int) (fs : Nat) : Int := roundHalfDown (1000 * slack * fs) 1000000000

/-- The projected slack: period − busy × max(W, E) ÷ E with the exact period 10^9 / fs (R34). -/
def projected (slack : Int) (fs w e : Nat) : Int :=
  let m : Int := max w e
  satI 16 (roundHalfDown (1000000000 * (e : Int) - (1000000000 - slack * fs) * m) ((fs : Int) * e))

/-- One block's slack of the sample just closed: measured and projected. -/
structure Slack where
  page : Nat
  meas : Int
  proj : Int
deriving DecidableEq, Repr

/-- The entry with the smallest measured slack; ties go to the lower page index (R33). -/
def minSlack : List Slack → Option Slack
  | [] => none
  | x :: t =>
    match minSlack t with
    | none => some x
    | some y => if x.meas < y.meas ∨ (x.meas = y.meas ∧ x.page ≤ y.page) then some x else some y

/-- The smaller of two window values, by permille and then by nanoseconds. -/
def minWin (a : Option (Int × Int)) (b : Int × Int) : Int × Int :=
  match a with
  | none => b
  | some x => if x.1 < b.1 ∨ (x.1 = b.1 ∧ x.2 ≤ b.2) then x else b

/-- The measurement of a sample (R33, R35, R40): `l` the slacks measured, `overrun` that a block is still working, whose slack
is negative. -/
def Stage.measure (s : Stage) (l : List Slack) (overrun : Bool) : Stage :=
  let fs := s.fs
  let s := match minSlack l with
    | none => s
    | some x =>
      let steer : Int := if s.flag pLevel 0x080 8 then (l.map Slack.proj).foldl min 32767 else x.meas
      let s := (s.setN pLevel 0x094 (slackWord (permille x.meas fs) x.meas)).setN pLevel 0x098 x.page
      { s with level := { s.level with winMin := some (minWin s.level.winMin (permille steer fs, steer)) } }
  let low := overrun || l.any (fun x => decide (x.meas * 1000 * fs < 50 * 1000000000))
  let s := { s with level := { s.level with low := low } }
  match s.level.loop with
  | .level | .hold => if low && isLevelling s.mode then s.emergencyRaise else s
  | _ => s

/-- One late boundary of a block (R49, R51, R463); `patch` for the input or output patch. -/
def Stage.countLate (s : Stage) (page : Nat) (patch : Bool) : Stage :=
  let s := s.bump pLevel 0x0A0
  let s :=
    if patch then s.raise pLevel 6
    else if page < 0x140 then
      let k := page - 0x100
      ((s.raise page 0).bump page 0x09C).setFlag pLevel (0x0C0 + 4 * (k / 32)) (k % 32) true
    else
      let k := page - 0x140
      ((s.raise page 0).bump page 0x0A0).setFlag pLevel (0x0C8 + 4 * (k / 32)) (k % 32) true
  let s :=
    if s.vcoreNow = s.vmax ∨ s.level.loop = .fault then
      ({ s with level := { s.level with ceilingSeen := true } }.raise pLevel 2).sdCause 3
    else s
  let now := s.now
  let times := s.level.lateTimes.filter (fun t => decide (now < t + unitsPerSec)) ++ [now]
  let s := { s with level := { s.level with lateTimes := times } }
  if s.fld 0x2A0 0x098 7 0 < times.length then s.sdCause 2 else s

end Sys2Proof.Machine
end

