-- ==== Sys2Proof/Machine/Pool.lean ====
section
/-!
DEFINITION. Memory words and their error-correcting code, and the pool: owners, ports, handovers and the bit aliases (R513 to R535).
-/
namespace Sys2Proof.Machine

def pPool : Nat := 0x002
def poolBase : Nat := 0x100000000
def bankSize : Nat := 0x20000

/-! ### Owners (R516 to R518, R520) -/

/-- The owner code that a master belongs to. -/
def ownerOf (m : Master) : Nat :=
  match m.cls with
  | 0 => 0x43
  | 1 => 0x44
  | 2 => 0x46
  | 3 => 0x45
  | 4 => 0x40
  | 5 => 0x41
  | 6 => 0x42
  | _ => m.idx % 64

/-- The owner in effect of a bank port. -/
def Stage.bankOwner (s : Stage) (bank : Nat) (portB : Bool) : Nat :=
  bits (s.regN pPool ((if portB then 0x200 else 0x100) + 4 * (bank / 4))) (8 * (bank % 4) + 7) (8 * (bank % 4))

/-- The new owner of a port whose handover is pending. -/
def Stage.handingTo (s : Stage) (bank : Nat) (portB : Bool) : Option Nat :=
  (s.pool.pend.find? fun e => e.1 == bank && e.2.1 == portB).map (·.2.2)

/-- What a port says to an access of owner `own`: it may go, it stalls for a handover, or it is denied. -/
inductive PortSays where
  | go | stall | deny
deriving DecidableEq, Repr

def Stage.portSays (s : Stage) (bank : Nat) (portB : Bool) (own : Nat) : PortSays :=
  match s.handingTo bank portB with
  | some new => if own = new then .stall else .deny
  | none => if own = s.bankOwner bank portB then .go else .deny

/-- The port of an access and what it says (R518). -/
def Stage.routeBank (s : Stage) (bank own : Nat) : PortSays × Bool :=
  match s.portSays bank false own with
  | .deny => if bank < 16 then (s.portSays bank true own, true) else (.deny, false)
  | x => (x, false)

/-- The bank is on loan (R493). -/
def Stage.loan (s : Stage) (bank : Nat) : Option LoanSt := Tab.get none s.reh.loans bank
def Stage.putLoan (s : Stage) (bank : Nat) (l : Option LoanSt) : Stage :=
  { s with reh := { s.reh with loans := Tab.put none s.reh.loans bank l } }

/-! ### Words and their code (R525 to R529) -/

/-- The page whose block owns the memory at Grid address `a`, for CORR (R504). -/
def memPage (a : Nat) : Option Nat :=
  if a / 0x100000000 = 1 then some pPool
  else if 0x200000000 ≤ a ∧ a < 0x201000000 then some (0x140 + (a - 0x200000000) / 0x40000)
  else if 0x300000000 ≤ a ∧ a < 0x304000000 then some (0x100 + (a - 0x300000000) / 0x100000)
  else if 0x400000000 ≤ a ∧ a < 0x400200000 then some 0x290
  else if 0x400200000 ≤ a ∧ a < 0x400240000 then some 0x291
  else none

/-- The memory at `a`, read through a port whose owner is `own`, is audio state (R527). -/
def audioState (a own : Nat) : Bool :=
  if a / 0x100000000 = 1 then decide (own < 64)
  else !(decide (a < 0x100000000) || (decide (0x400200000 ≤ a) && decide (a < 0x400240000)))

/-- An error is latched: a single error does not replace an uncorrectable one (R529). -/
def Stage.eccLatch (s : Stage) (addr mem : Nat) (audio ue : Bool) : Stage :=
  if !ue && s.pool.latched then s
  else ({ s with pool := { s.pool with latched := ue } }.setN pPool 0x09C (addr / 32 * 32)).setN pPool 0x0A0
    (mem * 2 ^ 16 + (if audio then 512 else 0) + (if ue then 256 else 0) + addr / 2 ^ 32)

/-- A corrected error is counted (R526, R504). -/
def Stage.eccOne (s : Stage) (page : Option Nat) (addr mem : Nat) (audio : Bool) : Stage :=
  let s := (s.eccLatch addr mem audio false).bump pPool 0x094
  let r := { s.reh with sec := s.reh.sec + 1 }
  match page with
  | some p => { s with reh := { r with corr := Tab.put 0 r.corr p (min 0xFFFF (Tab.get 0 r.corr p + 1)) } }
  | none => { s with reh := r }

/-- An uncorrectable error is counted (R526, R528). -/
def Stage.eccTwo (s : Stage) (addr mem : Nat) (audio : Bool) : Stage :=
  let s := (s.eccLatch addr mem audio true).bump pPool 0x098
  let s := { s with reh := { s.reh with ue := s.reh.ue + 1 } }
  if audio then ({ s with reh := { s.reh with poolUe := true } }.raise pPool 4).sdCause 1 else s.raise pPool 3

/-- The word at `a` is read: a single error is corrected, an uncorrectable one counted (R526). -/
def Stage.eccRead (s : Stage) (a own : Nat) : Stage :=
  let m := s.flips a
  if m = 0 then s
  else if s.lost a then s.eccTwo a 0 (audioState a own)
  else { s with ecc := Tab.put 0 s.ecc (a / 32) 0 }.eccOne (memPage a) a 0 (audioState a own)

/-- Every erroneous word of the `k` bytes from `a` on is read. -/
def Stage.eccReads (s : Stage) (a k own : Nat) : Stage :=
  (s.ecc.filter fun e => decide (a / 32 ≤ e.1 ∧ 32 * e.1 < a + k)).foldl (fun s e => s.eccRead (32 * e.1) own) s

/-- The whole word at `a` is written: an error it held is gone. -/
def Stage.eccClear (s : Stage) (a : Nat) : Stage := { s with ecc := Tab.put 0 s.ecc (a / 32) 0 }

/-- The words that the bytes from `a` to `a + k - 1` touch, with the part of each: (address, offset from `a`, length). -/
def wordsOf (a k : Nat) : List (Nat × Nat × Nat) :=
  if k = 0 then []
  else (upTo ((a + k - 1) / 32 - a / 32 + 1)).map fun i =>
    let lo := max a (32 * (a / 32 + i))
    let hi := min (a + k) (32 * (a / 32 + i + 1))
    (lo, lo - a, hi - lo)

/-- Bytes of one word are read by a Grid master: none where the word is uncorrectable. -/
def Stage.wordRead (s : Stage) (a k own : Nat) : Stage × Option (List Byte) :=
  let s := s.eccRead a own
  if s.lost a then (s, none) else (s, some (s.rdBytes a k))

/-- How a write changes a byte: plain, or through the bit-set or bit-clear alias (R524). -/
inductive WMode where
  | plain | setBits | clearBits
deriving DecidableEq, Repr

def WMode.apply (w : WMode) (old new : Byte) : Byte :=
  match w with
  | .plain => new
  | .setBits => old ||| new
  | .clearBits => old &&& ~~~new

/-- Bytes of one word are written with their enables; false where an uncorrectable word stops a partial write (R526). -/
def Stage.wordWrite (s : Stage) (w : WMode) (a : Nat) (d : List (Byte × Bool)) (own : Nat) : Stage × Bool :=
  let whole := d.length == 32 && d.all (·.2) && w == .plain
  let s := if whole then s.eccClear a else s.eccRead a own
  if !whole && s.lost a then (s, false)
  else
    let cells := ((upTo d.length).zip d).filterMap fun (i, b, en) =>
      if en then some (a + i, w.apply (s.rd8 (a + i)) b) else none
    (s.wrCells cells, true)

/-! ### Accesses to the pool (R513, R515, R517, R522 to R524, R533) -/

/-- The more severe of two responses (R539). -/
def Resp.rank : Resp → Nat
  | .aborted => 0
  | .fault => 1
  | .denied => 2
  | .refused => 3
  | .collided => 4
  | .okay => 5

def Resp.worse (a b : Resp) : Resp := if a.rank ≤ b.rank then a else b

/-- An access refused for its owner (R517). -/
def Stage.poolDenied (s : Stage) (bank own : Nat) : Stage :=
  ((s.bump pPool 0x084).setN pPool 0x088 (own * 2 ^ 16 + bank)).raise pPool 0

/-- A COLLIDED beat (R522). -/
def Stage.poolCollided (s : Stage) (off : Nat) : Stage :=
  ((s.bump pPool 0x08C).setN pPool 0x090 (off % bankSize / 32 * 2 ^ 12 + off / bankSize)).raise pPool 1

/-- The mask that an armed injection inverts (R533). -/
def Stage.injectMask (s : Stage) : Nat :=
  let v := s.regN pPool 0x400
  Nat.lor (2 ^ bits v 8 0) (if bit v 30 then 2 ^ bits v 24 16 else 0)

/-- An armed injection falls on the word just written (R533). -/
def Stage.inject (s : Stage) (a : Nat) : Stage :=
  if s.flag pPool 0x400 31 then
    { s.setFlag pPool 0x400 31 false with ecc := Tab.put 0 s.ecc (a / 32) (Nat.xor (s.flips a) s.injectMask) }
  else s

/-- Where an access to a pool region leads: beyond the pool or across a bank, or a bank (R513, R523). -/
def poolBank (off len : Nat) : Option Nat :=
  if 0x2000000 ≤ off ∨ (off + len - 1) / bankSize ≠ off / bankSize then none else some (off / bankSize)

/-- What becomes of an access of owner `own` to a bank before it is made: a response, a stall, or the port it takes. -/
inductive BankGate where
  | answer (r : Resp) | stall | port (portB : Bool)
deriving DecidableEq, Repr

def Stage.bankGate (s : Stage) (bank own : Nat) : BankGate :=
  if s.fld 0x2D0 0x090 8 8 = 0 ∨ s.flag 0x2D0 0x090 28 then .answer .fault
  else match s.routeBank bank own with
    | (.deny, _) => .answer .denied
    | (.stall, _) => .stall
    | (.go, b) => if (s.loan bank).isSome && own != 0x45 then .stall else .port b

/-- An owner's access has reached its bank (R493). -/
def Stage.bankUsed (s : Stage) (bank : Nat) : Stage :=
  { s with reh := { s.reh with lastUse := Tab.put 0 s.reh.lastUse bank s.datum.raw } }

/-- The bytes of a Grid master's read, word by word: a lost word gives FAULT and zero data (R523, R528). -/
def Stage.wordsRead (s : Stage) (a len own : Nat) : Stage × Resp × List Byte :=
  (wordsOf a len).foldl (fun (x : Stage × Resp × List Byte) w =>
    let (s, r, d) := x
    match s.wordRead w.1 w.2.2 own with
    | (s, some b) => (s, r, d ++ b)
    | (s, none) => (s, r.worse .fault, d ++ List.replicate w.2.2 0#8))
    (s, .okay, [])

/-- A read of the pool that has its port: the response and the data (R523, R528). -/
def Stage.poolRead (s : Stage) (off len own : Nat) : Stage × Resp × List Byte :=
  (s.bankUsed (off / bankSize)).wordsRead (poolBase + off) len own

/-- The bytes of a Grid master's write, word by word (R522 to R526, R533); `clash` the words, counted
from the first, that collide on port B. -/
def Stage.wordsWrite (s : Stage) (w : WMode) (a : Nat) (d : List (Byte × Bool)) (own : Nat) (clash : List Nat) : Stage × Resp :=
  let ws := wordsOf a d.length
  ((upTo ws.length).zip ws).foldl (fun (x : Stage × Resp) (iw : Nat × Nat × Nat × Nat) =>
    let (s, r) := x
    let (i, wa, o, k) := iw
    let part := (d.drop o).take k
    if !part.any (·.2) then (s, r)
    else if clash.contains i then (s.poolCollided (wa - poolBase), r.worse .collided)
    else match s.wordWrite w wa part own with
      | (s, true) => (if wa / 2 ^ 32 = 1 then s.inject wa else s, r)
      | (s, false) => (s, r.worse .fault)) (s, .okay)

/-! ### Handovers (R520, R521) -/

/-- The owner fields of a register: (bank, port B, code). -/
def ownerFields (off v : Nat) : List (Nat × Bool × Nat) :=
  let portB := decide (0x200 ≤ off)
  (upTo 4).map fun j => (4 * ((off - if portB then 0x200 else 0x100) / 4) + j, portB, bits v (8 * j + 7) (8 * j))

/-- Every field holds a code of R516. -/
def ownersLegal (off v : Nat) : Bool := (ownerFields off v).all fun f => decide (f.2.2 ≤ 0x46)

/-- The fields that change. -/
def Stage.ownerChanges (s : Stage) (off v : Nat) : List (Nat × Bool × Nat) :=
  (ownerFields off v).filter fun f => s.bankOwner f.1 f.2.1 != f.2.2

/-- A handover of `bank`'s port is pending: its HANDOVER_PEND bit. -/
def Stage.pendBit (s : Stage) (bank : Nat) : Stage :=
  s.setFlag pPool (0x0B0 + 4 * (bank / 32)) (bank % 32) (s.pool.pend.any fun e => e.1 == bank)

/-- An owner register is written with a legal value (R520, R521). -/
def Stage.ownerWrite (s : Stage) (off v : Nat) : Stage :=
  let ch := s.ownerChanges off v
  if ch.any fun f => (s.handingTo f.1 f.2.1).isSome then s.respond .refused
  else (ch.foldl (fun s f => { s with pool := { s.pool with pend := s.pool.pend ++ [f] } }.pendBit f.1) s).respond .okay

/-- The drain of a bank port ends (R520). A bank on loan is recalled first. -/
def Stage.handoverDone (s : Stage) (bank : Nat) (portB : Bool) : Stage :=
  match s.handingTo bank portB with
  | none => s
  | some new =>
    if (s.loan bank).isSome then s
    else
      let off := (if portB then 0x200 else 0x100) + 4 * (bank / 4)
      let s := s.setFld pPool off (8 * (bank % 4) + 7) (8 * (bank % 4)) new
      let s := { s with pool := { s.pool with pend := s.pool.pend.filter fun e => !(e.1 == bank && e.2.1 == portB) } }
      ((s.pendBit bank).bump pPool 0x080).raise pPool 2

/-- ECC_INJECT takes a legal value (R533). -/
def injectLegal (v : Nat) : Bool :=
  decide (bits v 24 16 ≤ 265) && decide (bits v 8 0 ≤ 265) && !(bit v 30 && bits v 24 16 == bits v 8 0)

/-- A soft reset of POOL (R530). -/
def Stage.poolSoftReset (s : Stage) : Stage :=
  { s with pool := { s.pool with latched := false } }.clearRegs pPool (fun o => decide (0x080 ≤ o ∧ o ≤ 0x0A0))

end Sys2Proof.Machine
end

