-- ==== Sys2Proof/Machine/Operands.lean ====
section
/-!
DEFINITION. The operand forms of the strip processors (R59, R66, R67, R72 to R74, R109, R124, R125): register names, special
registers, the word addresses of X, Y and C memory, post-modify and the offset mode.
-/
namespace Sys2Proof.Machine

/-! ### Register files -/

/-- What special register `c` holds after a reset (R66): SPMODE 3, the others 0. -/
def srReset (c : Nat) : Nat := if c = 0x45 then 3 else 0

/-- The bits of special register `c` that a write sets (R66, R106 to R109, R125); reserved bits are ignored. -/
def srMask (c : Nat) : Nat :=
  if c < 0x10 then 0xFFFF else if c < 0x20 then 0x3FFFF else if c < 0x30 then 0xFFFF else if c < 0x40 then 0x3FFFF
  else match c with
    | 0x40 => 0xFFFF | 0x41 => 0xFFFF | 0x42 => 0x07FF07FF | 0x43 => 0x87FF87FF | 0x44 => 0xF | 0x45 => 0x33 | 0x46 => 0x3F
    | 0x47 => 0xFCFF | 0x48 => 0x7FF | _ => 0xF

/-- Special register `c` by its SREG code, as the bits it holds (R125). -/
def SpSt.sreg (sp : SpSt) (c : Nat) : Nat := Nat.land (Tab.get (srReset c) sp.sr c) (srMask c)

/-- Special register `c` set to the bits of `v` it holds. -/
def SpSt.setSreg (sp : SpSt) (c v : Nat) : SpSt :=
  { sp with sr := Tab.put (srReset c) sp.sr c (Nat.land v (srMask c)) }

def rLC (k : Nat) : Nat := 0x40 + k
def rLS : Nat := 0x42
def rLE : Nat := 0x43
def rRRB : Nat := 0x44
def rSPMODE : Nat := 0x45
def rSPSTAT : Nat := 0x46
def rISTAT : Nat := 0x47
def rIPC : Nat := 0x48
def rFLAGS : Nat := 0x49

/-- Pointer, stride, base and length `i`. -/
def SpSt.p (sp : SpSt) (i : Nat) : Nat := sp.sreg i
def SpSt.n (sp : SpSt) (i : Nat) : Int := sext 18 (sp.sreg (0x10 + i))
def SpSt.b (sp : SpSt) (i : Nat) : Nat := sp.sreg (0x20 + i)
def SpSt.l (sp : SpSt) (i : Nat) : Nat := sp.sreg (0x30 + i)
def SpSt.lc (sp : SpSt) (k : Nat) : Nat := sp.sreg (rLC k)
def SpSt.rrb (sp : SpSt) : Nat := sp.sreg rRRB
def SpSt.fl (sp : SpSt) (i : Nat) : Bool := bit (sp.sreg rFLAGS) i

/-- The physical register of the name Dn (R67). -/
def SpSt.phys (sp : SpSt) (n : Nat) : Nat := if n < 16 then n else 16 + (n - 16 + 16 - sp.rrb) % 16

/-- The D register named `n`, read at issue (R67, R111). -/
def SpSt.dReg (sp : SpSt) (n : Nat) : Word := Tab.get 0#32 sp.d (sp.phys n)

/-- The same as a signed number. -/
def SpSt.dInt (sp : SpSt) (n : Nat) : Int := (sp.dReg n).toInt

/-- Accumulator `k`, a 72-bit signed value. -/
def SpSt.acc (sp : SpSt) (k : Nat) : Int := sext 72 (toBits 72 (Tab.get 0 sp.ac k))

/-- The result of MOVR (R125): N0 to N11 sign-extended, the others zero-extended. -/
def SpSt.movr (sp : SpSt) (c : Nat) : Word :=
  if 0x10 ≤ c ∧ c < 0x20 then Word.ofInt (sext 18 (sp.sreg c)) else Word.ofNat (sp.sreg c)

/-- The predicate of a slot (R113). -/
def SpSt.holds (sp : SpSt) (pred : Nat) : Bool :=
  if pred = 0 then true else if pred < 12 then sp.fl (pred % 4) else !sp.fl (pred % 4)

/-! ### Memories -/

/-- The base address of SP k's window (R59). -/
def spBase (k : Nat) : Nat := 0x300000000 + k * 0x100000

/-- X, Y and C memory. -/
inductive Space where
  | x | y | c
deriving DecidableEq, Repr

/-- The size of a memory in words (R59). -/
def Space.size : Space → Nat
  | .x => 24576 | .y => 24576 | .c => 16384

/-- The window offset of a memory (R59). -/
def Space.off : Space → Nat
  | .x => 0 | .y => 0x40000 | .c => 0x80000

/-- The Grid address of the word that the 16-bit word address `a` reaches (R72). -/
def wordAddr (k : Nat) (m : Space) (a : Nat) : Nat := spBase k + m.off + 4 * (a % m.size)

/-- The Grid address of bundle `b` of program bank `bank` (R59, R110). -/
def bundleAddr (k bank b : Nat) : Nat := spBase k + 0xC0000 + 0x8000 * bank + 16 * b

/-- The Grid address of gather or scatter entry `j` of a bank (R59). -/
def gatherAddr (k bank j : Nat) : Nat := spBase k + 0xD0000 + 0x800 * bank + 4 * j
def scatterAddr (k bank j : Nat) : Nat := spBase k + 0xD0400 + 0x800 * bank + 4 * j

/-! ### Addresses (R72 to R74, R124) -/

/-- A post-modified pointer or an offset address: the value, and whether the slow path was taken. -/
def circ (p b l : Nat) (stride : Int) : Nat × Bool :=
  if l = 0 then (toBits 16 ((p : Int) + stride), false)
  else
    let o : Int := (p : Int) - b
    (toBits 16 ((b : Int) + Int.emod (o + stride) l),
     !(decide (0 ≤ o) && decide (o < l) && decide (-(l : Int) < stride) && decide (stride < l)))

/-- Pointer `i` post-modified by `stride` (R73, R74). -/
def SpSt.postMod (sp : SpSt) (i : Nat) (stride : Int) : Nat × Bool := circ (sp.p i) (sp.b i) (sp.l i) stride

end Sys2Proof.Machine
end

