-- ==== Sys2Proof/Machine/Flags.lean ====
section
/-!
DEFINITION. The sticky flags, saturation and flag computations of the strip processors (R69 to R71, R107, R119 to R121).
-/
namespace Sys2Proof.Machine

/-- The sticky flags of SPSTAT (R107). -/
def fAV : Nat := 0
def fSV : Nat := 1
def fCIRC : Nat := 2
def fWRAP : Nat := 3
def fCONF : Nat := 4
def fFAR : Nat := 5

/-- A sticky flag is set. -/
def SpSt.stick (sp : SpSt) (f : Nat) : SpSt := sp.setSreg rSPSTAT (setBit (sp.sreg rSPSTAT) f true)

/-- The flag is set when `c` holds. -/
def SpSt.stickIf (sp : SpSt) (c : Bool) (f : Nat) : SpSt := if c then sp.stick f else sp

/-- SPMODE.ACS and SPMODE.RND (R106). -/
def SpSt.acs (sp : SpSt) : Bool := bit (sp.sreg rSPMODE) 0
def SpSt.rnd (sp : SpSt) : Bool := bit (sp.sreg rSPMODE) 1

/-- A 32-bit saturating result and SV (R120). -/
def SpSt.sat32 (sp : SpSt) (z : Int) : Int × SpSt := (satI 32 z, sp.stickIf (satI 32 z != z) fSV)

/-- An accumulator result under ACS, and AV (R69, R120). -/
def SpSt.sat72 (sp : SpSt) (z : Int) : Int × SpSt :=
  if satI 72 z = z then (z, sp)
  else if sp.acs then (satI 72 z, sp.stick fAV)
  else (sext 72 (toBits 72 z), sp)

/-- EXTR at scale `sc` (R70). -/
def SpSt.extr (sp : SpSt) (a sc : Int) : Int × SpSt :=
  let num := a * 2 ^ (sc + 32).toNat
  sp.sat32 (if sp.rnd then roundHalfEven num (2 ^ 64) else Int.fdiv num (2 ^ 64))

/-- The number of bits that `n` needs. -/
def bitLen (n : Nat) : Nat := if n = 0 then 0 else Nat.log2 n + 1

/-- The redundant sign bits of a `w`-bit signed value (R71). -/
def expOf (w : Nat) (z : Int) : Nat := w - 1 - bitLen (if z < 0 then (-z - 1).toNat else z.toNat)

/-- `z × 2^n` with a right shift truncated toward minus infinity (R120). -/
def shiftI (z n : Int) : Int := if 0 ≤ n then z * 2 ^ n.toNat else Int.fdiv z (2 ^ (-n).toNat)

/-- Part `p` of an accumulator as ARD reads it (R121). -/
def accPart (a : Int) (p : Nat) : Word :=
  match p with
  | 0 => Word.ofInt a
  | 1 => Word.ofInt (Int.fdiv a (2 ^ 32))
  | _ => Word.ofInt (Int.fdiv a (2 ^ 64))

/-- The accumulator after AWR of `d` into part `p` (R121). -/
def accSetPart (a : Int) (p : Nat) (d : Word) : Int :=
  let n := toBits 72 a
  sext 72 (match p with
    | 0 => setBits n 31 0 d.toNat
    | 1 => setBits n 63 32 d.toNat
    | _ => setBits n 71 64 (d.toNat % 256))

end Sys2Proof.Machine
end

