-- ==== Sys2Proof/Machine/SpDecode.lean ====
section
/-!
DEFINITION. The encodings of the strip processor's four slots (R110, R112 to R125): the word of a slot, and the slot a word
holds or none where the encoding is illegal. A field that the instruction does not use must be zero, which is checked by
encoding what was read.
-/
namespace Sys2Proof
open Sys2Proof.Machine

/-- Predicate codes 0b0001 to 0b0111 are illegal (R113). -/
def predLegal (p : Nat) : Bool := p == 0 || (decide (8 ≤ p) && decide (p ≤ 15))

/-- The special registers that have a code (R125). -/
def sregLegal (c : Nat) : Bool :=
  decide (c < 0x40) && decide (c % 16 < 12) || decide (0x40 ≤ c) && decide (c ≤ 0x49)

/-! ### Multiply slots (R115 to R117) -/

def MOp.code : MOp → Nat
  | .none => 0 | .mac => 1 | .msu => 2 | .mpy => 3 | .mpyn => 4

/-- The multiply operation of MOP; 0b101 to 0b111 are illegal (R116). -/
def mopOf (c : Nat) : Option MOp :=
  match c with
  | 0 => some .none | 1 => some .mac | 2 => some .msu | 3 => some .mpy | 4 => some .mpyn | _ => none

/-- A legal multiply slot (R112, R116, R117). -/
def MSlot.legal (m : MSlot) : Bool :=
  predLegal m.pred && decide (m.acc < 8) && decide (m.sa < 32) && decide (m.sb < 32) && decide (m.lm < 4)
    && decide (m.lp < 12) && decide (m.ld < 32)
    && (m.op != .none || (!m.fs && m.acc == 0 && m.sa == 0 && m.sb == 0))
    && (m.lm != 0 || (m.lp == 0 && m.ld == 0))

/-- The word of a multiply slot (R115). -/
def MSlot.word (m : MSlot) : Nat :=
  m.pred * 2 ^ 28 + m.op.code * 2 ^ 25 + (if m.fs then 2 ^ 24 else 0) + m.acc * 2 ^ 21 + m.sa * 2 ^ 16 + m.sb * 2 ^ 11
    + m.lm * 2 ^ 9 + m.lp * 2 ^ 5 + m.ld

/-- The multiply slot a word holds. -/
def decodeM (w : Nat) : Option MSlot :=
  match mopOf (bits w 27 25) with
  | none => none
  | some op =>
    let m : MSlot := { pred := bits w 31 28, op := op, fs := bit w 24, acc := bits w 23 21, sa := bits w 20 16,
                       sb := bits w 15 11, lm := bits w 10 9, lp := bits w 8 5, ld := bits w 4 0 }
    if m.legal then some m else none

/-! ### The A slot (R118, R119, R121) -/

def arWord (o dd da db : Nat) : Nat := o * 2 ^ 22 + dd * 2 ^ 17 + da * 2 ^ 12 + db * 2 ^ 7
def aiWord (o dd da i : Nat) : Nat := o * 2 ^ 22 + dd * 2 ^ 17 + da * 2 ^ 12 + i
def aaWord (o acd aca da dd s6 : Nat) : Nat :=
  o * 2 ^ 22 + acd * 2 ^ 19 + aca * 2 ^ 16 + da * 2 ^ 11 + dd * 2 ^ 6 + s6
def afWord (o fk da low : Nat) : Nat := o * 2 ^ 22 + fk * 2 ^ 20 + da * 2 ^ 12 + low

/-- Bits [27:0] of an A slot (R118, R119). -/
def AOp.word : AOp → Nat
  | .nop => 0
  | .add d a b => arWord 0x01 d a b | .sub d a b => arWord 0x02 d a b
  | .adds d a b => arWord 0x03 d a b | .subs d a b => arWord 0x04 d a b
  | .and d a b => arWord 0x05 d a b | .or d a b => arWord 0x06 d a b | .xor d a b => arWord 0x07 d a b
  | .not d a => arWord 0x08 d a 0 | .neg d a => arWord 0x09 d a 0 | .abs d a => arWord 0x0A d a 0
  | .min d a b => arWord 0x0B d a b | .max d a b => arWord 0x0C d a b
  | .mov d a => arWord 0x0D d a 0 | .shv d a b => arWord 0x0E d a b
  | .addi d a i => aiWord 0x10 d a i
  | .shli d a n => aiWord 0x12 d a n | .shri d a n => aiWord 0x13 d a n
  | .srai d a n => aiWord 0x14 d a n | .shlsi d a n => aiWord 0x15 d a n
  | .extr k d s => aaWord 0x20 0 k 0 d s | .norm k d => aaWord 0x21 0 k 0 d 0
  | .expa k d => aaWord 0x22 0 k 0 d 0 | .expd a d => aaWord 0x23 0 0 a d 0
  | .aclr c => aaWord 0x24 c 0 0 0 0 | .amov c k => aaWord 0x25 c k 0 0 0
  | .aadd c k => aaWord 0x26 c k 0 0 0 | .asub c k => aaWord 0x27 c k 0 0 0 | .aneg c k => aaWord 0x28 c k 0 0 0
  | .ashi c k s => aaWord 0x29 c k 0 0 s | .ashd c k a => aaWord 0x2A c k a 0 0
  | .dtoa c a s => aaWord 0x2B c 0 a 0 s
  | .ard k d p => aaWord 0x2C 0 k 0 d p | .awr c a p => aaWord 0x2D c 0 a 0 p
  | .cmpeq f a b => afWord 0x30 f a (b * 2 ^ 7) | .cmplt f a b => afWord 0x31 f a (b * 2 ^ 7)
  | .cmple f a b => afWord 0x32 f a (b * 2 ^ 7) | .cmpltu f a b => afWord 0x33 f a (b * 2 ^ 7)
  | .cmpeqi f a i => afWord 0x34 f a i | .cmplti f a i => afWord 0x35 f a i | .cmpgti f a i => afWord 0x36 f a i
  | .btst f a n => afWord 0x37 f a n
  | .atstn f k => 0x38 * 2 ^ 22 + f * 2 ^ 20 + k * 2 ^ 16 | .atstz f k => 0x39 * 2 ^ 22 + f * 2 ^ 20 + k * 2 ^ 16
  | .fop f a b t => 0x3A * 2 ^ 22 + f * 2 ^ 20 + a * 2 ^ 18 + b * 2 ^ 16 + t

/-- The A-slot operation whose opcode and operand fields a word has; opcodes not listed are illegal (R119). -/
def aopOf (w : Nat) : Option AOp :=
  let dd := bits w 21 17
  let da := bits w 16 12
  let db := bits w 11 7
  let i12 := bits w 11 0
  let n5 := bits w 4 0
  let acd := bits w 21 19
  let aca := bits w 18 16
  let ada := bits w 15 11
  let add := bits w 10 6
  let s6 := bits w 5 0
  let part := bits w 1 0
  let fk := bits w 21 20
  match bits w 27 22 with
  | 0x00 => some .nop
  | 0x01 => some (.add dd da db) | 0x02 => some (.sub dd da db)
  | 0x03 => some (.adds dd da db) | 0x04 => some (.subs dd da db)
  | 0x05 => some (.and dd da db) | 0x06 => some (.or dd da db) | 0x07 => some (.xor dd da db)
  | 0x08 => some (.not dd da) | 0x09 => some (.neg dd da) | 0x0A => some (.abs dd da)
  | 0x0B => some (.min dd da db) | 0x0C => some (.max dd da db)
  | 0x0D => some (.mov dd da) | 0x0E => some (.shv dd da db)
  | 0x10 => some (.addi dd da i12)
  | 0x12 => some (.shli dd da n5) | 0x13 => some (.shri dd da n5)
  | 0x14 => some (.srai dd da n5) | 0x15 => some (.shlsi dd da n5)
  | 0x20 => some (.extr aca add s6) | 0x21 => some (.norm aca add)
  | 0x22 => some (.expa aca add) | 0x23 => some (.expd ada add)
  | 0x24 => some (.aclr acd) | 0x25 => some (.amov acd aca)
  | 0x26 => some (.aadd acd aca) | 0x27 => some (.asub acd aca) | 0x28 => some (.aneg acd aca)
  | 0x29 => some (.ashi acd aca s6) | 0x2A => some (.ashd acd aca ada)
  | 0x2B => some (.dtoa acd ada s6)
  | 0x2C => some (.ard aca add part) | 0x2D => some (.awr acd ada part)
  | 0x30 => some (.cmpeq fk da db) | 0x31 => some (.cmplt fk da db)
  | 0x32 => some (.cmple fk da db) | 0x33 => some (.cmpltu fk da db)
  | 0x34 => some (.cmpeqi fk da i12) | 0x35 => some (.cmplti fk da i12) | 0x36 => some (.cmpgti fk da i12)
  | 0x37 => some (.btst fk da n5)
  | 0x38 => some (.atstn fk aca) | 0x39 => some (.atstz fk aca)
  | 0x3A => some (.fop fk (bits w 19 18) (bits w 17 16) (bits w 3 0))
  | _ => none

/-- Every field of the operation lies in its width, and PART is not 0b11 (R118, R121). -/
def AOp.fieldsLegal : AOp → Bool
  | .nop => true
  | .add d a b | .sub d a b | .adds d a b | .subs d a b | .and d a b | .or d a b | .xor d a b
  | .min d a b | .max d a b | .shv d a b => decide (d < 32) && decide (a < 32) && decide (b < 32)
  | .not d a | .neg d a | .abs d a | .mov d a | .expd a d => decide (d < 32) && decide (a < 32)
  | .addi d a i => decide (d < 32) && decide (a < 32) && decide (i < 4096)
  | .shli d a n | .shri d a n | .srai d a n | .shlsi d a n => decide (d < 32) && decide (a < 32) && decide (n < 32)
  | .extr k d s => decide (k < 8) && decide (d < 32) && decide (s < 64)
  | .norm k d | .expa k d => decide (k < 8) && decide (d < 32)
  | .aclr c => decide (c < 8)
  | .amov c k | .aadd c k | .asub c k | .aneg c k => decide (c < 8) && decide (k < 8)
  | .ashi c k s => decide (c < 8) && decide (k < 8) && decide (s < 64)
  | .ashd c k a => decide (c < 8) && decide (k < 8) && decide (a < 32)
  | .dtoa c a s => decide (c < 8) && decide (a < 32) && decide (s < 64)
  | .ard k d p => decide (k < 8) && decide (d < 32) && decide (p < 3)
  | .awr c a p => decide (c < 8) && decide (a < 32) && decide (p < 3)
  | .cmpeq f a b | .cmplt f a b | .cmple f a b | .cmpltu f a b => decide (f < 4) && decide (a < 32) && decide (b < 32)
  | .cmpeqi f a i | .cmplti f a i | .cmpgti f a i => decide (f < 4) && decide (a < 32) && decide (i < 4096)
  | .btst f a n => decide (f < 4) && decide (a < 32) && decide (n < 32)
  | .atstn f k | .atstz f k => decide (f < 4) && decide (k < 8)
  | .fop f a b t => decide (f < 4) && decide (a < 4) && decide (b < 4) && decide (t < 16)

/-- The word of an A slot. -/
def ASlot.word (a : ASlot) : Nat := a.pred * 2 ^ 28 + a.op.word

/-- A legal A slot (R112). -/
def ASlot.legal (a : ASlot) : Bool := predLegal a.pred && a.op.fieldsLegal

/-- The A slot a word holds; a bit outside the fields of its operation makes it illegal (R112). -/
def decodeA (w : Nat) : Option ASlot :=
  match aopOf w with
  | none => none
  | some op =>
    if predLegal (bits w 31 28) && op.fieldsLegal && op.word == bits w 27 0 then some { pred := bits w 31 28, op := op }
    else none

/-! ### The T slot (R122 to R125) -/

def tmWord (o dr p am imm : Nat) : Nat := o * 2 ^ 22 + dr * 2 ^ 17 + p * 2 ^ 13 + am * 2 ^ 11 + imm

/-- Bits [27:0] of a T slot (R122, R123). -/
def TOp.word : TOp → Nat
  | .nop => 0
  | .ldc d p m i => tmWord 0x01 d p m i | .stx d p m i => tmWord 0x02 d p m i
  | .sty d p m i => tmWord 0x03 d p m i | .stc d p m i => tmWord 0x04 d p m i
  | .modp p m i => tmWord 0x05 0 p m i | .far p m i => tmWord 0x06 0 p m i
  | .movi d i => 0x08 * 2 ^ 22 + d * 2 ^ 17 + i | .movhi d i => 0x09 * 2 ^ 22 + d * 2 ^ 17 + i
  | .movs r d => 0x0C * 2 ^ 22 + r * 2 ^ 15 + d * 2 ^ 10 | .movr r d => 0x0D * 2 ^ 22 + r * 2 ^ 15 + d * 2 ^ 10
  | .movsi r i => 0x0E * 2 ^ 22 + r * 2 ^ 15 + i
  | .br t => 0x10 * 2 ^ 22 + t | .call t => 0x11 * 2 ^ 22 + t | .ret => 0x12 * 2 ^ 22
  | .loop rot e c => 0x13 * 2 ^ 22 + (if rot then 2 ^ 21 else 0) + e * 2 ^ 10 + c
  | .loopd rot e d => 0x14 * 2 ^ 22 + (if rot then 2 ^ 21 else 0) + e * 2 ^ 10 + d
  | .lexit t => 0x15 * 2 ^ 22 + t | .iret => 0x16 * 2 ^ 22 | .sdone => 0x17 * 2 ^ 22
  | .swait j => 0x18 * 2 ^ 22 + j | .fwait n => 0x19 * 2 ^ 22 + n
  | .mbrd d => 0x1A * 2 ^ 22 + d * 2 ^ 17 | .mbwr d => 0x1B * 2 ^ 22 + d * 2 ^ 17

/-- The T-slot operation whose opcode and operand fields a word has; opcodes not listed are illegal (R123). -/
def topOf (w : Nat) : Option TOp :=
  let dr := bits w 21 17
  let p := bits w 16 13
  let am := bits w 12 11
  let imm := bits w 10 0
  let sr := bits w 21 15
  let sd := bits w 14 10
  match bits w 27 22 with
  | 0x00 => some .nop
  | 0x01 => some (.ldc dr p am imm) | 0x02 => some (.stx dr p am imm)
  | 0x03 => some (.sty dr p am imm) | 0x04 => some (.stc dr p am imm)
  | 0x05 => some (.modp p am imm) | 0x06 => some (.far p am imm)
  | 0x08 => some (.movi dr (bits w 16 0)) | 0x09 => some (.movhi dr (bits w 15 0))
  | 0x0C => some (.movs sr sd) | 0x0D => some (.movr sr sd) | 0x0E => some (.movsi sr (bits w 14 0))
  | 0x10 => some (.br imm) | 0x11 => some (.call imm) | 0x12 => some .ret
  | 0x13 => some (.loop (bit w 21) (bits w 20 10) (bits w 9 0))
  | 0x14 => some (.loopd (bit w 21) (bits w 20 10) (bits w 4 0))
  | 0x15 => some (.lexit imm) | 0x16 => some .iret | 0x17 => some .sdone
  | 0x18 => some (.swait (bits w 8 0)) | 0x19 => some (.fwait (bits w 1 0))
  | 0x1A => some (.mbrd dr) | 0x1B => some (.mbwr dr)
  | _ => none

/-- The conditions on a TM address: the pointer, and IMM11 zero where the mode does not use it (R112, R124). -/
def tmLegal (p am imm : Nat) : Bool :=
  decide (p < 12) && decide (am < 4) && decide (imm < 2048) && (decide (2 ≤ am) || imm == 0)

/-- Every field of the operation lies in its width, and modes, pointers and special registers are legal (R112, R122 to R125). -/
def TOp.fieldsLegal : TOp → Bool
  | .nop | .ret | .iret | .sdone => true
  | .ldc d p m i | .stx d p m i | .sty d p m i | .stc d p m i => decide (d < 32) && tmLegal p m i
  | .modp p m i => tmLegal p m i && (m == 1 || m == 2)
  | .far p m i => tmLegal p m i
  | .movi d i => decide (d < 32) && decide (i < 131072)
  | .movhi d i => decide (d < 32) && decide (i < 65536)
  | .movs r d | .movr r d => sregLegal r && decide (d < 32)
  | .movsi r i => sregLegal r && decide (i < 32768)
  | .br t | .call t | .lexit t => decide (t < 2048)
  | .loop _ e c => decide (e < 2048) && decide (c < 1024)
  | .loopd _ e d => decide (e < 2048) && decide (d < 32)
  | .swait j => decide (j < 512)
  | .fwait n => decide (n < 4)
  | .mbrd d | .mbwr d => decide (d < 32)

/-- The word of a T slot. -/
def TSlot.word (t : TSlot) : Nat := t.pred * 2 ^ 28 + t.op.word

/-- A legal T slot, but for the two conditions that depend on where it issues (R112). -/
def TSlot.legal (t : TSlot) : Bool := predLegal t.pred && t.op.fieldsLegal

/-- The T slot a word holds. -/
def decodeT (w : Nat) : Option TSlot :=
  match topOf w with
  | none => none
  | some op =>
    if predLegal (bits w 31 28) && op.fieldsLegal && op.word == bits w 27 0 then some { pred := bits w 31 28, op := op }
    else none

/-! ### Bundles (R110) -/

/-- A bundle whose four slots are legal. -/
def Bundle.legal (b : Bundle) : Bool := b.m1.legal && b.m2.legal && b.a.legal && b.t.legal

/-- The 128-bit word of a bundle: T, A, M2 and M1 from bit 127 down (R110). -/
def encodeBundle (b : Bundle) : Nat := b.m1.word + b.m2.word * 2 ^ 32 + b.a.word * 2 ^ 64 + b.t.word * 2 ^ 96

/-- The bundle a 128-bit word holds, or none where a slot is illegal (R112). -/
def decodeBundle (w : Nat) : Option Bundle :=
  match decodeM (bits w 31 0), decodeM (bits w 63 32), decodeA (bits w 95 64), decodeT (bits w 127 96) with
  | some m1, some m2, some a, some t => some { m1 := m1, m2 := m2, a := a, t := t }
  | _, _, _, _ => none

/-! ### Kinds of T-slot operation -/

/-- A control instruction (R112). -/
def TOp.isControl : TOp → Bool
  | .br _ | .call _ | .ret | .loop _ _ _ | .loopd _ _ _ | .lexit _ | .iret => true
  | _ => false

/-- A control instruction that the end of a loop body must not hold (R81). -/
def TOp.endBarred : TOp → Bool
  | .br _ | .call _ | .ret | .loop _ _ _ | .loopd _ _ _ | .iret => true
  | _ => false

/-- A LOOP names an end address below its first body bundle (R112, R126). -/
def TOp.endBelow (pc : Nat) : TOp → Bool
  | .loop _ e _ => decide (e < pc + 2)
  | .loopd _ e _ => decide (e < pc + 2)
  | _ => false

/-- The T slot executes SDONE. -/
def Bundle.isDone (b : Bundle) : Bool := b.t.op == .sdone

end Sys2Proof
end

