-- ==== Sys2Proof/Machine/SpSlots.lean ====
section
/-!
DEFINITION. What each slot of a bundle does when it issues (R68 to R78, R111, R114 to R125): the results it sends on their way,
the words it stores, and the sticky flags it sets at once.
-/
namespace Sys2Proof.Machine

/-- A bundle being executed: the processor, the results of its slots, the words it stores, whether it accesses X memory, and
its extra handshakes (R65). -/
structure SlotRun where
  sp : SpSt
  lands : List Land := []
  stores : List (Nat × Word) := []
  xacc : Bool := false
  extra : Nat := 0
  /-- The Grid addresses of the memory words it reads or writes. -/
  seen : List Nat := []
deriving DecidableEq, Repr

/-- A result of slot rank `r` that becomes visible `lat` bundles later (R76). -/
def SlotRun.put (x : SlotRun) (lat r : Nat) (d : Dest) (v : Int) : SlotRun :=
  { x with lands := x.lands ++ [{ due := x.sp.iss + lat, rank := r, iss := x.sp.iss, dest := d, val := v }] }

/-- A result in the D register named `n`, resolved at issue (R67). -/
def SlotRun.putD (x : SlotRun) (lat r n : Nat) (v : Word) : SlotRun := x.put lat r (.d (x.sp.phys n)) v.toNat

/-- Post-modify of pointer `i`, visible in the next bundle (R73, R74, R76). -/
def SlotRun.post (x : SlotRun) (r i : Nat) (stride : Int) : SlotRun :=
  let (v, slow) := x.sp.postMod i stride
  let x := x.put 1 r (.sr i) v
  if slow then { x with sp := x.sp.stick fCIRC, extra := x.extra + 8 } else x

/-- An access to the 16-bit word address `a` of memory `m`: X accesses are noted, and one beyond the memory sets ADDR_WRAP
(R65, R72). -/
def SlotRun.touch (x : SlotRun) (m : Space) (a : Nat) : SlotRun :=
  { x with sp := x.sp.stickIf (decide (m.size ≤ a)) fWRAP, xacc := x.xacc || m == .x }

/-! ### Multiply slots (R68, R69, R116, R117) -/

/-- The accumulator a multiply accumulates into: the result of a MAC of the bundle before is seen one bundle early (R76). -/
def SpSt.macView (sp : SpSt) (k : Nat) : Int :=
  (sp.pend.foldl (fun (best : Option Land) e =>
    if e.dest == .ac k && decide (e.rank < 2) && e.iss + 1 == sp.iss then
      (match best with
       | none => some e
       | some b => if b.rank < e.rank then some e else best)
    else best) none).elim (sp.acc k) Land.val

/-- The product of an M slot (R68). -/
def mProduct (sp : SpSt) (m : MSlot) : Int := sp.dInt m.sa * sp.dInt m.sb * (if m.fs then 2 else 1)

/-- The multiply of an M slot (R116). -/
def SlotRun.mul (x : SlotRun) (r : Nat) (m : MSlot) : SlotRun :=
  let p := mProduct x.sp m
  match m.op with
  | .none => x
  | .mpy => x.put 2 r (.ac m.acc) p
  | .mpyn => x.put 2 r (.ac m.acc) (-p)
  | .mac => let (v, sp) := x.sp.sat72 (x.sp.macView m.acc + p); { x with sp := sp }.put 2 r (.ac m.acc) v
  | .msu => let (v, sp) := x.sp.sat72 (x.sp.macView m.acc - p); { x with sp := sp }.put 2 r (.ac m.acc) v

/-- The load of an M slot from `mem` (R117). -/
def SlotRun.mload (s : Stage) (k : Nat) (mem : Space) (x : SlotRun) (r : Nat) (m : MSlot) : SlotRun :=
  if m.lm = 0 then x
  else
    let a := x.sp.p m.lp
    let x := { x.touch mem a with seen := x.seen ++ [wordAddr k mem a] }.putD 2 r m.ld (s.rd32 (wordAddr k mem a))
    if m.lm = 1 then x else x.post r m.lp (if m.lm = 2 then x.sp.n m.lp else 1)

/-- An M slot: M1 is rank 0 over X, M2 rank 1 over Y. A false predicate does nothing (R114). -/
def SlotRun.mslot (s : Stage) (k : Nat) (mem : Space) (r : Nat) (m : MSlot) (x : SlotRun) : SlotRun :=
  if x.sp.holds m.pred then (x.mul r m).mload s k mem r m else x

/-! ### The A slot (R119 to R121) -/

/-- A D result of the A slot. -/
def SlotRun.aD (x : SlotRun) (dd : Nat) (z : Int) : SlotRun := x.putD 1 2 dd (Word.ofInt z)

/-- A saturated D result (R120). -/
def SlotRun.aSat (x : SlotRun) (dd : Nat) (z : Int) : SlotRun :=
  let (v, sp) := x.sp.sat32 z
  { x with sp := sp }.aD dd v

/-- An accumulator result under ACS (R120). -/
def SlotRun.aAcc (x : SlotRun) (k : Nat) (z : Int) : SlotRun :=
  let (v, sp) := x.sp.sat72 z
  { x with sp := sp }.put 1 2 (.ac k) v

/-- A flag result. -/
def SlotRun.aF (x : SlotRun) (f : Nat) (b : Bool) : SlotRun := x.put 1 2 (.flag f) (if b then 1 else 0)

/-- The operation of the A slot (R119). -/
def SlotRun.aop (x : SlotRun) (op : AOp) : SlotRun :=
  let sp := x.sp
  let d := sp.dInt
  let w := sp.dReg
  match op with
  | .nop => x
  | .add dd a b => x.aD dd (d a + d b)
  | .sub dd a b => x.aD dd (d a - d b)
  | .adds dd a b => x.aSat dd (d a + d b)
  | .subs dd a b => x.aSat dd (d a - d b)
  | .and dd a b => x.putD 1 2 dd (w a &&& w b)
  | .or dd a b => x.putD 1 2 dd (w a ||| w b)
  | .xor dd a b => x.putD 1 2 dd (w a ^^^ w b)
  | .not dd a => x.putD 1 2 dd (~~~ w a)
  | .neg dd a => x.aSat dd (-(d a))
  | .abs dd a => x.aSat dd (d a).natAbs
  | .min dd a b => x.aD dd (if d b < d a then d b else d a)
  | .max dd a b => x.aD dd (if d a < d b then d b else d a)
  | .mov dd a => x.putD 1 2 dd (w a)
  | .shv dd a b => x.aSat dd (shiftI (d a) (clampI (-32) 31 (d b)))
  | .addi dd a i => x.aD dd (d a + sext 12 i)
  | .shli dd a n => x.aD dd (d a * 2 ^ n)
  | .shri dd a n => x.aD dd ((w a).toNat / 2 ^ n : Nat)
  | .srai dd a n => x.aD dd (Int.fdiv (d a) (2 ^ n))
  | .shlsi dd a n => x.aSat dd (d a * 2 ^ n)
  | .extr k dd s6 =>
    let (v, sp) := sp.extr (sp.acc k) (sext 6 s6)
    { x with sp := sp }.aD dd v
  | .norm k dd =>
    let e := expOf 72 (sp.acc k)
    (x.put 1 2 (.ac k) (sp.acc k * 2 ^ e)).aD dd e
  | .expa k dd => x.aD dd (expOf 72 (sp.acc k))
  | .expd a dd => x.aD dd (expOf 32 (d a))
  | .aclr c => x.aAcc c 0
  | .amov c k => x.aAcc c (sp.acc k)
  | .aadd c k => x.aAcc c (sp.acc c + sp.acc k)
  | .asub c k => x.aAcc c (sp.acc c - sp.acc k)
  | .aneg c k => x.aAcc c (-(sp.acc k))
  | .ashi c k s6 => x.aAcc c (shiftI (sp.acc k) (sext 6 s6))
  | .ashd c k a => x.aAcc c (shiftI (sp.acc k) (clampI (-72) 71 (d a)))
  | .dtoa c a s6 => x.aAcc c (shiftI (d a) (32 + sext 6 s6))
  | .ard k dd p => x.putD 1 2 dd (accPart (sp.acc k) p)
  | .awr c a p => x.aAcc c (accSetPart (sp.acc c) p (w a))
  | .cmpeq f a b => x.aF f (w a == w b)
  | .cmplt f a b => x.aF f (decide (d a < d b))
  | .cmple f a b => x.aF f (decide (d a ≤ d b))
  | .cmpltu f a b => x.aF f (decide ((w a).toNat < (w b).toNat))
  | .cmpeqi f a i => x.aF f (decide (d a = sext 12 i))
  | .cmplti f a i => x.aF f (decide (d a < sext 12 i))
  | .cmpgti f a i => x.aF f (decide (sext 12 i < d a))
  | .btst f a n => x.aF f (bit (w a).toNat n)
  | .atstn f k => x.aF f (decide (sp.acc k < 0))
  | .atstz f k => x.aF f (decide (sp.acc k = 0))
  | .fop f a b t => x.aF f (bit t ((if sp.fl a then 2 else 0) + (if sp.fl b then 1 else 0)))

/-- The A slot under its predicate (R114). -/
def SlotRun.aslot (a : ASlot) (x : SlotRun) : SlotRun := if x.sp.holds a.pred then x.aop a.op else x

/-! ### The T slot but for control flow and waits (R123 to R125) -/

/-- The address of a TM access, with the pointer update or the slow path of the offset mode (R124). -/
def SlotRun.tm (x : SlotRun) (p am imm : Nat) : Nat × SlotRun :=
  match am with
  | 0 => (x.sp.p p, x)
  | 1 => (x.sp.p p, x.post 3 p (x.sp.n p))
  | 2 => (x.sp.p p, x.post 3 p (sext 11 imm))
  | _ =>
    let (a, slow) := circ (x.sp.p p) (x.sp.b p) (x.sp.l p) (sext 11 imm)
    (a, if slow then { x with sp := x.sp.stick fCIRC, extra := x.extra + 8 } else x)

/-- A store over the TM address (R123). -/
def SlotRun.store (k : Nat) (mem : Space) (x : SlotRun) (dr p am imm : Nat) : SlotRun :=
  let v := x.sp.dReg dr
  let (a, x) := x.tm p am imm
  let x := x.touch mem a
  { x with stores := x.stores ++ [(wordAddr k mem a, v)], seen := x.seen ++ [wordAddr k mem a] }

/-- A move into special register `c`, visible two bundles later; FLAGS is written flag by flag (R125). -/
def SlotRun.movs (x : SlotRun) (c v : Nat) : SlotRun :=
  if c = rFLAGS then
    (upTo 4).foldl (fun x i => x.put 2 3 (.flag i) (if bit v i then 1 else 0)) x
  else x.put 2 3 (.sr c) (Nat.land v (srMask c))

/-- The operation of the T slot, but for what decides the next bundle (R123); `sp0` is the processor at issue (R111). -/
def SlotRun.top (s : Stage) (k : Nat) (sp0 : SpSt) (x : SlotRun) (op : TOp) : SlotRun :=
  match op with
  | .ldc dr p am imm =>
    let (a, x) := x.tm p am imm
    { x.touch .c a with seen := x.seen ++ [wordAddr k .c a] }.putD 2 3 dr (s.rd32 (wordAddr k .c a))
  | .stx dr p am imm => x.store k .x dr p am imm
  | .sty dr p am imm => x.store k .y dr p am imm
  | .stc dr p am imm => x.store k .c dr p am imm
  | .modp p am imm => (x.tm p am imm).2
  | .far p am imm =>
    let (a, x) := x.tm p am imm
    (upTo 4).foldl (fun x i => { x.touch .y ((a + i) % 65536) with seen := x.seen ++ [wordAddr k .y ((a + i) % 65536)] }) x
  | .movi dd imm => x.putD 1 3 dd (Word.ofInt (sext 17 imm))
  | .movhi dd imm => x.putD 1 3 dd (Word.ofNat (setBits (x.sp.dReg dd).toNat 31 16 imm))
  | .movs c d => x.movs c (x.sp.dReg d).toNat
  | .movr c d => x.putD 1 3 d (sp0.movr c)
  | .movsi c imm => x.movs c (if 0x10 ≤ c ∧ c < 0x20 then toBits 18 (sext 15 imm) else imm)
  | .mbrd d => x.putD 1 3 d (s.reg (0x100 + k) 0x0A4)
  | .nop | .br _ | .call _ | .ret | .loop _ _ _ | .loopd _ _ _ | .lexit _ | .iret | .sdone | .swait _ | .fwait _
  | .mbwr _ => x

/-- The four slots of a bundle, each reading the state at issue (R111). The sticky flags accumulate; registers change only
when results land. -/
def runSlots (s : Stage) (k : Nat) (sp : SpSt) (b : Bundle) : SlotRun :=
  let x := ((SlotRun.aslot b.a (({ sp := sp : SlotRun }.mslot s k .x 0 b.m1).mslot s k .y 1 b.m2)))
  if x.sp.holds b.t.pred then x.top s k sp b.t.op else x

end Sys2Proof.Machine
end

