-- ==== Sys2Proof/Machine/SpIssue.lean ====
section
/-!
DEFINITION. The strip processor's issue (R62 to R65, R76 to R91, R96, R98, R112): landings, the faults of a bundle, stalls,
execution, hardware loops, control flow, the repeat cache, interrupts and halts.
-/
namespace Sys2Proof.Machine

/-- The page of SP k. -/
def pSp (k : Nat) : Nat := 0x100 + k

/-- SP k. -/
def Stage.sp (s : Stage) (k : Nat) : SpSt := Tab.get {} s.sps k

/-- SP k set; a sticky flag that goes from 0 to 1 raises EVENT.STICKY (R104, R107). -/
def Stage.putSp (s : Stage) (k : Nat) (sp : SpSt) : Stage :=
  let old := (s.sp k).sreg rSPSTAT
  let new := sp.sreg rSPSTAT
  ({ s with sps := Tab.put {} s.sps k sp }).raiseIf (Nat.lor old new != old) (pSp k) 6

/-- BANK_CTRL.ACTIVE (R102). -/
def Stage.spBank (s : Stage) (k : Nat) : Nat := s.fld (pSp k) 0x080 0 0

/-- A field of the bank `b`: PB in the upper half, PA in the lower (R101). -/
def Stage.bankFld (s : Stage) (k off w b : Nat) : Nat := bits (s.regN (pSp k) off) (16 * b + w - 1) (16 * b)

/-! ### Landings (R76, R78, R87) -/

/-- One result reaches its register. A move into LC_k inside a handler sets or clears LSUSP bit k (R87). -/
def SpSt.landOne (sp : SpSt) (l : Land) : SpSt :=
  match l.dest with
  | .d i => { sp with d := Tab.put 0#32 sp.d i (Word.ofInt l.val) }
  | .ac i => { sp with ac := Tab.put 0 sp.ac i l.val }
  | .flag i => sp.setSreg rFLAGS (setBit (sp.sreg rFLAGS) i (l.val != 0))
  | .sr c =>
    let sp1 := sp.setSreg c l.val.toNat
    if sp.inHandler && (c == 0x40 || c == 0x41) then
      sp1.setSreg rISTAT (setBit (sp1.sreg rISTAT) (13 + (c - 0x40)) (sp1.sreg c != 0))
    else sp1

/-- `a` beats `b` for one register: by slot rank, then by the later issue (R78). -/
def Land.beats (a b : Land) : Bool := decide (b.rank < a.rank) || (a.rank == b.rank && decide (b.iss < a.iss))

/-- Two results meet: they land together in one register (R78). -/
def Land.meets (a b : Land) : Bool := a.due == b.due && a.dest == b.dest

/-- A result of `l` lands; it is discarded when another of the same landing beats it, and then WR_CONF is set (R78). -/
def SpSt.landIn (all : List Land) (sp : SpSt) (l : Land) : SpSt :=
  if all.any (fun m => m.meets l && m.beats l) then sp.stick fCONF else sp.landOne l

/-- The results that become visible at bundle count `n` land. -/
def SpSt.landAt (sp : SpSt) (n : Nat) : SpSt :=
  let now := sp.pend.filter (fun l => l.due == n)
  now.foldl (SpSt.landIn now) { sp with pend := sp.pend.filter (fun l => l.due != n) }

/-- What the bundle about to issue sees: every result due by now has landed. -/
def SpSt.landNow (sp : SpSt) : SpSt := sp.landAt sp.iss

/-- Every result in flight lands, in the order in which they become visible (R89, R95, R128). -/
def SpSt.landAll (sp : SpSt) : SpSt := ((sp.landAt sp.iss).landAt (sp.iss + 1)).landAt (sp.iss + 2)

/-! ### Loops (R79 to R82, R87) -/

/-- START_k, END_k and ROT_k (R109). -/
def SpSt.start (sp : SpSt) (k : Nat) : Nat := bits (sp.sreg rLS) (16 * k + 10) (16 * k)
def SpSt.stop (sp : SpSt) (k : Nat) : Nat := bits (sp.sreg rLE) (16 * k + 10) (16 * k)
def SpSt.rot (sp : SpSt) (k : Nat) : Bool := bit (sp.sreg rLE) (16 * k + 15)

/-- ISTAT.LSUSP bit k suspends level k inside a handler (R87). -/
def SpSt.suspended (sp : SpSt) (k : Nat) : Bool := sp.inHandler && bit (sp.sreg rISTAT) (13 + k)

/-- The levels whose end test applies, innermost first (R80, R87). -/
def SpSt.levels (sp : SpSt) : List Nat := [1, 0].filter fun k => sp.lc k != 0 && !sp.suspended k

/-- The end of one iteration of level k: LC counts down and a rotating loop advances RRB (R80). -/
def SpSt.iterate (sp : SpSt) (k : Nat) : SpSt :=
  let sp := sp.setSreg (rLC k) (sp.lc k - 1)
  if sp.rot k then sp.setSreg rRRB ((sp.rrb + 1) % 16) else sp

/-- Iteration 1 of a captured body has ended: the cache holds it and serves it from now on (R63). A level that ends stops
being captured or served. -/
def SpSt.cacheEnd (sp : SpSt) (bank k pc : Nat) : SpSt :=
  let sp := if sp.capture = some (sp.start k, pc) then
      { sp with cache := some (sp.start k, pc, bank), capture := none, serve := some (sp.start k, pc) }
    else sp
  if sp.lc k = 0 ∧ sp.serve = some (sp.start k, pc) then { sp with serve := none } else sp

/-- The end test after the bundle at `pc`, and the next bundle (R80). -/
def SpSt.endTest (sp : SpSt) (bank pc : Nat) : Nat × SpSt :=
  match sp.levels with
  | [] => (pc + 1, sp)
  | k :: rest =>
    if pc ≠ sp.stop k then (pc + 1, sp)
    else
      let sp := (sp.iterate k).cacheEnd bank k pc
      if sp.lc k ≠ 0 then (sp.start k, sp)
      else
        match rest with
        | [] => (pc + 1, sp)
        | j :: _ =>
          if pc ≠ sp.stop j then (pc + 1, sp)
          else
            let sp := (sp.iterate j).cacheEnd bank j pc
            if sp.lc j ≠ 0 then (sp.start j, sp) else (pc + 1, sp)

/-- The TOP code of the bundle at address `b` of program memory. -/
def Stage.topCode (s : Stage) (k bank b : Nat) : Nat := bits (s.rdN (bundleAddr k bank b + 12) 4) 27 22

/-- A loop body that the cache can hold: up to 32 bundles with no branch, CALL, RET or LOOP (R63). -/
def Stage.cacheable (s : Stage) (k bank a b : Nat) : Bool :=
  decide (b + 1 - a ≤ 32) && (upTo (b + 1 - a)).all fun j =>
    let t := s.topCode k bank (a + j)
    decide (t < 0x10) || decide (0x14 < t)

/-- A LOOP takes a level (R79), and the cache prepares to serve or capture its body (R63). Handlers use no cache (R64). The
result is the address after the delay bundle. -/
def Stage.takeLoop (s : Stage) (k bank : Nat) (sp : SpSt) (pc stop count : Nat) (rot : Bool) : Nat × SpSt :=
  let v := if sp.lc 0 = 0 then 0 else 1
  let sp := sp.setSreg rLS (setBits (sp.sreg rLS) (16 * v + 10) (16 * v) (pc + 2))
  let sp := sp.setSreg rLE (setBit (setBits (sp.sreg rLE) (16 * v + 10) (16 * v) stop) (16 * v + 15) rot)
  let sp := sp.setSreg (rLC v) count
  let sp := if sp.inHandler then sp.setSreg rISTAT (setBit (sp.sreg rISTAT) (13 + v) false) else sp
  if count = 0 then (stop + 1, sp)
  else if sp.inHandler || !s.cacheable k bank (pc + 2) stop then (pc + 2, sp)
  else if sp.cache = some (pc + 2, stop, bank) then (pc + 2, { sp with serve := some (pc + 2, stop), capture := none })
  else (pc + 2, { sp with capture := some (pc + 2, stop), serve := none })

/-- The bundle at `pc` is served from the repeat cache (R62, R63). -/
def SpSt.served (sp : SpSt) (pc : Nat) : Bool :=
  !sp.inHandler && (match sp.serve with
    | none => false
    | some (a, b) => decide (a ≤ pc) && decide (pc ≤ b))

/-! ### Faults (R79, R81, R83, R112) -/

def cILLEGAL : Nat := 0x8
def cLOOP_NEST : Nat := 0x9
def cLOOP_END : Nat := 0xA
def cRS_OVER : Nat := 0xB
def cRS_UNDER : Nat := 0xC
def cPC_END : Nat := 0xD
def cIRET_OUT : Nat := 0xE

/-- The fault of a bundle at `pc`, if any, in the order ILLEGAL, LOOP_END and, when the T slot's predicate is true, the faults
of its own instruction. -/
def SpSt.bundleFault (sp : SpSt) (pc : Nat) (b : Bundle) : Option Nat :=
  if !b.legal || (sp.delay.isSome && b.t.op.isControl) || b.t.op.endBelow pc then some cILLEGAL
  else if b.t.op.endBarred && sp.levels.any (fun k => sp.stop k == pc) then some cLOOP_END
  else if !sp.holds b.t.pred then none
  else match b.t.op with
    | .call _ => if 4 ≤ sp.rstack.length then some cRS_OVER else none
    | .ret => if sp.rstack = [] then some cRS_UNDER else none
    | .loop _ _ _ | .loopd _ _ _ => if sp.lc 0 ≠ 0 ∧ sp.lc 1 ≠ 0 then some cLOOP_NEST else none
    | .iret => if sp.inHandler then none else some cIRET_OUT
    | _ => none

/-! ### Stalls (R93, R96, R123) -/

/-- The header and gather entries 0 to `j` have landed (R93). -/
def SpSt.landed (sp : SpSt) (j : Nat) : Bool := !sp.hdrDue && decide (min (j + 1) sp.gLen ≤ sp.gNext)

/-- The gather DMA still holds handshakes of this sample (R65, R93). -/
def SpSt.gathering (sp : SpSt) : Bool := sp.hdrDue || decide (sp.gNext < sp.gLen)

/-- Issue stalls on this bundle: SWAIT, FWAIT, or a fifth FAR. -/
def SpSt.stalls (sp : SpSt) (b : Bundle) : Bool :=
  sp.holds b.t.pred && (match b.t.op with
    | .swait j => !sp.landed j
    | .fwait n => decide (n < sp.far.length)
    | .far _ _ _ => decide (4 ≤ sp.far.length)
    | _ => false)

/-! ### Interrupts (R84 to R90) -/

/-- The processor is between bundles and may issue one: it runs its sample, or a handler entered while it waited. -/
def SpSt.active (sp : SpSt) : Bool := sp.run == .running || (sp.run == .done && sp.inHandler)

/-- An interrupt other than a fault may be taken now (R84, R85): not in a handler, not in a delay slot, not between SDONE and
the done point. -/
def SpSt.maySignal (sp : SpSt) : Bool :=
  !sp.inHandler && sp.delay.isNone && (sp.run == .running || sp.run == .done)

/-- The pending debug break, and the pending mailbox interrupt, are due (R84). -/
def SpSt.breakDue (sp : SpSt) : Bool := sp.maySignal && sp.brk && bit (sp.sreg rSPMODE) 5
def SpSt.mboxDue (sp : SpSt) : Bool := sp.maySignal && sp.mbox && bit (sp.sreg rSPMODE) 4

/-- An entry is due before the next bundle. -/
def SpSt.entryDue (sp : SpSt) : Bool := sp.flt.isSome || sp.breakDue || sp.mboxDue

/-- Leaving the handler (R88): the flags come back from ISTAT, LSUSP and IN_HANDLER clear. -/
def SpSt.leave (sp : SpSt) : SpSt :=
  let i := sp.sreg rISTAT
  { (sp.setSreg rFLAGS (bits i 3 0)).setSreg rISTAT (setBits i 14 13 0) with inHandler := false }

/-- Entry with `cause` and the saved address `ipc` (R86, R128). -/
def SpSt.enter (sp : SpSt) (cause ipc : Nat) : SpSt :=
  let sp := sp.landAll
  let susp := (if sp.lc 0 ≠ 0 then 1 else 0) + (if sp.lc 1 ≠ 0 then 2 else 0)
  let ist := (if sp.run = .done then 2 ^ 15 else 0) + susp * 2 ^ 13 + sp.rstack.length * 2 ^ 10 + cause * 2 ^ 4 + sp.sreg rFLAGS
  { (sp.setSreg rISTAT ist).setSreg rIPC ipc with
    inHandler := true, pc := 0x7F0, delay := none, flt := none, e := sp.e + 2 }

/-- FAULT_INFO and EVENT.FAULT (R101, R104). -/
def Stage.spFaultInfo (s : Stage) (k cause addr : Nat) : Stage :=
  (s.setN (pSp k) 0x0AC (addr % 2048 * 2 ^ 16 + cause)).raise (pSp k) 4

/-- The halt of a fault inside a handler (R90, R99, R463). -/
def Stage.spHalt (s : Stage) (k cause addr : Nat) : Stage :=
  let sp := s.sp k
  (((s.putSp k { sp with run := .halted, flt := none }).spFaultInfo k cause addr).raise (pSp k) 5).sdCause 5

/-- A pending interrupt is taken (R84 to R86): the fault first, then the debug break, then the mailbox. -/
def Stage.spEntry (s : Stage) (k : Nat) : Stage :=
  let sp := s.sp k
  match sp.flt with
  | some (cause, addr) =>
    if sp.inHandler then s.spHalt k cause addr
    else (s.putSp k (sp.enter cause addr)).spFaultInfo k cause addr
  | none =>
    let ipc := if sp.run = .done then s.bankFld k 0x084 11 (s.spBank k) else sp.pc
    if sp.breakDue then s.putSp k { sp.enter 2 ipc with brk := false }
    else if sp.mboxDue then s.putSp k (sp.enter 1 ipc)
    else s

/-! ### Issue -/

/-- The descriptor of a FAR at the Y word address `a` (R96); none outside its legal ranges. -/
def Stage.farDesc (s : Stage) (k a : Nat) : Option Far :=
  let w (i : Nat) : Nat := (s.rd32 (wordAddr k .y ((a + i) % 65536))).toNat
  let f : Far := { toGrid := bit (w 2) 31, addr := w 0 + bits (w 1) 3 0 * 2 ^ 32, isY := bit (w 2) 15,
                   loc := bits (w 2) 14 0, len := bits (w 3) 12 0 }
  if f.addr % 32 = 0 ∧ 1 ≤ f.len ∧ f.len ≤ 4096 ∧ f.loc + f.len ≤ 24576 then some f else none

/-- FAR: the transfer joins those outstanding, or FAR_ERR (R96). -/
def Stage.farStart (s : Stage) (k : Nat) (sp : SpSt) (a : Nat) : SpSt :=
  match s.farDesc k a with
  | some f => { sp with far := sp.far ++ [f] }
  | none => sp.stick fFAR

/-- The control instruction of an executed bundle at `pc`: the processor after it, and what follows its delay bundle. -/
def Stage.control (s : Stage) (k bank : Nat) (sp : SpSt) (pc : Nat) (b : Bundle) : SpSt × Option After :=
  if sp.holds b.t.pred then
    match b.t.op with
    | .br t => (sp, some (.jump t))
    | .call t => ({ sp with rstack := sp.rstack ++ [pc + 2] }, some (.jump t))
    | .ret => ({ sp with rstack := sp.rstack.dropLast }, some (.jump (sp.rstack.getLast?.getD 0)))
    | .loop rot e c => let (t, sp) := s.takeLoop k bank sp pc e c rot; (sp, some (.jump t))
    | .loopd rot e d => let (t, sp) := s.takeLoop k bank sp pc e ((sp.dReg d).toNat % 65536) rot; (sp, some (.jump t))
    | .lexit t =>
      (match sp.levels with
       | [] => (sp, some (.jump t))
       | v :: _ => ({ sp.setSreg (rLC v) 0 with serve := none, capture := none }, some (.jump t)))
    | .iret => (sp, some .iret)
    | _ => (sp, none)
  else (sp, none)

/-- SDONE has issued (R89, R98): every result lands, a handler ends, and the sample's code with it. A handler entered while
waiting goes back to waiting. -/
def SpSt.finish (sp : SpSt) : SpSt :=
  let sp := sp.landAll
  let sp := if sp.inHandler then sp.leave else sp
  { sp with run := if sp.run = .done then .done else .draining, delay := none, serve := none, capture := none }

/-- What follows the bundle at `pc` that has executed, when `after` follows it as a delay bundle (R76, R80). IRET goes back to waiting for the
boundary where ISTAT.FROM_WAIT is set, and else goes on at IPC (R88). -/
def SpSt.advance (sp : SpSt) (bank pc : Nat) (was : Option After) : SpSt :=
  let (n, sp) := match was with
    | none => sp.endTest bank pc
    | some (.jump t) => (t, sp)
    | some .iret =>
      let sp := sp.landAll.leave
      (sp.sreg rIPC, { sp with run := if bit (sp.sreg rISTAT) 15 then .done else .running })
  if 0x7FF < n then { sp with flt := some (cPC_END, 0x7FF) } else { sp with pc := n }

/-- The extra handshakes of a bundle (R62, R65): the C bus from program memory, the circular slow path, and an X access in a
handshake of the gather. -/
def SpSt.penalty (sp : SpSt) (pc : Nat) (b : Bundle) (x : SlotRun) : Nat :=
  let cbus := match b.t.op with
    | .ldc _ _ _ _ => true
    | .stc _ _ _ _ => true
    | _ => false
  (if cbus && !sp.served pc then 1 else 0) + x.extra + (if x.xacc && sp.gathering then 1 else 0)

/-- An IRET whose handler has changed ISTAT.FROM_WAIT leaves a working processor waiting, or a waiting one working (R30, R88). -/
def Stage.spReturns (s : Stage) (k : Nat) (old new : SpRun) : Stage :=
  let b := Tab.get {} s.blocks k
  if old = .running ∧ new = .done then { s with blocks := Tab.put {} s.blocks k { b with busy := false, done := none } }
  else if old = .done ∧ new = .running then { s with blocks := Tab.put {} s.blocks k { b with busy := true, done := none } }
  else s

/-- A bundle without a fault or a stall executes and the processor goes on; `sp` has its landings. -/
def Stage.spExecute (s : Stage) (k : Nat) (sp : SpSt) (b : Bundle) : Stage :=
  let pc := sp.pc
  let bank := s.spBank k
  let x := runSlots s k sp b
  let go := sp.holds b.t.pred
  let cost := 1 + sp.penalty pc b x
  let hit := s.flag (pSp k) 0x400 0 && s.regN (pSp k) 0x404 == bank * 2048 + pc
  let sp1 := { x.sp with pend := sp.pend ++ x.lands, e := sp.e + cost, brk := sp.brk || hit }
  let sp1 := match b.t.op with
    | .far p am imm => if go then s.farStart k sp1 (({ sp := sp : SlotRun }.tm p am imm).1) else sp1
    | .mbrd _ => if go then { sp1 with mbox := false, unread := false } else sp1
    | _ => sp1
  let was := sp.delay
  let (sp2, after) := s.control k bank sp1 pc b
  let sp2 := { sp2 with iss := sp.iss + 1, delay := after }
  let sp3 := if go && b.isDone then sp2.finish else sp2.advance bank pc was
  let s := x.seen.foldl (fun s a => s.eccRead a k) s
  let s := x.stores.foldl (fun s e => s.wr32 e.1 e.2) s
  let s := ((s.putSp k sp3).setN (pSp k) 0x408 (bank * 2048 + pc)).spReturns k sp.run sp3.run
  match b.t.op with
    | .mbwr d => if go then (s.setReg (pSp k) 0x0A8 (sp.dReg d)).raise (pSp k) 2 else s
    | _ => s

/-- Bundle `b` issues on SP k at its program counter. A processor that may not issue, and one whose next action is an
interrupt entry, issues nothing. -/
def Stage.issueBundle (s : Stage) (k : Nat) (b : Bundle) : Stage :=
  let sp0 := s.sp k
  if !sp0.active || sp0.entryDue then s
  else
    let sp := sp0.landNow
    match sp.bundleFault sp.pc b with
    | some c => s.putSp k { sp with flt := some (c, sp.pc) }
    | none => if sp.stalls b then s else s.spExecute k sp b

/-- A 128-bit word issues: its bundle, or the fault ILLEGAL when a slot is illegal (R112). -/
def Stage.issueWord (s : Stage) (k w : Nat) : Stage :=
  match decodeBundle w with
  | some b => s.issueBundle k b
  | none =>
    let sp0 := s.sp k
    if !sp0.active || sp0.entryDue then s
    else s.putSp k { sp0.landNow with flt := some (cILLEGAL, sp0.pc) }

/-- The bundle at the program counter is fetched from the active bank and issues (R110). -/
def Stage.spStep (s : Stage) (k : Nat) : Stage :=
  s.issueWord k (s.rdN (bundleAddr k (s.spBank k) (s.sp k).pc) 16)

end Sys2Proof.Machine
end

