-- ==== Sys2Proof/Machine/SpDma.lean ====
section
/-!
DEFINITION. A strip processor's sample (R92 to R95, R97, R98): its start at a boundary, the gather and header, the scatter and
the done point, the program-bank swap and the soft reset (R64, R66, R99 to R101).
-/
namespace Sys2Proof.Machine

/-- The stage of block `b` (SP_k at k, BAT_k at 64 + k), if it is in the stage map in effect. -/
def Stage.stageOf (s : Stage) (b : Nat) : Option Nat :=
  let v := Tab.get 0 s.graph.map b
  if 8 ≤ v then some (v - 8) else none

/-- Block `b` is in the stage map in effect. -/
def Stage.inMap (s : Stage) (b : Nat) : Bool := (s.stageOf b).isSome

/-- The stage block record of block `b`. -/
def Stage.blk (s : Stage) (b : Nat) : Blk := Tab.get {} s.blocks b
def Stage.setBlk (s : Stage) (b : Nat) (v : Blk) : Stage := { s with blocks := Tab.put {} s.blocks b v }

/-- SP k starts sample `n` (R93, R94, R97): the program counter goes to the active bank's ENTRY, both loop counts and the
return stack are cleared, and the header and gather begin. -/
def Stage.spStart (s : Stage) (k n : Nat) : Stage :=
  let sp := s.sp k
  let bank := s.spBank k
  let skipped := match sp.last with
    | none => 0
    | some m => n - m - 1
  let sp := (sp.setSreg (rLC 0) 0).setSreg (rLC 1) 0
  let sp := { sp with
    run := .running, pc := s.bankFld k 0x084 11 bank, rstack := [], delay := none, e := 0, serve := none, capture := none,
    hdrDue := s.flag (pSp k) 0x090 31, gNext := 0, gLen := s.bankFld k 0x088 9 bank, last := some n, skipped := skipped }
  (s.putSp k sp).setBlk k { s.blk k with busy := true, n := n, done := none }

/-- A gather entry: its slot and its local word (R92). -/
def entrySlot (e : Word) : Nat := bits e.toNat 29 16
def entryWord (e : Word) : Nat := bits e.toNat 14 0

/-- The silence vector's word `w` (R94). -/
def Stage.silenceWord (s : Stage) (k bank gLen w : Nat) : Nat :=
  (upTo 32).foldl (fun acc i =>
    let j := 32 * w + i
    if j < gLen ∧ s.slotSilent (entrySlot (s.rd32 (gatherAddr k bank j))) then acc + 2 ^ i else acc) 0

/-- The eleven header words (R94). -/
def Stage.headerWords (s : Stage) (k bank : Nat) (sp : SpSt) : List Nat :=
  let n := sp.last.getD 0
  [n % 2 ^ 32, n / 2 ^ 32 % 2 ^ 32, sp.skipped % 2 ^ 32] ++ (upTo 8).map (s.silenceWord k bank sp.gLen)

/-- The gather DMA's next write: the header, or one entry (R93). -/
def Stage.gatherWrite (s : Stage) (k : Nat) : Stage :=
  let sp := s.sp k
  let bank := s.spBank k
  if sp.hdrDue then
    let base := s.fld (pSp k) 0x090 14 0
    let ws := s.headerWords k bank sp
    let s := (upTo 11).foldl (fun s i => s.wr32 (wordAddr k .x (base + i)) (Word.ofNat (ws.getD i 0))) s
    s.putSp k { sp with hdrDue := false }
  else if sp.gNext < sp.gLen then
    let s := s.eccRead (gatherAddr k bank sp.gNext) k
    let e := s.rd32 (gatherAddr k bank sp.gNext)
    (s.wr32 (wordAddr k .x (entryWord e)) (s.exchRead (entrySlot e))).putSp k { sp with gNext := sp.gNext + 1 }
  else s

/-- The scatter of SP k and its done point at raw `t` (R31, R36, R95, R98, R101). -/
def Stage.scatterWrite (s : Stage) (k t : Nat) : Stage :=
  let s := s.tick t
  let sp := s.sp k
  if sp.run = .draining ∧ sp.far = [] then
    let bank := s.spBank k
    let s := (upTo (s.bankFld k 0x08C 9 bank)).foldl (fun s j =>
      let e := s.rd32 (scatterAddr k bank j)
      let s := (s.eccRead (scatterAddr k bank j) k).eccRead (wordAddr k .y (entryWord e)) k
      s.exchWrite (rankSp k) (entrySlot e) (s.rd32 (wordAddr k .y (entryWord e)))) s
    let w := s.bankFld k 0x094 16 bank
    let s := ((s.putSp k { sp with run := .done }).setN (pSp k) 0x098 (min sp.e 0xFFFF)).raiseIf (w != 0 && decide (w < sp.e)) (pSp k) 1
    s.setBlk k { s.blk k with busy := false, done := some s.datum.raw, exec := sp.e }
  else s

/-- STAT of an SP page (R103). -/
def Stage.spStat (s : Stage) (k : Nat) : Nat :=
  let sp := s.sp k
  s.spBank k * 8 + (if sp.inHandler then 4 else 0)
    + (match sp.run with | .halted => 3 | .running => 1 | .draining => 1 | .done => if s.inMap k then 2 else 0 | .idle => 0)

/-- A program-bank swap takes effect (R64, R100); a staged HDR_CFG of the new bank is written with it (R186). -/
def Stage.spSwapBank (s : Stage) (k : Nat) : Stage :=
  let b := 1 - s.spBank k
  let s := (s.setFld (pSp k) 0x080 0 0 b).putSp k { s.sp k with cache := none, serve := none, capture := none }
  match Tab.get none s.graph.hdr k with
  | none => s
  | some v => { s.setReg (pSp k) 0x090 v with graph := { s.graph with hdr := Tab.put none s.graph.hdr k none } }

/-- MBOX_IN takes effect with `v` (R91). -/
def Stage.mboxIn (s : Stage) (k : Nat) (v : Word) : Stage :=
  let sp := s.sp k
  ((s.setReg (pSp k) 0x0A4 v).raiseIf sp.unread (pSp k) 3).putSp k { sp with unread := true, mbox := true }

/-- The registers of R66 at their reset values, with the repeat cache empty and nothing in flight; a halted or working
processor waits for the next boundary (R66, R99). -/
def Stage.spSoftReset (s : Stage) (k : Nat) : Stage :=
  let s := { s with sps := Tab.put {} s.sps k {} }
  (s.setBlk k {}).clearRegs (pSp k) (fun o => o == 0x098 || o == 0x09C || o == 0x0A0)

/-- BREAK_NOW (R105): a debug break is pending. -/
def Stage.breakNow (s : Stage) (k : Nat) : Stage := s.putSp k { s.sp k with brk := true }

end Sys2Proof.Machine
end

