-- ==== Sys2Proof/Machine/Batten.lean ====
section
/-!
DEFINITION. The battens (R129 to R174): gain planes, the sum, the skip rule, crossfades, ramps, the spare lane and their soft
reset. A plane's memory always holds the value in effect, running ramps included (R136).
-/
namespace Sys2Proof.Machine

def pBat (k : Nat) : Nat := 0x140 + k

def Stage.bat (s : Stage) (k : Nat) : BatSt := Tab.get {} s.bats k
def Stage.putBat (s : Stage) (k : Nat) (b : BatSt) : Stage := { s with bats := Tab.put {} s.bats k b }

/-- The base of the window of BAT k, and of one of its planes (R135). -/
def batBase (k : Nat) : Nat := 0x200000000 + k * 0x40000
def planeAddr (k plane : Nat) : Nat := batBase k + plane * 0x10000

/-- The word and field of crosspoint (s, d) (R134, R159). -/
def crossWord (hi : Bool) (src : Nat) : Nat := if hi then src % 1024 else src
def crossField (hi : Bool) (src dst : Nat) : Nat := if hi then 2 * dst + src / 1024 else dst

/-- The Grid address of a crosspoint's gain. -/
def Stage.crossAddr (s : Stage) (k plane src dst : Nat) : Nat :=
  planeAddr k plane + 32 * crossWord s.highRate src + 4 * crossField s.highRate src dst

/-- A crosspoint's value in effect on a plane (R136). -/
def Stage.cross (s : Stage) (k plane src dst : Nat) : Word := s.rd32 (s.crossAddr k plane src dst)

/-- Field `f` of word `w` of a plane. -/
def Stage.planeFld (s : Stage) (k plane w f : Nat) : Word := s.rd32 (planeAddr k plane + 32 * w + 4 * f)

/-- The words of a plane that are not all zero, ascending (R139). -/
def Stage.planeWords (s : Stage) (k plane : Nat) : Tab Unit :=
  let a := planeAddr k plane
  s.mem.foldl (fun t e => if a ≤ e.1 ∧ e.1 < a + 0x10000 then Tab.ins t ((e.1 - a) / 32) () else t) []

/-- A crossfade is running or held. -/
def BatSt.fading (b : BatSt) : Bool := b.xf != .idle

/-- The plane that a ramp request and a boundary write act on: TO during a crossfade, else the live plane (R136, R149). -/
def BatSt.target (b : BatSt) : Nat := if b.fading then 1 - b.xfFrom else b.live

/-! ### Crossfade arithmetic (R141 to R144) -/

/-- Entry `i` of a curve (R142). -/
def Stage.curveEntry (s : Stage) (k curve i : Nat) : Int :=
  match curve with
  | 0 => roundHalfUp (32768 * (i : Int)) 1023
  | 1 => sinCurve i
  | _ => s.rdN (batBase k + 0x20800 + 2 * i) 2

/-- α of step `kk` of `n` (R143). -/
def Stage.alpha (s : Stage) (k curve kk n : Nat) : Int :=
  if kk = 0 then 0
  else if n ≤ kk then 32768
  else
    let pos := kk * 1023 * 65536 / n
    let i := pos / 65536
    let f := pos % 65536
    let a := s.curveEntry k curve i
    a + Int.fdiv ((s.curveEntry k curve (i + 1) - a) * f) 65536

/-- The live gain between the planes (R141). -/
def xfMix (gF gT : Word) (alpha : Int) : Int := gF.toInt + Int.fdiv ((gT.toInt - gF.toInt) * alpha) 32768

/-- A time in 0.1 ms as samples, a half rounded up (R144, R154). -/
def samplesOf (t fs : Nat) : Nat := (t * fs + 5000) / 10000

/-! ### Ramps (R150 to R157) -/

/-- A DB step (R155). -/
def dbStep (g0 gT : Int) (j n : Nat) : Int :=
  let z := if g0 = 0 then gT else g0
  if z = 0 then Config.dbSilent j n
  else
    let l0 := log24 (max g0.natAbs 128)
    let lt := log24 (max gT.natAbs 128)
    let m := pow24 (l0 + divZ ((lt - l0) * j) n).toNat
    if z < 0 then -m else m

/-- Step `j` of a ramp, for j < N (R155). -/
def rampStep (shape : Nat) (g0 gT : Int) (j n : Nat) : Int :=
  let linear := g0 + divZ ((gT - g0) * j) n
  match shape with
  | 1 => if (g0 < 0 ∧ 0 < gT) ∨ (0 < g0 ∧ gT < 0) then linear else dbStep g0 gT j n
  | 2 => g0 + divZ ((gT - g0) * raisedCos true j n) (2 ^ 32)
  | _ => linear

/-- The value a ramp gives for sample `m` (R153). -/
def Ramp.at (r : Ramp) (m : Nat) : Word :=
  if m + 1 ≤ r.start then Word.ofInt r.g0
  else
    let j := m + 1 - r.start
    if r.n ≤ j then r.gT else Word.ofInt (rampStep r.shape r.g0 r.gT.toInt j r.n)

/-- A ramp runs on this crosspoint. -/
def Ramp.on (r : Ramp) (plane src dst : Nat) : Bool := r.plane == plane && r.src == src && r.dst == dst

/-- The slots that hold no running ramp. -/
def BatSt.freeSlots (b : BatSt) : List Nat := (upTo 256).filter fun i => !b.ramps.any (fun r => r.slot == i)

/-- A request starts at boundary `n` (R152 to R156), or is deferred for want of a slot. -/
def Stage.rampStart (n k : Nat) (s : Stage) (q : RampReq) : Stage :=
  let b := s.bat k
  let plane := b.target
  let src := bits q.hi 13 3
  let dst := bits q.hi 2 0
  let len := max 1 (samplesOf (bits q.hi 29 15) s.fs)
  match b.ramps.find? (fun r => r.on plane src dst) with
  | some old =>
    let r : Ramp := { slot := old.slot, plane := plane, src := src, dst := dst, g0 := (old.at (n - 1)).toInt, gT := q.lo,
                      n := len, start := n, shape := bits q.hi 31 30 }
    s.putBat k { b with ramps := b.ramps.map fun x => if x.on plane src dst then r else x }
  | none =>
    if b.ramps.length < 256 then
      let free := b.freeSlots
      let (d, s) := s.draw
      let r : Ramp := { slot := free.getD (Config.rampSlot d % free.length) 0, plane := plane, src := src, dst := dst,
                        g0 := (s.cross k plane src dst).toInt, gT := q.lo, n := len, start := n, shape := bits q.hi 31 30 }
      s.putBat k { b with ramps := b.ramps ++ [r] }
    else
      (s.putBat k { b with queue := b.queue ++ [{ q with deferred := true }] }).raiseIf (!q.deferred) (pBat k) 2

/-- The requests due at boundary `n` that were submitted before place `o` in the order of writes start (R24, R152). -/
def Stage.rampsDue (s : Stage) (n k o : Nat) : Stage :=
  let b := s.bat k
  let isDue (q : RampReq) : Bool := decide (q.due ≤ n) && decide (q.ord < o)
  let now := b.queue.filter isDue
  let s := now.foldl (Stage.rampStart n k) (s.putBat k { b with queue := b.queue.filter (fun q => !isDue q) })
  let b := s.bat k
  s.putBat k { b with queue := (b.queue.foldl (fun t q => Tab.ins t q.ord q) []).map (·.2) }

/-- A request enters the queue, or is refused with 64 entries in it (R152); the Boolean says it entered. -/
def Stage.rampSubmit (s : Stage) (k due : Nat) (lo : Word) (hi : Nat) : Stage × Bool :=
  let b := s.bat k
  if 64 ≤ b.queue.length then ((s.bump (pBat k) 0x09C).raise (pBat k) 1, false)
  else
    let q : RampReq := { due := due, ord := s.order, lo := lo, hi := hi, deferred := false }
    ({ s with order := s.order + 1 }.putBat k { b with queue := b.queue ++ [q] }, true)

/-- RAMP_REQ_LO of master `m` (R150). -/
def Stage.rampLo (s : Stage) (k : Nat) (m : Master) : Word := s.arg (pBat k) m 4

/-- The fields of RAMP_REQ_HI lie in their legal ranges (R151, R170). -/
def rampLegal (hi : Bool) (v : Nat) : Bool :=
  decide (bits v 31 30 < 3) && decide (1 ≤ bits v 29 15) && decide (bits v 29 15 ≤ 20000)
    && (!hi || decide (bits v 2 0 < 4))

/-- The landed ramps are retired at boundary `n`; the plane holds the target (R153). -/
def Stage.rampsRetire (s : Stage) (n k : Nat) : Stage :=
  let b := s.bat k
  let gone (r : Ramp) : Bool := decide (r.start + r.n ≤ n)
  let s := (b.ramps.filter gone).foldl (fun s r => s.wr32 (s.crossAddr k r.plane r.src r.dst) r.gT) s
  s.putBat k { b with ramps := b.ramps.filter (fun r => !gone r) }

/-- Every running ramp takes its step for sample `n` (R136, R153). -/
def Stage.rampsStep (s : Stage) (n k : Nat) : Stage :=
  (s.bat k).ramps.foldl (fun s r => s.wr32 (s.crossAddr k r.plane r.src r.dst) (r.at n)) s

/-- A write that touches addresses satisfying `p` ends the ramps of those crosspoints (R137). -/
def Stage.rampsCut (s : Stage) (k : Nat) (p : Nat → Bool) : Stage :=
  let b := s.bat k
  let hit (r : Ramp) : Bool := let a := s.crossAddr k r.plane r.src r.dst; p a || p (a + 1) || p (a + 2) || p (a + 3)
  if b.ramps.any hit then s.putBat k { b with ramps := b.ramps.filter (fun r => !hit r) } else s

/-- The sixteen bytes of ramp slot `i` as four words (R157). -/
def Stage.rampSlotWords (s : Stage) (k i : Nat) : List Nat :=
  match (s.bat k).ramps.find? (fun r => r.slot == i) with
  | none => [0, 0, 0, 0]
  | some r =>
    let m := s.datum.index
    let j := max 1 (m + 1 - r.start)
    [2 ^ 31 + r.plane * 2 ^ 16 + r.src * 8 + r.dst, r.gT.toNat, (r.at m).toNat,
     r.shape * 2 ^ 30 + (r.n + 1 - j) % 2 ^ 21]

/-! ### Crossfades (R145 to R149) -/

/-- A crossfade starts forward from the live plane, with k = 1 in the sample the boundary opens (R146). -/
def BatSt.xfStart (b : BatSt) (fs curve time : Nat) : BatSt :=
  { b with xf := .running, xfRev := false, xfK := 1, xfCurve := curve, xfN := samplesOf time fs, xfFrom := b.live,
           fresh := true, queued := none }

/-- A crossfade ends: forward, TO becomes live; reverse, FROM stays live (R146). -/
def Stage.xfEnd (s : Stage) (k : Nat) : Stage :=
  let b := s.bat k
  (s.putBat k { b with live := if b.xfRev then b.xfFrom else 1 - b.xfFrom, xf := .idle, xfRev := false, xfK := 0 }).raise
    (pBat k) 3

/-- The step in force is the last of its direction (R146). -/
def BatSt.atEnd (b : BatSt) : Bool := if b.xfRev then decide (b.xfK ≤ 1) else decide (b.xfN ≤ b.xfK)

/-- The image staged into BAT k protects its shadow plane (R188). -/
def Stage.batStaged (s : Stage) (k : Nat) : Bool := s.graph.stagedBats.contains k

/-- An XF_REQ takes effect (R147). -/
def Stage.xfRequest (s : Stage) (k cmd curve time : Nat) : Stage :=
  let b := s.bat k
  let ignored := s.raise (pBat k) 4
  match cmd with
  | 1 =>
    if s.batStaged k then ignored
    else match b.xf with
      | .idle =>
        if b.ready then s.putBat k (b.xfStart s.fs curve time)
        else (s.putBat k { b with queued := some (curve, time) }).raise (pBat k) 5
      | _ => s.putBat k { b with queued := some (curve, time) }
  | 2 => (match b.xf with
    | .running => s.putBat k { b with xf := .held }
    | _ => ignored)
  | 3 => (match b.xf with
    | .held => if b.atEnd then s.xfEnd k else s.putBat k { b with xf := .running }
    | _ => ignored)
  | 4 => (match b.xf with
    | .idle => ignored
    | _ => s.putBat k { b with xfRev := !b.xfRev })
  | 5 => (match b.queued with
    | none => ignored
    | some _ => s.putBat k { b with queued := none })
  | _ => ignored

/-- The word of an XF_REQ write or action (R168). -/
def Stage.xfWord (s : Stage) (k v : Nat) : Stage := s.xfRequest k (bits v 31 28) (bits v 27 26) (bits v 18 0)

/-- XF_REQ's fields lie in their legal ranges (R168). -/
def xfLegal (v : Nat) : Bool :=
  let c := bits v 31 28
  decide (1 ≤ c) && decide (c ≤ 5) &&
    (c != 1 || (decide (bits v 27 26 < 3) && decide (10 ≤ bits v 18 0) && decide (bits v 18 0 ≤ 300000)))

/-- The step of the sample that a boundary opens, and a queued swap (R145, R146, R148). -/
def Stage.xfStep (s : Stage) (k : Nat) : Stage :=
  let b := s.bat k
  let s := if b.xf = .running ∧ b.fresh = false then
      (if b.atEnd then s.xfEnd k else s.putBat k { b with xfK := if b.xfRev then b.xfK - 1 else b.xfK + 1 })
    else s
  let b := { s.bat k with fresh := false }
  match b.xf, b.queued with
  | .idle, some (curve, time) => if b.ready then s.putBat k { b.xfStart s.fs curve time with fresh := false } else s.putBat k b
  | _, _ => s.putBat k b

/-! ### The sum (R130, R132, R133, R140, R158, R160) -/

/-- The sources a word carries, with the fields of each (R159, R160). -/
def wordSources (hi : Bool) (w : Nat) : List (Nat × List Nat) :=
  if hi then [(w, [0, 2, 4, 6]), (w + 1024, [1, 3, 5, 7])] else [(w, [0, 1, 2, 3, 4, 5, 6, 7])]

/-- The lanes at work: the accumulators, which overflowed, and the words read. -/
structure Lanes where
  acc : List Int := [0, 0, 0, 0, 0, 0, 0, 0]
  av : Nat := 0
  words : Nat := 0
deriving DecidableEq, Repr

/-- One product joins lane `f` (R132). -/
def Lanes.add (l : Lanes) (f : Nat) (p : Int) : Lanes :=
  let z := l.acc.getD f 0 + p
  { l with acc := l.acc.set f (satI 72 z), av := if satI 72 z = z then l.av else Nat.lor l.av (2 ^ f) }

/-- The live gain of a field (R132, R141). -/
def Stage.liveGain (s : Stage) (k : Nat) (b : BatSt) (a : Int) (w f : Nat) : Int :=
  if b.fading then xfMix (s.planeFld k b.xfFrom w f) (s.planeFld k (1 - b.xfFrom) w f) a
  else (s.planeFld k b.live w f).toInt

/-- The gain is not zero in some plane that the lanes read (R140). -/
def Stage.gainOn (s : Stage) (k : Nat) (b : BatSt) (w f : Nat) : Bool :=
  if b.fading then s.planeFld k 0 w f != 0#32 || s.planeFld k 1 w f != 0#32 else s.planeFld k b.live w f != 0#32

/-- One word: skipped when every source it carries is silent or has all its gains zero; a silent source's product is dropped
(R140, R207). -/
def Stage.laneWord (s : Stage) (k : Nat) (b : BatSt) (a : Int) (l : Lanes) (w : Nat) : Lanes :=
  let used := (wordSources s.highRate w).filter fun (i, fs) =>
    (s.srcNoSkip i || !s.srcSilent i) && fs.any (s.gainOn k b w)
  if used = [] then l
  else
    used.foldl (fun l (i, fs) =>
      let x := (s.exchRead (s.srcSlot i)).toInt
      fs.foldl (fun l f => l.add f (x * s.liveGain k b a w f)) l) { l with words := l.words + 1 }

/-- The lane results of the sample in progress. -/
def Stage.batLanes (s : Stage) (k : Nat) : Lanes :=
  let b := s.bat k
  let a := s.alpha k b.xfCurve b.xfK b.xfN
  let ws := if b.fading then (s.planeWords k 1).foldl (fun t e => Tab.ins t e.1 ()) (s.planeWords k 0)
    else s.planeWords k b.live
  let ws := ws.filter fun e => !s.highRate || decide (e.1 < 1024)
  ws.foldl (fun l e => s.laneWord k b a l e.1) {}

/-- What a late batten still works on is kept from the sample it is in (R48). -/
def Stage.batHold (s : Stage) (k : Nat) : Stage :=
  let b := s.bat k
  if (s.blk (64 + k)).busy && b.held.isNone then
    let l := s.batLanes k
    s.putBat k { b with held := some (l.acc, l.av, l.words) }
  else s

/-- The bus slots of BAT k (R129). -/
def Stage.busSlot (s : Stage) (k d : Nat) : Nat := 0x1800 + (if s.highRate then 4 else 8) * k + d

/-- The spare's comparison of one sample (R161, R162): `agree` whether its result equals the lane's. -/
def Stage.rehearse (s : Stage) (k : Nat) (agree : Bool) : Stage :=
  let b := s.bat k
  let seen := if b.seen.contains b.lane then b.seen else b.seen ++ [b.lane]
  let b := { b with turn := if b.turn.contains b.lane then b.turn else b.turn ++ [b.lane] }
  let b := { b with seen := seen, untested := b.untested && decide (seen.length < 8) }
  let s := if agree then s else (s.bump (pBat k) 0x0BC).raise (pBat k) 7
  s.putBat k { b with verdict := some agree }

/-- At the boundary the spare moves on, or the mismatch of sample n is judged at boundary n + 3 (R161, R162, R463, R685). -/
def Stage.batJudge (s : Stage) (k : Nat) : Stage :=
  let b := { s.bat k with verdict := none }
  let nxt := (b.lane + 1) % 8
  match (s.bat k).verdict with
  | none => s
  | some agree => match b.spare with
    | .rotate => s.putBat k (if agree then { b with lane := nxt } else { b with spare := .recheck })
    | .recheck => s.putBat k (if agree then { b with spare := .rotate, lane := nxt } else { b with spare := .neighbour b.lane, lane := nxt })
    | .neighbour l =>
      if agree then ((s.putBat k { b with spare := .subst l, untested := false }).raise (pBat k) 8).sdCause 4
      else ((s.putBat k { b with spare := .out, untested := false }).raise (pBat k) 9).sdCause 4
    | .subst _ => s.putBat k b
    | .out => s.putBat k b

/-- The erroneous words among those the lanes read (R526, R528). -/
def Stage.laneErrs (s : Stage) (k : Nat) : List Nat :=
  let b := s.bat k
  let planes := if b.fading then [0, 1] else [b.live]
  planes.flatMap fun p => (s.ecc.filter fun e =>
    decide (planeAddr k p ≤ 32 * e.1 ∧ 32 * e.1 < planeAddr k p + 0x10000)
      && (Tab.find (s.planeWords k p) (e.1 - planeAddr k p / 32)).isSome).map fun e => 32 * e.1

/-- The lanes of BAT k finish at raw `t` and the bus sums are written (R31, R132, R133, R158, R161). `errs` gives, for a
faulty lane (0 to 7) or the spare (8), the result its hardware produced in place of the one of R132. -/
def Stage.batSum (s : Stage) (k t : Nat) (errs : List (Nat × Int)) : Stage :=
  let s := s.tick t
  let b := s.bat k
  if !(s.blk (64 + k)).busy then s
  else
    let (acc, av, words) := match b.held with
      | some h => h
      | none => let l := s.batLanes k; (l.acc, l.av, l.words)
    let s := (s.laneErrs k).foldl (fun s a => s.eccRead a 0) s
    let out (i : Nat) (true_ : Int) : Int := match errs.find? (fun e => e.1 == i) with
      | some e => e.2
      | none => true_
    let lane (i : Nat) : Int := match b.spare with
      | .subst l => if i = l then out 8 (acc.getD i 0) else out i (acc.getD i 0)
      | _ => out i (acc.getD i 0)
    let dests := if s.highRate then 4 else 8
    let total (d : Nat) : Int := if s.highRate then lane (2 * d) + lane (2 * d + 1) else lane d
    let av := if s.highRate then
        (upTo 4).foldl (fun m d => if satI 72 (total d) = total d then m else Nat.lor m (3 * 2 ^ (2 * d))) av
      else av
    let sum (d : Nat) : Int := roundHalfEven (satI 72 (total d)) (2 ^ 27)
    let sats := (upTo dests).foldl (fun m d => if satI 32 (sum d) = sum d then m else m + 2 ^ d) 0
    let s := (upTo dests).foldl (fun s d => s.exchWrite (rankBat k) (s.busSlot k d) (Word.ofInt (satI 32 (sum d)))) s
    let s := s.setN (pBat k) 0x0B0 (Nat.lor (s.regN (pBat k) 0x0B0) (av * 256 + sats))
    let s := if sats = 0 then s else (s.bump (pBat k) 0x0AC).raise (pBat k) 6
    let s := s.setN (pBat k) 0x0A8 words
    let s := s.putBat k { s.bat k with held := none }
    let s := s.setBlk (64 + k) { s.blk (64 + k) with busy := false, done := some s.datum.raw, exec := words }
    let on := b.shadowing && (match b.spare with | .subst _ => false | .out => false | _ => true)
    if on then s.rehearse k (out 8 (acc.getD b.lane 0) == out b.lane (acc.getD b.lane 0)) else s

/-! ### Boundaries, resets and registers -/

/-- The first part of a boundary: judgement, a crossfade whose last sample has passed, the landed ramps, and a plane that
becomes ready (R138, R145, R152, R162). -/
def Stage.batPre (s : Stage) (n k : Nat) : Stage :=
  let s := s.batJudge k
  let s := if (s.bat k).xf = .running ∧ (s.bat k).atEnd ∧ (s.bat k).fresh = false then s.xfEnd k else s
  let s := s.rampsRetire n k
  let b := s.bat k
  match b.readyAt with
  | some r => if r ≤ n ∧ b.loading = false then s.putBat k { b with ready := true, readyAt := none } else s
  | none => s

/-- The last part: the remaining due ramps, the crossfade step, the ramp steps of the sample, and the spare's enable (R145,
R152, R153, R163). -/
def Stage.batPost (s : Stage) (n k : Nat) : Stage :=
  let s := s.rampsDue n k s.order
  let s := (s.xfStep k).rampsStep n k
  s.putBat k { s.bat k with shadowing := s.flag (pBat k) 0x0B4 0 }

/-- BAT k starts sample `n`. -/
def Stage.batStart (s : Stage) (k n : Nat) : Stage :=
  s.setBlk (64 + k) { s.blk (64 + k) with busy := true, n := n, done := none }

/-- The part of a soft reset that a commit shares (R164, R165): the crossfade ends with the live plane live, the queued swap
goes, every ramp stops where it is and the request queue empties; counts and LANE_STICKY clear. -/
def Stage.batClear (s : Stage) (k : Nat) : Stage :=
  let b := s.bat k
  (s.putBat k { b with xf := .idle, xfRev := false, xfK := 0, fresh := false, queued := none, ramps := [], queue := [],
                       held := none }).clearRegs (pBat k)
    (fun o => o == 0x09C || o == 0x0A0 || o == 0x0A8 || o == 0x0AC || o == 0x0B0)

/-- A soft reset of BAT k (R163, R164). -/
def Stage.batSoftReset (s : Stage) (k : Nat) : Stage :=
  let s := (s.batClear k).clearRegs (pBat k) (fun o => o == 0x0BC)
  let s := s.putBat k { s.bat k with spare := .rotate, lane := 0, verdict := none, seen := [] }
  s.setBlk (64 + k) {}

/-- Computed registers of a BAT page (R157, R167, R169, R171). -/
def Stage.batRead (s : Stage) (k off : Nat) (m : Master) : Option Nat :=
  let b := s.bat k
  if off = 0x080 then some ((if b.ready then 4 else 0) + (if b.loading then 2 else 0) + b.live)
  else if off = 0x088 then
    some ((match b.xf with | .idle => 0 | .running => 1 | .held => 2) * 2 ^ 30 + (if b.xfRev then 2 ^ 29 else 0)
      + (if b.queued.isSome then 2 ^ 28 else 0) + b.xfCurve * 2 ^ 26 + b.xfK % 2 ^ 23)
  else if off = 0x08C then some (b.xfN % 2 ^ 23)
  else if off = 0x090 then some (s.rampLo k m).toNat
  else if off = 0x098 then some (b.queue.length * 2 ^ 16 + b.ramps.length)
  else if off = 0x0B8 then
    some (b.lane + (match b.spare with | .subst l => 2 ^ 31 + l * 2 ^ 24 | .out => 2 ^ 30 | _ => 0))
  else none

/-- STAT of a BAT page (R172). -/
def Stage.batStat (s : Stage) (k : Nat) : Nat :=
  if !s.inMap (64 + k) then 0 else if (s.blk (64 + k)).busy then 1 else 2

/-- The computed bytes of a batten window: zero maps and the ramp slot table (R135, R139, R157). -/
def Stage.batByte (s : Stage) (k off : Nat) : Byte :=
  if off < 0x20200 then
    let plane := (off - 0x20000) / 256
    let w0 := 8 * (off % 256)
    let on := s.planeWords k plane
    BitVec.ofNat 8 ((upTo 8).foldl (fun m j => if (Tab.find on (w0 + j)).isSome then m else m + 2 ^ j) 0)
  else
    let o := off - 0x21000
    BitVec.ofNat 8 ((s.rampSlotWords k (o / 16)).getD (o % 16 / 4) 0 / 256 ^ (o % 4))

end Sys2Proof.Machine
end

