-- ==== Sys2Proof/Machine/Lane.lean ====
section
/-!
DEFINITION. The serial lanes: detectors, training and electrical idle (R382 to R401).
-/
namespace Sys2Proof.Machine

/-- The page of lane `i` and the offset of its block (R398): ISL_LANE_i for i < 16, NET_LANE_(i − 16) above. -/
def lanePage (i : Nat) : Nat := if i < 16 then 0x260 else 0x240 + (i - 16)
def laneBase (i : Nat) : Nat := if i < 16 then 0x080 + 0x20 * i else 0x380
def isNetLane (i : Nat) : Bool := decide (16 ≤ i)

def Stage.lane (s : Stage) (i : Nat) : LaneSt := Tab.get {} s.lanes i
def Stage.putLane (s : Stage) (i : Nat) (l : LaneSt) : Stage := { s with lanes := Tab.put {} s.lanes i l }

/-- Fields of LANE_CFG and LANE_STAT (R399, R400). -/
def Stage.laneCfg (s : Stage) (i hi lo : Nat) : Nat := s.fld (lanePage i) (laneBase i) hi lo
def Stage.laneStat (s : Stage) (i hi lo : Nat) : Nat := s.fld (lanePage i) (laneBase i + 4) hi lo
def Stage.setLaneStat (s : Stage) (i hi lo v : Nat) : Stage := s.setFld (lanePage i) (laneBase i + 4) hi lo v
def Stage.laneEn (s : Stage) (i : Nat) : Bool := s.laneCfg i 31 31 == 1
def Stage.laneState (s : Stage) (i : Nat) : Nat := s.laneStat i 26 24
def Stage.laneRate (s : Stage) (i : Nat) : Nat := s.laneStat i 23 21

def lnOff : Nat := 0
def lnSeek : Nat := 1
def lnLock : Nat := 2
def lnAgree : Nat := 3
def lnDeskew : Nat := 4
def lnUp : Nat := 5

/-- The lane events (R401), by their bit on the ISL_LANES page; a NET page has LANE_UP, LANE_DOWN, LOS and LOL at bits 0 to 3. -/
def Stage.laneEvent (s : Stage) (i e : Nat) : Stage :=
  if isNetLane i then (if e ≤ 3 then s.raise (lanePage i) e else s)
  else (s.setFlag 0x260 0x280 i true).raise 0x260 e

/-- The state code changes; leaving UP raises DOWN and entering it UP (R390). -/
def Stage.setLaneState (s : Stage) (i st : Nat) : Stage :=
  let was := s.laneState i
  let s := s.setLaneStat i 26 24 st
  let s := if was = lnUp ∧ st ≠ lnUp then s.laneEvent i 1 else s
  if st = lnUp ∧ was ≠ lnUp then
    let s := (s.setLaneStat i 0 0 0).laneEvent i 0
    if s.reh.laneOnce.contains i then s else { s with reh := { s.reh with laneOnce := s.reh.laneOnce ++ [i] } }
  else s

/-- An attempt starts (R391). -/
def Stage.laneAttempt (s : Stage) (i : Nat) : Stage :=
  (s.setLaneStat i 15 8 (satInc 255 (s.laneStat i 15 8))).putLane i { s.lane i with trying := true, ts1 := 0, ack := 0, ts2 := 0 }

/-- The lane goes to SEEK at 1.25 Gbaud and starts an attempt, with its calibration applied (R390, R391, R585); `zero` takes the attempt
count to 0 first. -/
def Stage.laneSeek (s : Stage) (i : Nat) (zero : Bool) : Stage :=
  let s := ((s.setLaneState i lnSeek).putLane i {}).calApply (lanePage i)
  if isNetLane i then s
  else
    let s := ((s.setLaneStat i 28 27 0).setLaneStat i 23 21 0)
    (if zero then s.setLaneStat i 15 8 0 else s).laneAttempt i

/-- The lane enters LOCK at 1.25 Gbaud (R390); `got` training sets count already. -/
def Stage.laneLock (s : Stage) (i got : Nat) : Stage :=
  let s := (s.setLaneState i lnLock).setLaneStat i 28 27 0
  (((s.setLaneStat i 30 29 0).setLaneStat i 15 8 0).setLaneStat i 23 21 0).putLane i { ts1 := got }

/-- The width of link `n` (R425). -/
def Stage.linkWidth (s : Stage) (n : Nat) : Nat := 2 ^ s.fld (0x270 + n) 0x080 25 24

/-- The lane belongs to its link's bond (R403). -/
def Stage.inBond (s : Stage) (i : Nat) : Bool := decide (i % 4 < s.linkWidth (i / 4))

/-- The lane enters DESKEW; alone in its bond, or outside it, it is UP at once (R393). -/
def Stage.laneDeskew (s : Stage) (i : Nat) : Stage :=
  let s := (s.setLaneState i lnDeskew).putLane i { desk := s.order }
  let s := { s with order := s.order + 1 }
  if s.linkWidth (i / 4) = 1 ∨ s.inBond i = false then
    (s.setFld (lanePage i) (laneBase i + 0x1C) 12 8 0).setLaneState i lnUp
  else s

/-- The lane goes OFF (R390). -/
def Stage.laneOff (s : Stage) (i : Nat) : Stage :=
  ((s.setLaneState i lnOff).putLane i {}).setN (lanePage i) (laneBase i + 4) 0

/-- LANE_CFG was written over `old`: EN enables or disables the lane (R390). -/
def Stage.laneCfgWritten (s : Stage) (i old : Nat) : Stage :=
  if s.laneEn i && !bit old 31 then s.laneSeek i true
  else if !s.laneEn i && bit old 31 then s.laneOff i
  else s

/-- LANE_CTRL.RETRAIN (R398). -/
def Stage.laneRetrain (s : Stage) (i : Nat) : Stage :=
  let s := s.setLaneStat i 20 16 0
  if s.laneState i = lnOff then s else s.laneSeek i true

/-- The symbol that names the sender is published (R398). -/
def Stage.lanePeer (s : Stage) (i peer : Nat) : Stage :=
  s.setFld (lanePage i) (laneBase i + 0x1C) 7 0 (0x80 + peer % 16)

/-- An error-free TS1 (R387, R390, R391): `peer` its symbol 2, `ack` its ACK bit. -/
def Stage.ts1Rx (s : Stage) (i peer : Nat) (ack : Bool) : Stage :=
  let st := s.laneState i
  if st = lnOff ∨ isNetLane i then s
  else
    let s := s.lanePeer i peer
    let l := s.lane i
    let l := { l with ts1 := l.ts1 + 1, ts2 := 0, ack := if ack then l.ack + 1 else 0 }
    if st = lnSeek then (if 8 ≤ l.ts1 then s.laneLock i 8 else s.putLane i l)
    else if st = lnLock then
      (if 8 ≤ l.ack then (s.setLaneState i lnAgree).putLane i {} else s.putLane i l)
    else if 2 ≤ l.ts1 then s.laneLock i 0
    else s.putLane i l

/-- A TS2 (R390, R392): `peer` its symbol 2, `rate` the index of the rate it names. -/
def Stage.ts2Rx (s : Stage) (i peer rate : Nat) : Stage :=
  let st := s.laneState i
  if st = lnOff ∨ isNetLane i then s
  else
    let s := s.lanePeer i peer
    let l := s.lane i
    if st = lnAgree ∧ !l.changing then
      if !bit (s.laneCfg i 28 24) rate || bit (s.laneStat i 20 16) rate then s.putLane i { l with ts2 := 0, ts1 := 0 }
      else
        let n := if l.rate = rate then l.ts2 + 1 else 1
        if n < 8 then s.putLane i { l with ts2 := n, rate := rate, ts1 := 0 }
        else
          let s := s.setLaneStat i 23 21 rate
          if rate = 0 then s.laneDeskew i else s.putLane i { l with ts2 := 0, ts1 := 0, rate := rate, changing := true }
    else s.putLane i { l with ts1 := 0, ack := 0 }

/-- A 1 ms attempt in SEEK ends without LOCK (R391). -/
def Stage.attemptEnd (s : Stage) (i : Nat) : Stage :=
  let l := s.lane i
  if s.laneState i = lnSeek ∧ l.trying then
    let s := s.putLane i { l with trying := false }
    if s.laneStat i 15 8 = 10 then (s.setLaneStat i 29 29 1).laneEvent i 4 else s
  else s

/-- A wait in SEEK ends and the next attempt starts (R391). -/
def Stage.waitEnd (s : Stage) (i : Nat) : Stage :=
  if s.laneState i = lnSeek ∧ !(s.lane i).trying ∧ !isNetLane i then s.laneAttempt i else s

/-- 1 ms in LOCK or AGREE without progress (R390). -/
def Stage.trainTimeout (s : Stage) (i : Nat) : Stage :=
  if s.laneState i = lnLock ∨ (s.laneState i = lnAgree ∧ !(s.lane i).changing) then s.laneSeek i false else s

/-- No alignment within 100 µs of a rate change (R392). -/
def Stage.rateTimeout (s : Stage) (i : Nat) : Stage :=
  if s.laneState i = lnAgree ∧ (s.lane i).changing then
    (s.setLaneStat i 20 16 (Nat.lor (s.laneStat i 20 16) (2 ^ s.laneRate i))).laneLock i 0
  else s

/-- The symbol period of a rate, in tenths of a nanosecond (R396). -/
def symbolTenths (rate : Nat) : Nat := match rate with
  | 0 => 80 | 1 => 40 | 2 => 32 | 3 => 20 | _ => 16

/-- The baud of a rate. -/
def baudOf (rate : Nat) : Nat := match rate with
  | 0 => 1250000000 | 1 => 2500000000 | 2 => 3125000000 | 3 => 5000000000 | _ => 6250000000

/-- Alignment of the bond of link `n` completes; `lag` gives per lane of the link the symbols its comma came after the earliest
(R393). -/
def Stage.deskewDone (s : Stage) (n : Nat) (lag : List Nat) : Stage :=
  let ls := ((upTo 4).map (4 * n + ·)).filter fun i => s.laneState i == lnDeskew && s.inBond i
  let first := ls.foldl (fun m i => if (s.lane i).desk < (s.lane m).desk then i else m) (ls.headD 0)
  let rate := s.laneRate first
  let bad (i : Nat) : Bool := decide (400 < lag.getD (i % 4) 0 * symbolTenths rate) || s.laneRate i != rate
  let top := (ls.filter fun i => !bad i).foldl (fun m i => max m (lag.getD (i % 4) 0)) 0
  ls.foldl (fun s i =>
    if bad i then
      let a := s.laneStat i 15 8
      ((s.laneSeek i false).setLaneStat i 15 8 a).setLaneStat i 0 0 1 |>.laneEvent i 5
    else (s.setFld (lanePage i) (laneBase i + 0x1C) 12 8 (top - lag.getD (i % 4) 0)).setLaneState i lnUp) s

/-- Loss of signal is declared (R388, R390). -/
def Stage.los (s : Stage) (i : Nat) : Stage :=
  let st := s.laneState i
  if st = lnOff ∨ (s.laneStat i 28 28 = 1 ∧ !(s.lane i).exiting) then s
  else
    let s := (s.setLaneStat i 31 31 1).bump (lanePage i) (laneBase i + 0x14)
    if st = lnSeek then (if isNetLane i then s.laneEvent i 2 else s) else (s.laneEvent i 2).laneSeek i true

/-- The amplitude is back (R388). -/
def Stage.losClear (s : Stage) (i : Nat) : Stage := s.setLaneStat i 31 31 0

/-- Loss of lock is declared, with `errs` code errors counted since the last count (R385, R389, R390). -/
def Stage.lol (s : Stage) (i errs : Nat) : Stage :=
  let st := s.laneState i
  if st = lnOff then s
  else
    let s := s.bumpBy (lanePage i) (laneBase i + 0x10) errs
    let s := (s.setLaneStat i 30 30 1).bump (lanePage i) (laneBase i + 0x18)
    if st = lnSeek then (if isNetLane i then s.laneEvent i 3 else s) else (s.laneEvent i 3).laneSeek i true

/-- The electrical idle ordered set is recognised (R394, R397). -/
def Stage.eiosRx (s : Stage) (i : Nat) : Stage :=
  if s.laneState i = lnUp ∧ s.laneStat i 28 28 = 0 ∧ !isNetLane i then s.setLaneStat i 28 28 1 else s

/-- An idle receiver detects amplitude (R395). -/
def Stage.idleExit (s : Stage) (i : Nat) : Stage :=
  if s.laneStat i 28 28 = 1 then s.putLane i { s.lane i with exiting := true } else s

/-- No exit within IDLE_TIMEOUT (R395). -/
def Stage.idleTimeout (s : Stage) (i : Nat) : Stage :=
  if s.laneStat i 28 28 = 1 ∧ !(s.lane i).exiting then (s.putLane i { s.lane i with exiting := true }).los i else s

/-- A fast training burst ends after `pairs` consecutive error-free pairs (R392, R396). -/
def Stage.ftbEnd (s : Stage) (i pairs : Nat) : Stage :=
  let l := s.lane i
  if s.laneState i = lnAgree ∧ l.changing then (if 16 ≤ pairs then s.laneDeskew i else s)
  else if s.laneStat i 28 28 = 1 ∧ l.exiting then
    if 16 ≤ pairs then (s.setLaneStat i 28 28 0).putLane i { l with exiting := false }
    else s.lol i 0
  else s

/-- A LANE_CFG word of an Islos or NET lane is legal (R399). -/
def laneCfgLegal (net : Bool) (v : Nat) : Bool :=
  bit v 24 != (net && bit v 26) && (bit v 24 || net) && (!net || bits v 28 27 == 0 && !bit v 25)
    && decide (16 ≤ bits v 23 16 ∧ bits v 23 16 ≤ 128) && decide (100 ≤ bits v 15 0 ∧ bits v 15 0 ≤ 10000)

/-- A soft reset of a lane block: the lane to OFF, counts, LANE_INFO and RATE_FAIL cleared, and an enabled lane back in SEEK (R398). -/
def Stage.laneSoftReset (s : Stage) (i : Nat) : Stage :=
  let s := (s.laneOff i).clearRegs (lanePage i) (fun o => decide (laneBase i + 0x10 ≤ o ∧ o ≤ laneBase i + 0x1C))
  if s.laneEn i then s.laneSeek i true else s

/-- A soft reset of the ISL_LANES page. -/
def Stage.lanesSoftReset (s : Stage) : Stage := (upTo 16).foldl Stage.laneSoftReset s

end Sys2Proof.Machine
end

