-- ==== Sys2Proof/Machine/Port.lean ====
section
/-!
DEFINITION. The serial audio ports, the clock groups and the master-clock outputs (R326 to R359).
-/
namespace Sys2Proof.Machine

/-- The page of PORT_p. -/
def pPort (p : Nat) : Nat := 0x200 + p

def Stage.port (s : Stage) (p : Nat) : PortSt := Tab.get {} s.ports p
def Stage.putPort (s : Stage) (p : Nat) (v : PortSt) : Stage := { s with ports := Tab.put {} s.ports p v }

/-- The fast-rate multiple M, 0 when the fast domain is off (R230). -/
def Stage.fastM (s : Stage) : Nat := let m := s.fld 0x2E0 0x084 1 0; if m = 0 then 0 else 2 ^ m

/-! ### Clock groups -/

def Stage.cg (s : Stage) (g : Nat) : ClkGroup := Tab.get {} s.groups g
def Stage.putCg (s : Stage) (g : Nat) (v : ClkGroup) : Stage := { s with groups := Tab.put {} s.groups g v }

/-- Fields of a CG_CFG word (R356). -/
def cgMaster (v : Nat) : Bool := bit v 31
def cgDomain (v : Nat) : Nat := bits v 29 28
def cgSlots (v : Nat) : Nat := let n := bits v 12 8; if n = 0 then 32 else n
def codeBits (c : Nat) : Nat := if c = 0 then 16 else if c = 1 then 24 else 32
def cgSlotBits (v : Nat) : Nat := codeBits (bits v 1 0)

def Stage.cgCfg (s : Stage) (g : Nat) : Nat := s.regN (pPort g) 0x0C0

/-- The frame rate of a group (R327). -/
def Stage.cgFrameRate (s : Stage) (v rate : Nat) : Nat :=
  match cgDomain v with
  | 0 => s.fs
  | 1 => s.fastM * s.fs
  | _ => rate

/-- A master group's bit clock is within 49.152 MHz (R328). -/
def Stage.bclkOk (s : Stage) (v rate : Nat) : Bool :=
  !cgMaster v || decide (cgSlots v * cgSlotBits v * s.cgFrameRate v rate ≤ 49152000)

/-- A CG_CFG word is legal: codes, slots of the format and bit clock (R328, R329, R356). -/
def Stage.cgLegal (s : Stage) (v rate : Nat) : Bool :=
  bits v 29 28 != 3 && bits v 25 24 != 3 && bits v 1 0 != 3 && bits v 12 8 != 1
    && (bits v 25 24 == 2 || bits v 12 8 == 2) && s.bclkOk v rate

/-- The drive of PORT_p for the frame of sample `k` (R351). -/
def Stage.driveFor (s : Stage) (p k : Nat) : Bool :=
  if s.roleCfg = 0 then true
  else match (s.port p).drives.find? (fun e => decide (e.1 + s.fld (pPort p) 0x094 20 16 ≤ k)) with
    | some e => e.2
    | none => false

/-- A change of drive of every port at boundary `n` (R351). -/
def Stage.setDrives (s : Stage) (on : Bool) (n : Nat) : Stage :=
  (upTo 32).foldl (fun s p =>
    let ps := s.port p
    s.putPort p { ps with drives := ((n, on) :: ps.drives).take 8 }) s

/-- A master group drives its clock outputs (R331, R352). -/
def Stage.cgDrives (s : Stage) (g : Nat) : Bool :=
  cgMaster (s.cgCfg g) && s.datum.everLocked && !(s.cg g).stopped
    && (!bit (s.cgCfg g) 27 || s.driveFor g s.datum.index)

/-- CLK_OK (R330). -/
def Stage.clkOk (s : Stage) (g : Nat) : Bool :=
  if cgMaster (s.cgCfg g) then s.cgDrives g else (s.cg g).last.isSome

/-- MEAS_RATE: 32 frames over the time between the first and the last of 33 edges, to the nearest hertz. -/
def Stage.measRate (s : Stage) (g : Nat) : Nat :=
  let e := (s.cg g).edges
  match e.head?, e.getLast? with
  | some b, some a => if e.length = 33 ∧ a < b then (2 * 32 * unitsPerSec + (b - a)) / (2 * (b - a)) else 0
  | _, _ => 0

/-- CG_STAT (R357). -/
def Stage.cgStat (s : Stage) (g : Nat) : Nat :=
  (if s.clkOk g then 2 ^ 31 else 0) + (if (s.cg g).stopped then 2 ^ 30 else 0) + (if s.cgDrives g then 2 ^ 29 else 0)
    + s.measRate g % 2 ^ 18

/-- An FSYNC leading edge of group `g` at datum `d`. -/
def Stage.cgEdge (s : Stage) (g d : Nat) : Stage :=
  let c := s.cg g
  if c.last = some d then s else s.putCg g { c with last := some d, edges := (d :: c.edges).take 33 }

/-! ### Master clocks (R332) -/

def Stage.mclkFreq (s : Stage) (n : Nat) : Option Nat :=
  let v := s.regN (pPort n) 0x0CC
  let mult := 128 * 2 ^ bits v 1 0
  if bits v 19 16 = 0 then some (mult * (if s.rateCode % 2 = 0 then 44100 else 48000))
  else
    let g := bits v 18 16
    if cgMaster (s.cgCfg g) then some (mult * s.cgFrameRate (s.cgCfg g) (s.fld (pPort g) 0x0C4 17 0)) else none

/-- MCLK_n is judged again: RUN follows, and a clock that has to be held low raises MCLK_RANGE. -/
def Stage.mclkJudge (s : Stage) (n : Nat) (written : Bool) : Stage :=
  let en := s.flag (pPort n) 0x0CC 31
  let was := s.flag (pPort n) 0x0CC 30
  let ok := match s.mclkFreq n with
    | some f => decide (f ≤ 49152000)
    | none => false
  let s1 := s.setFlag (pPort n) 0x0CC 30 (en && ok)
  s1.raiseIf (en && !ok && (was || written)) (pPort n) 9

/-- Every MCLK is judged again. -/
def Stage.mclkJudgeAll (s : Stage) : Stage := (upTo 4).foldl (fun s n => s.mclkJudge n false) s

/-! ### Ports -/

/-- Fields of PORT_CFG (R354). -/
def Stage.portGroup (s : Stage) (p : Nat) : Nat := s.fld (pPort p) 0x080 26 24
def Stage.portBits (s : Stage) (p : Nat) : Nat := codeBits (s.fld (pPort p) 0x080 21 20)
def Stage.portDomain (s : Stage) (p : Nat) : Nat := cgDomain (s.cgCfg (s.portGroup p))
def Stage.portOn (s : Stage) (p : Nat) : Bool := s.flag (pPort p) 0x00C 0
def Stage.portSlots (s : Stage) (p : Nat) : Nat := cgSlots (s.cgCfg (s.portGroup p))

/-- Frames per engine sample of a port (R348). -/
def Stage.portM (s : Stage) (p : Nat) : Nat := if s.portDomain p = 1 then max 1 s.fastM else 1

/-- RX and TX of PRESENT_OFFSET (R341). -/
def Stage.portRX (s : Stage) (p : Nat) : Nat := s.fld (pPort p) 0x094 4 0
def Stage.portTX (s : Stage) (p : Nat) : Nat := s.fld (pPort p) 0x094 20 16

/-- The edge phase ψ (R340). -/
def Stage.psi (s : Stage) (p : Nat) : Int := sext 8 (s.regN (pPort p) 0x09C)

/-- N_F (R346). -/
def Stage.fadeFrames (s : Stage) (p : Nat) : Nat := (2 * s.fld (pPort p) 0x098 6 0 * s.fs + 4000) / 8000

/-- SLOT_MASK in effect for the frame that carries sample `n` (R338). -/
def Stage.maskFor (s : Stage) (p n : Nat) : Nat :=
  match (s.port p).masks.find? (fun e => decide (e.1 ≤ n)) with
  | some e => e.2
  | none => match (s.port p).masks.getLast? with
    | some e => e.2
    | none => s.regN (pPort p) 0x088

/-- A new mask is in effect from boundary `c` on (R338). -/
def Stage.setMask (s : Stage) (p c mask : Nat) : Stage :=
  let ps := s.port p
  let old := if ps.masks = [] then [(0, s.regN (pPort p) 0x088)] else ps.masks
  (s.putPort p { ps with masks := ((c, mask) :: old.filter (fun e => decide (e.1 < c))).take 40 }).setN (pPort p) 0x088 mask

/-- The compaction table (R337): the channel of an active slot. -/
def compact (mask slot : Nat) : Option Nat := if bit mask slot then some (popCount slot mask) else none

/-- The frame nearest to datum `d` and whether its window holds `d`, with phase `psi` (R340, R348). -/
def Stage.frameNear (s : Stage) (p : Nat) (psi : Int) (d : Int) : Nat × Bool × Int :=
  let m := s.portM p
  let x : Int := 256 * m * d * s.fs - psi * m * unitsPerSec
  let f := Int.fdiv (x + 128 * unitsPerSec) (256 * unitsPerSec)
  let off := x - 256 * f * unitsPerSec
  (f.toNat, decide (off.natAbs ≤ 96 * unitsPerSec), off)

def Stage.dir (s : Stage) (p : Nat) (tx : Bool) : PortDir := if tx then (s.port p).tx else (s.port p).rx
def Stage.putDir (s : Stage) (p : Nat) (tx : Bool) (d : PortDir) : Stage :=
  s.putPort p (if tx then { s.port p with tx := d } else { s.port p with rx := d })

/-- A direction enters ACQUIRE; a slave group learns ψ afresh (R340, R346). -/
def Stage.enterAcq (s : Stage) (p : Nat) (tx : Bool) : Stage :=
  let s := s.putDir p tx { st := 1 }
  let s := if tx then s else s.putPort p { s.port p with rcvd := [] }
  if cgMaster (s.cgCfg (s.portGroup p)) then s.setN (pPort p) 0x09C 0
  else s.putPort p { s.port p with learning := true, phases := [] }

/-- A direction runs: the port is enabled and may run, and the direction is enabled (R333). -/
def Stage.dirWanted (s : Stage) (p : Nat) (tx : Bool) : Bool :=
  s.portOn p && !(s.port p).barred && s.flag (pPort p) 0x080 (if tx then 30 else 31)

/-- One direction follows its enables: OFF at once, or ACQUIRE (R346, R347, R349). -/
def Stage.dirFollow (p : Nat) (s : Stage) (tx : Bool) : Stage :=
  if s.dirWanted p tx && s.portDomain p != 2 then (if (s.dir p tx).st = 0 then s.enterAcq p tx else s)
  else
    let s := s.putDir p tx {}
    if tx then s.setFlag (pPort p) 0x084 8 false else s.putPort p { s.port p with rcvd := [] }

/-- Both directions follow their enables. -/
def Stage.portFollow (s : Stage) (p : Nat) : Stage := [false, true].foldl (Stage.dirFollow p) s

/-- CTRL.ENABLE of a port was written (R333, R346). -/
def Stage.portEnabled (s : Stage) (p : Nat) (was : Bool) : Stage :=
  let rise := s.portOn p && !was
  let format := decide (cgSlotBits (s.cgCfg (s.portGroup p)) < s.portBits p)
  let domain := decide (p < 28) && s.portDomain p == 1
  let s := if rise then
      ((s.putPort p { s.port p with barred := format || domain, edge := none }).raiseIf format (pPort p) 6).raiseIf domain (pPort p) 5
    else s
  s.portFollow p

/-- A fault of a direction, first affecting frame `f` (R345 to R347). -/
def Stage.portFault (s : Stage) (p : Nat) (tx : Bool) (f cause : Nat) : Stage :=
  let d := s.dir p tx
  if d.st = 0 ∨ d.fade.isSome then s
  else match d.live with
    | none => s.putDir p tx { d with clean := none }
    | some (f0, nR) =>
      let j := f - f0
      let (step, n) := if j < nR then (nR - j + 1, nR) else (1, s.fadeFrames p)
      let s := s.putDir p tx { d with st := 4, fade := some (f, step, n), held := if j = 0 then [] else d.last, clean := none }
      ((s.setFld (pPort p) 0x084 14 12 cause).bump (pPort p) (if tx then 0x0D4 else 0x0D0)).raise (pPort p) (if tx then 1 else 0)

/-- The fault in both directions. -/
def Stage.portFaults (s : Stage) (p f cause : Nat) : Stage := (s.portFault p false f cause).portFault p true f cause

/-- A gain with 32 fraction bits applied to a sample, half to even; 1.0 leaves it unchanged (R225, R227, R346). -/
def applyGain (v : Word) (g : Int) : Word :=
  if g = 2 ^ 32 then v else Word.ofInt (roundHalfEven (v.toInt * g) (2 ^ 32))

/-- The ramp-in gain of frame `f` of a direction (R346). -/
def PortDir.liveGain (d : PortDir) (f : Nat) : Int :=
  match d.live with
  | none => 0
  | some (f0, n) => if f < f0 then 0 else raisedCos true (f - f0 + 1) n

/-- The fade gain of frame `f` when it belongs to a fade. -/
def PortDir.fadeGain (d : PortDir) (f : Nat) : Option Int :=
  match d.fade with
  | some (ff, step, n) => if ff ≤ f then some (raisedCos false (step + (f - ff)) n) else none
  | none => none

/-- What slot `slot` of the received frame `f` presents (R334, R341, R346). -/
def Stage.rxSlot (s : Stage) (p f slot : Nat) : Word :=
  let d := s.dir p false
  if d.st = 0 then 0#32
  else match d.fadeGain f with
    | some g => applyGain (Tab.get 0#32 d.held slot) g
    | none => applyGain (Tab.get 0#32 (Tab.get [] (s.port p).rcvd f) slot) (d.liveGain f)

/-- The value of a received slot: its first DATA_BITS bits at the top of the word (R334). -/
def rxValue (slotBits dataBits raw : Nat) : Word :=
  Word.ofNat (raw % 2 ^ slotBits / 2 ^ (slotBits - dataBits) * 2 ^ (32 - dataBits))

/-- A transmitted value rounded to DATA_BITS and saturated (R334). -/
def txValue (dataBits : Nat) (v : Word) : Word :=
  Word.ofInt (satI dataBits (roundHalfEven v.toInt (2 ^ (32 - dataBits))) * 2 ^ (32 - dataBits))

/-- The data of a received frame, by slot. -/
def Stage.rxData (s : Stage) (p : Nat) (slots : List Nat) : Tab Word :=
  let sb := cgSlotBits (s.cgCfg (s.portGroup p))
  (upTo (s.portSlots p)).foldl (fun t i => Tab.put 0#32 t i (rxValue sb (s.portBits p) (slots.getD i 0))) []

/-- Frame `e` has been received whole: it is kept for its presentation (R341). -/
def Stage.rxGood (s : Stage) (p e : Nat) (slots : List Nat) : Stage :=
  let ps := s.port p
  match ps.rx.live with
  | some (f0, _) =>
    if f0 ≤ e ∧ ps.rx.fade = none then
      let v := s.rxData p slots
      s.putPort p { ps with rcvd := Tab.put [] ps.rcvd e v, rx := { ps.rx with last := v } }
    else s
  | none => s

/-- What ends with the frame before an edge or a missing edge: it is kept, or its bit-clock count was wrong (R345). -/
def Stage.frameClose (s : Stage) (p bclks : Nat) (slots : List Nat) : Stage :=
  match (s.port p).edge with
  | none => s
  | some e =>
    let v := s.cgCfg (s.portGroup p)
    if !cgMaster v && bclks != cgSlots v * cgSlotBits v then
      let s := s.portFault p false e 3
      let d := s.dir p false
      if d.live = none then s.putDir p false { d with clean := some (e + 1) } else s
    else s.rxGood p e slots

/-- The phase learnt: the mean of eight, ties away from zero, in 1/256 of the engine period (R340). -/
def meanPhase (l : List Int) (m : Nat) : Int :=
  let t := l.foldl (· + ·) 0
  let q := roundHalfUp (t.natAbs : Int) (8 * m * unitsPerSec)
  clampI (-128) 127 (if t < 0 then -q else q)

/-- One leading edge while ψ is being learnt. -/
def Stage.learn (s : Stage) (p : Nat) (d : Int) : Stage :=
  let ps := s.port p
  let (_, _, off) := s.frameNear p 0 d
  let l := ps.phases ++ [off]
  if l.length < 8 then s.putPort p { ps with phases := l }
  else (s.putPort p { ps with phases := [], learning := false }).setN (pPort p) 0x09C (toBits 8 (meanPhase l (s.portM p)))

/-- What the output patch handed on for sample `n`; none while it has not. In a mode in which it is stopped, zeros (R336). -/
def Stage.handedAt (s : Stage) (n : Nat) : Option Handed :=
  if !s.patch.patchOn || decide (n < s.patch.patchFrom) then some { n := n, vals := [], loud := [], fast := [] }
  else s.patch.handed.find? (fun h => h.n == n)

/-- The value handed on for slot `slot` of frame `f` (R341, R348). -/
def Stage.txHanded (s : Stage) (p f slot : Nat) (h : Handed) : Word :=
  if s.portDomain p = 1 then (Tab.get [] h.fast (32 * (p - 28) + slot)).getD (f % s.portM p) 0#32
  else Tab.get 0#32 h.vals (32 * p + slot)

/-- The outputs of one transmitted frame (R334, R335, R346, R350, R351). -/
def Stage.txFrame (s : Stage) (p f : Nat) (h : Handed) : Stage :=
  let d := s.dir p true
  let mask := s.maskFor p h.n
  let n := s.portSlots p
  let active := (upTo n).filter (bit mask)
  let quiet := s.flag (pPort p) 0x080 8 && d.st == 3 && active.all (fun i => !h.loud.contains (32 * p + i))
  let vals := active.foldl (fun t i => Tab.put 0#32 t i (s.txHanded p f i h)) ([] : Tab Word)
  let value (i : Nat) : Word := match d.fadeGain f with
    | some g => applyGain (Tab.get 0#32 d.held i) g
    | none => applyGain (Tab.get 0#32 vals i) (d.liveGain f)
  let slots := (upTo n).map fun i =>
    if !s.driveFor p (f / s.portM p) then SlotOut.hiZ
    else if quiet then .low
    else if bit mask i then .word (txValue (s.portBits p) (value i))
    else if s.flag (pPort p) 0x080 16 then .hiZ else .low
  let s := if d.fade = none then s.putDir p true { d with last := vals } else s
  (s.setFlag (pPort p) 0x084 8 quiet).emit (.tdm p f slots)

/-- Frame `f` is assigned to its sample: it counts towards a whole block, and the direction locks at the first frame of the next
block (R346). -/
def Stage.dirFrame (s : Stage) (p f : Nat) (tx : Bool) : Stage :=
  let d := s.dir p tx
  if d.st = 1 ∧ d.live = none then
    match d.clean with
    | some c =>
      if f % 32 = 0 ∧ c + 32 ≤ f then
        let s := s.putDir p tx { d with live := some (f, s.fadeFrames p) }
        if tx then (s.putDir p tx { s.dir p tx with st := 2 }).raise (pPort p) 3 else s
      else s
    | none => s.putDir p tx { d with clean := some f }
  else s

/-- The transmit side of frame `f`: the handoff is on time, or a HANDOFF fault (R341, R345). -/
def Stage.txEdge (s : Stage) (p f : Nat) : Stage :=
  if (s.dir p true).st = 0 then s
  else
    let n := f / s.portM p - s.portTX p
    match s.handedAt n with
    | some h => (s.dirFrame p f true).txFrame p f h
    | none => (s.portFault p true f 5).txFrame p f { n := n, vals := [], loud := [], fast := [] }

/-- A late output patch reaches its done point and hands on what it held (R31, R48). -/
def Stage.outDone (s : Stage) (d : Nat) : Stage :=
  match s.patch.outHeld with
  | [] => s
  | l =>
    { s with patch := { s.patch with outHeld := [], handed := (l.reverse ++ s.patch.handed).take 256 },
             blocks := Tab.put {} s.blocks 129 { (Tab.get {} s.blocks 129 : Blk) with busy := false, done := some d } }

/-- A port time-stamps an FSYNC leading edge at raw `t` (R340 to R346). `bclks` and `slots` are the bit clocks and the received
slots of the frame the edge ends; `done` the done point of the output patch when it has come about since the last boundary. -/
def Stage.fsyncEdge (s : Stage) (p t bclks : Nat) (slots : List Nat) (done : Option Nat) : Stage :=
  let s := s.tick t
  let s := match done with
    | some d => s.outDone d
    | none => s
  let g := s.portGroup p
  let d := s.datum.at t
  let master := cgMaster (s.cgCfg g)
  let s := if master && !s.cgDrives g then s else s.cgEdge g d.toNat
  if (master && !s.cgDrives g) || !s.portOn p || (s.port p).barred then s
  else
    let learning := (s.port p).learning && !master
    let s := s.frameClose p bclks slots
    let idle (tx : Bool) : Bool := decide ((s.dir p tx).st ≤ 1) && (s.dir p tx).live.isNone
    let s := if learning then s.learn p d else s
    if learning && idle false && idle true then { s with ports := s.ports }.putPort p { s.port p with edge := none }
    else
      let (f, inWin, _) := s.frameNear p (s.psi p) d
      let prev := (s.port p).edge
      let nextF := match prev with
        | some e => e + 1
        | none => f
      if !inWin || decide (f < nextF) then
        (s.portFaults p nextF 2).putPort p { (s.portFaults p nextF 2).port p with edge := none }
      else
        let s := if nextF < f then s.portFaults p nextF 1 else s
        let s := s.putPort p { s.port p with edge := some f }
        let m := s.portM p
        let s := if f % m = 0 ∧ f / m % 32 = 0 then s.putPort p { s.port p with blkAt := (d.toNat, f / m), blkSet := true, rxCount := 1 }
          else s.putPort p { s.port p with rxCount := (s.port p).rxCount + 1 }
        let s := if learning && idle false then s else s.dirFrame p f false
        if learning && idle true then s else s.txEdge p f

/-- The window of the next frame ends with no leading edge in it (R345): MISSING. `slots` are those of the frame before. -/
def Stage.windowEnd (s : Stage) (p t bclks : Nat) (slots : List Nat) : Stage :=
  let s := s.tick t
  match (s.port p).edge with
  | none => s
  | some e =>
    let m := s.portM p
    let x : Int := 256 * m * s.datum.at t * s.fs - s.psi p * m * unitsPerSec
    if x - 256 * (e + 1) * unitsPerSec ≤ 96 * unitsPerSec then s
    else
      let s := s.frameClose p bclks slots
      let s := s.portFaults p (e + 1) 1
      s.putPort p { s.port p with edge := none }

/-- The ports on group `g`. -/
def Stage.portsOn (s : Stage) (g : Nat) : List Nat := (upTo 32).filter fun p => s.portGroup p == g

/-- Every port of group `g` takes a CLOCK fault (R328, R330). -/
def Stage.clockFault (s : Stage) (g : Nat) : Stage :=
  (s.portsOn g).foldl (fun s p =>
    let e := (s.port p).edge
    let f := match e with
      | some e => e + 1
      | none => (s.frameNear p (s.psi p) s.now).1
    let s := s.portFaults p f 4
    s.putPort p { s.port p with edge := none, phases := [] }) s

/-- No leading edge of a slave group for four frame periods (R330). -/
def Stage.clkLost (s : Stage) (g t : Nat) : Stage :=
  let s := s.tick t
  if cgMaster (s.cgCfg g) then s
  else match (s.cg g).last with
    | none => s
    | some d =>
      let rate := s.cgFrameRate (s.cgCfg g) (s.fld (pPort g) 0x0C4 17 0)
      if s.now * rate < d * rate + 4 * unitsPerSec then s
      else ((s.putCg g { s.cg g with last := none, edges := [] }).raise (pPort g) 7).clockFault g

/-- A group is judged again after a change of the engine rate or of M (R328). -/
def Stage.cgJudge (s : Stage) (g : Nat) : Stage :=
  if (s.cg g).stopped || s.bclkOk (s.cgCfg g) (s.fld (pPort g) 0x0C4 17 0) then s
  else ((s.putCg g { s.cg g with stopped := true }).raise (pPort g) 8).clockFault g

/-- The clock groups and master clocks follow a change of the engine rate or of M. -/
def Stage.clocksJudge (s : Stage) : Stage := ((upTo 8).foldl Stage.cgJudge s).mclkJudgeAll

/-- CG_CFG or CG_RATE was written: the group starts afresh (R328, R330, R332). -/
def Stage.cgWritten (s : Stage) (g : Nat) : Stage := (s.putCg g {}).mclkJudgeAll

/-- The first frame presented in the sample that boundary `b` opens. -/
def Stage.presented (s : Stage) (p b : Nat) : Int := ((b : Int) - s.portRX p) * s.portM p

/-- A direction has reached frame `f` at raw `t`: by presentation for receive, by its frames for transmit. -/
def Stage.dirReached (s : Stage) (p : Nat) (tx : Bool) (f t : Nat) : Bool :=
  if tx then decide (f ≤ (s.frameNear p (s.psi p) (s.datum.at t)).1)
  else decide ((f : Int) < s.presented p s.datum.index + s.portM p)

/-- N_F frames of RAMP_IN have passed (R346). -/
def Stage.portRampEnd (s : Stage) (p : Nat) (tx : Bool) (t : Nat) : Stage :=
  let s := s.tick t
  let d := s.dir p tx
  match d.st, d.live with
  | 2, some (f0, n) => if s.dirReached p tx (f0 + n) t then s.putDir p tx { d with st := 3 } else s
  | _, _ => s

/-- N_F frames of FADE have passed (R346). -/
def Stage.portFadeEnd (s : Stage) (p : Nat) (tx : Bool) (t : Nat) : Stage :=
  let s := s.tick t
  match (s.dir p tx).fade with
  | some (ff, step, n) => if s.dirReached p tx (ff + (n + 1 - step)) t then s.enterAcq p tx else s
  | none => s

/-- A boundary at a port: a locked receive direction shows RAMP_IN with the first frame it presents (R346), and frames that have
been presented are dropped. -/
def Stage.portBoundary (b : Nat) (s : Stage) (p : Nat) : Stage :=
  let d := s.dir p false
  let s := match d.st, d.live with
    | 1, some (f0, _) =>
      if (f0 : Int) < s.presented p b + s.portM p then (s.putDir p false { d with st := 2 }).raise (pPort p) 2 else s
    | _, _ => s
  let ps := s.port p
  if ps.rcvd = [] then s
  else s.putPort p { ps with rcvd := Tab.keep (fun f => decide (s.presented p b - 2 * s.portM p ≤ (f : Int))) ps.rcvd }

/-- A soft reset of a port (R353). -/
def Stage.portSoftReset (s : Stage) (p : Nat) : Stage :=
  let s := s.putPort p { s.port p with rx := {}, tx := {}, rcvd := [], edge := none, learning := false, phases := [] }
  let s := (s.clearRegs (pPort p) (fun o => o == 0x084 || o == 0x0D0 || o == 0x0D4))
  (s.setMask p s.datum.index (s.regN (pPort p) 0x08C)).portFollow p

/-! ### Registers -/

/-- RX_STATE or TX_STATE (R349, R355). -/
def Stage.dirState (s : Stage) (p : Nat) (tx : Bool) : Nat :=
  if s.portDomain p = 2 then (if s.dirWanted p tx && s.clkOk (s.portGroup p) then 3 else 0) else (s.dir p tx).st

/-- IN_DELAY or OUT_DELAY (R342). -/
def Stage.portDelay (s : Stage) (p : Nat) (tx : Bool) : Nat :=
  if s.portDomain p = 2 ∨ ((s.dir p tx).st ≠ 2 ∧ (s.dir p tx).st ≠ 3) then 0
  else toBits 32 (if tx then (s.portTX p : Int) * 256 + s.psi p else (s.portRX p : Int) * 256 - s.psi p)

/-- The computed registers of a PORT page. -/
def Stage.portRead (s : Stage) (p off : Nat) : Option Nat :=
  let ps := s.port p
  if off = 0x084 then
    some (s.dirState p false * 2 ^ 24 + s.dirState p true * 2 ^ 20 + s.fld (pPort p) 0x084 14 12 * 2 ^ 12
      + (if s.flag (pPort p) 0x084 8 then 2 ^ 8 else 0)
      + (if s.dirWanted p true && s.driveFor p s.datum.index then 16 else 0) + s.portDomain p)
  else if off = 0x0A0 then some (s.portDelay p false)
  else if off = 0x0A4 then some (s.portDelay p true)
  else if off = 0x0A8 then some (if ps.blkSet then ps.blkAt.1 % 65536 else 0)
  else if off = 0x0AC then some (ps.blkLatch.1 / 65536 % 1000000000)
  else if off = 0x0B0 then some (ps.blkLatch.1 / unitsPerSec % 2 ^ 32)
  else if off = 0x0B4 then some (ps.blkLatch.1 / unitsPerSec / 2 ^ 32)
  else if off = 0x0B8 then some (ps.blkLatch.2 % 2 ^ 32)
  else if off = 0x0BC then some (ps.blkLatch.2 / 2 ^ 32)
  else if off = 0x0C8 then (if p < 8 then some (s.cgStat p) else none)
  else if off = 0x0DC then some (match compact (s.regN (pPort p) 0x088) (s.fld (pPort p) 0x0D8 4 0) with
    | some c => c
    | none => 2 ^ 31)
  else none

/-- A read of BLK_FRAC latches the block set (R343). -/
def Stage.blkLatch (s : Stage) (p : Nat) : Stage := s.putPort p { s.port p with blkLatch := (s.port p).blkAt }

end Sys2Proof.Machine
end

