-- ==== Sys2Proof/Machine/Bridge.lean ====
section
/-!
DEFINITION. The asynchronous bridges (R235 to R248). The converted samples themselves are free values: the spec bounds their
quality (R239) and fixes no filter.
-/
namespace Sys2Proof.Machine

/-- The page of BRIDGE_b. -/
def pBridge (b : Nat) : Nat := 0x228 + b

def Stage.bridge (s : Stage) (b : Nat) : BridgeSt := Tab.get {} s.bridges b
def Stage.putBridge (s : Stage) (b : Nat) (v : BridgeSt) : Stage := { s with bridges := Tab.put {} s.bridges b v }

/-- BR_STAT.LOCK: 0 NO_CLOCK, 1 ACQUIRE, 2 LOCKED, 3 RANGE (R246). -/
def Stage.brState (s : Stage) (b : Nat) : Nat := s.fld (pBridge b) 0x084 1 0

/-- A bridge leaves LOCKED's registers behind: RATIO and the delays read zero (R240, R246). -/
def Stage.setBr (s : Stage) (b st : Nat) : Stage :=
  let s := s.setN (pBridge b) 0x084 st
  if st = 2 then s else ((s.setN (pBridge b) 0x088 0).setN (pBridge b) 0x090 0).setN (pBridge b) 0x094 0

def Stage.brGroup (s : Stage) (b : Nat) : Nat := s.fld (pBridge b) 0x080 18 16
def Stage.brForeign (s : Stage) (b : Nat) : Bool := cgDomain (s.cgCfg (s.brGroup b)) == 2
def Stage.brOn (s : Stage) (b : Nat) : Bool := s.flag (pBridge b) 0x00C 0

/-- N of a fade or ramp-in on the engine side (R237). -/
def Stage.brN (s : Stage) (b : Nat) : Nat := (2 * s.fld (pBridge b) 0x080 6 0 * s.fs + 4000) / 8000

/-- A locked bridge leaves for state `to`, fading out first (R236, R237). -/
def Stage.brLeave (s : Stage) (b dst : Nat) : Stage :=
  let br := s.bridge b
  (s.putBridge b { br with fade := some { down := true, j := 0, n := s.brN b }, after := dst, window := none }).bump (pBridge b) 0x0A8

/-- The bridge is fading out. -/
def BridgeSt.leaving (br : BridgeSt) : Bool := match br.fade with
  | some h => h.down
  | none => false

/-- No edge for 250 µs (R236). -/
def Stage.brGap (s : Stage) (b : Nat) : Stage :=
  if s.brState b = 2 then (if (s.bridge b).leaving then s.putBridge b { s.bridge b with after := 0 } else (s.brLeave b 0).raise (pBridge b) 1)
  else (s.setBr b 0).putBridge b { s.bridge b with window := none }

/-- Edges have been present without a gap for 2 ms (R235, R236). -/
def Stage.brPresent (s : Stage) (b : Nat) : Stage :=
  if s.brOn b && s.brForeign b && s.brState b == 0 then (s.setBr b 1).putBridge b { s.bridge b with window := none } else s

/-- A rate in millihertz lies in 8 kHz to 216 kHz. -/
def brInRange (r : Nat) : Bool := decide (8000000 ≤ r ∧ r ≤ 216000000)

/-- RATIO in Q4.28 for a foreign rate in millihertz (R240). -/
def Stage.ratioWord (s : Stage) (r : Nat) : Nat := (2 * r * 2 ^ 28 + s.fs * 1000) / (2 * s.fs * 1000)

/-- A 16 ms window ends with the foreign rate `r` in millihertz (R236). -/
def Stage.brWindow (s : Stage) (b r : Nat) : Stage :=
  let br := s.bridge b
  let st := s.brState b
  if st = 0 ∨ (st = 2 ∧ br.leaving) then s
  else
    let s := s.setN (pBridge b) 0x08C ((2 * r + 1000) / 2000 % 2 ^ 18)
    if st = 1 then
      if !brInRange r then ((s.setBr b 3).putBridge b { br with window := none }).raise (pBridge b) 3
      else match br.window with
        | some w =>
          if ((r : Int) - w).natAbs * 1000000 ≤ 10 * w then
            let h : HalfDip := { down := false, j := 0, n := s.brN b }
            ((s.setBr b 2).putBridge b { br with window := none, ratio := r, last := [], fade := some h }).raise (pBridge b) 0
          else s.putBridge b { br with window := some r }
        | none => s.putBridge b { br with window := some r }
    else if st = 2 then
      if ((r : Int) - br.ratio).natAbs * 1000000 > 1000 * br.ratio then (s.brLeave b 1).raise (pBridge b) 2 else s
    else if brInRange r then (s.setBr b 1).putBridge b { br with window := none } else s

/-- The 1 ms update of a locked bridge: foreign rate `r` in millihertz, and the FIFO's offsets from its centre in 1/256 engine
sample (R240). -/
def Stage.brRatio (s : Stage) (b r : Nat) (inOff outOff : Int) : Stage :=
  if s.brState b ≠ 2 ∨ (s.bridge b).leaving ∨ r = 0 then s
  else
    let fe := s.fs * 1000
    let lo := min fe r
    let half (a d : Nat) : Int := (2 * a + d) / (2 * d)
    let i := half (256 * (24 * fe * r + 16 * fe * lo)) (lo * r) + inOff
    let o := half (256 * (24 * fe + 16 * lo)) lo + outOff
    ((((s.putBridge b { s.bridge b with ratio := r }).setN (pBridge b) 0x088 (s.ratioWord r)).setN (pBridge b) 0x090
      (toBits 24 i)).setN (pBridge b) 0x094 (toBits 24 o))

/-- A fade-out or ramp-in has reached its end (R237). -/
def Stage.brFadeEnd (s : Stage) (b : Nat) : Stage :=
  let br := s.bridge b
  match br.fade with
  | some h =>
    if h.j < h.n then s
    else if h.down then (s.setBr b br.after).putBridge b { br with fade := none, window := none, last := [] }
    else s.putBridge b { br with fade := none }
  | none => s

/-- BR_CFG was written: back to NO_CLOCK, fading out first if it was LOCKED (R246). -/
def Stage.brCfgWritten (s : Stage) (b : Nat) : Stage :=
  if s.brState b = 2 then
    (if (s.bridge b).leaving then s.putBridge b { s.bridge b with after := 0 } else s.brLeave b 0)
  else (s.setBr b 0).putBridge b { s.bridge b with window := none }

/-- CTRL.ENABLE of a bridge was written (R235, R236, R246). -/
def Stage.brEnabled (s : Stage) (b : Nat) (was : Bool) : Stage :=
  let s1 := (s.setBr b 0).putBridge b { s.bridge b with fade := none, window := none, last := [] }
  if s.brOn b then (if was then s else s1.raiseIf (!s.brForeign b) (pBridge b) 4)
  else if s.brState b = 2 then s1.bump (pBridge b) 0x0A8 else s1

/-- A map entry carries audio: enabled, on a port of the bridge's group, within the port's mask (R235). -/
def Stage.brMapped (s : Stage) (b e : Nat) : Bool :=
  let p := bits e 9 5
  bit e 31 && s.portGroup p == s.brGroup b && bit (s.regN (pPort p) 0x088) (bits e 4 0)

/-- One in-channel of a locked bridge in one sample (R235, R237). -/
def Stage.brChannel (b : Nat) (s : Stage) (c : Nat) : Stage :=
  let br := s.bridge b
  if !s.brMapped b (Tab.get 0 br.inMap c) then s
  else
    let put (s : Stage) (v : Word) : Stage := { s with patch := { s.patch with brIn := Tab.put 0#32 s.patch.brIn (64 * b + c) v } }
    match br.fade with
    | some h =>
      if h.down then put s (applyGain (Tab.get 0#32 br.last c) (raisedCos false h.j h.n))
      else
        let (x, s) := s.draw
        let v := Config.bridgeSample x
        put (s.putBridge b { br with last := Tab.put 0#32 br.last c v }) (applyGain v (raisedCos true h.j h.n))
    | none =>
      let (x, s) := s.draw
      let v := Config.bridgeSample x
      put (s.putBridge b { br with last := Tab.put 0#32 br.last c v }) v

/-- A bridge closes a sample: a fade advances one step, and the engine-side channels take their values. -/
def Stage.brClose (s : Stage) (b : Nat) : Stage :=
  if s.brState b ≠ 2 then s
  else
    let br := s.bridge b
    let s := match br.fade with
      | some h => s.putBridge b { br with fade := some { h with j := min h.n (h.j + 1) } }
      | none => s
    (br.inMap.map (·.1)).foldl (Stage.brChannel b) s

/-- Every bridge closes a sample. -/
def Stage.bridgesClose (s : Stage) : Stage :=
  (upTo 8).foldl Stage.brClose { s with patch := { s.patch with brIn := [] } }

/-- The bridge that drives a foreign transmit slot, if one does. -/
def Stage.brDriver (s : Stage) (p slot : Nat) : Option Nat :=
  (upTo 8).find? fun b => s.brState b == 2 && s.brGroup b == s.portGroup p
    && (s.bridge b).outMap.any fun e => bit e.2 31 && bits e.2 9 0 == 32 * p + slot

/-- A frame of a port in the FOREIGN domain: its transmit slots carry what the bridges send (R235, R334, R349). -/
def Stage.foreignEdge (s : Stage) (p t : Nat) : Stage :=
  let s := s.tick t
  let g := s.portGroup p
  if cgMaster (s.cgCfg g) && !s.cgDrives g then s
  else
    let s := s.cgEdge g (s.datum.at t).toNat
    if !s.dirWanted p true then s
    else
      let mask := s.regN (pPort p) 0x088
      let drive := s.driveFor p s.datum.index
      let (slots, s) := (upTo (s.portSlots p)).foldl (fun (a : List SlotOut × Stage) i =>
        let (l, s) := a
        if !drive then (l ++ [SlotOut.hiZ], s)
        else if bit mask i then
          match s.brDriver p i with
          | some _ => let (x, s) := s.draw; (l ++ [.word (txValue (s.portBits p) (Config.bridgeSample x))], s)
          | none => (l ++ [.word 0#32], s)
        else (l ++ [if s.flag (pPort p) 0x080 16 then .hiZ else .low], s)) (([] : List SlotOut), s)
      s.emit (.tdm p 0 slots)

/-- A boundary-applied write of IN_MAP or OUT_MAP (R235, R247). -/
def Stage.brMapApply (s : Stage) (b : Nat) (out : Bool) (c v : Nat) : Stage :=
  let br := s.bridge b
  s.putBridge b (if out then { br with outMap := Tab.put 0 br.outMap c v } else { br with inMap := Tab.put 0 br.inMap c v })

/-- The computed registers of a BRIDGE page. -/
def Stage.brRead (s : Stage) (b off : Nat) : Option Nat :=
  if off = 0x09C then some (Tab.get 0 (s.bridge b).inMap (s.fld (pBridge b) 0x098 5 0))
  else if off = 0x0A4 then some (Tab.get 0 (s.bridge b).outMap (s.fld (pBridge b) 0x0A0 5 0))
  else none

/-- A soft reset of a bridge: NO_CLOCK, the count and the measured rate cleared; every RW field kept (R246, R560). -/
def Stage.brSoftReset (s : Stage) (b : Nat) : Stage :=
  let br := s.bridge b
  ((s.setBr b 0).putBridge b { br with fade := none, window := none, last := [], ratio := 0 }).clearRegs (pBridge b)
    (fun o => o == 0x08C || o == 0x0A8)

end Sys2Proof.Machine
end

