-- ==== Sys2Proof/Machine/Datum.lean ====
section
/-!
DEFINITION. The datum and its servo (R249 to R263, R274 to R276): the raw counter, rate and offset, steps, slew plans, the
state machine of R262, source switching, PPS and the 10 MHz input.
-/
namespace Sys2Proof.Machine

/-- The DATUM page. -/
def pDatum : Nat := 0x280

/-- ±1000 ppm in units of 2^-48 (R253). -/
def ppmLimit : Int := 281474976710

/-- SLEW_MAX in units of 2^-48, truncated toward zero; the register counts 0.1 ppm. -/
def Stage.slewMax (s : Stage) : Int := divZ ((s.fld pDatum 0x0C0 9 0 : Int) * 2 ^ 48) 10000000

/-- The thresholds in 2^-16 ns. -/
def Stage.stepThr (s : Stage) : Int := (s.fld pDatum 0x0B8 29 0 : Int) * unit
def Stage.lockThr (s : Stage) : Int := (s.fld pDatum 0x0BC 13 0 : Int) * unit

/-- HOLD_TIMEOUT as a raw time. -/
def Stage.holdTimeout (s : Stage) : Nat := s.fld pDatum 0x0C4 15 0 * 1000000 * unit

/-- RATE changes at the present raw instant, and OFFSET is re-based (R254). -/
def Stage.setRate (s : Stage) (r : Int) : Stage :=
  let d := s.datum
  { s with datum := { d with rate := r, offset := d.offset + (d.raw : Int) * (d.rate - r) } }

/-- RATE := I. -/
def Stage.rateToI (s : Stage) : Stage := s.setRate s.datum.integ

/-- The servo may step now (R257, R261). -/
def Stage.stepAllowed (s : Stage) : Bool := stepMode s.mode && s.flag pDatum 0x080 0

/-- The servo enters a state; leaving LOCKED raises UNLOCK (R262, R286). -/
def Stage.setServo (s : Stage) (v : ServoState) : Stage :=
  let s := s.raiseIf (s.datum.servo == .locked && v != .locked) pDatum 2
  { s with datum := { s.datum with servo := v } }

/-- ACQUIRE is entered, with the run of offsets in the band at `k`; a plan in progress ends. -/
def Stage.enterAcquire (s : Stage) (k : Nat) : Stage :=
  let s := s.setServo .acquire
  { s with datum := { s.datum with inBand := k, planEnd := none, holdPending := false } }

/-- SLEW is entered with a cause (R261 to R263, R269 to R271); I is frozen and RATE is I until a plan is given. -/
def Stage.enterSlew (s : Stage) (cause : Nat) : Stage :=
  if s.datum.servo = .slew then s
  else
    let s := (s.setServo .slew).bump pDatum 0x108
    { s with datum := { s.datum with cause := cause, inBand := 0, planEnd := none, holdPending := false } }.rateToI

/-- The slew plan for an accepted offset (R261). -/
def Stage.slewPlan (s : Stage) (theta : Int) : Stage :=
  let s := s.setRate (s.datum.integ - Int.sign theta * s.slewMax)
  let dur := theta.natAbs * 10000000 / max 1 (s.fld pDatum 0x0C0 9 0)
  { s with datum := { s.datum with planEnd := some (s.datum.raw + dur), holdPending := false } }

/-- HOLDOVER is entered (R262). -/
def Stage.enterHoldover (s : Stage) : Stage :=
  let s := (((s.setServo .holdover).bump pDatum 0x10C).raise pDatum 7).rateToI
  { s with datum := { s.datum with inBand := 0, planEnd := none, holdPending := false } }

/-- FREE is entered: RATE := I, I unchanged (R262). -/
def Stage.enterFree (s : Stage) : Stage :=
  let s := (s.setServo .free).rateToI
  { s with datum := { s.datum with inBand := 0, planEnd := none, holdPending := false, switched := false } }

/-- The PI update of R260 with offset `theta` and time `delta` since the previous offset of the same source. -/
def Stage.piUpdate (s : Stage) (theta : Int) (delta : Nat) : Stage :=
  let ki := s.fld pDatum 0x0B4 12 8
  let kp := s.fld pDatum 0x0B4 3 0
  let d : Int := delta
  let i := clampI (-ppmLimit) ppmLimit (divZ (s.datum.integ * d * 2 ^ ki - theta * 2 ^ 48) (d * 2 ^ ki))
  let p := clampI (-s.slewMax) s.slewMax (divZ (-(theta * 2 ^ 48)) (d * 2 ^ kp))
  { s with datum := { s.datum with integ := i } }.setRate (clampI (-ppmLimit) ppmLimit (i + p))

/-- A step is asked for; it is applied right after the next strobe (R257). -/
def Stage.askStep (s : Stage) (amount : Int) (cmd : Option Cmd) : Stage :=
  { s with datum := { s.datum with stepReq := s.datum.stepReq ++ [{ amount := amount, cmd := cmd }] } }

/-- An offset is accepted by the servo (R260 to R263): `forced` the cause of the SLEW that the path, jump, asymmetry and
source rules ask for. -/
def Stage.accept (s : Stage) (theta : Int) (delta : Nat) (forced : Option Nat) : Stage :=
  let s := s.set64 pDatum 0x0D4 (toBits 64 theta)
  let a : Int := theta.natAbs
  let big := decide (s.stepThr < a)
  let band := decide (a ≤ s.lockThr)
  if big && s.stepAllowed then ((s.askStep (-theta) none).enterAcquire 0).rateToI
  else
    let s := s.raiseIf big pDatum 4
    match forced with
    | some c => (s.enterSlew c).slewPlan theta
    | none =>
      match s.datum.servo with
      | .free => if big then (s.enterSlew 1).slewPlan theta else s.enterAcquire (if band then 1 else 0)
      | .acquire =>
        if big then (s.enterSlew 1).slewPlan theta
        else
          let s := s.piUpdate theta delta
          let k := if band then s.datum.inBand + 1 else 0
          let s := { s with datum := { s.datum with inBand := k } }
          if 16 ≤ k then (s.setServo .locked).raise pDatum 1 else s
      | .locked =>
        if big then (s.enterSlew 1).slewPlan theta
        else
          let s := s.piUpdate theta delta
          if 4 * s.lockThr < a then s.enterAcquire 0 else s
      | .slew => if band then (s.enterAcquire 1).rateToI else s.slewPlan theta
      | .holdover => if band then s.enterAcquire 1 else (s.enterSlew 6).slewPlan theta

/-- DATUM_CTRL.SRC and SRC_ALT. -/
def Stage.src (s : Stage) : Nat := s.fld pDatum 0x080 6 4
def Stage.srcAlt (s : Stage) : Nat := s.fld pDatum 0x080 10 8

/-- The servo switches source (R263). -/
def Stage.switchSource (s : Stage) (dst : Nat) : Stage :=
  { s.raise pDatum 8 with datum := { s.datum with srcNow := dst, switched := true } }

/-- Source `src` delivers an offset (R259, R263); `forced` as in `accept`. -/
def Stage.deliver (s : Stage) (src : Nat) (theta : Int) (forced : Option Nat) : Stage :=
  let now := s.datum.raw
  let (last, start) := Tab.get (0, now) s.datum.lastOff src
  let seen := (Tab.find s.datum.lastOff src).isSome
  let delta := max 32768000000 (min (now - last) (64 * unitsPerSec))
  let start := if seen && decide (now - last ≤ s.holdTimeout) then start else now
  let s := { s with datum := { s.datum with lastOff := Tab.ins s.datum.lastOff src (now, start) } }
  let s := if src = s.src ∧ s.datum.srcNow ≠ s.src ∧ s.holdTimeout ≤ now - start ∧ seen then s.switchSource src else s
  if src ≠ s.datum.srcNow ∨ src = 0 then s
  else
    let first := s.datum.switched
    let asym := s.datum.asym
    let s := { s with datum := { s.datum with switched := false, asym := false, holdPending := false } }
    let forced := match forced with
      | some c => some c
      | none => if asym then some 4 else if first && decide (s.lockThr < (theta.natAbs : Int)) then some 5 else none
    s.accept theta delta forced

/-- No offset has come from the source in use for HOLD_TIMEOUT (R262, R263). -/
def Stage.holdExpiry (s : Stage) : Stage :=
  let other := if s.datum.srcNow = s.src then s.srcAlt else s.src
  let recent : Bool := match Tab.find s.datum.lastOff other with
    | none => false
    | some (last, _) => decide (s.datum.raw - last ≤ s.holdTimeout)
  if s.srcAlt ≠ 0 ∧ other ≠ 0 ∧ other ≠ s.datum.srcNow ∧ recent then s.switchSource other
  else
    match s.datum.servo with
    | .acquire | .locked => s.enterHoldover
    | .slew => if s.datum.planEnd.isSome then { s with datum := { s.datum with holdPending := true } } else s.enterHoldover
    | .free | .holdover => s

/-- The slew plan in progress reaches its end (R261, R262). -/
def Stage.planDone (s : Stage) : Stage :=
  match s.datum.planEnd with
  | none => s
  | some e =>
    let hold := s.datum.holdPending
    let s := ((s.tick e).rateToI).raise pDatum 0
    let s := { s with datum := { s.datum with planEnd := none } }
    if hold then s.enterHoldover else s

/-- What waits in a batten for a boundary falls due at boundary `b`: its ramp requests and its plane. -/
def BatSt.dueAt (v : BatSt) (b : Nat) : BatSt :=
  { v with queue := v.queue.map fun (q : RampReq) => { q with due := b }, readyAt := v.readyAt.map fun _ => b }

/-- One step is applied: OFFSET takes it and the index follows (R257). -/
def Stage.applyStep (s : Stage) (r : StepReq) : Stage :=
  if stepMode s.mode then
    let s := { s with datum := { s.datum with offset := s.datum.offset + r.amount * 2 ^ 48 } }
    let s := { s with datum := { s.datum with index := indexAt s.now s.fs } }
    let next := s.datum.index + 1
    let s := { s with waiting := s.waiting.map fun (w : WWrite) => { w with due := next }, bats := s.bats.map fun (e : Nat × BatSt) => (e.1, e.2.dueAt next) }
    let s := (s.raise pDatum 3).bump pDatum 0x104
    match r.cmd with
    | none => s
    | some c => s.completeAt pDatum c stDone 0#32 (boundaryDatum next s.fs)
  else
    match r.cmd with
    | none => s
    | some c => s.complete pDatum c stRefused 0#32

/-- The steps that waited for the strobe are applied (R257). -/
def Stage.stepsApply (s : Stage) : Stage :=
  s.datum.stepReady.foldl Stage.applyStep { s with datum := { s.datum with stepReady := [] } }

/-- STEP starts (R258). -/
def Stage.stepCmd (s : Stage) (c : Cmd) : Stage :=
  if stepMode s.mode then
    s.askStep (sext 64 (s.reg64 pDatum 0x0E4) * unitsPerSec + sext 32 (s.regN pDatum 0x0EC) * unit) (some c)
  else s.complete pDatum c stRefused 0#32

/-- A read of NOW_FRAC latches the datum and the raw counter at one tick (R256). -/
def Stage.latchNow (s : Stage) : Stage :=
  { s with datum := { s.datum with nowRaw := s.datum.raw, nowDatum := s.now } }

/-- DATUM_STAT (R283). -/
def Stage.datumStat (s : Stage) : Nat :=
  let d := s.datum
  (if d.ppsOk then 2 ^ 18 else 0) + (if d.clk10mOk then 2 ^ 17 else 0) + (if d.pll then 2 ^ 16 else 0)
    + d.cause * 2 ^ 8 + d.srcNow * 2 ^ 4 + (if stepMode s.mode then 8 else 0)
    + (match d.servo with | .free => 0 | .acquire => 1 | .locked => 2 | .slew => 3 | .holdover => 4)

/-- The DATUM registers that show the state of the counter and the servo (R281). -/
def Stage.datumRead (s : Stage) (off : Nat) : Option Nat :=
  let d := s.datum
  if off = 0x084 then some s.datumStat
  else if off = 0x088 then some (d.nowDatum % unit)
  else if off = 0x08C then some (d.nowDatum / unit % 1000000000)
  else if off = 0x090 then some (d.nowDatum / unitsPerSec % 2 ^ 32)
  else if off = 0x094 then some (d.nowDatum / unitsPerSec / 2 ^ 32 % 2 ^ 32)
  else if off = 0x098 then some (d.nowRaw % 2 ^ 32)
  else if off = 0x09C then some (d.nowRaw / 2 ^ 32 % 2 ^ 32)
  else if off = 0x0A0 then some (d.nowRaw / 2 ^ 64 % 2 ^ 32)
  else if off = 0x0A4 then some (toBits 48 d.rate % 2 ^ 32)
  else if off = 0x0A8 then some (toBits 48 d.rate / 2 ^ 32)
  else if off = 0x0AC then some (toBits 48 d.integ % 2 ^ 32)
  else if off = 0x0B0 then some (toBits 48 d.integ / 2 ^ 32)
  else none

/-! ### Reference, PPS and 10 MHz -/

/-- The PLL locks for the first time and the raw counter starts at zero (R250); later locks leave it. -/
def Stage.pllLock (s : Stage) : Stage :=
  let s := s.calApply pDatum
  if s.datum.everLocked then { s with datum := { s.datum with pll := true } }
  else { s with datum := { s.datum with pll := true, everLocked := true, raw := 0, started := true } }

/-- REFCLK_IN stops or departs from 25 MHz (R251, R463). -/
def Stage.refFault (s : Stage) : Stage :=
  (({ s with datum := { s.datum with pll := false } }).raise pDatum 9).sdCause 7

/-- The signed 32-bit register image of a time in 2^-16 ns shown in whole ns, saturating at ±(2^31 − 1). -/
def nsWord (t : Int) : Nat := toBits 32 (clampI (-2147483647) 2147483647 (Int.fdiv t unit))

/-- An edge of the chosen polarity on PPS_IN (R274). -/
def Stage.ppsEdge (s : Stage) (falling : Bool) : Stage :=
  if falling ≠ s.flag pDatum 0x0F0 0 then s
  else
    let now : Int := s.datum.raw
    let early := match s.datum.ppsLast with
      | none => false
      | some l => decide (now - l < 58982400000000)
    if early then s
    else
      let t : Int := (s.now : Int) - sext 32 (s.regN pDatum 0x0F4) * unit
      let sec := Int.fdiv (2 * t + unitsPerSec) (2 * unitsPerSec)
      let theta := t - sec * unitsPerSec
      let s := s.setN pDatum 0x0FC (nsWord theta)
      ({ s with datum := { s.datum with ppsLast := some now, ppsOk := true } }).deliver 3 theta none

/-- No PPS_IN edge has been accepted for 1.5 s (R274). -/
def Stage.ppsLost (s : Stage) : Stage :=
  if s.datum.ppsOk then { s with datum := { s.datum with ppsOk := false } }.raise pDatum 10 else s

/-- A gate of CLK10M_IN ends with the fractional error `err` in 2^-48 (R275). -/
def Stage.clk10mGate (s : Stage) (err : Int) : Stage :=
  if s.flag pDatum 0x080 16 then
    let s := s.setN pDatum 0x100 (toBits 32 (clampI (-2147483647) 2147483647 err))
    let s := { s with datum := { s.datum with clk10mOk := true } }
    let still := s.datum.servo == .free || s.datum.servo == .holdover
    if still || s.datum.srcNow == 3 then
      let ki := s.fld pDatum 0x0B4 12 8
      let i := clampI (-ppmLimit) ppmLimit (divZ (s.datum.integ * 2 ^ ki - err) (2 ^ ki))
      let s := { s with datum := { s.datum with integ := i } }
      if still then s.rateToI else s
    else s
  else s

/-- CLK10M_IN has had no edge for 1 µs (R275). -/
def Stage.clk10mLost (s : Stage) : Stage :=
  if s.flag pDatum 0x080 16 then { s with datum := { s.datum with clk10mOk := false } }.raise pDatum 11 else s

/-- PPS_OUT pulses at a datum whole second plus PPS_OUT_OFFSET (R276). -/
def Stage.ppsOut (s : Stage) : Stage :=
  if s.flag pDatum 0x0F0 31 && (s.datum.servo == .locked || s.flag pDatum 0x0F0 30) then
    s.emit (.ppsOut (s.fld pDatum 0x0F0 23 16))
  else s

/-- A write of SRC returns the servo to FREE with I unchanged (R263). -/
def Stage.datumCtrlWritten (s : Stage) : Stage :=
  let s := { s with datum := { s.datum with srcNow := s.src } }
  s.enterFree

/-- A soft reset of DATUM or of SYS: the counts clear and the servo returns to FREE; OFFSET, RATE and the raw counter stay
(R255, R281). -/
def Stage.datumSoftReset (s : Stage) : Stage :=
  let s := s.clearRegs pDatum (fun o => o == 0x104 || o == 0x108 || o == 0x10C)
  let s := s.setServo .free
  { s with datum := { s.datum with srcNow := s.src, inBand := 0, planEnd := none, holdPending := false, switched := false } }

end Sys2Proof.Machine
end

