-- ==== Sys2Proof/Machine/Ptp.lean ====
section
/-!
DEFINITION. Offsets from the network and from Islos (R264 to R273): the PTP event messages, the filtered mean path delay and
its path-step rule, the offset-jump guard and the time port registers of R287.
-/
namespace Sys2Proof.Machine

/-- The time port of page `p`. -/
def Stage.tp (s : Stage) (p : Nat) : TimePort := Tab.get {} s.tports p

def Stage.setTp (s : Stage) (p : Nat) (t : TimePort) : Stage := { s with tports := Tab.put {} s.tports p t }

/-- TP_CTRL of page `p`: EN, ONE_STEP, STATE and PROFILE (R288). Islos pages are always one-step. -/
def Stage.tpEn (s : Stage) (p : Nat) : Bool := s.flag p 0x300 0
def Stage.tpOneStep (s : Stage) (p : Nat) : Bool := decide (0x270 ≤ p) || s.flag p 0x300 1
def Stage.tpState (s : Stage) (p : Nat) : Nat := s.fld p 0x300 6 4
def Stage.tpProfile (s : Stage) (p : Nat) : Nat := s.fld p 0x300 9 8

def tpSlave : Nat := 2
def tpMaster : Nat := 3

/-- The receive and transmit time-stamps of raw instant `t` on page `p` (R266). -/
def Stage.rxStamp (s : Stage) (p t : Nat) : Int := s.datum.at t - sext 16 (s.fld p 0x30C 15 0) * unit
def Stage.txStamp (s : Stage) (p t : Nat) : Int := s.datum.at t + sext 16 (s.fld p 0x30C 31 16) * unit

/-- ASYMMETRY in 2^-16 ns (R287). -/
def Stage.asymmetry (s : Stage) (p : Nat) : Int := sext 32 (s.regN p 0x308) * 256

/-- The origin time of a message, with the upper 16 bits of seconds that bring it nearest to the datum (R266). -/
def nearestMod (m own sec : Nat) : Nat :=
  let base := own / m * m + sec % m
  if own + m / 2 < base ∧ m ≤ base then base - m else if base + m / 2 < own then base + m else base

def nearestSec (own sec : Nat) : Nat := nearestMod (2 ^ 48) own sec

def Stage.origin (s : Stage) (m : PtpMsg) : Int :=
  (nearestSec (s.now / unitsPerSec) m.sec : Int) * unitsPerSec + (m.ns : Int) * unit

/-- The source code that page `p` serves now, if any: PTP for the lowest-indexed NET port in SLAVE, ISLOS for the link that
TIME_LINK names while it is in SLAVE (R259). -/
def Stage.tpSource (s : Stage) (p : Nat) : Option Nat :=
  if s.tpState p ≠ tpSlave then none
  else if 0x240 ≤ p ∧ p ≤ 0x247 then
    (if (upTo (p - 0x240)).any (fun i => s.tpState (0x240 + i) == tpSlave) then none else some 1)
  else if p = 0x270 + s.fld pDatum 0x080 13 12 then some 2 else none

/-- Page `p` is the servo's source now. -/
def Stage.tpInUse (s : Stage) (p : Nat) : Bool :=
  match s.tpSource p with
  | none => false
  | some c => s.datum.srcNow == c

/-- TP_COUNTS: [31:16] WITHHELD and [15:0] DISCARDED, each stopping at 0xFFFF. -/
def Stage.countWithheld (s : Stage) (p : Nat) : Stage := s.setFld p 0x31C 31 16 (satInc 0xFFFF (s.fld p 0x31C 31 16))
def Stage.countDiscard (s : Stage) (p : Nat) : Stage := s.setFld p 0x31C 15 0 (satInc 0xFFFF (s.fld p 0x31C 15 0))

/-- An offset is published, and delivered unless R270 or R271 withholds it (R267, R270, R271). -/
def Stage.tpOffset (s : Stage) (p : Nat) (theta : Int) : Stage :=
  let s := s.setN p 0x314 (toBits 32 (clampI (-2147483647) 2147483647 (Int.fdiv theta 256)))
  let tp := s.tp p
  let use := s.tpInUse p
  let give (s : Stage) (forced : Option Nat) : Stage :=
    let s := s.setTp p { s.tp p with delivered := some theta, jumps := 0 }
    match s.tpSource p with
    | none => s
    | some c => s.deliver c theta forced
  if tp.held ≠ [] then
    let s := s.countWithheld p
    if use then s.rateToI else s
  else if s.datum.servo = .locked ∧ use then
    match tp.delivered with
    | none => give s none
    | some l =>
      if ((theta - l).natAbs : Int) ≤ (s.fld pDatum 0x0C8 19 0 : Int) * unit then give s none
      else
        let s := s.countWithheld p
        let k := min 15 (tp.jumps + 1)
        if s.fld pDatum 0x0C8 27 24 ≤ k then give (s.raise pDatum 6) (some 3) else s.setTp p { tp with jumps := k }
  else give s none

/-- A measurement of the mean path delay (R270). -/
def Stage.tpPath (s : Stage) (p : Nat) (d : Int) : Stage :=
  if s.tpState p ≠ tpSlave then s
  else
    let tp := s.tp p
    match tp.dbar with
    | none => s.setTp p { tp with dbar := some d }
    | some m =>
      if ((d - m).natAbs : Int) ≤ (s.fld pDatum 0x0C8 19 0 : Int) * unit then
        s.setTp p { tp with dbar := some (m + Int.fdiv (d - m) 16), held := [] }
      else
        let held := tp.held ++ [d]
        if s.fld pDatum 0x0C8 27 24 ≤ held.length then
          let mean := Int.fdiv (held.foldl (· + ·) 0) held.length
          let s := s.setTp p { tp with dbar := some mean, held := [], jumps := 0 }
          let s := ((s.setN pDatum 0x0CC (nsWord (mean - m))).setN pDatum 0x0D0 p).raise pDatum 5
          if s.tpInUse p then s.enterSlew 2 else s
        else
          let s := s.setTp p { tp with held := held, jumps := 0 }
          if s.tpInUse p then s.rateToI else s

/-- TP_STAT and MEAN_PATH (R287, R288). -/
def Stage.tpRead (s : Stage) (p off : Nat) : Option Nat :=
  let tp := s.tp p
  if off = 0x304 then
    some ((if tp.dbar.isSome then 2 ^ 17 else 0) + (if tp.held ≠ [] then 2 ^ 16 else 0)
      + min 15 tp.held.length * 2 ^ 8 + min 15 tp.jumps)
  else if off = 0x310 then
    some (match tp.dbar with | none => 0 | some d => min 0xFFFFFFFF (Int.fdiv d 256).toNat)
  else none

/-- A NET port accepts a PTP message: enabled, the domain and the majorSdoId match (R264). -/
def Stage.ptpMatch (s : Stage) (p : Nat) (m : PtpMsg) : Bool :=
  m.domain == s.fld pDatum 0x080 31 24 && m.sdo == (if s.tpProfile p = 2 then 1 else 0)

/-- What an enabled port does with a message: `f` when it matches, else it is discarded and counted (R264). -/
def Stage.ptpWith (s : Stage) (p : Nat) (m : PtpMsg) (f : Stage → Stage) : Stage :=
  if !s.tpEn p then s else if s.ptpMatch p m then f s else s.countDiscard p

/-- The offset of a complete Sync (R267). -/
def Stage.syncOffset (s : Stage) (p : Nat) (t1 t2 c : Int) : Stage :=
  let tp := s.tp p
  let s := s.setTp p { tp with sync := none, last := some (t1, t2, c) }
  s.tpOffset p (t2 - t1 - c - tp.dbar.getD 0 - s.asymmetry p)

/-- A Sync arrives with its time-stamp point at raw `t` (R266, R267). -/
def Stage.syncRx (s : Stage) (p t : Nat) (m : PtpMsg) : Stage :=
  s.ptpWith p m fun s =>
    if s.tpState p ≠ tpSlave then s
    else
      let t2 := s.rxStamp p t
      if m.twoStep then s.setTp p { s.tp p with sync := some (m.seq, t2, m.corr) }
      else s.syncOffset p (s.origin m) t2 m.corr

/-- A Follow_Up arrives (R267). -/
def Stage.followUpRx (s : Stage) (p : Nat) (m : PtpMsg) : Stage :=
  s.ptpWith p m fun s =>
    if s.tpState p ≠ tpSlave then s
    else
      match (s.tp p).sync with
      | none => s
      | some (q, t2, c) => if q = m.seq then s.syncOffset p (s.origin m) t2 (c + m.corr) else s

/-- The fields of a time-stamp as a message carries it: seconds modulo 2^48 and nanoseconds; FRAC goes to the
correctionField (R266). -/
def stampOf (t : Int) : Nat × Nat × Int :=
  let n := t.toNat
  (n / unitsPerSec % 2 ^ 48, n / unit % 1000000000, (n % unit : Nat))

/-- A PTP message leaves page `p`. -/
def Stage.ptpOut (s : Stage) (p : Nat) (kind : PtpKind) (seq : Nat) (stamp : Int) (corr : Int) (twoStep : Bool) : Stage :=
  let (sec, ns, frac) := stampOf stamp
  s.emit (.ptp p kind { domain := s.fld pDatum 0x080 31 24, sdo := if s.tpProfile p = 2 then 1 else 0, seq := seq,
                        corr := corr + frac, sec := sec, ns := ns, twoStep := twoStep })

/-- A Delay_Req arrives at a port in MASTER, which answers with a Delay_Resp carrying its receive time-stamp (R265). -/
def Stage.delayReqRx (s : Stage) (p t : Nat) (m : PtpMsg) : Stage :=
  s.ptpWith p m fun s =>
    if s.tpState p = tpMaster ∧ s.tpProfile p = 0 then
      -- the receive time's FRAC is taken off the correction the response returns, whose sense is t4 = stamp − correction
      let t4 := s.rxStamp p t
      let (_, _, frac) := stampOf t4
      s.ptpOut p .delayResp m.seq t4 (m.corr - 2 * frac) false
    else s

/-- A Delay_Resp arrives and completes a measurement of the mean path delay (R267, R270). -/
def Stage.delayRespRx (s : Stage) (p : Nat) (m : PtpMsg) : Stage :=
  s.ptpWith p m fun s =>
    let tp := s.tp p
    match tp.req, tp.last with
    | some (q, t3), some (t1, t2, c) =>
      if q = m.seq ∧ s.tpState p = tpSlave ∧ s.tpProfile p = 0 then
        (s.setTp p { tp with req := none }).tpPath p (Int.fdiv ((t2 - t1 - c) + (s.origin m - t3 - m.corr)) 2)
      else s
    | _, _ => s

/-- A Pdelay_Req arrives at raw `t2` and its response leaves at raw `t3` (R265, R268). -/
def Stage.pdelayReqRx (s : Stage) (p t2 t3 : Nat) (m : PtpMsg) : Stage :=
  s.ptpWith p m fun s =>
    let a := s.rxStamp p t2
    let b := s.txStamp p t3
    if s.tpOneStep p then s.emit (.ptp p .pdelayResp { m with corr := m.corr + (b - a), sec := 0, ns := 0, twoStep := false })
    else
      (s.ptpOut p .pdelayResp m.seq a (-2 * (stampOf a).2.2) true).ptpOut p .pdelayRespFollowUp m.seq b m.corr false

/-- A Pdelay_Resp arrives at raw `t` (R267). -/
def Stage.pdelayRespRx (s : Stage) (p t : Nat) (m : PtpMsg) : Stage :=
  s.ptpWith p m fun s =>
    let tp := s.tp p
    match tp.req with
    | none => s
    | some (q, t1) =>
      if q ≠ m.seq then s
      else
        let t4 := s.rxStamp p t
        if m.twoStep then s.setTp p { tp with presp := some (q, s.origin m, t4, m.corr) }
        else (s.setTp p { tp with req := none }).tpPath p (Int.fdiv (t4 - t1 - m.corr) 2)

/-- A Pdelay_Resp_Follow_Up arrives and completes the peer delay (R267, R270). -/
def Stage.pdelayFollowUpRx (s : Stage) (p : Nat) (m : PtpMsg) : Stage :=
  s.ptpWith p m fun s =>
    let tp := s.tp p
    match tp.req, tp.presp with
    | some (q, t1), some (q', t2, t4, c) =>
      if q = m.seq ∧ q' = m.seq then
        (s.setTp p { tp with req := none, presp := none }).tpPath p
          (Int.fdiv ((t4 - t1) - (s.origin m - t2) - c - m.corr) 2)
      else s
    | _, _ => s

/-- A port in MASTER sends a Sync whose time-stamp point leaves at raw `t` (R268). -/
def Stage.syncSend (s : Stage) (p t : Nat) : Stage :=
  if s.tpEn p && s.tpState p == tpMaster then
    let tp := s.tp p
    let q := (tp.seqSync + 1) % 65536
    let s := s.setTp p { tp with seqSync := q }
    let dep := s.txStamp p t
    if s.tpOneStep p then s.ptpOut p .sync q dep 0 false
    else (s.emit (.ptp p .sync { domain := s.fld pDatum 0x080 31 24, sdo := if s.tpProfile p = 2 then 1 else 0, seq := q,
                                 corr := 0, sec := 0, ns := 0, twoStep := true })).ptpOut p .followUp q dep 0 false
  else s

/-- A port sends a Delay_Req or a Pdelay_Req that leaves at raw `t` (R268): a Delay_Req in SLAVE, a Pdelay_Req in any state
but DISABLED. -/
def Stage.delayReqSend (s : Stage) (p t : Nat) : Stage :=
  let peer := s.tpProfile p != 0
  if s.tpEn p && (if peer then s.tpState p != 0 else s.tpState p == tpSlave) then
    let tp := s.tp p
    let q := (tp.seqReq + 1) % 65536
    let dep := s.txStamp p t
    (s.setTp p { tp with seqReq := q, req := some (q, dep), presp := none }).emit
      (.ptp p (if peer then .pdelayReq else .delayReq)
        { domain := s.fld pDatum 0x080 31 24, sdo := if s.tpProfile p = 2 then 1 else 0, seq := q, corr := 0, sec := 0,
          ns := 0, twoStep := false })
  else s

/-- After a write of TP_CTRL that found `old` in it: a STATE other than SLAVE clears the guards, and entering SLAVE starts a
new filter (R270, R288). -/
def Stage.tpCtrlWritten (s : Stage) (p old : Nat) : Stage :=
  let tp := s.tp p
  if s.tpState p ≠ tpSlave then s.setTp p { tp with held := [], jumps := 0 }
  else if bits old 6 4 ≠ tpSlave then
    s.setTp p { tp with dbar := none, held := [], jumps := 0, delivered := none, sync := none, last := none }
  else s

/-- ASYMMETRY or TP_LAT_ADJ of the servo's source has been written (R269). -/
def Stage.asymWritten (s : Stage) (p : Nat) : Stage :=
  if s.tpInUse p then { s with datum := { s.datum with asym := true } } else s

/-- A soft reset of the page clears the time port's state (R287). -/
def Stage.tpSoftReset (s : Stage) (p : Nat) : Stage :=
  (s.setTp p {}).clearRegs p (fun o => o == 0x314 || o == 0x318 || o == 0x31C)

/-! ### Islos time frames (R272, R273, R418) -/

/-- A time frame leaves link page `p` at raw `t`: it carries its own departure, the departure of the last frame received and
that frame's arrival (R272). -/
def Stage.timeFrameSend (s : Stage) (p t : Nat) : Stage :=
  if s.tpEn p then
    let tp := s.tp p
    let dep := s.txStamp p t
    let (pd, pa) := tp.peer.getD (0, 0)
    (s.setTp p { tp with req := some (0, dep) }).emit (.timeFrame p dep pd pa)
  else s

/-- A time frame arrives at raw `t`, carrying the partner's departure `dep`, and the departure `ownDep` of this end's last
frame with the partner's arrival time `ownArr` of it (R272). -/
def Stage.timeFrameRx (s : Stage) (p t : Nat) (dep ownDep ownArr : Int) : Stage :=
  if s.tpEn p then
    let t2 := s.rxStamp p t
    let s := s.setTp p { s.tp p with peer := some (dep, t2) }
    if s.tpState p = tpSlave then
      let s := if ownDep = 0 then s else s.tpPath p (Int.fdiv ((t2 - dep) + (ownArr - ownDep)) 2)
      s.tpOffset p (t2 - dep - (s.tp p).dbar.getD 0 - s.asymmetry p)
    else s
  else s

end Sys2Proof.Machine
end

