-- ==== Sys2Proof/Machine/Decim.lean ====
section
/-!
DEFINITION. The decimators (R360 to R381).
-/
namespace Sys2Proof.Machine

/-- The DECIM page. -/
def pDecim : Nat := 0x220

def Stage.dec (s : Stage) (c : Nat) : DecSt := Tab.get {} s.decs c
def Stage.putDec (s : Stage) (c : Nat) (d : DecSt) : Stage := { s with decs := Tab.put {} s.decs c d }

/-- LEN and RATIO of a stage field (R378). -/
def decLen (f : Nat) : Nat := let l := bits f 9 0; if l = 0 then 1024 else l
def decRatio (f : Nat) : Nat := 2 ^ bits f 14 12

/-- The four stage fields of a pair of stage words, STAGE_0 first. -/
def stageFields (st01 st23 : Nat) : List Nat := [bits st01 15 0, bits st01 31 16, bits st23 15 0, bits st23 31 16]

/-- The total ratio Q (R364). -/
def decQ (st01 st23 : Nat) : Nat := (stageFields st01 st23).foldl (fun q f => q * decRatio f) 1

/-- Σ (L_j − 1) × Q_(j−1): twice the delay of the filter in inputs without P (R371, R375). -/
def decSpan (st01 st23 : Nat) : Nat :=
  ((stageFields st01 st23).foldl (fun (a : Nat × Nat) f => (a.1 + (decLen f - 1) * a.2, a.2 * decRatio f)) (0, 1)).1

def DecSt.en (d : DecSt) : Bool := bit d.src 31
def decIsFast (src : Nat) : Bool := bits src 17 16 == 1

/-- The port of a FAST input and its slot (R360). -/
def decPort (src : Nat) : Nat := 28 + bits src 6 5
def decSlot (src : Nat) : Nat := bits src 4 0

/-- PDM_CLK_k: its RATIO, and whether it runs (R362). -/
def Stage.pdmRatio (s : Stage) (k : Nat) : Nat := 16 * 2 ^ s.fld pDecim (0x0B0 + 4 * k) 2 0
def Stage.pdmRun (s : Stage) (k : Nat) : Bool := s.flag pDecim (0x0B0 + 4 * k) 30
def decPdmClk (src : Nat) : Nat := bits src 5 1 / 8

/-- The ratio of a channel's input (R364). -/
def Stage.decIn (s : Stage) (src : Nat) : Nat := if decIsFast src then s.fastM else s.pdmRatio (decPdmClk src)

/-- The channel's Q matches its input. -/
def Stage.decMatch (s : Stage) (d : DecSt) : Bool := decQ d.st01 d.st23 == s.decIn d.src

/-- The later of two clearing inputs of one sample: it decides what the sample leaves. -/
def laterClear (a : Option Nat) (i : Nat) : Option Nat :=
  match a with
  | none => some i
  | some j => some (max i j)

/-- A channel is cleared at input `i` of sample `k`: the present sample, the next one, or one whose frames have not been
presented (R369, R370). -/
def Stage.decClear (s : Stage) (c k i : Nat) : Stage :=
  let d := s.dec c
  if k = s.datum.index then s.putDec c { d with clear := laterClear d.clear i }
  else if s.datum.index < k then s.putDec c { d with clearNext := laterClear d.clearNext i }
  else s.putDec c { d with jobs := d.jobs.map fun j => if j.k = k then { j with clear := laterClear j.clear i } else j }

/-! ### The filter chain (R363) -/

/-- One scaled and rounded sum; and whether saturation changed it. -/
def decScale (len gc : Nat) (sum : Int) : Int × Bool :=
  let f := Nat.log2 len
  let z := if len = 2 ^ f then roundHalfEven sum len else roundHalfEven (sum * gc) (2 ^ (24 + f))
  (satI 32 z, satI 32 z != z)

/-- One stage over a sample's inputs: its outputs, its history (newest first) and whether it saturated. -/
def decStage (field gc : Nat) : List Int → Nat → List Int → List Int → Bool → List Int × List Int × Bool
  | [], _, hist, out, sat => (out.reverse, hist, sat)
  | x :: t, i, hist, out, sat =>
    let w := (x :: hist).take (decLen field)
    if (i + 1) % decRatio field = 0 then
      let (z, b) := decScale (decLen field) gc (w.foldl (· + ·) 0)
      decStage field gc t (i + 1) (w.take (decLen field - 1)) (z :: out) (sat || b)
    else decStage field gc t (i + 1) (w.take (decLen field - 1)) out sat

/-- The four stages. -/
def decChain : List (Nat × Nat × List Int) → List Int → List Int × List (List Int) × Bool
  | [], xs => (xs, [], false)
  | (f, g, h) :: t, xs =>
    let (ys, h', b) := decStage f g xs 0 h [] false
    let (zs, hs, b') := decChain t ys
    (zs, h' :: hs, b || b')

/-- The phase delay over a sample's inputs (R367). -/
def decDelay (p : Nat) : List Int → List Int → List Int → List Int × List Int
  | [], line, out => (out.reverse, line)
  | x :: t, line, out => decDelay p t ((x :: line).take p) ((x :: line).getD p 0 :: out)

/-- One sample of a channel: `xs` its inputs (R363, R367, R369, R371). -/
def DecSt.run (d : DecSt) (j : DecJob) (xs : List Int) : DecSt × Int × Bool × Bool :=
  let (line, hist, since, xs) := match j.clear with
    | some a => (([] : List Int), [[], [], [], []], xs.length - a, (upTo a).map (fun _ => (0 : Int)) ++ xs.drop a)
    | none => (d.line, d.hist, d.since + xs.length, xs)
  let (ys, line) := decDelay j.phase xs line []
  let fs := stageFields j.st01 j.st23
  let (zs, hist, sat) := decChain ((upTo 4).map fun i => (fs.getD i 1, j.gc.getD i 0, hist.getD i [])) ys
  let span := j.phase + decSpan j.st01 j.st23
  let since := min since (span + 1)
  ({ d with line := line, hist := hist, since := since }, zs.getLast?.getD 0, decide (span < since), sat)

/-- The inputs of a PDM channel for a sample: `pdm` gives the bits of a pin and edge under 2p + e (R360 to R362). -/
def Stage.pdmInputs (s : Stage) (pdm : List (Nat × List Bool)) (src : Nat) : List Int :=
  let l := ((pdm.find? fun e => e.1 == bits src 5 0).map (·.2)).getD []
  (upTo (s.pdmRatio (decPdmClk src))).map fun i => if l.getD i false then (2 ^ 31 - 1 : Int) else -(2 ^ 31 - 1)

/-- One job of a channel is done with its inputs; its value waits for sample `w` (R372, R374). -/
def Stage.decJob (s : Stage) (c : Nat) (j : DecJob) (w : Nat) (xs : List Int) (alive : Bool) : Stage :=
  let d := s.dec c
  if !bit j.src 31 || decQ j.st01 j.st23 != s.decIn j.src then
    s.putDec c { d with vals := d.vals ++ [(w, 0#32, false)] }
  else
    let (d, z, settled, sat) := d.run j xs
    let valid := settled && alive
    let v := if !valid && bit j.src 30 then 0#32 else Word.ofInt z
    let s := s.putDec c { d with vals := d.vals ++ [(w, v, valid)] }
    if sat then (s.setFlag pDecim (0x0C8 + 4 * (c / 32)) (c % 32) true).raise pDecim 0 else s

/-- The jobs of a FAST channel whose frames are presented in sample `n` (R348, R369, R374). -/
def Stage.decFast (n c : Nat) (s : Stage) (j : DecJob) : Stage :=
  let p := decPort j.src
  if n < j.k + s.portRX p then s
  else
    let m := s.fastM
    let slot := decSlot j.src
    let active := bit (s.maskFor p n) slot
    let xs := (upTo m).map fun i => if active then (s.rxSlot p (j.k * m + i) slot).toInt else 0
    let j := match (s.port p).rx.live with
      | some (f0, _) => if m ≠ 0 ∧ f0 / m = j.k then { j with clear := laterClear j.clear (f0 % m) } else j
      | none => j
    let st := (s.port p).rx.st
    let s := s.decJob c j n xs (st == 2 || st == 3)
    s.putDec c { s.dec c with jobs := (s.dec c).jobs.filter fun x => x.k != j.k }

/-- A channel closes sample `n`: its inputs are filtered, and the value due in this sample is delivered (R363, R374). -/
def Stage.decClose (n : Nat) (pdm : List (Nat × List Bool)) (s : Stage) (c : Nat) : Stage :=
  let d := s.dec c
  let j : DecJob := { k := n, src := d.src, st01 := d.st01, st23 := d.st23, gc := d.gc, phase := d.phase, clear := d.clear }
  let s := s.putDec c { d with clear := none }
  let s :=
    if decIsFast d.src then
      let s := s.putDec c { s.dec c with jobs := ((s.dec c).jobs ++ [j]) }
      ((s.dec c).jobs).foldl (Stage.decFast n c) s
    else if s.pdmRun (decPdmClk d.src) then s.decJob c j (n + 2) (s.pdmInputs pdm d.src) true
    else
      let d := s.dec c
      let d := if j.clear.isSome then { d with line := [], hist := [[], [], [], []], since := 0 } else d
      let v := if bit j.src 30 || !d.en || !s.decMatch d then 0#32 else ((d.vals.getLast?.map (·.2.1)).getD d.now)
      s.putDec c { d with vals := d.vals ++ [(n + 2, v, false)] }
  let d := s.dec c
  match d.vals.find? (fun e => e.1 == n) with
  | some (_, v, ok) => s.putDec c { d with now := v, valid := ok, vals := d.vals.filter fun e => decide (n < e.1) }
  | none => s.putDec c { d with now := 0#32, valid := false, vals := d.vals.filter fun e => decide (n < e.1) }

/-- The channels that hold anything. -/
def Stage.decsUsed (s : Stage) : List Nat := s.decs.map (·.1)

/-- Every channel closes sample `n`. -/
def Stage.decsClose (s : Stage) (n : Nat) (pdm : List (Nat × List Bool)) : Stage := s.decsUsed.foldl (Stage.decClose n pdm) s

/-- A channel at the boundary that opens a sample: the mismatch of its ratio is judged (R364). -/
def Stage.decJudge (s : Stage) (c : Nat) : Stage :=
  let d := s.dec c
  let ok := d.en && s.decMatch d
  let bad := d.en && !ok
  (s.putDec c { d with ratioOk := ok, bad := bad }).raiseIf (bad && !d.bad) pDecim 1

/-- The sample index moves on: what was due in the next sample is due in this one. -/
def Stage.decOpen (s : Stage) (c : Nat) : Stage :=
  let d := s.dec c
  match d.clearNext with
  | none => s
  | some i => s.putDec c { d with clearNext := none, clear := laterClear d.clear i }

/-! ### Configuration (R364 to R369) -/

/-- A boundary-applied write of a channel register takes effect (R366, R367, R369). -/
def Stage.decApply (s : Stage) (c off v : Nat) : Stage :=
  let d := s.dec c
  let clr (d : DecSt) : DecSt := { d with clear := laterClear d.clear 0 }
  if off = 0x084 then
    let same := bit v 31 == bit d.src 31 && bits v 17 0 == bits d.src 17 0
    s.putDec c (if same then { d with src := v } else clr { d with src := v, jobs := [], vals := [] })
  else if off = 0x088 then s.putDec c (clr { d with st01 := v })
  else if off = 0x08C then s.putDec c (clr { d with st23 := v })
  else if off = 0x0A0 then s.putDec c (clr { d with phase := bits v 11 0 })
  else s.putDec c { d with gc := d.gc.set ((off - 0x090) / 4) (bits v 23 0) }

/-- A channel register word is legal (R360, R364, R365, R377, R378). -/
def Stage.decLegal (s : Stage) (c off v : Nat) : Bool :=
  let d := s.dec c
  if off = 0x084 then decide (bits v 17 16 ≤ 1) && (bits v 17 16 == 1 || !bit v 6)
  else if off = 0x088 then bits v 14 12 != 7 && bits v 30 28 != 7 && decide (decQ v d.st23 ≤ 256)
  else if off = 0x08C then bits v 14 12 != 7 && bits v 30 28 != 7 && decide (decQ d.st01 v ≤ 256)
  else if off = 0x0A0 then true
  else bits v 23 0 != 0

/-- PDM_CLK_k runs within its limit (R362). -/
def Stage.pdmOk (s : Stage) (ratioCode : Nat) : Bool := decide (16 * 2 ^ ratioCode * s.fs ≤ 6144000)

/-- PDM_CLK_CFG_k was written: the clock starts or stops; a start clears its channels at the next boundary (R362, R369). -/
def Stage.pdmWritten (s : Stage) (k : Nat) : Stage :=
  let off := 0x0B0 + 4 * k
  let was := s.flag pDecim off 30
  let run := s.flag pDecim off 31
  let s := s.setFlag pDecim off 30 run
  if run && !was then
    s.decsUsed.foldl (fun s c =>
      if !decIsFast (s.dec c).src && decPdmClk (s.dec c).src == k then s.decClear c (s.datum.index + 1) 0 else s) s
  else s

/-- The PDM clocks follow a change of the engine rate (R362). -/
def Stage.pdmJudge (s : Stage) : Stage :=
  (upTo 4).foldl (fun s k =>
    let off := 0x0B0 + 4 * k
    if s.flag pDecim off 30 && !s.pdmOk (s.fld pDecim off 2 0) then (s.setFlag pDecim off 30 false).raise pDecim 2 else s) s

/-! ### SYNC (R368, R373) -/

/-- The enabled channels of the groups in a mask. -/
def Stage.syncChannels (s : Stage) (mask : Nat) : List Nat :=
  s.decsUsed.filter fun c => (s.dec c).en && bit mask (bits (s.dec c).src 27 24)

/-- The sample and input at which a channel's first input at or after datum `t` lies (R368). -/
def Stage.inputAt (s : Stage) (c t : Nat) : Nat × Nat :=
  let src := (s.dec c).src
  if decIsFast src then
    let p := decPort src
    let m := max 1 s.fastM
    let f := (ceilDiv (256 * (m : Int) * t * s.fs - s.psi p * m * unitsPerSec) (256 * unitsPerSec)).toNat
    (f / m, f % m)
  else
    let r := s.pdmRatio (decPdmClk src)
    let i := (ceilDiv (2 * (t : Int) * s.fs * r - (if bit src 0 then unitsPerSec else 0)) (2 * unitsPerSec)).toNat
    (i / r, i % r)

/-- A SYNC completes (R373). -/
def Stage.syncDone (s : Stage) (cmd : Option Cmd) (count : Nat) : Stage :=
  let s := (s.setFld pDecim 0x0D0 31 16 (satInc 0xFFFF (s.fld pDecim 0x0D0 31 16))).raise pDecim 3
  match cmd with
  | some c => s.complete pDecim c stDone (Word.ofNat count)
  | none => s

/-- A SYNC comes about at datum `t`: the channels of its groups are cleared (R368, R373). -/
def Stage.syncFire (s : Stage) (mask t : Nat) (cmd : Option Cmd) : Stage :=
  let l := s.syncChannels mask
  let s' := l.foldl (fun s c => let (k, i) := s.inputAt c t; s.decClear c k i) s
  if l = [] then s.syncDone cmd 0
  else
    let last := l.foldl (fun m c => max m (s.inputAt c t).1) s.datum.index
    { s' with syncs := s'.syncs ++ [{ mask := mask, datum := t, cmd := cmd, fired := true, doneAt := last + 1, count := l.length }] }

/-- The timed SYNCs whose instant has come by raw `t` (R368). -/
def Stage.syncInstant (s : Stage) (t : Nat) : Stage :=
  let s := s.tick t
  let due := s.syncs.filter fun x => !x.fired && decide (x.datum ≤ s.now)
  let s := { s with syncs := s.syncs.filter fun x => x.fired || !decide (x.datum ≤ s.now) }
  due.foldl (fun s x => s.syncFire x.mask x.datum x.cmd) s

/-- The SYNCs that complete at boundary `b` (R373). -/
def Stage.syncBoundary (s : Stage) (b : Nat) : Stage :=
  let due := s.syncs.filter fun x => x.fired && decide (x.doneAt ≤ b)
  let s := { s with syncs := s.syncs.filter fun x => !(x.fired && decide (x.doneAt ≤ b)) }
  due.foldl (fun s x => s.syncDone x.cmd x.count) s

/-- The timed SYNCs that wait. -/
def Stage.timedSyncs (s : Stage) : Nat := (s.syncs.filter fun x => !x.fired).length

/-- A timed SYNC is asked for: false when sixteen wait already (R373). -/
def Stage.syncAt (s : Stage) (mask t : Nat) (cmd : Option Cmd) : Stage × Bool :=
  if 16 ≤ s.timedSyncs then (s, false)
  else ({ s with syncs := s.syncs ++ [{ mask := mask, datum := t, cmd := cmd }] }, true)

/-- The datum that SEC [31:0] and NS name, with the upper seconds nearest to the datum (R266, R373). -/
def Stage.datumOf (s : Stage) (secLo ns : Nat) : Nat := nearestMod (2 ^ 32) (s.now / unitsPerSec) secLo * unitsPerSec + ns * unit

/-- The SYNC command starts (R373); NS outside its range is refused (R565). -/
def Stage.syncCmd (s : Stage) (c : Cmd) : Stage :=
  let mask := bits c.a0.toNat 15 0
  if bit c.a0.toNat 31 then
    let t := s.datumOf c.a1.toNat (bits c.a2.toNat 29 0)
    if 1000000000 ≤ bits c.a2.toNat 29 0 then s.complete pDecim c stRefused 0#32
    else if t < s.now then s.complete pDecim c stExpired 0#32
    else
      let (s, ok) := s.syncAt mask t (some c)
      if ok then s else s.complete pDecim c stRefused 0#32
  else if 4096 ≤ s.places then s.complete pDecim c stRefused 0#32
  else
    let w : WWrite := { due := s.dueNow, cls := c.cls, kind := .sync mask (some c), ord := s.order }
    { s with waiting := s.waiting ++ [w], order := s.order + 1 }

/-- A soft reset of DECIM (R376). -/
def Stage.decSoftReset (s : Stage) : Stage :=
  let s := s.syncs.foldl (fun s x => match x.cmd with
    | some c => s.complete pDecim c stAborted 0#32
    | none => s) { s with syncs := [] }
  let s := s.waiting.foldl (fun s w => match w.kind with
    | .sync _ (some c) => s.complete pDecim c stAborted 0#32
    | _ => s) s
  let s := { s with waiting := s.waiting.filter fun w => match w.kind with | .sync _ _ => false | _ => true }
  let s := s.decsUsed.foldl (fun s c =>
    let d := s.dec c
    s.putDec c { d with line := [], hist := [[], [], [], []], since := 0, jobs := [], vals := [], now := 0#32, valid := false }) s
  s.clearRegs pDecim (fun o => o == 0x0C8 || o == 0x0CC || o == 0x0D0)

/-! ### Registers (R376) -/

/-- Whether a channel's input runs. -/
def Stage.decInputRuns (s : Stage) (src : Nat) : Bool :=
  if decIsFast src then decide (2 ≤ (s.port (decPort src)).rx.st ∧ (s.port (decPort src)).rx.st ≤ 3)
  else s.pdmRun (decPdmClk src)

/-- DEC_SETTLE (R371). -/
def DecSt.settle (d : DecSt) : Nat :=
  let q := decQ d.st01 d.st23
  (d.phase + decSpan d.st01 d.st23 + 1 + q - 1) / q - 1

/-- DEC_DELAY (R375). -/
def Stage.decDelayReg (s : Stage) (d : DecSt) : Nat :=
  if !d.ratioOk || !s.decInputRuns d.src then 0
  else
    let q := decQ d.st01 d.st23
    let g := (256 * (2 * d.phase + decSpan d.st01 d.st23) + q) / (2 * q)
    g + (if decIsFast d.src then s.portDelay (decPort d.src) false else 512)

/-- The computed registers of the DECIM page. -/
def Stage.decRead (s : Stage) (off : Nat) : Option Nat :=
  let d := s.dec (s.fld pDecim 0x080 5 0)
  let validMask (base : Nat) := (upTo 32).foldl (fun m i => if (s.dec (base + i)).valid then m + 2 ^ i else m) 0
  if off = 0x084 then some d.src
  else if off = 0x088 then some d.st01
  else if off = 0x08C then some d.st23
  else if 0x090 ≤ off ∧ off ≤ 0x09C then some (d.gc.getD ((off - 0x090) / 4) 0)
  else if off = 0x0A0 then some d.phase
  else if off = 0x0A4 then
    let q := decQ d.st01 d.st23
    let left := (d.phase + decSpan d.st01 d.st23 + 1 - d.since + q - 1) / q
    some ((if d.valid then 2 ^ 31 else 0) + (if d.ratioOk then 2 ^ 30 else 0) + (if d.en && d.ratioOk then left % 65536 else 0))
  else if off = 0x0A8 then some d.settle
  else if off = 0x0AC then some (s.decDelayReg d)
  else if off = 0x0C0 then some (validMask 0)
  else if off = 0x0C4 then some (validMask 32)
  else if off = 0x0D0 then some (s.fld pDecim 0x0D0 31 16 * 65536 + s.timedSyncs)
  else none

end Sys2Proof.Machine
end

