-- ==== Sys2Proof/Machine/Patch.lean ====
section
/-!
DEFINITION. The fixed patch: routes, dips, tone generators and interpolators (R215 to R234, R242 to R245).
-/
namespace Sys2Proof.Machine

/-- The PATCH page. -/
def pPatch : Nat := 0x2E0

def Stage.withPatch (s : Stage) (f : PatchSt → PatchSt) : Stage := { s with patch := f s.patch }

/-- N_P (R225). -/
def Stage.dipN (s : Stage) : Nat := samplesOf (s.fld pPatch 0x080 6 0) s.fs

/-! ### Routes (R215, R219) -/

def routeClass (v : Nat) : Nat := bits v 27 24

/-- A legal input entry. -/
def inRouteLegal (v : Nat) : Bool :=
  let i := bits v 19 0
  bits v 31 28 == 0 && bits v 23 20 == 0 &&
    (match routeClass v with
     | 0 => i == 0
     | 1 => decide (i < 1024)
     | 2 => decide (i < 64)
     | 3 => decide (i < 512)
     | 4 => decide (i < 4096)
     | 5 => decide (i < 2048)
     | 6 => decide (i < 4)
     | _ => false)

/-- A destination index that exists (R218). -/
def destLegal (d : Nat) : Bool := decide (d < 0x640) || decide (0x800 ≤ d ∧ d < 0x2000)

/-- A legal output entry (R219). -/
def outRouteLegal (v : Nat) : Bool :=
  let i := bits v 11 0
  bits v 31 28 == 0 && bits v 23 12 == 0 &&
    (match routeClass v with
     | 0 => i == 0
     | 1 => true
     | 2 => true
     | 3 => decide (i < 4)
     | _ => false)

/-- The key of an entry among the dips. -/
def dipKey (out : Bool) (i : Nat) : Nat := if out then 0x10000 + i else i

def Stage.routeOf (s : Stage) (out : Bool) (i : Nat) : Nat :=
  if out then Tab.get 0 s.patch.outRoute i else Tab.get 0 s.patch.inRoute i
def Stage.setRoute (s : Stage) (out : Bool) (i v : Nat) : Stage :=
  s.withPatch fun p => if out then { p with outRoute := Tab.put 0 p.outRoute i v } else { p with inRoute := Tab.put 0 p.inRoute i v }
def Stage.dip (s : Stage) (out : Bool) (i : Nat) : Option Dip := Tab.get none s.patch.dips (dipKey out i)
def Stage.setDip (s : Stage) (out : Bool) (i : Nat) (d : Option Dip) : Stage :=
  s.withPatch fun p => { p with dips := Tab.put none p.dips (dipKey out i) d }

/-- A port in the FAST or FOREIGN domain, which no TDM route reaches (R216, R219). -/
def Stage.oddPort (s : Stage) (p : Nat) : Bool := s.portDomain p != 0

/-- The entry names a TDM slot of such a port. -/
def Stage.entryOdd (s : Stage) (out : Bool) (i v : Nat) : Bool :=
  if out then decide (i < 0x400) && routeClass v != 0 && s.oddPort (i / 32)
  else routeClass v == 1 && s.oddPort (bits v 9 5)

/-- A route write takes effect at its boundary (R225, R226). -/
def Stage.routeApply (s : Stage) (out : Bool) (i v : Nat) : Stage :=
  let old := s.routeOf out i
  let s := s.raiseIf (s.entryOdd out i v) pPatch 0
  match s.dip out i with
  | none =>
    if v = old then s
    else
      let s := s.setRoute out i v
      if s.dipN = 0 then s else s.setDip out i (some { old := old, down := true, j := 0, n := s.dipN, fresh := true })
  | some d =>
    if d.down then
      let s := s.setRoute out i v
      if d.fresh && d.j == 0 && v == d.old then s.setDip out i none else s
    else if d.n ≤ d.j then
      if v = old then s
      else
        let s := s.setRoute out i v
        s.setDip out i (if s.dipN = 0 then none else some { old := old, down := true, j := 0, n := s.dipN, fresh := true })
    else (s.setRoute out i v).setDip out i (some { d with old := old, down := true, j := d.n - d.j, fresh := true })

/-- A dip at the end of a boundary: the step of the sample it opens, or nothing when it is over (R225). -/
def Dip.next (d : Dip) : Option Dip :=
  if d.down then
    (if d.n ≤ d.j then some { d with down := false, j := 1, fresh := false } else some { d with j := d.j + 1, fresh := false })
  else if d.n ≤ d.j then none else some { d with j := d.j + 1, fresh := false }

/-- A half dip likewise (R222, R223). -/
def HalfDip.next (h : HalfDip) : Option HalfDip := if h.n ≤ h.j then none else some { h with j := h.j + 1 }

/-- Every dip moves on at the end of a boundary. -/
def Stage.dipsNext (s : Stage) : Stage :=
  s.withPatch fun p => { p with
    dips := p.dips.filterMap fun (k, d) => match d.bind Dip.next with
      | some d => some (k, some d)
      | none => none,
    graphRamp := p.graphRamp.bind HalfDip.next, patchRamp := p.patchRamp.bind HalfDip.next }

/-- The route an entry is heard with, and its dip gain (R225). -/
def Stage.heard (s : Stage) (out : Bool) (i : Nat) : Nat × Int :=
  match s.dip out i with
  | none => (s.routeOf out i, 2 ^ 32)
  | some d => if d.down then (d.old, raisedCos false d.j d.n) else (s.routeOf out i, raisedCos true d.j d.n)

/-- The gain of a half dip. -/
def halfGain (h : Option HalfDip) : Int := match h with
  | none => 2 ^ 32
  | some h => raisedCos (!h.down) h.j h.n

/-! ### Tone generators (R228) -/

/-- The value of TONE_g for sample `n`. -/
def Stage.toneAt (s : Stage) (g n : Nat) : Word :=
  let v := Tab.get 0 s.patch.tone g
  let i := n - Tab.get 0 s.patch.toneFrom g
  let mode := bits v 31 30
  if mode = 0 then 0#32
  else if mode = 1 ∧ i = 0 then 0#32
  else Config.tone mode (if mode = 1 then bits v 14 0 else 0) (bits v 23 16) s.rateCode i

/-- A boundary-applied write of TONE_CFG: a change of MODE or FREQ restarts the generator (R228). -/
def Stage.toneApply (s : Stage) (g v b : Nat) : Stage :=
  let old := Tab.get 0 s.patch.tone g
  let restart := bits old 31 30 != bits v 31 30 || bits old 14 0 != bits v 14 0
  s.withPatch fun p => { p with tone := Tab.put 0 p.tone g v, toneFrom := if restart then Tab.put 0 p.toneFrom g b else p.toneFrom }

/-- A legal TONE_CFG word (R243). -/
def toneLegal (v : Nat) : Bool :=
  decide (bits v 23 16 ≤ 240) && (bits v 31 30 != 1 || decide (20 ≤ bits v 14 0 ∧ bits v 14 0 ≤ 20000))

/-! ### The input patch (R216, R217) -/

/-- The value a route names for sample `n` (R216). -/
def Stage.inValue (s : Stage) (n v : Nat) : Word :=
  let i := bits v 19 0
  match routeClass v with
  | 1 =>
    let p := bits v 9 5
    let slot := bits v 4 0
    if s.portOn p && bit (s.regN (pPort p) 0x088) slot && !s.oddPort p && decide (s.portRX p ≤ n) then s.rxSlot p (n - s.portRX p) slot
    else 0#32
  | 2 => (s.dec i).now
  | 3 => Tab.get 0#32 s.patch.brIn i
  | 4 => Tab.get 0#32 s.patch.islosIn i
  | 5 => Tab.get 0#32 s.patch.netIn i
  | 6 => s.toneAt i n
  | _ => 0#32

/-- The modes in which ingress comes from the principal (R217). -/
def forwardedMode (m : Nat) : Bool := m == mUnderstudy || m == mCatchUp

/-- What the input patch writes to IN_k in sample `n`. -/
def Stage.ingressValue (s : Stage) (n k : Nat) : Word :=
  if forwardedMode s.mode then Tab.get 0#32 s.patch.fwdIn k
  else
    let (r, g) := s.heard false k
    applyGain (s.inValue n r) g

/-- The ingress slots whose write can change anything: those routed, dipping or forwarded, and those that do not read a quiet
zero. The others are written with the zero they hold. -/
def Stage.ingressKeys (s : Stage) : List Nat :=
  let add (t : Tab Unit) (l : List Nat) : Tab Unit := l.foldl (fun t k => if k < 0x1000 then Tab.ins t k () else t) t
  let t := add [] (s.patch.inRoute.map (·.1))
  let t := add t (s.patch.dips.map (·.1))
  let t := add t (s.patch.fwdIn.map (·.1))
  let t := s.red.own.foldl (fun t e => add t (e.2.map (·.1))) t
  let t := add t (s.exch.cur.map (·.1))
  let t := add t (s.exch.nxt.map (·.1))
  let t := add t ((s.exch.quiet.filter fun e => e.2.isNone).map (·.1))
  t.map (·.1)

/-- The values for sample `n`, before the delay of a pair. -/
def Stage.ingressNow (s : Stage) (n : Nat) : List (Nat × Word) := s.ingressKeys.map fun k => (k, s.ingressValue n k)

/-- In a pair what the input patch writes is V samples old (R457). -/
def Stage.ingressDelay (s : Stage) : Option Nat := if s.roleCfg = 1 then some (s.fld 0x270 0x080 14 8) else none

/-- The writes of sample `n` (R216, R217, R457): in a pair the value obtained for sample n − V, which is the part's own where it obtained one in its
mode of then, and else the forwarded one. -/
def Stage.ingressWrites (s : Stage) (n : Nat) : List (Nat × Word) :=
  match s.ingressDelay with
  | none => s.ingressNow n
  | some v =>
    let vals := ((if v ≤ n then s.red.own.find? fun e => e.1 == n - v else none).map (·.2)).getD s.patch.fwdIn
    s.ingressKeys.map fun k => (k, Tab.get 0#32 vals k)

/-- This part's own ingress values for sample `n` are kept for their later writing and for forwarding (R457). -/
def Stage.ingressKeep (s : Stage) (n : Nat) : Stage :=
  if s.roleCfg = 1 ∧ !forwardedMode s.mode then
    let t := (s.ingressNow n).foldl (fun t e => Tab.put 0#32 t e.1 e.2) ([] : Tab Word)
    { s with red := { s.red with own := ((n, t) :: s.red.own).take 160 } }
  else s

/-- The ingress slots whose value of this sample carries the held mark (R473). -/
def Stage.ingressMarks (s : Stage) : List Nat :=
  (s.patch.inRoute.filter fun e => routeClass e.2 == 4 && s.patch.islosHeld.contains (bits e.2 11 0)).map (·.1)

/-- Writes of the input patch land in the write bank (R14, R17). -/
def Stage.ingressLand (s : Stage) (l : List (Nat × Word)) : Stage := l.foldl (fun s w => s.exchWrite rankPatch w.1 w.2) s

/-- Sample `n` closes at the input patch; `done` its done point, none while it is still working (R31, R48). -/
def Stage.inClose (s : Stage) (n : Nat) (done : Option Nat) : Stage :=
  let blk := s.blk 128
  let s := (s.ingressKeep n).withPatch fun p => { p with markNxt := s.ingressMarks }
  match s.patch.inHeld, done with
  | some l, some d => ((s.ingressLand l).withPatch fun p => { p with inHeld := none }).setBlk 128 { blk with busy := false, done := some d }
  | some _, none => s
  | none, some d => (s.ingressLand (s.ingressWrites n)).setBlk 128 { blk with busy := false, n := n, done := some d }
  | none, none => (s.withPatch fun p => { p with inHeld := some (s.ingressWrites n) }).setBlk 128 { blk with busy := true, n := n, done := none }

/-! ### The output patch (R218 to R222) -/

/-- The commit dip of egress channel `k` in sample `n` (R198, R201). -/
def Stage.commitGain (s : Stage) (k n : Nat) : Int :=
  if s.graph.stuck.contains k then 0
  else match s.graph.commit with
    | none => 2 ^ 32
    | some c =>
      if !c.dips.contains k ∨ n < c.c then 2 ^ 32
      else if n < c.s then raisedCos false (n - c.c + 1) c.n
      else if n < c.u then 0
      else if n < c.done then raisedCos true (n - c.u + 1) c.n
      else 2 ^ 32

/-- The value of an output source in sample `n`, and whether it is silent (R219 to R222, R350); in TRIANGULATE egress and ingress
routes hand on the voted and held values of sample n − V (R481). -/
def Stage.outValue (s : Stage) (n v : Nat) : Word × Bool :=
  let i := bits v 11 0
  match routeClass v with
  | 1 =>
    let x := if s.patch.graphOn || s.patch.graphRamp.isSome then
        (match s.red.voted with
         | some (e, _) => Tab.get 0#32 e i
         | none => s.exchRead (0x2000 + i))
      else 0#32
    (applyGain (applyGain x (s.commitGain i n)) (halfGain s.patch.graphRamp), s.slotSilent (0x2000 + i))
  | 2 =>
    let r := if i < 0x1000 then Tab.get (some 1) s.patch.holdRun i else some 1
    (match s.red.voted with
     | some (_, h) => Tab.get 0#32 h i
     | none => Tab.get 0#32 s.patch.hold i, match r with
      | none => false
      | some t => decide (s.silNh ≤ s.exch.tick - t))
  | 3 => (s.toneAt i n, bits (Tab.get 0 s.patch.tone i) 31 30 == 0)
  | _ => (0#32, true)

/-- What destination `d` is handed in sample `n` (R225, R227). -/
def Stage.outDest (s : Stage) (n d : Nat) : Word × Bool :=
  let (r, g) := s.heard true d
  let (x, q) := s.outValue n r
  (applyGain (applyGain x g) (halfGain s.patch.patchRamp), q)

/-! ### Interpolators (R231 to R234) -/

/-- A word of interpolator `i`: 0 TGT, 1 ST01, 2 ST23. -/
def interpReset (j : Nat) : Nat := if j = 0 then 0 else 0x00010001
def Stage.interpWord (s : Stage) (i j : Nat) : Nat := Tab.get (interpReset j) s.patch.interp (4 * i + j)
def ipLen (f : Nat) : Nat := let l := bits f 9 0; if l = 0 then 1024 else l
def ipRatio (f : Nat) : Nat := 2 ^ bits f 13 12
def Stage.interpFields (s : Stage) (i : Nat) : List Nat := stageFields (s.interpWord i 1) (s.interpWord i 2)
def Stage.interpEn (s : Stage) (i : Nat) : Bool := bit (s.interpWord i 0) 31

/-- The channel's ratios give M (R232). -/
def Stage.interpOk (s : Stage) (i : Nat) : Bool := (s.interpFields i).foldl (fun q f => q * ipRatio f) 1 == s.fastM

/-- A sum divided by L (R231): exactly for a power of two, else by the multiplier held to 24 fraction bits. -/
def ipScale (l : Nat) (sum : Int) : Int :=
  let f := Nat.log2 l
  if l = 2 ^ f then satI 32 (roundHalfEven sum l)
  else
    let c := f + 1
    let m := 2 ^ (24 + c) / l + (if Config.mulUp l then 1 else 0)
    satI 32 (roundHalfEven (sum * m) (2 ^ (24 + c)))

/-- One stage over its inputs: each is multiplied by R and followed by R − 1 zeros, and the moving sum of L is divided (R231). -/
def ipStage (field : Nat) (xs hist : List Int) : List Int × List Int :=
  let r := ipRatio field
  let l := ipLen field
  let ys : List Int := xs.flatMap fun x => (x * (r : Int)) :: (upTo (r - 1)).map fun _ => (0 : Int)
  let (out, h) := ys.foldl (fun (a : List Int × List Int) y =>
    let w := (y :: a.2).take l
    (a.1 ++ [ipScale l (w.foldl (· + ·) 0)], w.take (l - 1))) (([] : List Int), hist)
  (out, h)

/-- The cascade. -/
def ipChain : List (Nat × List Int) → List Int → List Int × List (List Int)
  | [], xs => (xs, [])
  | (f, h) :: t, xs =>
    let (ys, h') := ipStage f xs h
    let (zs, hs) := ipChain t ys
    (zs, h' :: hs)

/-- The channels in use. -/
def Stage.interpsOn (s : Stage) : List Nat := (upTo 64).filter fun i => Tab.find s.patch.interp (4 * i) != none && s.interpEn i

/-- The target of a channel: 32 × (port − 28) + slot. -/
def Stage.interpTarget (s : Stage) (i : Nat) : Nat := 32 * bits (s.interpWord i 0) 9 8 + bits (s.interpWord i 0) 4 0

/-- One channel runs over the value it is handed; the lower-numbered of two channels of a slot drives it (R231, R232). -/
def Stage.interpRun (a : Tab (List Word) × Stage) (ix : Nat × Word) : Tab (List Word) × Stage :=
  let (t, s) := a
  let i := ix.1
  let tgt := s.interpTarget i
  let (ys, s) :=
    if s.interpOk i then
      let hs := Tab.get [[], [], [], []] s.patch.interpHist i
      let fs := s.interpFields i
      let (ys, hs) := ipChain ((upTo 4).map fun j => (fs.getD j 1, hs.getD j [])) [ix.2.toInt]
      (ys, s.withPatch fun p => { p with interpHist := Tab.put [[], [], [], []] p.interpHist i hs })
    else ((upTo s.fastM).map fun _ => (0 : Int), s)
  (if (Tab.find t tgt).isSome then t else Tab.ins t tgt (ys.map Word.ofInt), s)

/-- INTERP_RATIO and INTERP_CLASH at a boundary (R232). -/
def Stage.interpJudge (s : Stage) : Stage :=
  let on := s.interpsOn
  let bad := on.filter fun i => !s.interpOk i
  let clash := on.filter fun i => on.any fun j => decide (j < i) && s.interpTarget j == s.interpTarget i
  let s1 := s.raiseIf (bad.any fun i => !s.patch.interpBad.contains i) pPatch 1
  (s1.raiseIf (clash.any fun i => !s.patch.interpClash.contains i) pPatch 2).withPatch fun p =>
    { p with interpBad := bad, interpClash := clash }

/-- A boundary-applied write of an interpolator register clears the channel's history (R233). -/
def Stage.interpApply (s : Stage) (i j v : Nat) : Stage :=
  s.withPatch fun p => { p with interp := Tab.put (interpReset j) p.interp (4 * i + j) v,
                                interpHist := Tab.put [[], [], [], []] p.interpHist i [[], [], [], []] }

/-- INTERP_DELAY (R234). -/
def Stage.interpDelay (s : Stage) (i : Nat) : Nat :=
  ((s.interpFields i).foldl (fun (a : Nat × Nat) f =>
    let q := a.2 * ipRatio f
    (a.1 + (ipLen f - 1) * s.fastM / q, q)) (0, 1)).1

/-! ### Handing on -/

/-- The destinations that can hear anything. -/
def Stage.destKeys (s : Stage) : List Nat :=
  let t := (s.patch.outRoute.map (·.1)).foldl (fun t k => Tab.ins t k ()) ([] : Tab Unit)
  ((s.patch.dips.map (·.1)).foldl (fun t k => if 0x10000 ≤ k then Tab.ins t (k - 0x10000) () else t) t).map (·.1)

/-- What sample `n` hands on. -/
def Stage.handOn (s : Stage) (n : Nat) : Handed × Stage :=
  let l := s.destKeys.map fun d => (d, s.outDest n d)
  let vals := l.foldl (fun t e => Tab.put 0#32 t e.1 e.2.1) ([] : Tab Word)
  let loud := (l.filter fun e => (decide (e.1 < 0x400) || decide (0x1000 ≤ e.1)) && !e.2.2).map (·.1)
  let marked := (s.destKeys.filter fun d => decide (0x1000 ≤ d) &&
    (let r := (s.heard true d).1; routeClass r == 2 && s.patch.markHold.contains (bits r 11 0)))
  let on := s.interpsOn
  let (fast, s) := (on.map fun i => (i, Tab.get 0#32 vals (0x600 + i))).foldl Stage.interpRun (([] : Tab (List Word)), s)
  let loudFast := (on.filter fun i => l.any fun e => e.1 == 0x600 + i && !e.2.2).map fun i => 32 * 28 + s.interpTarget i
  ({ n := n, vals := vals, loud := loud ++ loudFast, fast := fast, marked := marked }, s)

/-- The ingress hold takes what this sample reads (R220). -/
def Stage.holdTake (s : Stage) : Stage :=
  let h := Tab.keep (fun k => decide (k < 0x1000)) s.exch.cur
  let r := Tab.keep (fun k => decide (k < 0x1000)) s.exch.quiet
  s.withPatch fun p => { p with hold := h, holdRun := r, markHold := p.markCur, markCur := p.markNxt }

/-- Sample `n` closes at the output patch; `done` its done point, none while it is still working (R31, R48, R345). -/
def Stage.outClose (s : Stage) (n : Nat) (done : Option Nat) : Stage :=
  let blk := s.blk 129
  match s.patch.outHeld, done with
  | [], some d =>
    let (h, s) := s.handOn n
    ((s.withPatch fun p => { p with handed := (h :: p.handed).take 256 }).holdTake).setBlk 129 { blk with busy := false, n := n, done := some d }
  | [], none =>
    let (h, s) := s.handOn n
    ((s.withPatch fun p => { p with outHeld := [h] }).holdTake).setBlk 129 { blk with busy := true, n := n, done := none }
  | h :: t, some d => ((s.withPatch fun p => { p with outHeld := h :: t ++ [{ h with n := n }] }).outDone d).holdTake
  | h :: t, none => (s.withPatch fun p => { p with outHeld := h :: t ++ [{ h with n := n }] }).holdTake

/-! ### Boundaries, modes and resets -/

/-- DOMAIN where a routed port enters the fast or the foreign domain (R216, R219). -/
def Stage.domainJudge (s : Stage) : Stage :=
  let odd := ((upTo 32).filter s.oddPort).map fun p => 32 * s.portDomain p + p
  let entered := (odd.filter fun x => !s.patch.oddPorts.contains x).map (· % 32)
  let hit (p : Nat) : Bool :=
    s.patch.inRoute.any (fun e => routeClass e.2 == 1 && bits e.2 9 5 == p)
      || s.patch.outRoute.any (fun e => decide (e.1 < 0x400) && e.1 / 32 == p && routeClass e.2 != 0)
  (s.raiseIf (entered.any hit) pPatch 0).withPatch fun p => { p with oddPorts := odd }

/-- The end of a boundary at the patch. -/
def Stage.patchBoundary (s : Stage) : Stage := (s.dipsNext.domainJudge).interpJudge

/-- The graph starts or stops running (R222). -/
def Stage.graphRun (s : Stage) (on : Bool) : Stage :=
  if s.patch.graphOn = on then s
  else
    let h : Option HalfDip := if s.dipN = 0 then none else some { down := !on, j := 0, n := s.dipN }
    s.withPatch fun p => { p with graphOn := on, graphRamp := if p.patchOn then h else none }

/-- The modes in which the fixed patch runs (R223). -/
def patchMode (m : Nat) : Bool := decide (4 ≤ m ∧ m ≤ 10)

/-- The fixed patch starts at boundary `b` (R223). -/
def Stage.patchStart (s : Stage) (b : Nat) : Stage :=
  if s.patch.patchOn then s
  else
    let h : Option HalfDip := if s.dipN = 0 then none else some { down := false, j := 0, n := s.dipN }
    s.withPatch fun p => { p with patchOn := true, patchFrom := b, handed := [], outHeld := [], inHeld := none, patchRamp := h }

/-- The fixed patch runs its down half before it stops (R223). -/
def Stage.patchFadeOut (s : Stage) : Stage :=
  s.withPatch fun p => { p with patchRamp := if s.dipN = 0 then none else some { down := true, j := 0, n := s.dipN } }

/-- The fixed patch stops. -/
def Stage.patchStop (s : Stage) : Stage :=
  let p := { s.patch with patchOn := false, patchRamp := none, graphRamp := none, outHeld := [], inHeld := none, handed := [] }
  (({ s with patch := p }).setBlk 128 {}).setBlk 129 {}

/-- A soft reset of PATCH: every route dip ends at its new source, and the ingress hold clears (R242). -/
def Stage.patchSoftReset (s : Stage) : Stage := s.withPatch fun p => { p with dips := [], hold := [], holdRun := [], markHold := [] }

/-- The computed registers of the PATCH page (R242). -/
def Stage.patchRead (s : Stage) (off : Nat) : Option Nat :=
  let i := s.fld pPatch 0x0A0 5 0
  if off = 0x08C then some (s.routeOf false (s.fld pPatch 0x088 11 0))
  else if off = 0x094 then some (s.routeOf true (s.fld pPatch 0x090 12 0))
  else if off = 0x09C then some (Tab.get 0 s.patch.tone (s.fld pPatch 0x098 1 0))
  else if off = 0x0A4 then some (s.interpWord i 0)
  else if off = 0x0A8 then some (s.interpWord i 1)
  else if off = 0x0AC then some (s.interpWord i 2)
  else if off = 0x0B0 then some (s.interpDelay i % 65536)
  else if off = 0x0B4 then some s.patch.dips.length
  else none

end Sys2Proof.Machine
end

