-- ==== Sys2Proof/Machine/Link.lean ====
section
/-!
DEFINITION. The Islos links: lanes of a bond, audio frames, receive groups, the control channel and heartbeats (R403 to R427).
-/
namespace Sys2Proof.Machine

/-- The page of ISL_LINK_n. -/
def pLink (n : Nat) : Nat := 0x270 + n

def Stage.link (s : Stage) (n : Nat) : LinkSt := Tab.get {} s.links n
def Stage.putLink (s : Stage) (n : Nat) (l : LinkSt) : Stage := { s with links := Tab.put {} s.links n l }
def Stage.linkEn (s : Stage) (n : Nat) : Bool := s.flag (pLink n) 0x080 31
def Stage.linkState (s : Stage) (n : Nat) : Nat := s.fld (pLink n) 0x084 1 0
def Stage.ctrlOk (s : Stage) (n : Nat) : Bool := s.flag (pLink n) 0x084 18
def Stage.hbOk (s : Stage) (n : Nat) : Bool := s.flag (pLink n) 0x084 17
def Stage.rxOffset (s : Stage) (n : Nat) : Nat := s.fld (pLink n) 0x080 14 8

/-- ROLE_CFG.CFG is PAIRED, or TRIANGULATED (R452). -/
def Stage.paired (s : Stage) : Bool := s.roleCfg == 1
def Stage.triangulated (s : Stage) : Bool := decide (2 ≤ s.roleCfg)
def Stage.isPrimary (s : Stage) : Bool := s.flag 0x2A0 0x080 2
def Stage.rank (s : Stage) : Nat := s.fld 0x2A0 0x080 5 4
def Stage.fwdCount (s : Stage) : Nat := s.fld 0x2A0 0x08C 12 0
def Stage.voteCount (s : Stage) : Nat := s.fld 0x2A0 0x0A0 28 16

/-- GRAPH_ID of the running graph (R209). -/
def Stage.graphId (s : Stage) : Nat := s.reg64 0x2F0 0x094

/-- VERSION of SYS: the stepping and the running firmware (R558). -/
def Stage.version (s : Stage) : Nat := 2 ^ 24 + s.fwVersion % 2 ^ 24

/-! ### The control channel (R415 to R417) -/

/-- The lanes of link `n` wake (R422). -/
def Stage.linkWake (s : Stage) (n : Nat) : Stage :=
  (upTo 4).foldl (fun s k => if s.laneStat (4 * n + k) 27 27 = 1 then s.setLaneStat (4 * n + k) 27 27 0 else s) s

/-- Messages leave while the window of 32 has room. -/
def Stage.ctlPump (s : Stage) (n : Nat) : Nat → Stage
  | 0 => s
  | k + 1 =>
    let l := s.link n
    match l.ctl.queue with
    | [] => s
    | m :: t =>
      if 32 ≤ l.ctl.out.length ∨ s.ctrlOk n = false then s
      else
        let c := l.ctl
        let c := { c with queue := t, out := c.out ++ [(c.seq, m)], seq := (c.seq + 1) % 256, ackDue := false }
        ((s.putLink n { l with ctl := c }).emit (.ctl n l.ctl.seq c.expect m)).ctlPump n k

/-- A message is sent on link `n`; without a control channel it is lost (R416). -/
def Stage.ctlSend (s : Stage) (n : Nat) (m : CtlMsg) : Stage :=
  if s.ctrlOk n then
    let l := s.link n
    ((s.linkWake n).putLink n { l with ctl := { l.ctl with queue := l.ctl.queue ++ [m] } }).ctlPump n 32
  else s

/-- A message ahead of every message not yet sent (R465). -/
def Stage.ctlSendFirst (s : Stage) (n : Nat) (m : CtlMsg) : Stage :=
  if s.ctrlOk n then
    let l := s.link n
    ((s.linkWake n).putLink n { l with ctl := { l.ctl with queue := m :: l.ctl.queue } }).ctlPump n 32
  else s

/-- HELLO of R455 and R475. -/
def Stage.helloMsg (s : Stage) : CtlMsg :=
  .hello s.roleCfg (if s.isPrimary then 1 else 0) s.rank s.version s.graphId

/-- Link `n` joins this part to a member of its group (R453). -/
def Stage.memberLink (s : Stage) (n : Nat) : Bool := (s.paired && n == 0) || (s.triangulated && decide (n < 2))

/-- The control channel is reset (R416). -/
def Stage.ctlReset (s : Stage) (n : Nat) : Stage := s.putLink n { s.link n with ctl := {} }

/-- CTRL_OK rises, and a HELLO is sent to a group member (R416, R455). -/
def Stage.ctlUp (s : Stage) (n : Nat) : Stage :=
  let s := (s.ctlReset n).setFlag (pLink n) 0x084 18 true
  if s.memberLink n then s.ctlSend n s.helloMsg else s

/-! ### Lanes of a link (R403 to R405) -/

/-- The lanes of the transmit set, as a mask. -/
def Stage.txSet (s : Stage) (n : Nat) : Nat :=
  let park := Nat.lor (s.fld (pLink n) 0x090 3 0) (s.link n).peerPark
  (upTo (s.linkWidth n)).foldl (fun m k => if s.laneState (4 * n + k) == lnUp && !bit park k then m + 2 ^ k else m) 0

/-! ### Capacity (R414) -/

/-- The channels of group `g` of `c`. -/
def groupSize (c g : Nat) : Nat := min 64 (c - 64 * g)
def groupsOf (c : Nat) : Nat := (c + 63) / 64

/-- Columns per block of the first `gs` groups. -/
def blockColumns (c b w gs : Nat) : Nat := (upTo gs).foldl (fun a g => a + 4 + (8 + 4 * groupSize c g * b + w - 1) / w) 0

/-- The column budget per sample: floor(0.8 × r ÷ (10 × f)). -/
def columnBudget (r f : Nat) : Nat := 8 * r / (100 * f)

/-- `gs` groups of `c` channels fit `w` lanes. -/
def fitsGroups (c b w rate fs gs : Nat) : Bool :=
  let n := min c (64 * gs)
  decide (blockColumns c b w gs ≤ b * columnBudget (baudOf rate) fs) && decide (n * fs ≤ 393216000) && decide (n ≤ 4096)

/-- `c` channels fit. -/
def Stage.fits (s : Stage) (c b w rate : Nat) : Bool := w != 0 && fitsGroups c b w rate s.fs (groupsOf c)

/-- BLOCK + 1 of link `n`. -/
def Stage.blockOf (s : Stage) (n : Nat) : Nat := s.fld (pLink n) 0x080 21 16 + 1

/-- The highest rate in RATES of the bond's first lane. -/
def Stage.topRate (s : Stage) (n : Nat) : Nat :=
  (upTo 5).foldl (fun m i => if bit (s.laneCfg (4 * n) 28 24) i then i else m) 0

/-- A lane count of the transmit set and its agreed rate. -/
def Stage.txLanes (s : Stage) (n : Nat) : Nat := popCount 4 (s.txSet n)
def Stage.linkRate (s : Stage) (n : Nat) : Nat :=
  match (upTo 4).find? fun k => bit (s.txSet n) k with
  | some k => s.laneRate (4 * n + k)
  | none => 0

/-- The channels sent on link `n` (R408, R457, R481, R485). -/
def Stage.txCount (s : Stage) (n : Nat) : Nat :=
  if s.paired && n == 0 then (if s.mode = mPrincipal then s.fwdCount + 1 else 0)
  else if s.triangulated && decide (n < 2) then
    (if s.mode = mTriangulate then s.voteCount + (match s.red.source with | some c => if c.link = n then 1 else 0 | none => 0) else 0)
  else s.fld (pLink n) 0x088 28 16

/-- The channels received on link `n`; on link 0 of a pair those a principal forwards, in place of RX_MAP (R457, R458). -/
def Stage.rxCount (s : Stage) (n : Nat) : Nat :=
  if s.paired && n == 0 then s.fwdCount + 1
  else if s.triangulated && decide (n < 2) then
    (match s.red.catchup with | some c => if c.link = n then s.voteCount + 1 else s.voteCount | none => s.voteCount)
  else s.fld (pLink n) 0x08C 28 16

/-- Groups are shed or sent again as the channels fit (R414). -/
def Stage.shedJudge (s : Stage) (n : Nat) : Stage :=
  let c := s.txCount n
  let w := s.txLanes n
  let b := s.blockOf n
  let r := s.linkRate n
  if w = 0 ∨ s.fits c b w r then (s.setFld (pLink n) 0x084 19 19 0).setFld (pLink n) 0x084 14 8 0
  else
    let g := ((upTo (groupsOf c + 1)).filter fun g => fitsGroups c b w r s.fs g).foldl max 0
    let was := s.flag (pLink n) 0x084 19
    ((s.setFld (pLink n) 0x084 19 19 1).setFld (pLink n) 0x084 14 8 g).raiseIf (!was) (pLink n) 5

/-- LINK_STAT and the control channel follow the lanes (R405, R416, R426, R427, R463). -/
def Stage.linkUpdate (s : Stage) (n : Nat) : Stage :=
  let old := s.linkState n
  let set := if s.linkEn n then s.txSet n else 0
  let w := popCount 4 set
  let st := if !s.linkEn n then 0 else if w = 0 then 1 else if w < s.linkWidth n then 2 else 3
  let parked := (upTo 4).foldl (fun m k =>
    if s.laneState (4 * n + k) == lnUp && bit (s.link n).peerPark k then m + 2 ^ k else m) 0
  let s := (((s.setFld (pLink n) 0x084 31 28 set).setFld (pLink n) 0x084 23 20 parked).setFld (pLink n) 0x084 1 0 st)
  let s := (s.raiseIf (decide (old = 1 ∧ 2 ≤ st)) (pLink n) 0).raiseIf (decide (st = 2 ∧ old ≠ 2)) (pLink n) 2
  let s :=
    if st = 1 ∧ 2 ≤ old then
      let s := ((s.raise (pLink n) 1).setFlag (pLink n) 0x084 18 false).ctlReset n
      if s.flag 0x2A0 0x090 (16 + n) then s.sdCause 8 else s
    else if st = 0 ∧ old ≠ 0 then ((s.setFlag (pLink n) 0x084 18 false).setFlag (pLink n) 0x084 17 false).ctlReset n
    else s
  let s := if 2 ≤ st ∧ s.ctrlOk n = false then s.ctlUp n else s
  if st ≠ 0 then s.shedJudge n else s

/-- The lanes that carried the K27.7 of a received frame (R405): a lane absent from eight is parked, one that returns is unparked. -/
def Stage.linkCols (s : Stage) (n lanes : Nat) : Stage :=
  let s := s.setFld (pLink n) 0x084 27 24 lanes
  let l := s.link n
  let up (k : Nat) : Bool := s.laneState (4 * n + k) == lnUp
  let absent := (upTo (s.linkWidth n)).foldl (fun t k =>
    Tab.put 0 t k (if bit lanes k || !up k then 0 else min 8 (Tab.get 0 t k + 1))) l.absent
  let park := (upTo 4).foldl (fun m k =>
    let p := if bit lanes k then false else bit l.peerPark k || decide (Tab.get 0 absent k = 8)
    if p then m + 2 ^ k else m) 0
  let s' := s.putLink n { l with absent := absent, peerPark := park }
  if park = l.peerPark then s' else s'.linkUpdate n

/-- The bond's lanes go to SEEK as RETRAIN does (R416). -/
def Stage.linkRetrain (s : Stage) (n : Nat) : Stage :=
  ((upTo (s.linkWidth n)).foldl (fun s k => s.laneRetrain (4 * n + k)) s).linkUpdate n

/-- CTRL_FAIL (R416, R462). -/
def Stage.ctlFail (s : Stage) (n : Nat) : Stage :=
  let s := ((s.raise (pLink n) 8).setFlag (pLink n) 0x084 18 false).ctlReset n
  let s := if n = 0 then { s with red := { s.red with lost := true } } else s
  s.linkRetrain n

/-- An ACK is taken (R416): the frames before it are acknowledged, and waiting messages leave. -/
def Stage.ctlAck (s : Stage) (n ack : Nat) : Stage :=
  let l := s.link n
  let c := l.ctl
  let first := match c.out with
    | (q, _) :: _ => q
    | [] => c.seq
  let k := (ack + 256 - first) % 256
  if k = 0 ∨ c.out.length < k then s
  else (s.putLink n { l with ctl := { c with out := c.out.drop k, timeouts := 0 } }).ctlPump n 32

/-- A control frame arrives (R415 to R417): `ok` that it passed its CRC without a code error, `good` that its payload parses. -/
def Stage.ctlFrameRx (s : Stage) (n lanes seq ack : Nat) (ackOnly ok good : Bool) : Stage :=
  if s.ctrlOk n = false then s
  else
    let s := s.linkCols n lanes
    if !ok then s.bump (pLink n) 0x0C8
    else
      let s := s.ctlAck n ack
      let l := s.link n
      if ackOnly || seq != l.ctl.expect then s
      else
        let s := s.putLink n { l with ctl := { l.ctl with expect := (l.ctl.expect + 1) % 256, ackDue := true } }
        if good then s else (s.bump (pLink n) 0x0C8).raise (pLink n) 9

/-- 2 µs after an acceptance nothing has carried the ACK (R416). -/
def Stage.ackTimer (s : Stage) (n : Nat) : Stage :=
  let l := s.link n
  if l.ctl.ackDue && s.ctrlOk n then
    (s.putLink n { l with ctl := { l.ctl with ackDue := false } }).emit (.ackOnly n l.ctl.expect)
  else s

/-- ACK has not advanced within RETX_TIMEOUT (R416). -/
def Stage.retxTimeout (s : Stage) (n : Nat) : Stage :=
  let l := s.link n
  let c := l.ctl
  if c.out = [] then s
  else if s.fld (pLink n) 0x094 31 24 ≤ c.timeouts + 1 then s.ctlFail n
  else
    let s := (s.putLink n { l with ctl := { c with timeouts := c.timeouts + 1, ackDue := false } }).bumpBy (pLink n) 0x0CC c.out.length
    c.out.foldl (fun s (q, m) => s.emit (.ctl n q c.expect m)) s

/-! ### Sending audio (R407 to R410, R421, R422) -/

/-- The modes in which every audio frame carries HELD (R407). -/
def heldMode (m : Nat) : Bool := m == mUnderstudy || m == mCatchUp || m == mIsolated

/-- The value of link channel `i` in sample `k`, whether it is silent and whether it carries the held mark. -/
def Stage.txChannel (s : Stage) (n k i : Nat) : Word × Bool × Bool :=
  if s.paired && n == 0 then
    if i < s.fwdCount then (Tab.get 0#32 (((s.red.own.find? fun e => e.1 == k).map (·.2)).getD []) i, false, false)
    else (Word.ofNat (((s.red.digests.find? fun e => e.1 == k).map (·.2)).getD 0), false, false)
  else if s.triangulated && decide (n < 2) then
    if i < s.voteCount then (Tab.get 0#32 (((s.red.eg.find? fun e => e.1 == k).map (·.2.1)).getD []) i, false, false)
    else (Word.ofNat (((s.red.digests.find? fun e => e.1 == k).map (·.2)).getD 0), false, false)
  else
    let d := 0x1000 + (s.fld (pLink n) 0x088 11 0 + i) % 4096
    match s.handedAt k with
    | some h => (Tab.get 0#32 h.vals d, !h.loud.contains d, h.marked.contains d)
    | none => (0#32, true, false)

/-- The transmitter rests its lanes when nothing is ready and the next scheduled send lies more than 2 µs ahead (R422). -/
def Stage.linkRest (s : Stage) (n : Nat) : Stage :=
  let l := s.link n
  let next := boundaryDatum (s.datum.index + 1) s.fs
  if s.flag (pLink n) 0x080 30 && l.ctl.queue = [] && decide (s.now + 2000 * unit < next) then
    (upTo 4).foldl (fun s k => if bit (s.txSet n) k then s.setLaneStat (4 * n + k) 27 27 1 else s) s
  else s

/-- Link `n` sends the block that starts at sample `k` (R407 to R410, R414). -/
def Stage.audioSend (s : Stage) (n k : Nat) : Stage :=
  let b := s.blockOf n
  let c := s.txCount n
  if s.linkState n < 2 ∨ k % b ≠ 0 ∨ ((upTo b).any fun j => (s.handedAt (k + j)).isNone) then s
  else
    let s := (s.linkWake n).shedJudge n
    let gs := if s.flag (pLink n) 0x084 19 then s.fld (pLink n) 0x084 14 8 else groupsOf c
    let s := (upTo gs).foldl (fun s g =>
      let chans := (upTo (groupSize c g)).map (64 * g + ·)
      let data := (upTo b).map fun j => chans.map fun i => s.txChannel n (k + j) i
      let silent := !s.patch.patchOn || (s.flag (pLink n) 0x080 30 && data.all fun l => l.all fun x => x.2.1)
      let held := heldMode s.mode || data.all fun l => l.all fun x => x.2.2
      s.emit (.audio n g (k % 2 ^ 32) silent held (if silent then [] else data.map fun l => l.map (·.1)))) s
    s.linkRest n

/-- A quiet transmitter asks for the exit from idle in time for its next send (R396, R422). -/
def Stage.idleExitRequest (s : Stage) (n : Nat) : Stage := s.linkWake n

/-! ### Receiving audio (R411 to R413) -/

/-- An audio frame arrives (R411, R412): `hdr` that its header is sound, `errs` that a payload symbol was a code error (its byte already
decoded as R412 says), `samples` those whose bytes all arrived. -/
def Stage.audioRx (s : Stage) (n lanes g c b idx : Nat) (held silent hdr errs : Bool) (samples : List (List Word)) : Stage :=
  if s.linkState n < 2 then s
  else
    let s := s.linkCols n lanes
    if !hdr then s.bump (pLink n) 0x0C4
    else
      let total := s.rxCount n
      if groupsOf total ≤ g ∨ c ≠ groupSize total g then s.raise (pLink n) 10
      else
        let k := nearestMod (2 ^ 32) s.datum.index idx
        if k + s.rxOffset n ≤ s.datum.index ∨ s.datum.index + 128 < k then s.bump (pLink n) 0x0C0
        else
          let s := if errs then s.bump (pLink n) 0x0C4 else s
          let rows := if silent then (upTo b).map fun _ => (upTo c).map fun _ => 0#32 else samples
          let new := ((upTo rows.length).map fun j => ({ k := k + j, g := g, held := held, vals := rows.getD j [] } : LinkSample))
          let l := s.link n
          let keep := l.rx.filter fun e => !(e.g == g && decide (k ≤ e.k ∧ e.k < k + rows.length))
          s.putLink n { l with rx := keep ++ new }

/-- N_F of a link (R413). -/
def Stage.linkNf (s : Stage) (n : Nat) : Nat := (2 * s.fld (pLink n) 0x080 6 0 * s.fs + 4000) / 8000

/-- GROUP_OK follows the state of group `g`. -/
def Stage.groupOk (s : Stage) (n g st : Nat) : Stage := s.setFlag (pLink n) (0x0B0 + 4 * (g / 32)) (g % 32) (st == 3)

/-- What one presentation of a receive group gives (R413): the group after it, its channel values, and whether it locked, missed a
sample in RUN, or entered FADE from RUN or from RAMP_IN. -/
structure GroupOut where
  gr : LinkGroup
  vals : List Word
  lock : Bool := false
  missed : Bool := false
  fadeRun : Bool := false
  fadeRamp : Bool := false
deriving DecidableEq, Repr

/-- One group at a presentation boundary, with N_F `nf`; `x` the sample received for it (R413). -/
def groupStep (nf size : Nat) (gr : LinkGroup) (x : Option (List Word)) : GroupOut :=
  let zeros := (upTo size).map fun _ => 0#32
  let gain (up : Bool) (j nf : Nat) (v : List Word) := v.map fun w => applyGain w (raisedCos up j nf)
  let gr := if gr.st = 0 then { gr with st := 1, run := 0 } else gr
  if gr.st = 1 ∧ gr.run < 32 then
    { gr := { gr with run := if x.isSome then gr.run + 1 else 0 }, vals := zeros }
  else if gr.st = 1 ∨ gr.st = 2 then
    let lock := gr.st == 1
    let gr := if gr.st = 1 then { gr with st := 2, j := 0, nf := nf, last := zeros } else gr
    match x with
    | some v => { gr := { gr with j := gr.j + 1, last := v, miss := 0 }, vals := gain true (gr.j + 1) gr.nf v, lock := lock }
    | none =>
      let j := gr.nf - gr.j + 1
      { gr := { gr with st := 4, j := j }, vals := gain false j gr.nf gr.last, lock := lock, fadeRamp := true }
  else if gr.st = 3 then
    match x with
    | some v => { gr := { gr with last := v, miss := 0 }, vals := v }
    | none =>
      if gr.miss + 1 < 4 then { gr := { gr with miss := gr.miss + 1 }, vals := gr.last, missed := true }
      else { gr := { gr with st := 4, j := 0, nf := nf, miss := 0 }, vals := gr.last, missed := true, fadeRun := true }
  else { gr := { gr with j := gr.j + 1 }, vals := gain false (gr.j + 1) gr.nf gr.last }

/-- One group of link `n` at a presentation boundary. -/
def Stage.linkGroup (s : Stage) (n g size : Nat) (x : Option LinkSample) : Stage × List Word :=
  let o := groupStep (s.linkNf n) size (Tab.get {} (s.link n).groups g) (x.map (·.vals))
  let s := (s.putLink n { s.link n with groups := Tab.put {} (s.link n).groups g o.gr }).groupOk n g o.gr.st
  let s := s.raiseIf o.lock (pLink n) 3
  let s := if o.missed then s.bump (pLink n) 0x0BC else s
  let s := s.raiseIf o.fadeRun (pLink n) 4
  let s := if o.fadeRun && n == 0 then { s with red := { s.red with lost := true } } else s
  (s, o.vals)

/-- Ramp-in of a group is over (R413). -/
def Stage.groupRampEnd (s : Stage) (n g : Nat) : Stage :=
  let gr := Tab.get {} (s.link n).groups g
  if gr.st = 2 ∧ gr.nf ≤ gr.j then
    (s.putLink n { s.link n with groups := Tab.put {} (s.link n).groups g { gr with st := 3, miss := 0 } }).groupOk n g 3
  else s

/-- A group's fade is over (R413). -/
def Stage.groupFadeEnd (s : Stage) (n g : Nat) : Stage :=
  let gr := Tab.get {} (s.link n).groups g
  if gr.st = 4 ∧ gr.nf ≤ gr.j then
    (s.putLink n { s.link n with groups := Tab.put {} (s.link n).groups g { st := 1 } }).groupOk n g 1
  else s

/-- The receive channels a link presents at boundary `b`, with those that carry the held mark (R408, R411, R457, R473). -/
def Stage.linkPresent (b : Nat) (s : Stage) (n : Nat) : Stage :=
  if s.linkEn n = false ∨ b < s.rxOffset n then s
  else
    let k := b - s.rxOffset n
    let total := s.rxCount n
    let s := (upTo (groupsOf total)).foldl (fun s g =>
      let size := groupSize total g
      let x := (s.link n).rx.find? fun e => e.k == k && e.g == g
      let (s, vals) := s.linkGroup n g size x
      let forwarded := s.paired && n == 0
      let voted := s.triangulated && decide (n < 2)
      if forwarded then
        let t := (upTo size).foldl (fun t i => if 64 * g + i < s.fwdCount then Tab.put 0#32 t (64 * g + i) (vals.getD i 0#32) else t) s.patch.fwdIn
        { s with patch := { s.patch with fwdIn := t } }
      else if voted then s
      else
        let base := s.fld (pLink n) 0x08C 11 0
        let t := (upTo size).foldl (fun t i => Tab.put 0#32 t ((base + 64 * g + i) % 4096) (vals.getD i 0#32)) s.patch.islosIn
        let chans := (upTo size).map fun i => (base + 64 * g + i) % 4096
        let held := match x with
          | some e => if e.held then s.patch.islosHeld.filter (fun c => !chans.contains c) ++ chans
                      else s.patch.islosHeld.filter (fun c => !chans.contains c)
          | none => s.patch.islosHeld
        { s with patch := { s.patch with islosIn := t, islosHeld := held } }) s
    let anyOk := (s.link n).groups.any fun e => e.2.st == 2 || e.2.st == 3
    s.setN (pLink n) 0x0AC (if anyOk then s.rxOffset n * 256 else 0)

/-- A received sample of Islos receive channel `ch` that arrived for boundary `b`: its value and held mark. -/
def Stage.islosArrived (s : Stage) (b ch : Nat) : Option (Word × Bool) :=
  (upTo 4).findSome? fun n =>
    let base := s.fld (pLink n) 0x08C 11 0
    let total := s.rxCount n
    if s.linkEn n = false ∨ s.memberLink n ∨ b < s.rxOffset n ∨ ch < base ∨ base + total ≤ ch then none
    else
      let i := ch - base
      ((s.link n).rx.find? fun e => e.k == b - s.rxOffset n && e.g == i / 64).map fun e => (e.vals.getD (i % 64) 0#32, e.held)

/-- FOLLOW_k (R474). -/
def Stage.follow (b : Nat) (s : Stage) (k : Nat) : Stage :=
  let a := s.regN 0x2A0 (0x0D0 + 8 * k)
  if !bit a 31 then s
  else (upTo (bits a 28 16)).foldl (fun s i =>
    let ca := bits a 11 0 + i
    let va := s.islosArrived b ca
    let vb := s.islosArrived b (s.fld 0x2A0 (0x0D4 + 8 * k) 11 0 + i)
    let pick := match va, vb with
      | some (x, false), _ => some (x, false)
      | _, some (y, false) => some (y, false)
      | some (x, true), _ => some (x, true)
      | none, some (y, true) => some (y, true)
      | none, none => none
    match pick with
    | some (x, h) =>
      let rest := s.patch.islosHeld.filter (· != ca)
      { s with patch := { s.patch with islosIn := Tab.put 0#32 s.patch.islosIn ca x, islosHeld := if h then rest ++ [ca] else rest } }
    | none => s) s

/-- Every link presents its samples at boundary `b`, and those presented are dropped; a triangulated part
keeps them until they have been voted on (R481). -/
def Stage.linksPresent (s : Stage) (b : Nat) : Stage :=
  let s := { s with patch := { s.patch with islosIn := [], fwdIn := [] } }
  let s := (upTo 4).foldl (Stage.linkPresent b) s
  let s := (upTo 4).foldl (Stage.follow b) s
  (upTo 4).foldl (fun s n =>
    let l := s.link n
    let off := if s.triangulated && decide (n < 2) then max (s.rxOffset 0) (s.rxOffset 1) else s.rxOffset n
    if l.rx = [] then s else s.putLink n { l with rx := l.rx.filter fun e => decide (b < e.k + off + 2) }) s

/-! ### Heartbeats and markers (R419, R420, R273) -/

/-- The role byte (R420). -/
def Stage.roleByte (s : Stage) : Nat := s.mode + (if s.mode = mTriangulate then s.rank * 16 else 0)

/-- A heartbeat leaves after boundary `n` with n mod 64 = 32, and a marker after n mod 64 = 0 (R419, R420). -/
def Stage.linkBeat (b health : Nat) (s : Stage) (n : Nat) : Stage :=
  if s.linkState n < 2 then s
  else if b % 64 = 32 then
    let l := s.link n
    ((s.linkWake n).putLink n { l with ctl := { l.ctl with ackDue := false } }).emit (.heartbeat n s.roleByte l.ctl.expect b health)
  else if b % 64 = 0 then
    let (x, s) := (s.linkWake n).draw
    s.emit (.marker n b (Config.markerResidual x))
  else s

/-- A heartbeat frame arrives (R420). -/
def Stage.heartbeatRx (s : Stage) (n lanes : Nat) (ok : Bool) (role ack idx health : Nat) : Stage :=
  if s.linkState n < 2 then s
  else
    let s := s.linkCols n lanes
    if !ok then s.bump (pLink n) 0x0C8
    else
      let s := s.ctlAck n ack
      let back := !s.hbOk n && s.flag (pLink n) 0x09C 8
      let s := ((s.setN (pLink n) 0x09C (256 + role % 256)).setN (pLink n) 0x0A0 health).set64 (pLink n) 0x0A4 idx
      (s.setFlag (pLink n) 0x084 17 true).raiseIf back (pLink n) 7

/-- No valid heartbeat for HB_TIMEOUT intervals (R420). -/
def Stage.hbTimeout (s : Stage) (n : Nat) : Stage :=
  if s.hbOk n then (s.setFlag (pLink n) 0x084 17 false).raise (pLink n) 6 else s

/-- A marker of boundary `b` arrives at raw `t` with its residual in 1/16 ns (R273, R462). -/
def Stage.markerRx (s : Stage) (n t residual b : Nat) : Stage :=
  let p := pLink n
  let s := s.tick t
  let skew : Int := s.rxStamp p t - (residual : Int) * 4096 - (s.tp p).dbar.getD 0 - s.asymmetry p - boundaryDatum b s.fs
  let s := s.setN p 0x318 (toBits 32 (clampI (-2147483647) 2147483647 (Int.fdiv skew 256)))
  if n = 0 then
    let bad := decide (unitsPerSec < 4 * skew.natAbs * s.fs)
    let l := s.link n
    let s := s.putLink n { l with skewBad := if bad then min 2 (l.skewBad + 1) else 0 }
    if bad && decide (2 ≤ l.skewBad + 1) then { s with red := { s.red with lost := true } } else s
  else s

/-! ### Configuration (R405, R424, R425) -/

/-- LINK_CFG was written over `old`. -/
def Stage.linkCfgWritten (s : Stage) (n old : Nat) : Stage :=
  let s :=
    if s.linkEn n = false ∧ bit old 31 then
      let l := s.link n
      ((s.putLink n { l with groups := [], rx := [] }).setN (pLink n) 0x0B0 0).setN (pLink n) 0x0B4 0 |>.setN (pLink n) 0x0AC 0
    else s
  s.linkUpdate n

/-- LINK_CTRL was written over `old`: a lane whose PARK bit is cleared is no longer parked on the partner's account (R405). -/
def Stage.linkCtrlWritten (s : Stage) (n old : Nat) : Stage :=
  let l := s.link n
  let freed (k : Nat) : Bool := bit old k && !bit (s.fld (pLink n) 0x090 3 0) k
  let park := (upTo 4).foldl (fun m k => if bit l.peerPark k && !freed k then m + 2 ^ k else m) 0
  let absent := (upTo 4).foldl (fun t k => if freed k then Tab.put 0 t k 0 else t) l.absent
  (s.putLink n { l with absent := absent, peerPark := park }).linkUpdate n

/-- A PARK mask leaves the transmit channels room (R405). -/
def Stage.parkFits (s : Stage) (n park : Nat) : Bool :=
  let w := popCount 4 ((upTo (s.linkWidth n)).foldl (fun m k =>
    if s.laneState (4 * n + k) == lnUp && !bit park k && !bit (s.link n).peerPark k then m + 2 ^ k else m) 0)
  s.txCount n == 0 || s.fits (s.txCount n) (s.blockOf n) w (s.linkRate n)

/-- TX_LOAD in permille of the budget, to the nearest (R424). -/
def Stage.txLoad (s : Stage) (n : Nat) : Nat :=
  let w := s.txLanes n
  if w = 0 then 0
  else
    let b := s.blockOf n
    let d := b * columnBudget (baudOf (s.linkRate n)) s.fs
    if d = 0 then 0 else (2000 * blockColumns (s.txCount n) b w (groupsOf (s.txCount n)) + d) / (2 * d)

/-- The computed registers of an ISL_LINK page. -/
def Stage.linkRead (s : Stage) (n off : Nat) : Option Nat :=
  if off = 0x0B8 then some (s.txLoad n % 1024)
  else if off = 0x0D0 then some (s.link n).ctl.out.length
  else none

/-- A soft reset of a link page (R424). -/
def Stage.linkSoftReset (s : Stage) (n : Nat) : Stage :=
  let s := (s.ctlReset n).clearRegs (pLink n) (fun o => decide (0x0BC ≤ o ∧ o ≤ 0x0CC))
  let l := s.link n
  let s := s.putLink n { l with groups := l.groups.map fun e => (e.1, { st := 1 }) }
  ((s.setN (pLink n) 0x0B0 0).setN (pLink n) 0x0B4 0).setN (pLink n) 0x0AC 0

end Sys2Proof.Machine
end

