-- ==== Sys2Proof/Machine/Forward.lean ====
section
/-!
DEFINITION. Forwarding: what a principal, or the source of a catch-up, sends of the changes it accepts (R459, R684).
-/
namespace Sys2Proof.Machine

/-- PEER_ROLE of a link's last heartbeat (R420). -/
def Stage.peerRole (s : Stage) (n : Nat) : Nat := s.fld (pLink n) 0x09C 3 0

/-- The link that records leave on: link 0 of a principal whose peer is in CATCH_UP or UNDERSTUDY, or the joiner's link of a source in
TRIANGULATE (R472, R684, R485). -/
def Stage.forwardLink (s : Stage) : Option Nat :=
  if s.mode = mPrincipal then
    (if s.red.source.isSome || (s.hbOk 0 && (s.peerRole 0 == mCatchUp || s.peerRole 0 == mUnderstudy)) then some 0 else none)
  else if s.mode = mTriangulate then s.red.source.map (·.link)
  else none

/-- A record is forwarded for boundary `b` (R459). -/
def Stage.forward (s : Stage) (b : Nat) (r : FwdRec) : Stage :=
  match s.forwardLink with
  | some n => s.ctlSend n (.forward b r)
  | none => s

/-- STANDBY as a record carries it: VALID in bit 15 (R459). -/
def Stage.standby16 (s : Stage) : Nat := (if s.flag 0x290 0x084 31 then 0x8000 else 0) + s.fld 0x290 0x084 11 0

/-- STANDBY taken from a record. -/
def Stage.setStandby16 (s : Stage) (v : Nat) : Stage := s.setN 0x290 0x084 (bits v 11 0 + (if bit v 15 then 2 ^ 31 else 0))

/-- The part has lost step (R462); the next boundary decides on it. -/
def Stage.lose (s : Stage) : Stage := { s with red := { s.red with lost := true } }

end Sys2Proof.Machine
end

