-- ==== Sys2Proof/Machine/Net.lean ====
section
/-!
DEFINITION. The network ports: links, frames, stream contexts and control datagrams (R429 to R451).
-/
namespace Sys2Proof.Machine

/-- The page of NET_p. -/
def pNet (p : Nat) : Nat := 0x240 + p

def Stage.withNet (s : Stage) (f : NetSt → NetSt) : Stage := { s with net := f s.net }
def Stage.netMode (s : Stage) (p : Nat) : Nat := s.fld (pNet p) 0x080 1 0
def Stage.netOn (s : Stage) (p : Nat) : Bool := s.flag (pNet p) 0x00C 0
def Stage.netLink (s : Stage) (p : Nat) : Bool := s.flag (pNet p) 0x084 31
def Stage.netNeg (s : Stage) (p : Nat) : NetNeg := Tab.get {} s.net.neg p

/-! ### Links (R431) -/

/-- NET_CFG.MODE agrees with the lane's RATES. -/
def Stage.netModeOk (s : Stage) (p : Nat) : Bool := bit (s.laneCfg (16 + p) 28 24) (if s.netMode p = 1 then 2 else 0)

/-- The port rate in 0.1 Mb/s (R434); an SGMII port that reports no speed counts as the line rate. -/
def Stage.netRate (s : Stage) (p : Nat) : Nat :=
  match s.netMode p with
  | 0 => 10000
  | 1 => 25000
  | _ => match (s.netNeg p).speed with
    | 1 => 100
    | 2 => 1000
    | _ => 10000

/-- NET_STAT follows the lane, the mode and the negotiation (R431). -/
def Stage.netJudge (s : Stage) (p : Nat) : Stage :=
  let up := s.laneState (16 + p) == lnUp
  let s := if up then s else s.withNet fun t => { t with neg := Tab.put {} t.neg p {} }
  let n := s.netNeg p
  let through := match s.netMode p with
    | 0 => !s.flag (pNet p) 0x080 31 || (n.up && n.full)
    | 1 => true
    | _ => n.up && n.full
  let link := s.netOn p && s.netModeOk p && up && through
  let speed := if !link then 0 else match s.netMode p with
    | 0 => 3
    | 1 => 4
    | _ => n.speed
  let was := s.netLink p
  let s := (s.setFlag (pNet p) 0x084 31 link).setFld (pNet p) 0x084 2 0 speed
  (s.raiseIf (link && !was) (pNet p) 5).raiseIf (!link && was) (pNet p) 6

/-- A lane operation with what the link or the port above it makes of it. -/
def Stage.laneDo (s : Stage) (i : Nat) (f : Stage → Stage) : Stage :=
  if i < 16 then (f s).linkUpdate (i / 4) else (f s).netJudge (i - 16)

/-! ### Stream descriptors (R436, R437) -/

/-- Field `[hi:lo]` of word `w` of a descriptor. -/
def dsc (d : List Nat) (w hi lo : Nat) : Nat := bits (d.getD w 0) hi lo

def dscTalker (d : List Nat) : Bool := bit (d.getD 0 0) 31
def dscShadow (d : List Nat) : Bool := bit (d.getD 0 0) 30
def dscDup (d : List Nat) : Bool := bit (d.getD 0 0) 29
def dscPort (d : List Nat) : Nat := dsc d 0 26 24
/-- Bytes per sample. -/
def dscBytes (d : List Nat) : Nat := 2 + dsc d 0 23 22
/-- The engine-rate code of RATE. -/
def dscRate (d : List Nat) : Nat := 1 + 2 * dsc d 0 19 19
def dscCount (d : List Nat) : Nat := dsc d 0 6 0
def dscBase (d : List Nat) : Nat := dsc d 1 10 0
def dscPlayout (d : List Nat) : Nat := dsc d 7 28 16

/-- S: the samples per packet. -/
def dscS (d : List Nat) : Nat := ([6, 12, 16, 48].getD (dsc d 0 21 20) 6) * (1 + dsc d 0 19 19)

/-- Packets per second. -/
def dscPps (d : List Nat) : Nat := [8000, 4000, 3000, 1000].getD (dsc d 0 21 20) 8000

/-- The ports a stream uses (R430). -/
def dscPorts (d : List Nat) : List Nat := if dscDup d then [dscPort d, dscPort d + 1] else [dscPort d]

/-- B in 0.1 Mb/s. -/
def dscBand (d : List Nat) : Nat := ((dscS d * dscCount d * dscBytes d + 82) * 8 * dscPps d + 99999) / 100000

/-- Every field obeys R436, and the unnamed bits are zero. -/
def dscFormat (d : List Nat) : Bool :=
  dsc d 0 28 27 == 0 && dsc d 0 16 7 == 0 && dsc d 1 31 11 == 0 && dsc d 6 31 28 == 0 && dsc d 7 31 29 == 0 && dsc d 7 15 7 == 0
    && (d.drop 10).all (· == 0) && decide (dsc d 0 23 22 < 2) && (dscTalker d || !dscShadow d)
    && (!dscDup d || dscPort d % 2 == 0) && (dscTalker d || decide (dscS d + 2 ≤ dscPlayout d ∧ dscPlayout d ≤ 4096))

def Stage.talker (s : Stage) (c : Nat) : Option Talker := Tab.get none s.net.talkers c
def Stage.listener (s : Stage) (c : Nat) : Option Listener := Tab.get none s.net.listeners c
def Stage.putTalker (s : Stage) (c : Nat) (t : Option Talker) : Stage :=
  s.withNet fun n => { n with talkers := Tab.put none n.talkers c t }
def Stage.putListener (s : Stage) (c : Nat) (l : Option Listener) : Stage :=
  s.withNet fun n => { n with listeners := Tab.put none n.listeners c l }

/-- The listeners in use. -/
def Stage.listenersIn (s : Stage) : List (Nat × Listener) := s.net.listeners.filterMap fun e => e.2.map fun l => (e.1, l)
def Stage.talkersIn (s : Stage) : List (Nat × Talker) := s.net.talkers.filterMap fun e => e.2.map fun t => (e.1, t)

/-- The range breaks R435. -/
def Stage.dscRangeBad (s : Stage) (d : List Nat) : Bool :=
  decide (2048 < dscBase d + dscCount d) ||
    (!dscTalker d && s.listenersIn.any fun e =>
      decide (dscBase e.2.words < dscBase d + dscCount d ∧ dscBase d < dscBase e.2.words + dscCount e.2.words))

/-- A listener's key fields are those of a context in use. -/
def Stage.dscTwice (s : Stage) (d : List Nat) : Bool :=
  let key (d : List Nat) := (dscPort d, dsc d 6 27 16, dsc d 2 31 0, dsc d 4 31 16, if dsc d 0 17 17 = 1 then some (dsc d 3 31 0) else none)
  !dscTalker d && s.listenersIn.any fun e => key e.2.words == key d

/-- SLOPE of TC_1 and TC_2 of a port. -/
def Stage.tc1 (s : Stage) (p : Nat) : Nat := s.fld (pNet p) 0x0A4 14 0
def Stage.tc2 (s : Stage) (p : Nat) : Nat := s.fld (pNet p) 0x0A8 14 0

/-- A talker would take its ports above 75 %. -/
def Stage.dscWide (s : Stage) (d : List Nat) : Bool :=
  dscTalker d && (dscPorts d).any fun p => decide (3 * s.netRate p < 4 * (s.tc1 p + s.tc2 p + dscBand d))

/-- TC_2 SLOPE of every port of a stream changes by its bandwidth. -/
def Stage.dscCharge (s : Stage) (d : List Nat) (add : Bool) : Stage :=
  (dscPorts d).foldl (fun s p => s.setFld (pNet p) 0x0A8 14 0 (if add then s.tc2 p + dscBand d else s.tc2 p - dscBand d)) s

/-- The free contexts of a direction. -/
def Stage.freeContexts (s : Stage) (talker : Bool) : List Nat :=
  (upTo 256).filter fun c => if talker then (s.talker c).isNone else (s.listener c).isNone

/-- STREAM_ADD with the descriptor's words, or none where a read failed (R437): status, result and the state after it. -/
def Stage.streamAdd (s : Stage) (desc : Option (List Nat)) : Nat × Word × Stage :=
  let fail (st reason : Nat) : Nat × Word × Stage := (st, Word.ofNat (reason * 2 ^ 24), s)
  match desc with
  | none => if s.freeContexts true = [] ∧ s.freeContexts false = [] then fail stNoContext 0 else fail stFailed 1
  | some d =>
    let free := s.freeContexts (dscTalker d)
    if free = [] then fail stNoContext 0
    else if dscCount d = 0 ∨ 64 < dscCount d then fail stRefused 8
    else if !dscFormat d then fail stFailed 2
    else if dscRate d ≠ s.rateCode then fail stFailed 3
    else if 1440 < dscS d * dscCount d * dscBytes d then fail stFailed 4
    else if s.dscRangeBad d then fail stFailed 6
    else if s.dscTwice d then fail stFailed 7
    else if s.dscWide d then fail stFailed 5
    else
      let (x, s) := s.draw
      let c := free.getD (Config.streamContext x % free.length) 0
      let s := if dscTalker d then (s.putTalker c (some { words := d, start := s.dueNow })).dscCharge d true
        else s.putListener c (some { words := d })
      (stDone, Word.ofNat ((if dscTalker d then 256 else 0) + c), s)

/-- STREAM_REMOVE of the context that `a` names (R437). -/
def Stage.streamRemove (s : Stage) (a : Nat) : Nat × Stage :=
  let c := bits a 7 0
  if bit a 8 then
    match s.talker c with
    | none => (stRefused, s)
    | some t =>
      (stDone, ((s.putTalker c none).dscCharge t.words false).withNet fun n =>
        { n with shed := n.shed.filterMap fun e => match e.2.filter (· != c) with
            | [] => none
            | l => some (e.1, l) })
  else match s.listener c with
    | none => (stRefused, s)
    | some _ => (stDone, s.putListener c none)

/-- The talkers a port cannot carry at its speed: the highest-numbered are stopped until the rest fit (R437). -/
def shedFrom (rate tc1 : Nat) : List (Nat × Nat) → List Nat
  | [] => []
  | (c, b) :: t => if 3 * rate < 4 * (tc1 + b + (t.map (·.2)).foldl (· + ·) 0) then c :: shedFrom rate tc1 t else []

/-- The port's speed has changed: talkers stop or resume (R437). -/
def Stage.netShed (s : Stage) (p : Nat) : Stage :=
  let on := (s.talkersIn.filter fun e => (dscPorts e.2.words).contains p).map fun e => (e.1, dscBand e.2.words)
  let l := shedFrom (s.netRate p) (s.tc1 p) on.reverse
  let was := Tab.get [] s.net.shed p
  (s.withNet fun n => { n with shed := Tab.put [] n.shed p l }).raiseIf (l.any fun c => !was.contains c) (pNet 0) 10

/-- Synchronisation and negotiation of a port end in a result (R384, R431). -/
def Stage.netLinkChange (s : Stage) (p : Nat) (sync : Bool) (n : NetNeg) : Stage :=
  let i := 16 + p
  if s.laneState i = lnOff then s
  else
    let s := if sync then (s.setLaneStat i 30 30 0).setLaneState i lnUp else s.setLaneState i lnSeek
    let s := if sync then s.withNet fun t => { t with neg := Tab.put {} t.neg p n } else s
    let half := sync && n.up && !n.full && s.netMode p != 1 && (s.netMode p == 2 || s.flag (pNet p) 0x080 31)
    let s := (s.raiseIf half (pNet p) 4).netJudge p
    s.netShed p

/-- The SGMII in-band word changes the speed while the link stays up (R431, R437). -/
def Stage.sgmiiSpeed (s : Stage) (p speed : Nat) : Stage :=
  if s.netLink p && s.netMode p == 2 && decide (1 ≤ speed ∧ speed ≤ 3) then
    let s := s.withNet fun t => { t with neg := Tab.put {} t.neg p { Tab.get {} t.neg p with speed := speed } }
    (s.setFld (pNet p) 0x084 2 0 speed).netShed p
  else s

/-- CTRL.ENABLE of a NET page was written over `was` (R431, R559). -/
def Stage.netEnabled (s : Stage) (p : Nat) (was : Bool) : Stage :=
  (s.raiseIf (s.netOn p && !was && !s.netModeOk p) (pNet p) 4).netJudge p

/-- A TC_1 SLOPE keeps check 9 of R437 (R449). -/
def Stage.tc1Legal (s : Stage) (p v : Nat) : Bool := decide (4 * (bits v 14 0 + s.tc2 p) ≤ 3 * s.netRate p)

/-! ### Frames (R429, R432, R438) -/

/-- An IPv4 UDP datagram without options or fragmentation in an Ethernet frame. -/
structure Udp where
  dmac : Nat
  smac : Nat
  vid : Nat
  sip : Nat
  dip : Nat
  sport : Nat
  dport : Nat
  data : List Byte
deriving DecidableEq, Repr

/-- The big-endian number of `k` bytes at `o`. -/
def be (f : List Byte) (o k : Nat) : Nat := ofBeBytes ((f.drop o).take k)

/-- The offset of the Ethertype: after one 802.1Q tag. -/
def typeAt (f : List Byte) : Nat := if be f 12 2 = 0x8100 then 16 else 12
def etherType (f : List Byte) : Nat := be f (typeAt f) 2

/-- The UDP datagram of a frame without its FCS, if it is one (R432). -/
def parseUdp (f : List Byte) : Option Udp :=
  let o := typeAt f + 2
  if etherType f = 0x0800 ∧ be f o 1 = 0x45 ∧ be f (o + 6) 2 % 0x4000 = 0 ∧ be f (o + 9) 1 = 17 ∧ o + 28 ≤ f.length then
    some { dmac := be f 0 6, smac := be f 6 6, vid := if o = 18 then be f 14 2 % 4096 else 0, sip := be f (o + 12) 4, dip := be f (o + 16) 4,
           sport := be f (o + 20) 2, dport := be f (o + 22) 2, data := (f.drop (o + 28)).take (be f (o + 24) 2 - 8) }
  else none

/-- The frame check sequence as it travels. -/
def fcs (f : List Byte) : List Byte := leBytes 4 (crc32 f)

/-- A PTP message under R264. -/
def Stage.isPtp (s : Stage) (p : Nat) (f : List Byte) : Bool :=
  s.tpEn (pNet p) &&
    (if s.tpProfile (pNet p) = 2 then etherType f == 0x88F7
     else match parseUdp f with
       | some u => u.dport == 319 || u.dport == 320
       | none => false)

/-- The port's addresses. -/
def Stage.macAddr (s : Stage) (p : Nat) : Nat := s.regN (pNet p) 0x088 + 2 ^ 32 * s.fld (pNet p) 0x08C 15 0
def Stage.ipAddr (s : Stage) (p : Nat) : Nat := s.regN (pNet p) 0x090
def Stage.cdgPort (s : Stage) : Nat := s.fld (pNet 0) 0x11C 15 0

/-- A datagram for the control channel (R432). -/
def Stage.isCdg (s : Stage) (p : Nat) (u : Udp) : Bool := u.dport == s.cdgPort && u.dip == s.ipAddr p

/-- The SSRC of an RTP packet. -/
def rtpSsrc (u : Udp) : Nat := be u.data 8 4

/-- A listener takes a packet that arrives on port `p` (R440). -/
def listens (p : Nat) (u : Udp) (d : List Nat) : Bool :=
  (dscPorts d).contains p && dsc d 6 27 16 == u.vid && dsc d 2 31 0 == u.dip && dsc d 4 31 16 == u.dport
    && (dsc d 0 17 17 == 0 || dsc d 3 31 0 == u.sip) && (dsc d 0 18 18 == 0 || dsc d 8 31 0 == rtpSsrc u)

/-- The context of a packet: the lowest-numbered that matches. -/
def Stage.listenerOf (s : Stage) (p : Nat) (u : Udp) : Option (Nat × Listener) :=
  s.listenersIn.find? fun e => listens p u e.2.words

/-- The fates of a received frame (R432). -/
inductive Fate where
  | discard (fcs : Bool) | ptp | cdg | listener | firmware
deriving DecidableEq, Repr

/-- The fate of a frame, given with its FCS (R432). -/
def Stage.fate (s : Stage) (p : Nat) (full : List Byte) : Fate :=
  let f := full.take (full.length - 4)
  if full.drop f.length ≠ fcs f then .discard true
  else if full.length < 64 ∨ 1522 < full.length ∨ (etherType f = 0x8808 ∧ be f (typeAt f + 2) 2 = 1) then .discard false
  else if s.isPtp p f then .ptp
  else
    let toUs := be f 0 6 == s.macAddr p || be f 0 1 % 2 == 1
    let rest : Fate := if toUs then .firmware else .discard false
    match parseUdp f with
    | some u => if s.isCdg p u then .cdg else if (s.listenerOf p u).isSome then .listener else rest
    | none => rest

/-- A frame is received and sorted (R432). What becomes of a PTP message, a control datagram or a listener's packet is a command
of its own. -/
def Stage.netFrameRx (s : Stage) (p : Nat) (full : List Byte) : Stage :=
  if s.netLink p then
    let s := s.bump (pNet p) 0x0B0
    match s.fate p full with
    | .discard true => (s.bump (pNet p) 0x0B8).bump (pNet p) 0x0BC
    | .discard false => s.bump (pNet p) 0x0B8
    | .firmware => s.emit (.netToFirmware p full)
    | .ptp | .cdg | .listener => s
  else s

/-- A frame leaves port `p` in class `cls` (R433); a port without a link sends nothing. -/
def Stage.netSend (s : Stage) (p cls : Nat) (f : List Byte) : Stage :=
  if s.netLink p then
    let f := f ++ (upTo (60 - f.length)).map (fun _ => 0#8)
    (s.bump (pNet p) 0x0B4).emit (.net p cls (f ++ fcs f))
  else s

/-- The one's complement sum of big-endian halves. -/
def onesSum : List Byte → Nat
  | [] => 0
  | [a] => a.toNat * 256
  | a :: b :: t => let z := a.toNat * 256 + b.toNat + onesSum t; if z < 65536 then z else z - 65535

def ipCheck (l : List Byte) : Nat := 65535 - onesSum l

/-- Class `cls` writes its PCP into a tagged frame and its DSCP into an IPv4 header, whose checksum follows (R433). -/
def Stage.classMark (s : Stage) (p cls : Nat) (f : List Byte) : List Byte :=
  let tc := s.regN (pNet p) (0x0A0 + 4 * cls)
  let f := if be f 12 2 = 0x8100 ∧ 16 ≤ f.length then f.take 14 ++ beBytes 2 (bits tc 31 29 * 8192 + be f 14 2 % 8192) ++ f.drop 16 else f
  let o := typeAt f + 2
  let n := 4 * (be f o 1 % 16)
  if etherType f = 0x0800 ∧ be f o 1 / 16 = 4 ∧ 20 ≤ n ∧ o + n ≤ f.length then
    let h := (f.drop o).take n
    let h := h.take 1 ++ beBytes 1 (bits tc 27 22 * 4 + be h 1 1 % 4) ++ h.drop 2
    f.take o ++ h.take 10 ++ beBytes 2 (ipCheck (h.take 10 ++ [0#8, 0#8] ++ h.drop 12)) ++ h.drop 12 ++ f.drop (o + n)
  else f

/-- Firmware's frame, without its FCS, in TC_0 (R433). -/
def Stage.mgmtSend (s : Stage) (p : Nat) (f : List Byte) : Stage :=
  if f.length ≤ 1518 then s.netSend p 0 (s.classMark p 0 f) else s

/-- A UDP datagram from port `p` in class `cls`, to a MAC and IP address and UDP port (R429, R433, R438). -/
def Stage.udpFrame (s : Stage) (p cls vid dmac dip sport dport : Nat) (data : List Byte) : List Byte :=
  let tc := s.regN (pNet p) (0x0A0 + 4 * cls)
  let tag := if vid = 0 then [] else beBytes 2 0x8100 ++ beBytes 2 (bits tc 31 29 * 8192 + vid)
  let len := 8 + data.length
  let ip (sum : Nat) := [0x45#8] ++ beBytes 1 (bits tc 27 22 * 4) ++ beBytes 2 (20 + len) ++ beBytes 2 0 ++ beBytes 2 0x4000 ++ [64#8, 17#8]
    ++ beBytes 2 sum ++ beBytes 4 (s.ipAddr p) ++ beBytes 4 dip
  let udp (sum : Nat) := beBytes 2 sport ++ beBytes 2 dport ++ beBytes 2 len ++ beBytes 2 sum ++ data
  let pseudo := beBytes 4 (s.ipAddr p) ++ beBytes 4 dip ++ [0#8, 17#8] ++ beBytes 2 len
  let sum := ipCheck (pseudo ++ udp 0)
  beBytes 6 dmac ++ beBytes 6 (s.macAddr p) ++ tag ++ beBytes 2 0x0800 ++ ip (ipCheck (ip 0)) ++ udp (if sum = 0 then 65535 else sum)

/-! ### Talkers (R438, R439, R442) -/

/-- What a mode lets talkers do, given whether the part drives its outputs: those with SHADOW 0, and those with SHADOW 1 (R442). -/
def talkMode (mode : Nat) (drives : Bool) : Bool × Bool :=
  if mode = mSolo ∨ mode = mPrincipal ∨ mode = mFixedPatch then (true, true)
  else if mode = mTriangulate then (drives, true)
  else if mode = mUnderstudy then (false, true)
  else (false, false)

/-- An interval of sending opens or closes at boundary `b`. -/
def sendSpan (b : Nat) (on : Bool) (old : Option Nat × Option Nat) : Option Nat × Option Nat :=
  match on, old with
  | true, (some f, none) => (some f, none)
  | true, _ => (some b, none)
  | false, (some f, none) => (some f, some b)
  | false, o => o

/-- Talkers follow the mode at boundary `b` (R442). -/
def Stage.netDrive (s : Stage) (b : Nat) (drives : Bool) : Stage :=
  let (x, y) := talkMode s.mode drives
  s.withNet fun n => { n with drive := sendSpan b x n.drive, shadow := sendSpan b y n.shadow }

/-- The packet of samples `k` to `k + S − 1` may be sent. -/
def spanCovers (span : Option Nat × Option Nat) (k n : Nat) : Bool :=
  match span with
  | (some f, none) => decide (f ≤ k)
  | (some f, some e) => decide (f ≤ k ∧ k + n ≤ e)
  | (none, _) => false

/-- A value of a channel on the wire (R438). -/
def rtpValue (bytes : Nat) (v : Word) : List Byte :=
  beBytes bytes (toBits (8 * bytes) (satI (8 * bytes) (roundHalfEven v.toInt (2 ^ (32 - 8 * bytes)))))

/-- The RTP header of the packet that starts at sample `k` (R438). -/
def rtpHeader (d : List Nat) (k : Nat) : List Byte :=
  [0x80#8] ++ beBytes 1 (dsc d 7 6 0) ++ beBytes 2 (k / dscS d % 65536) ++ beBytes 4 ((k + dsc d 9 31 0) % 2 ^ 32) ++ beBytes 4 (dsc d 8 31 0)

/-- The payload of that packet. -/
def Stage.rtpPayload (s : Stage) (d : List Nat) (k : Nat) : List Byte :=
  (upTo (dscS d)).flatMap fun j =>
    let h := ((s.handedAt (k + j)).map (·.vals)).getD []
    (upTo (dscCount d)).flatMap fun c => rtpValue (dscBytes d) (Tab.get 0#32 h (0x800 + dscBase d + c))

/-- The destination MAC address (R436). -/
def dscMac (d : List Nat) : Nat :=
  let ip := dsc d 2 31 0
  if ip / 2 ^ 28 = 14 then 0x01005E000000 + ip % 2 ^ 23 else dsc d 5 31 0 + 2 ^ 32 * dsc d 6 15 0

/-- Talker `c` may send the packet that starts at `k` (R437, R438, R439, R442). -/
def Stage.talkerMay (s : Stage) (t : Talker) (k : Nat) : Bool :=
  let d := t.words
  k % dscS d == 0 && decide (t.start ≤ k) && dscRate d == s.rateCode && ((upTo (dscS d)).all fun j => (s.handedAt (k + j)).isSome)
    && (spanCovers s.net.drive k (dscS d) || (dscShadow d && spanCovers s.net.shadow k (dscS d)))

/-- Talker context `c` sends the packet that starts at sample `k` on each of its ports (R438, R439). -/
def Stage.talkerSend (s : Stage) (c k : Nat) : Stage :=
  match s.talker c with
  | none => s
  | some t =>
    if s.talkerMay t k then
      let d := t.words
      let ports := (dscPorts d).filter fun p => s.netLink p && !(Tab.get [] s.net.shed p).contains c
      let s := if ports = [] then s else s.putTalker c (some { t with pkts := satInc 0xFFFFFFFF t.pkts })
      let data := rtpHeader d k ++ s.rtpPayload d k
      ports.foldl (fun s p => s.netSend p 2 (s.udpFrame p 2 (dsc d 6 27 16) (dscMac d) (dsc d 2 31 0) (dsc d 4 15 0) (dsc d 4 31 16) data)) s
    else s

/-! ### Listeners (R440, R441) -/

/-- The packets missing before sequence number `q` after `last`. -/
def seqGap (last : Option Nat) (q : Nat) : Nat :=
  match last with
  | none => 0
  | some l => let d := (q + 65536 - l) % 65536; if d = 0 ∨ 32768 ≤ d then 0 else d - 1

/-- The last sequence number of a path moves forward only. -/
def seqNext (last : Option Nat) (q : Nat) : Option Nat :=
  match last with
  | none => some q
  | some l => if (q + 65536 - l) % 65536 < 32768 then some q else some l

/-- The payload of an RTP packet, past a header extension. -/
def rtpData (u : Udp) : List Byte :=
  if bit (be u.data 0 1) 4 then u.data.drop (16 + 4 * be u.data 14 2) else u.data.drop 12

/-- The values in a payload, by sample and channel. -/
def rtpRows (d : List Nat) (data : List Byte) : List (List Word) :=
  (upTo (dscS d)).map fun j => (upTo (dscCount d)).map fun c =>
    Word.ofNat (be data ((j * dscCount d + c) * dscBytes d) (dscBytes d) * 2 ^ (32 - 8 * dscBytes d))

/-- The packet is one the context takes (R440). -/
def rtpSound (d : List Nat) (u : Udp) : Bool :=
  let b0 := be u.data 0 1
  decide (12 ≤ u.data.length) && bits b0 7 6 == 2 && !bit b0 5 && bits b0 3 0 == 0 && be u.data 1 1 % 128 == dsc d 7 6 0
    && (rtpData u).length == dscS d * dscCount d * dscBytes d

/-- A listener takes a packet (R440, R441). -/
def Stage.listenerTake (s : Stage) (p c : Nat) (l : Listener) (u : Udp) : Stage :=
  let d := l.words
  let drop (l : Listener) : Stage := s.putListener c (some { l with discard := satInc 0xFFFFFFFF l.discard })
  if !rtpSound d u then drop l
  else
    let q := be u.data 2 2
    let ts := be u.data 4 4
    let l := if p % 2 = 0 then { l with lostA := min 0xFFFFFFFF (l.lostA + seqGap l.seqA q), seqA := seqNext l.seqA q }
      else { l with lostB := min 0xFFFFFFFF (l.lostB + seqGap l.seqB q), seqB := seqNext l.seqB q }
    let k := nearestMod (2 ^ 32) s.datum.index ((ts + 2 ^ 32 - dsc d 9 31 0) % 2 ^ 32)
    if k + dscPlayout d ≤ s.datum.index ∨ s.datum.index + 4096 < k then drop l
    else if dscDup d && l.held.any (fun h => h.seq == q && h.ts == ts) then s.putListener c (some l)
    else
      let h : RtpHeld := { k := k, seq := q, ts := ts, rows := rtpRows d (rtpData u) }
      s.putListener c (some { l with pkts := satInc 0xFFFFFFFF l.pkts, held := h :: l.held })

/-- A frame that sorts to a listener arrives (R440). -/
def Stage.listenerRx (s : Stage) (p : Nat) (full : List Byte) : Stage :=
  if s.netLink p && s.fate p full == .listener then
    match parseUdp (full.take (full.length - 4)) with
    | none => s
    | some u => match s.listenerOf p u with
      | none => s
      | some (c, l) => s.listenerTake p c l u
  else s

/-- A group whose ramp or fade has run its N_F samples goes on (R413, R441). -/
def groupSettle (gr : LinkGroup) : LinkGroup :=
  if gr.st = 2 ∧ gr.nf ≤ gr.j then { gr with st := 3, miss := 0 }
  else if gr.st = 4 ∧ gr.nf ≤ gr.j then { st := 1 }
  else gr

/-- A listener presents at boundary `b` (R440, R441). -/
def Stage.listenerPresent (b : Nat) (s : Stage) (e : Nat × Listener) : Stage :=
  let (c, l) := e
  let d := l.words
  if dscRate d ≠ s.rateCode then s.putListener c (some { l with gr := {}, held := [] })
  else
    let k := b - dscPlayout d
    let x := l.held.findSome? fun h => if h.k ≤ k ∧ dscPlayout d ≤ b then h.rows[k - h.k]? else none
    let o := groupStep (2 * s.fs / 1000) (dscCount d) l.gr x
    let l := { l with gr := groupSettle o.gr, held := l.held.filter fun h => decide (b < h.k + h.rows.length + dscPlayout d) }
    let s := (s.putListener c (some l)).raiseIf o.lock (pNet 0) 7
    let s := s.raiseIf (o.fadeRun || o.fadeRamp) (pNet 0) 8
    let t := (upTo (dscCount d)).foldl (fun t i => Tab.put 0#32 t (dscBase d + i) (o.vals.getD i 0#32)) s.patch.netIn
    { s with patch := { s.patch with netIn := t } }

/-- Every listener presents its sample at boundary `b`. -/
def Stage.netPresent (s : Stage) (b : Nat) : Stage :=
  let s := { s with patch := { s.patch with netIn := [] } }
  s.listenersIn.foldl (Stage.listenerPresent b) s

/-! ### Control datagrams (R443, R444, R446) -/

def cdgMagic : Nat := 0x53474344

/-- The state of a key slot: VALID and its rights. -/
def Stage.cdgRights (s : Stage) (k : Nat) : Nat := s.regN (pNet 0) (0x120 + 4 * k)

/-- The datum of a 14-byte time in 2^-16 ns. -/
def timeOf (f : List Byte) (o : Nat) : Nat := be f o 8 * unitsPerSec + be f (o + 8) 4 * unit + be f (o + 12) 2

/-- The right a message code needs. -/
def cdgRight (code : Nat) : Option Nat :=
  match code with
  | 1 => some 0
  | 2 => some 0
  | 3 => some 1
  | 4 => some 2
  | 5 => some 3
  | _ => none

/-- The first of checks 1 to 6 that a datagram fails (R444). -/
def Stage.cdgCheck (s : Stage) (m : List Byte) : Option Nat :=
  let len := be m 6 2
  let body := m.take (32 + len)
  let slot := be m 5 1
  if m.length ≠ 52 + len ∨ 1024 < len ∨ be m 0 4 ≠ cdgMagic ∨ be m 4 1 ≠ 1 then some 1
  else if be m (32 + len) 4 ≠ crc32c body then some 2
  else if 8 ≤ slot ∨ !bit (s.cdgRights slot) 31 then some 3
  else if m.drop (36 + len) ≠ (hmac256 (Tab.get [] s.net.keys slot) (m.take (36 + len))).take 16 then some 4
  else if be m 8 8 ≤ Tab.get 0 s.net.cdgSeq slot then some 5
  else
    let w := s.fld (pNet 0) 0x11C 30 16
    let diff : Int := (timeOf m 16 : Int) - (s.now : Int)
    if w ≠ 0 ∧ w * 1000000 * unit < diff.natAbs then some 6 else none

def cdgAccepted : Nat := 0
def cdgRefused : Nat := 1
def cdgDenied : Nat := 2

/-- The reply to a datagram (R446). -/
def Stage.cdgAnswer (s : Stage) (m : CdgMsg) (status v : Nat) : Stage :=
  let q := Tab.get 0 s.net.cdgReply m.slot + 1
  let now := s.now
  let body := beBytes 8 m.seq ++ beBytes 1 status ++ beBytes 3 0 ++ beBytes 4 v
  let head := beBytes 4 cdgMagic ++ [1#8] ++ beBytes 1 m.slot ++ beBytes 2 16 ++ beBytes 8 q ++ beBytes 8 (now / unitsPerSec)
    ++ beBytes 4 (now / unit % 1000000000) ++ beBytes 2 (now % unit) ++ [0x81#8, 0#8] ++ body
  let msg := head ++ beBytes 4 (crc32c head)
  let msg := msg ++ (hmac256 (Tab.get [] s.net.keys m.slot) msg).take 16
  let s := s.withNet fun n => { n with cdgReply := Tab.put 0 n.cdgReply m.slot q }
  s.netSend m.port 1 (s.udpFrame m.port 1 m.vid m.mac m.ip s.cdgPort m.udp msg)

/-- A frame that sorts to the control-datagram channel is checked (R444): a datagram that passes waits for its message. -/
def Stage.cdgRx (s : Stage) (p : Nat) (full : List Byte) : Stage :=
  if s.netLink p && s.fate p full == .cdg && s.flag (pNet 0) 0x11C 31 then
    match parseUdp (full.take (full.length - 4)) with
    | none => s
    | some u =>
      match s.cdgCheck u.data with
      | some n => ((s.bump (pNet 0) 0x144).setN (pNet 0) 0x148 n).raise (pNet 0) 9
      | none =>
        let m : CdgMsg := { port := p, mac := u.smac, vid := u.vid, ip := u.sip, udp := u.sport, slot := be u.data 5 1, seq := be u.data 8 8,
                            code := be u.data 30 1, body := (u.data.drop 32).take (be u.data 6 2) }
        let s := (s.bump (pNet 0) 0x140).withNet fun n => { n with cdgSeq := Tab.put 0 n.cdgSeq m.slot m.seq }
        match cdgRight m.code with
        | none => s.cdgAnswer m cdgRefused 0
        | some r =>
          if bit (s.cdgRights m.slot) r then s.withNet fun n => { n with cdg := n.cdg ++ [m] }
          else s.cdgAnswer m cdgDenied 0
  else s

/-- The datagram at the front, when its code is `code`, leaves the queue. -/
def Stage.cdgTake (s : Stage) (code : Nat) : Option (CdgMsg × Stage) :=
  match s.net.cdg with
  | m :: t => if m.code = code then some (m, s.withNet fun n => { n with cdg := t }) else none
  | [] => none

/-- MAILBOX (R445). -/
def Stage.cdgMailbox (s : Stage) : Stage :=
  match s.cdgTake 5 with
  | none => s
  | some (m, s) =>
    if m.body = [] then s.cdgAnswer m cdgRefused 0
    else (s.emit (.cdgToFirmware m.slot m.body)).cdgAnswer m cdgAccepted 0

/-! ### Registers (R448, R449) -/

/-- The state a talker reads. -/
def Stage.talkerState (s : Stage) (c : Nat) (t : Talker) : Nat :=
  let b := s.datum.index
  let on (x : Option Nat × Option Nat) : Bool := match x with
    | (some f, none) => decide (f ≤ b)
    | _ => false
  let ports := (dscPorts t.words).filter fun p => !(Tab.get [] s.net.shed p).contains c
  if dscRate t.words == s.rateCode && decide (t.start ≤ b) && (on s.net.drive || (dscShadow t.words && on s.net.shadow)) && ports != []
  then 3 else 0

/-- The computed registers of a NET page. -/
def Stage.netRead (s : Stage) (p off : Nat) : Option Nat :=
  let sel := s.regN (pNet 0) 0x100
  let c := bits sel 7 0
  let info (st : Nat) (d : List Nat) : Nat := 2 ^ 31 + st * 2 ^ 28 + dscPort d * 2 ^ 24 + dscCount d
  if p ≠ 0 then none
  else if off = 0x104 then
    some (if bit sel 8 then (match s.talker c with
        | some t => info (s.talkerState c t) t.words
        | none => 0)
      else (match s.listener c with
        | some l => info l.gr.st l.words
        | none => 0))
  else if off = 0x108 then
    some (if bit sel 8 then ((s.talker c).map (·.pkts)).getD 0 else ((s.listener c).map (·.pkts)).getD 0)
  else if off = 0x10C then some (if bit sel 8 then 0 else ((s.listener c).map (·.lostA)).getD 0)
  else if off = 0x110 then some (if bit sel 8 then 0 else ((s.listener c).map (·.lostB)).getD 0)
  else if off = 0x114 then some (if bit sel 8 then 0 else ((s.listener c).map (·.discard)).getD 0)
  else if off = 0x118 then some (s.talkersIn.length * 65536 + s.listenersIn.length)
  else none

/-- A soft reset of a NET page (R448, R398). -/
def Stage.netSoftReset (s : Stage) (p : Nat) : Stage :=
  let s := s.clearRegs (pNet p) (fun o => decide (0x0B0 ≤ o ∧ o ≤ 0x0BC) || decide (0x140 ≤ o ∧ o ≤ 0x144))
  let s := if p = 0 then
      let s := s.talkersIn.foldl (fun s e => s.dscCharge e.2.words false) s
      s.withNet fun n => { n with talkers := [], listeners := [], shed := [] }
    else s
  s.laneDo (16 + p) fun s => s.laneSoftReset (16 + p)

end Sys2Proof.Machine
end

