-- ==== Sys2Proof/Machine/Cue.lean ====
section
/-!
DEFINITION. The prompt book and the acceptance of triggers (R289 to R300, R303 to R307).
-/
namespace Sys2Proof.Machine

def pPrompt : Nat := 0x290
def pTab : Nat := 0x291

/-! ### The book (R289 to R293) -/

def bookBase : Nat := 0x400000000
def Stage.bookWord (s : Stage) (off : Nat) : Nat := (s.rd32 (bookBase + off)).toNat
def Stage.bookOn (s : Stage) : Bool := s.flag pPrompt 0x0B0 31
def Stage.cueCount (s : Stage) : Nat := s.fld pPrompt 0x0B0 12 0

/-- The byte offset of cue `q`'s record, 0 where it is empty or absent. -/
def Stage.cueAt (s : Stage) (q : Nat) : Nat := if s.bookOn && decide (q < s.cueCount) then s.bookWord (0x20 + 8 * q) else 0

/-- Cue `q` is present and not empty. -/
def Stage.cueOk (s : Stage) (q : Nat) : Bool := s.cueAt q != 0

/-- PRE_DELAY in 2^-16 ns, and ACTION_COUNT. -/
def Stage.cuePre (s : Stage) (q : Nat) : Nat := bits (s.bookWord (s.cueAt q)) 29 0 * 1000 * unit
def Stage.cueActions (s : Stage) (q : Nat) : Nat := bits (s.bookWord (s.cueAt q + 4)) 9 0

/-- Word `w` of action `j` of cue `q`. -/
def Stage.actWord (s : Stage) (q j w : Nat) : Nat := s.bookWord (s.cueAt q + 16 + 16 * j + 4 * w)
def Stage.actType (s : Stage) (q j : Nat) : Nat := bits (s.actWord q j 0) 31 24

def actGraphCommit : Nat := 7
def actTableau : Nat := 9

/-! ### Reasons (R303) -/

def rsNoCue : Nat := 1
def rsRefused : Nat := 2
def rsNotBoundary : Nat := 3
def rsAccess : Nat := 4
def rsNoGraph : Nat := 5
def rsFull : Nat := 6
def rsNoStandby : Nat := 8
def rsMode : Nat := 9
def rsTooLate : Nat := 10
def rsRange : Nat := 11

/-! ### Sources and modes (R294, R305) -/

/-- Sources 0x1, 0x4 and 0x6. -/
def timedSrc (src : Nat) : Bool := src == 1 || src == 4 || src == 6

/-- What a mode makes of a trigger. -/
inductive TrigMode where
  | take | refuse | ignore
deriving DecidableEq, Repr

/-- Runs execute in this mode. -/
def runsCues (m : Nat) : Bool := m == mSolo || m == mPrincipal || m == mTriangulate || m == mFixedPatch

def trigMode (m src : Nat) : TrigMode :=
  if runsCues m then .take
  else if m = mUnderstudy ∨ m = mCatchUp then
    (if src = 7 then .take else if src = 0 ∨ src = 1 ∨ src = 6 then .refuse else .ignore)
  else if m = mIsolated then (if src = 0 ∨ src = 1 ∨ src = 6 then .refuse else .ignore)
  else if m = mDark then (if timedSrc src then .take else .refuse)
  else .refuse

/-- IGNORED_COUNT. -/
def Stage.countIgnored (s : Stage) : Stage := s.bump pPrompt 0x0AC

/-! ### Acceptance (R296 to R300, R304) -/

/-- When a trigger is due: at a datum that it names or that it has been given, or at a boundary it carries. -/
inductive TrigWhen where
  | datum (t : Nat) | boundary (b : Nat)
deriving DecidableEq, Repr

/-- What becomes of a trigger at acceptance. -/
inductive TrigOut where
  | ignored | refused (reason : Nat) | taken (seq : Nat)
deriving DecidableEq, Repr

/-- The links a trigger is mirrored on (R304). -/
def Stage.mirrorLinks (s : Stage) : List Nat :=
  (upTo 4).filter fun n =>
    if s.mode = mTriangulate ∧ n < 2 then true
    else if (s.mode = mPrincipal ∨ s.mode = mUnderstudy) ∧ n = 0 then false
    else s.flag pPrompt 0x080 (8 + n)

/-- MIRROR_DELAY. -/
def Stage.mirrorDelay (s : Stage) : Nat := s.fld pPrompt 0x080 23 16

/-- The result word of a run (R302). -/
def runResult (cue src late : Nat) : Word := Word.ofNat (cue * 2 ^ 20 + src * 2 ^ 16 + min late 0xFFFF)
def Trig.result (t : Trig) : Word := runResult t.cue t.src (t.b - t.b0)

/-- A record of the Prompt (R302, R569). -/
def Stage.promptRecord (s : Stage) (seq cls status : Nat) (result : Word) (d : Nat) : Stage :=
  s.putRecord { handle := handleOf pPrompt seq, cls := cls, status := status, result := result, datum := d }

/-- The handle and class of a trigger: its command's, or one that the Prompt draws (R302). -/
def Stage.trigHandle (s : Stage) (cmd : Option Cmd) : Nat × Nat × Stage :=
  match cmd with
  | some c => (c.seq, c.cls, s)
  | none => let (q, s) := s.takeSeq pPrompt; (q, 0xFF, s)

/-- A trigger is refused at acceptance (R302, R299). -/
def Stage.trigRefuse (s : Stage) (src : Nat) (cue : Option Nat) (cmd : Option Cmd) (reason : Nat) : TrigOut × Stage :=
  let (q, cls, s) := s.trigHandle cmd
  let s := if timedSrc src then s else s.countIgnored
  (.refused reason, s.promptRecord q cls stRefused (runResult (cue.getD 0) src reason) s.now)

/-- The earliest boundary of a trigger of cue `q` accepted in sample `m` (R297). -/
def Stage.earliest (s : Stage) (m q src : Nat) : Nat :=
  let l := if src = 5 ∨ src = 7 ∨ s.mirrorLinks = [] then 0 else s.mirrorDelay
  m + max s.applyDelay (max l (1 + (s.cueActions q + 255) / 256))

/-- The due boundary of a trigger of cue `q` (R297). -/
def Stage.dueBoundary (s : Stage) (q : Nat) (w : TrigWhen) : Nat :=
  match w with
  | .boundary b => b
  | .datum t => firstBoundary (t + s.cuePre q) s.fs

/-- The trigger is late in sample `m` (R298). -/
def Stage.trigLate (s : Stage) (m q src : Nat) (w : TrigWhen) : Bool :=
  match w with
  | .boundary b => src == 5 && decide (b ≤ m)
  | .datum t => timedSrc src && decide (t + s.cuePre q < s.now)

/-- The standby moves on to its NEXT (R296). -/
def Stage.standbyNext (s : Stage) (q : Nat) : Stage :=
  let w := s.bookWord (0x24 + 8 * q)
  if bit w 31 then s.setN pPrompt 0x084 (2 ^ 31 + bits w 11 0)
  else (s.setFlag pPrompt 0x084 31 false).raise pPrompt 5

/-- A late trigger is dropped (R298). -/
def Stage.trigDrop (s : Stage) (seq cls : Nat) (result : Word) : Stage :=
  ((s.bump pPrompt 0x0A8).raise pPrompt 2).promptRecord seq cls stExpired result s.now

/-- A TABLEAU action placed in a run sends the datum of the run's boundary (R316). -/
def Stage.tabAnnounce (s : Stage) (q b : Nat) : Stage :=
  if (upTo (s.cueActions q)).any fun j => s.actType q j == actTableau then
    (upTo 4).foldl (fun s n => if s.flag pTab 0x080 (8 + n) then s.ctlSend n (.tableau (boundaryDatum b s.fs)) else s) s
  else s

def Stage.withPrompt (s : Stage) (f : PromptSt → PromptSt) : Stage := { s with prompt := f s.prompt }

/-- The trigger is placed, forwarded and mirrored (R299, R304, R459). -/
def Stage.trigPlace (s : Stage) (t : Trig) : Stage :=
  let s := s.withPrompt fun p => { p with trigs := p.trigs ++ [t] }
  let s := if t.src = 7 then s else s.forward t.b (.trigger t.cue s.standby16)
  let s := if t.src = 5 ∨ t.src = 7 then s else s.mirrorLinks.foldl (fun s n => s.ctlSend n (.mirrorGo t.cue t.b)) s
  s.tabAnnounce t.cue t.b

/-- A trigger of source `src` that names `cue`, or the standby for none, is accepted, refused or ignored (R294 to R300, R305). -/
def Stage.trigger (s : Stage) (src : Nat) (cue : Option Nat) (w : TrigWhen) (cmd : Option Cmd) : TrigOut × Stage :=
  match trigMode s.mode src with
  | .ignore => (.ignored, s.countIgnored)
  | .refuse => s.trigRefuse src cue cmd rsMode
  | .take =>
    if !s.bookOn then s.trigRefuse src cue cmd rsNoCue
    else if cue = none ∧ !s.flag pPrompt 0x084 31 then s.trigRefuse src cue cmd rsNoStandby
    else
      let q := cue.getD (s.fld pPrompt 0x084 11 0)
      if !s.cueOk q then s.trigRefuse src cue cmd rsNoCue
      else if 64 ≤ (s.prompt.trigs.filter fun t => timedSrc t.src == timedSrc src).length then s.trigRefuse src cue cmd rsFull
      else
        let s := if cue = none then s.standbyNext q else s
        let m := s.datum.index
        let b0 := s.dueBoundary q w
        let b := if src = 7 then b0 else max b0 (s.earliest m q src)
        let late := s.trigLate m q src w
        let (seq, cls, s) := s.trigHandle cmd
        if late && s.flag pPrompt 0x080 0 then
          (.taken seq, (if cue = none then s.forward 0 (.standby s.standby16) else s).trigDrop seq cls (runResult q src (b - b0)))
        else
          let t := match w with
            | .datum t => if timedSrc src then some t else none
            | .boundary _ => none
          (.taken seq, s.trigPlace { seq := seq, cls := cls, cue := q, src := src, t := t, m := m, b0 := b0, b := b, late := late })

/-- The datum that a GO_AT or TRIGGER command names: SEC [31:0] and NS, with the nearest upper seconds (R266). -/
def Stage.datumArg (s : Stage) (sec ns : Nat) : Nat :=
  nearestMod (2 ^ 32) (s.now / unitsPerSec) (sec % 2 ^ 32) * unitsPerSec + bits ns 29 0 * unit

/-- The cue that CMD_ARG_0 of GO and GO_AT, or a datagram, names. -/
def goCue (a : Nat) : Option Nat := if bit a 31 then none else some (bits a 11 0)

/-- An edge on CUE_GO at raw `t` (R295). -/
def Stage.cueGoEdge (s : Stage) (t : Nat) (rising : Bool) : Stage :=
  let s := s.tick t
  if s.flag pPrompt 0x080 2 && (rising != s.flag pPrompt 0x080 3) then
    let near := match s.prompt.pinLast with
      | some l => decide (t < l + s.fld pPrompt 0x088 9 0 * 1000000 * unit)
      | none => false
    if near then s.countIgnored
    else
      let s := s.withPrompt fun p => { p with pinLast := some t }
      (s.trigger 2 none (.datum (s.datum.at t).toNat) none).2
  else s

/-! ### Removal (R303, R305) -/

/-- A waiting trigger goes with ABORTED. -/
def Stage.trigAbort (s : Stage) (t : Trig) : Stage :=
  (s.withPrompt fun p => { p with trigs := p.trigs.filter (· != t) }).promptRecord t.seq t.cls stAborted t.result s.now

/-- The trigger can still be cancelled. -/
def Stage.cancellable (s : Stage) (t : Trig) : Bool := decide (s.dueNow + 1 ≤ t.b)

/-- CANCEL and CANCEL_ALL are refused in this mode (R305). -/
def cancelBarred (m : Nat) : Bool := m == mUnderstudy || m == mCatchUp || m == mIsolated

/-- A trigger is cancelled, here and at the understudy (R303, R459). -/
def Stage.trigCancel (s : Stage) (t : Trig) : Stage := (s.trigAbort t).forward t.b (.cancel t.cue)

/-- CANCEL of the handle `h`: the status, the reason and the state after it (R303). -/
def Stage.cancel (s : Stage) (h : Nat) : Nat × Nat × Stage :=
  if cancelBarred s.mode then (stRefused, rsMode, s)
  else if h / 65536 ≠ pPrompt ∨ h % 65536 = 0 then (stRefused, rsRange, s)
  else match s.prompt.trigs.find? fun t => t.seq == h % 65536 with
    | some t => if s.cancellable t then (stDone, 0, s.trigCancel t) else (stRefused, rsTooLate, s)
    | none => (stRefused, rsTooLate, s)

/-- CANCEL_ALL (R303). -/
def Stage.cancelAll (s : Stage) : Nat × Nat × Stage :=
  if cancelBarred s.mode then (stRefused, rsMode, s)
  else
    let l := s.prompt.trigs.filter s.cancellable
    (stDone, l.length, l.foldl Stage.trigCancel s)

/-- A forwarded CANCEL removes the trigger of the cue that waits for `b` (R305, R459). -/
def Stage.forwardedCancel (s : Stage) (b cue : Nat) : Stage :=
  match s.prompt.trigs.find? fun t => t.cue == cue && t.b == b with
  | some t => s.trigAbort t
  | none => s

/-- Each held timed trigger is judged afresh in sample `m` (R305, R306). -/
def Stage.trigRejudge (m : Nat) (s : Stage) (t : Trig) : Stage :=
  match t.t with
  | none => s
  | some d =>
    let b0 := s.dueBoundary t.cue (.datum d)
    let b := max b0 (s.earliest m t.cue t.src)
    let late := s.trigLate m t.cue t.src (.datum d)
    if late && s.flag pPrompt 0x080 0 then
      (s.withPrompt fun p => { p with trigs := p.trigs.filter (· != t) }).trigDrop t.seq t.cls (runResult t.cue t.src (b - b0))
    else
      s.withPrompt fun p => { p with trigs := p.trigs.map fun x => if x = t then { t with b0 := b0, b := b, late := late, m := m } else x }

def Stage.promptRejudge (s : Stage) (m : Nat) : Stage := s.prompt.trigs.foldl (Stage.trigRejudge m) s

/-- The Prompt's part in a mode change from `old` to `new` at boundary `b` (R305). -/
def Stage.promptMode (s : Stage) (old new b : Nat) : Stage :=
  let s :=
    if runsCues old ∧ !runsCues new then
      (s.prompt.trigs.filter fun t => !timedSrc t.src || !(new == mDark || new == mIsolated)).foldl Stage.trigAbort s
    else s
  let s := if new ≤ 2 ∨ new = mService then s.prompt.trigs.foldl Stage.trigAbort s else s
  if runsCues new ∧ !runsCues old then s.promptRejudge b else s

/-! ### Mirrored triggers (R304) -/

/-- Two boundaries lie within the merge window. -/
def Stage.mergeNear (s : Stage) (a b : Nat) : Bool := decide (a ≤ b + s.mirrorDelay ∧ b ≤ a + s.mirrorDelay)

/-- A mirrored GO for cue `q` at `b` arrives on link `n`. -/
def Stage.mirrorGo (s : Stage) (n q b : Nat) : Stage :=
  if (n = 0 ∧ (s.mode = mPrincipal ∨ s.mode = mUnderstudy)) ∨ !s.flag pPrompt 0x080 6 then s
  else if trigMode s.mode 5 ≠ .take then (s.trigger 5 (some q) (.boundary b) none).2
  else match s.prompt.trigs.find? fun t => t.cue == q && s.mergeNear t.b b with
    | some t =>
      let b' := max (s.datum.index + 1) (min b t.b)
      (s.withPrompt fun p => { p with trigs := p.trigs.map fun x => if x = t then { t with b := b' } else x }).raise pPrompt 4
    | none =>
      if s.prompt.ran.any fun r => r.1 == q && s.mergeNear r.2 b then s.raise pPrompt 4
      else (s.trigger 5 (some q) (.boundary b) none).2

/-! ### Books and registers (R307, R318) -/

/-- A book takes effect: `count` its CUE_COUNT, already readable at the book's address (R307). -/
def Stage.bookTake (s : Stage) (count : Nat) : Stage :=
  let s := s.setN pPrompt 0x0B0 (2 ^ 31 + count)
  if s.flag pPrompt 0x084 31 && s.cueOk (s.fld pPrompt 0x084 11 0) then s
  else let f := s.bookWord 0x0C; s.setN pPrompt 0x084 (if bit f 31 then 2 ^ 31 + bits f 11 0 else 0)

/-- The computed registers of the PROMPT page. -/
def Stage.promptRead (s : Stage) (off : Nat) : Option Nat :=
  let timed := s.prompt.trigs.filter fun t => timedSrc t.src
  let imm := s.prompt.trigs.filter fun t => !timedSrc t.src
  let sel := s.regN pPrompt 0x0B4
  let x := (if bit sel 6 then imm else timed)[bits sel 5 0]?
  if off = 0x08C then some (imm.length * 65536 + timed.length)
  else if off = 0x0B8 then some (match x with
    | some t => 2 ^ 31 + t.cue * 65536 + t.seq
    | none => 0)
  else if off = 0x0BC then some (match x with
    | some t => t.b % 2 ^ 32
    | none => 0)
  else if off = 0x0C0 then some (match x with
    | some t => t.b / 2 ^ 32
    | none => 0)
  else none

/-- A soft reset of PROMPT (R318). -/
def Stage.promptSoftReset (s : Stage) : Stage :=
  (s.prompt.trigs.foldl Stage.trigAbort s).clearRegs pPrompt (fun o => decide (0x0A0 ≤ o ∧ o ≤ 0x0AC))

end Sys2Proof.Machine
end

