-- ==== Sys2Proof/Machine/Bench.lean ====
section
/-!
DEFINITION. The Benchmark: the sealed core, its log, calibration and UART, the mailbox and the level governor (R598 to R627).
-/
namespace Sys2Proof.Machine

def pBench : Nat := 0x2C0

def Stage.withBench (s : Stage) (f : BenchSt → BenchSt) : Stage := { s with bench := f s.bench }
def Stage.withMail (s : Stage) (f : MailSt → MailSt) : Stage := { s with mail := f s.mail }

/-! ### The log (R609, R610) -/

/-- An entry with its CRC-16 appended. -/
def logEntry (body : List Byte) : List Byte := body ++ leBytes 2 (crc16 body)

/-- An entry written to the ring of 256 sectors: with 255 sectors full, the sector of the 256 oldest entries is erased. -/
def BenchSt.logPut (b : BenchSt) (e : List Byte) : BenchSt :=
  { b with log := (if 65280 ≤ b.log.length then b.log.drop 256 else b.log) ++ [e] }

def Stage.logPut (s : Stage) (e : List Byte) : Stage := s.withBench fun b => b.logPut e

/-- RTC minutes since the epoch, in four bytes. -/
def Stage.rtcMinutes (s : Stage) : List Byte := leBytes 4 (s.sup.rtc / 60)

/-- The sealed core starts with firmware of CRC-32 `crc` (R600, R609). What it does not keep in flash is as after switching on. -/
def Stage.benchStart (s : Stage) (crc : Nat) : Stage :=
  let b := s.bench
  ({ s with bench := { vals := b.vals, sealCount := b.sealCount, log := b.log, sealLow := b.sealLow, fwCrc := crc % 2 ^ 32, mPart := true } }).logPut
    (logEntry (s.rtcMinutes ++ leBytes 3 b.sealCount ++ [0#8] ++ leBytes 4 crc ++ [0#8, 0x80#8]))

/-- The hourly check (R600). -/
def Stage.integrityCheck (s : Stage) (crc : Nat) : Stage :=
  s.withBench fun b => if b.on && crc % 2 ^ 32 != b.fwCrc then { b with bad := true } else b

/-- INTEGRITY or an input fault, OVERLOAD, SEAL_OPEN and CAL as byte 13 holds them. -/
def BenchSt.flagBits (b : BenchSt) (overload fault : Nat) : Nat :=
  (if overload = 0 then 0 else 32) + (if b.sealLow then 16 else 0) + (if b.calib.isSome then 8 else 0)
    + (if fault != 0 || b.bad then 4 else 0)

/-- The largest LCpeak so far, with its channel; of equal values the lowest channel's. -/
def peakOf (m : Option (Nat × Nat)) (k v : Nat) : Option (Nat × Nat) :=
  if v = 0xFFFF then m else match m with
    | none => some (v, k)
    | some (x, _) => if x < v then some (v, k) else m

/-- Byte 12 of a MINUTE entry: 0.5 dB steps above 20.0 dB. -/
def peakByte (v : Nat) : Nat := min 255 ((v - 2000) / 50)

/-- A MINUTE entry is written at the end of an RTC minute, with the LAeq of the minute by channel (R609). -/
def Stage.minuteEnd (s : Stage) (laeq : List Nat) : Stage :=
  let b := s.bench
  if !b.on then s
  else
    let lv (k : Nat) : Nat := if (b.vals.chans.getD k {}).src % 8 = 0 ∨ (b.vals.chans.getD k {}).src = 7 then 0xFFFF else laeq.getD k 0xFFFF
    let fl := Nat.lor b.mFlags (if b.mPart then 8 else 0)
    let (pk, ch) := match b.mPeak with
      | none => (0, 0)
      | some (v, k) => (peakByte v, k)
    (s.withBench fun b => { b with mPeak := none, mFlags := 0, mPart := false }).logPut
      (logEntry (s.rtcMinutes ++ (upTo 4).flatMap (fun k => leBytes 2 (lv k)) ++ [BitVec.ofNat 8 pk, BitVec.ofNat 8 (fl + ch)]))

/-! ### The record stream (R607) -/

/-- A channel is off (R602). -/
def MeasChan.off (c : MeasChan) : Bool := c.src == 0 || c.src == 7

/-- The 16 words of the record of a period: the RTC second and the number of the period that ends, and what was measured (R607). -/
def BenchSt.record (b : BenchSt) (sec rtc : Nat) (overload fault : Nat) (lv : List Levels) (last : List Nat) : List Nat :=
  let q (k : Nat) : Levels := lv.getD k {}
  let elapsed := sec % b.vals.intLen * 10 + b.period + 1
  let w := [ b.seq, rtc, overload * 2 ^ 28 + fault * 2 ^ 24 + b.period * 2 ^ 20 ]
    ++ (upTo 4).flatMap (fun k => [ (q k).laeq * 65536 + (q k).top, (q k).peak * 65536 + (q k).run ])
    ++ [ b.vals.intLen * 65536 + elapsed
       , (if b.calib.isSome then 2 ^ 31 else 0) + (if b.sealLow then 2 ^ 30 else 0) + (if b.bad then 2 ^ 29 else 0) + b.sealCount
       , last.getD 0 0 * 65536 + last.getD 1 0, last.getD 2 0 * 65536 + last.getD 3 0 ]
  w ++ [crc32c (w.flatMap (leBytes 4))]

/-- A measuring period ends: the committed values take effect, the record leaves and the RTC second may end (R606, R607, R618). `lv` are the levels
measured, `overload` and `fault` one bit per channel, `sealLow` the level of SEAL_N. -/
def Stage.periodEnd (s : Stage) (lv : List Levels) (overload fault : Nat) (sealLow : Bool) : Stage :=
  let b := { s.bench with sealLow := sealLow }
  if !b.on then s
  else
    let none' : Levels := {}
    let cut (k : Nat) : Levels :=
      let l := lv.getD k {}
      if (b.vals.chans.getD k {}).off || bit fault k then none'
      else { laeq := l.laeq % 65536, top := l.top % 65536, peak := l.peak % 65536, run := l.run % 65536 }
    let lv := (upTo 4).map cut
    let sec := s.sup.rtc
    let rtc := if b.period = 9 then (sec + 1) % 2 ^ 32 else sec
    let closes := b.period == 9 && (sec + 1) % b.vals.intLen == 0
    let last := if closes then lv.map (·.run) else b.last
    let out := b.record sec rtc (overload % 16) (fault % 16) lv last
    let pk := (upTo 4).foldl (fun m k => peakOf m k (lv.getD k {}).peak) b.mPeak
    let b := { b with seq := (b.seq + 1) % 2 ^ 32, period := (b.period + 1) % 10, last := last, levels := lv, mPeak := pk,
                      mFlags := Nat.lor b.mFlags (b.flagBits (overload % 16) (fault % 16)),
                      mPart := b.mPart || b.calib.isSome, sent := b.sent ++ [out] }
    let s := { s with sup := { s.sup with rtc := rtc } }
    match b.next with
    | none => { s with bench := b }
    | some (v, r) =>
      let s := { s with bench := { b with vals := v, next := none } }
      match r with
      | none => s
      | some t => { s with sup := { s.sup with rtc := t, rtcValid := true } }

/-! ### The level governor (R619 to R622) -/

/-- ln 10, scaled by 2^256. -/
def ln10Fix : Int := 266621138564480548222253459415182587429914225440519472036001743423645469947338

/-- 10^(x / 2000), scaled by 2^256. -/
def tenPow (x : Nat) : Int := expFix (Int.fdiv (ln10Fix * (x % 2000 : Nat)) 2000) * 10 ^ (x / 2000)

/-- The level in 0.01 dB nearest to the energy `e / d` over the reference: the largest p with 10^((p − 1/2) ÷ 1000) not above it, from 0 to 65,535. -/
def levelOf (e d : Int) : Nat :=
  ((upTo 16).reverse).foldl (fun p j => let c := p + 2 ^ j; if tenPow (2 * c - 1) * d ≤ e then c else p) 0

/-- The energy of a level in 0.01 dB, scaled by 2^256. -/
def energy (l : Nat) : Int := tenPow (2 * l)

/-- The projection of a channel as an energy over T (R620): elapsed time `t` and interval `T`, both in 0.1 s, the running level and the valid
period levels of the window. -/
def projection (t T run : Nat) (recs : List Nat) : Int × Int :=
  let n := (recs.length : Int)
  ((t : Int) * energy run * n + ((T : Int) - t) * (recs.map energy).foldl (· + ·) 0, (T : Int) * n)

/-- GOV_STAT.ATT. -/
def Stage.att (s : Stage) : Nat := s.fld pBench 0x10C 31 16

/-- 100 × MAX_ATT. -/
def Stage.maxAtt (s : Stage) : Nat := 100 * s.fld pBench 0x108 7 0

/-- ATT set, with GOV_ACTIVE and GOV_MAX (R626). -/
def Stage.setAtt (s : Stage) (a : Nat) : Stage :=
  let old := s.att
  ((s.setFld pBench 0x10C 31 16 a).raiseIf (old == 0 && a != 0) pBench 5).raiseIf (a == s.maxAtt && old != a) pBench 6

/-- The target of an entry: round(REF × 10^(−ATT ÷ 20,000)) (R621). -/
def govTarget (ref : Word) (a : Nat) : Int := roundHalfUp (ref.toInt * expFix (-(Int.fdiv (ln10Fix * a) 20000))) fixOne

/-- RAMP_REQ_HI of BAT k written by `m` with `v` (R150 to R152, R562); in PRINCIPAL the host's and the management core's are forwarded (R459). -/
def Stage.rampWrite (s : Stage) (m : Master) (k v : Nat) : Stage :=
  if !s.powered (pBat k) then s.respond .fault
  else if heldMode s.mode && decide (m.cls < 2) then s.respond .denied
  else if !rampLegal s.highRate v || s.tagTooFar m.cls then s.badWrite m.cls (pBat k) 0x094 false
  else if 64 ≤ (s.bat k).queue.length then (s.rampSubmit k 0 0#32 0).1.respond .refused
  else
    let lo := s.rampLo k m
    let (due, s) := s.dueFor m.cls
    let s := (s.rampSubmit k due lo v).1
    (if m.cls < 2 then s.forward due (.ramp k lo v) else s).respond .okay

def mgmt : Master := { cls := 0, idx := 0 }

/-- The entries governed, by number. -/
def Stage.govOn (s : Stage) : List Nat := (upTo 32).filter fun i => bit (Tab.get (0, 0) s.mail.ents i).1 31

/-- A ramp request for entry `i` (R621); one refused is remembered. -/
def Stage.govRamp (s : Stage) (i : Nat) : Stage :=
  let (xp, ref) := Tab.get (0, 0) s.mail.ents i
  let k := bits xp 29 24
  let s := s.setArg (pBat k) mgmt 4 (Word.ofInt (govTarget (Word.ofNat ref) s.att))
  let s := s.rampWrite mgmt k (2 ^ 30 + 10000 * 2 ^ 15 + bits xp 13 0)
  s.withMail fun m => { m with retry := m.retry.filter (· != i) ++ (if s.bus.resp = .refused then [i] else []) }

/-- The ramp requests of a second: every entry when ATT has changed, else the entries refused before (R621). The response of the last bus access is
left alone. -/
def Stage.govSubmit (s : Stage) (changed : Bool) : Stage :=
  let bus := s.bus
  let l := s.govOn.filter fun i => changed || s.mail.retry.contains i
  { l.foldl Stage.govRamp s with bus := bus }

/-- The largest projection over the channels that count and have valid values, as (energy, divisor) (R620). -/
def Stage.govLoudest (s : Stage) (rec : List Nat) : Option (Int × Int) :=
  let t := rec.getD 11 0 % 65536
  let len := 10 * (rec.getD 11 0 / 65536)
  (upTo 4).foldl (fun best k =>
    let run := rec.getD (4 + 2 * k) 0 % 65536
    let recs := (s.mail.window.map fun e => e.2.getD k 0xFFFF).filter (· != 0xFFFF)
    if !s.flag pBench 0x100 (16 + k) || run == 0xFFFF || recs.isEmpty || len == 0 then best
    else
      let p := projection t len run recs
      match best with
      | none => some p
      | some b => if b.1 * p.2 < p.1 * b.2 then some p else best) none

/-- The governor acts on a record that closes an RTC second (R619 to R622). -/
def Stage.govern (s : Stage) (rec : List Nat) : Stage :=
  if s.mode != mSolo && s.mode != mPrincipal then s
  else
    let att := s.att
    let rate := s.fld pBench 0x108 31 24
    if !s.flag pBench 0x100 31 then
      if att = 0 then s else (s.setAtt (att - rate)).govSubmit true
    else
      match s.govLoudest rec with
      | none => (s.setFld pBench 0x10C 15 0 0xFFFF).govSubmit false
      | some (e, d) =>
        let s := s.setFld pBench 0x10C 15 0 (levelOf e d)
        let limit := s.fld pBench 0x104 15 0
        let (att', held) :=
          if energy limit * d < e then (min (att + rate) s.maxAtt, 0)
          else if e ≤ energy (limit - 100) * d then
            (if s.fld pBench 0x100 9 0 ≤ s.mail.held + 1 then att - rate else att, s.mail.held + 1)
          else (att, 0)
        let s := s.withMail fun m => { m with held := held }
        (s.setAtt att').govSubmit (att' != att)

/-- round(−20,000 × log10(g ÷ REF)) within 0 to `top`: the largest a with |g| not above |REF| × 10^(−(a − 1/2) ÷ 20,000) (R622). -/
def attOf (g ref : Int) (top : Nat) : Nat :=
  ((upTo 15).reverse).foldl (fun a j =>
    let c := a + 2 ^ j
    if c ≤ top ∧ g.natAbs * expFix (Int.fdiv (ln10Fix * (2 * c - 1)) 40000) ≤ ref.natAbs * fixOne then c else a) 0

/-- Entry into PRINCIPAL: ATT from the lowest enabled entry whose REF is not zero (R622). A negative ratio has no stated value. -/
def Stage.govAdopt (s : Stage) : Stage :=
  match s.govOn.filter fun i => (Tab.get (0, 0) s.mail.ents i).2 != 0 with
  | [] => s
  | i :: _ =>
    let (xp, ref) := Tab.get (0, 0) s.mail.ents i
    let k := bits xp 29 24
    let r := (Word.ofNat ref).toInt
    let g := (s.cross k (s.bat k).target (bits xp 13 3) (bits xp 2 0)).toInt
    if g * r < 0 then
      let (d, s) := s.draw
      s.setAtt (Config.govAtt d % (s.maxAtt + 1))
    else s.setAtt (attOf g r s.maxAtt)

/-! ### The mailbox (R608) -/

/-- A datum as FRAC, NS and SEC (R5). -/
def datumWords (t : Nat) : List Nat :=
  [t % 65536, t / 65536 % 1000000000, t / unitsPerSec % 2 ^ 32, t / unitsPerSec / 2 ^ 32]

/-- Words written to consecutive registers. -/
def Stage.setWords (s : Stage) (p off : Nat) : List Nat → Stage
  | [] => s
  | w :: t => (s.setN p off w).setWords p (off + 4) t

/-- A record of a good CRC is taken: counts, gaps, LIVE and the events (R608, R626). -/
def Stage.recordTake (s : Stage) (rec : List Nat) : Stage :=
  let seq := rec.getD 0 0
  let open' := bit (rec.getD 12 0) 30
  let was := s.flag pBench 0x080 29
  let s := ((s.setWords pBench 0x0C0 rec).setWords pBench 0x090 (datumWords s.now)).bump pBench 0x084
  let s := match s.mail.lastSeq with
    | none => s
    | some l =>
      let gap := (seq + 2 ^ 32 - l) % 2 ^ 32
      if gap = 1 then s else (s.bumpBy pBench 0x088 ((gap + 2 ^ 32 - 1) % 2 ^ 32)).raise pBench 1
  let s := s.withMail fun m => { m with lastSeq := some seq }
  let s := s.setN pBench 0x080 (2 ^ 31 + bits (rec.getD 12 0) 31 31 * 2 ^ 30 + (if open' then 2 ^ 29 else 0))
  (s.raise pBench 0).raiseIf (open' && !was) pBench 4

/-- The periods of the last WINDOW seconds, 60 s at most, with this record's (R620). -/
def Stage.windowTake (s : Stage) (rec : List Nat) : Stage :=
  let period := bits (rec.getD 2 0) 23 20
  let sec := if period = 9 then (rec.getD 1 0 + 2 ^ 32 - 1) % 2 ^ 32 else rec.getD 1 0
  let l := s.mail.window ++ [(sec, (upTo 4).map fun k => rec.getD (3 + 2 * k) 0 / 65536)]
  let w := s.fld pBench 0x108 15 8
  s.withMail fun m => { m with window := l.filter fun e => decide ((sec + 2 ^ 32 - e.1) % 2 ^ 32 < w) }

/-- The oldest record on its way arrives at raw `t`, its bits in `err` inverted (R608). -/
def Stage.benchRecord (s : Stage) (t : Nat) (err : List Nat) : Stage :=
  let s := s.tick t
  match s.bench.sent with
  | [] => s
  | r :: rest =>
    let s := s.withBench fun b => { b with sent := rest }
    let got := (upTo 16).map fun i => Nat.xor (r.getD i 0) (err.getD i 0 % 2 ^ 32)
    if s.sup.state != .up then s
    else if crc32c ((got.take 15).flatMap (leBytes 4)) != got.getD 15 0 then (s.bump pBench 0x08C).raise pBench 2
    else
      let s := (s.recordTake got).windowTake got
      if bits (got.getD 2 0) 23 20 = 9 then s.govern got else s

/-- No record has been accepted for 300 ms (R608). -/
def Stage.benchSilent (s : Stage) : Stage :=
  if s.flag pBench 0x080 31 then (s.setFlag pBench 0x080 31 false).raise pBench 3 else s

/-- A read of REC_0 latches the others and the arrival set (R608). -/
def Stage.recLatch (s : Stage) : Stage :=
  s.withMail fun m => { m with view := ((upTo 4).map fun i => s.regN pBench (0x090 + 4 * i)) ++ (upTo 15).map fun i => s.regN pBench (0x0C4 + 4 * i) }

/-- Computed reads of BENCH_MAILBOX. -/
def Stage.benchRead (s : Stage) (off : Nat) : Option Nat :=
  if 0x0A8 ≤ off ∧ off ≤ 0x0B4 then some 0
  else if 0x090 ≤ off ∧ off ≤ 0x09C then some (s.mail.view.getD ((off - 0x090) / 4) 0)
  else if 0x0C4 ≤ off ∧ off ≤ 0x0FC then some (s.mail.view.getD (4 + (off - 0x0C4) / 4) 0)
  else if off = 0x114 then some (Tab.get (0, 0) s.mail.ents (s.fld pBench 0x110 4 0)).1
  else if off = 0x118 then some (Tab.get (0, 0) s.mail.ents (s.fld pBench 0x110 4 0)).2
  else none

/-- GOV_XP or GOV_REF of the entry GOV_SEL selects, written. -/
def Stage.govWritten (s : Stage) (off v : Nat) : Stage :=
  let i := s.fld pBench 0x110 4 0
  let (xp, ref) := Tab.get (0, 0) s.mail.ents i
  s.withMail fun m => { m with ents := Tab.put (0, 0) m.ents i (if off = 0x114 then (Nat.land v 0xBF003FFF, ref) else (xp, v)) }

/-- A soft reset clears the counts and the buffers and keeps the governor's settings and ATT (R623). -/
def Stage.benchSoftReset (s : Stage) : Stage :=
  (s.clearRegs pBench fun o => decide (0x080 ≤ o ∧ o < 0x100) || decide (0x180 ≤ o ∧ o < 0x400)).withMail fun m =>
    { m with view := [], lastSeq := m.lastSeq }

/-! ### Commands (R611 to R618) -/

/-- A Catwalk path that CAT_PERM bit `b` governs is usable (R550). -/
def Stage.catOk (s : Stage) (b : Nat) : Bool := !s.grid.lock || s.flag 0x001 0x0A0 b

/-- A reason in [31:24]. -/
def reason (r : Nat) : Word := Word.ofNat (r * 2 ^ 24)

/-- The path is refused: CAT_DENIED, and the command ends with reason 0x02 (R550, R613). -/
def Stage.benchPath (s : Stage) (c : Cmd) (f : Stage → Stage) : Stage :=
  if s.catOk 1 then f s else ((s.raise 0x001 4).complete pBench c stRefused (reason 2))

/-- The conditions of R613 in their order. -/
def Stage.calWith (s : Stage) (c : Cmd) (inCal : Bool) (f : Stage → Stage) : Stage :=
  if s.mode != mService then s.complete pBench c stRefused (reason 1)
  else s.benchPath c fun s =>
    if !s.bench.sealLow then s.complete pBench c stRefused (reason 3)
    else if inCal && s.bench.calib.isNone then s.complete pBench c stRefused (reason 7)
    else f s

/-- Bytes written into consecutive words of the page's buffers. -/
def Stage.setBuf (s : Stage) (off : Nat) (l : List Byte) (words : Nat) : Stage :=
  s.setWords pBench off ((upTo words).map fun i => ofLeBytes ((l.drop (4 * i)).take 4))

def Stage.readLog (s : Stage) (c : Cmd) : Stage :=
  s.benchPath c fun s =>
    let i := c.a0.toNat
    let n := c.a1.toNat
    if 65280 ≤ i ∨ n < 1 ∨ 32 < n then s.complete pBench c stRefused 0#32
    else
      let l := (s.bench.log.drop i).take n
      (s.setBuf 0x200 l.flatten (4 * l.length)).complete pBench c stDone (Word.ofNat (s.bench.log.length * 65536 + l.length))

/-- The identity string, 96 bytes (R611). -/
def identity : List Byte := (upTo 96).map Config.identity

def Stage.idBytes (s : Stage) : List Byte :=
  let b := s.bench
  let chans := (upTo 4).map fun k => b.vals.chans.getD k {}
  let l := identity ++ leBytes 4 b.fwCrc ++ leBytes 3 b.sealCount ++ [0#8] ++ leBytes 2 b.log.length ++ [0#8, 0#8]
    ++ chans.flatMap (fun c => leBytes 2 c.fsSpl) ++ chans.map (fun c => BitVec.ofNat 8 (c.src * 32 + c.freq * 8 + c.time * 2))
    ++ leBytes 2 b.vals.intLen ++ [0#8, 0#8]
  l ++ leBytes 4 (crc32c l)

def Stage.readId (s : Stage) (c : Cmd) : Stage :=
  s.benchPath c fun s => (s.setBuf 0x180 s.idBytes 32).complete pBench c stDone 0#32

/-- CAL_CHALLENGE (R614). -/
def Stage.calChallenge (s : Stage) (c : Cmd) : Stage :=
  s.calWith c false fun s =>
    if s.bench.lockout then s.complete pBench c stRefused (reason 5)
    else
      let (d, s) := s.draw
      let n := (Config.nonce d).toNat
      ((s.withBench fun b => { b with nonce := some n }).set64 pBench 0x0A0 n).complete pBench c stDone 0#32

/-- The tag a CAL_ENTER must bring (R614). -/
def authTag (nonce count : Nat) : List Byte :=
  (hmac256 ((upTo 32).map Config.sealKey) (leBytes 8 nonce ++ [4#8] ++ leBytes 3 count)).take 16

/-- CAL_ENTER (R614, R615). -/
def Stage.calEnter (s : Stage) (c : Cmd) : Stage :=
  s.calWith c false fun s =>
    let b := s.bench
    if b.sealCount = 0xFFFFFF then s.complete pBench c stRefused (reason 6)
    else
      let tag := (upTo 4).flatMap fun i => leBytes 4 (s.regN pBench (0x0A8 + 4 * i))
      let ok := match b.nonce with
        | none => false
        | some n => authTag n b.sealCount == tag
      if ok then
        (s.withBench fun b => { b with nonce := none, refused := 0, sealCount := b.sealCount + 1, calib := some (b.vals, none), mPart := true }).complete
          pBench c stDone (Word.ofNat (b.sealCount + 1))
      else
        (s.withBench fun b => { b with nonce := none, refused := (b.refused + 1) % 3, lockout := b.lockout || b.refused == 2 }).complete
          pBench c stRefused (reason 4)

/-- CAL_MEASURE starts its 10 s (R617). -/
def Stage.calMeasure (s : Stage) (c : Cmd) : Stage :=
  s.calWith c true fun s => s.setRunning pBench (some c)

/-- The pending copy changed. -/
def Stage.withPending (s : Stage) (f : Sealed × Option Nat → Sealed × Option Nat) : Stage :=
  s.withBench fun b => { b with calib := b.calib.map f }

def Sealed.setChan (v : Sealed) (k : Nat) (f : MeasChan → MeasChan) : Sealed :=
  { v with chans := setAt v.chans k (f (v.chans.getD k {})) }

/-- The 10 s end: the Z-weighted level in 0.001 dBFS, and whether the tone met R617. -/
def Stage.calMeasured (s : Stage) (level : Int) (tone : Bool) : Stage :=
  match s.runningCmd pBench with
  | none => s
  | some c =>
    let s := s.setRunning pBench none
    s.calWith c true fun s =>
      let k := bits c.a0.toNat 1 0
      let cal : Int := if bit c.a0.toNat 8 then 114000 else 94000
      let spl : Int := ((s.bench.vals.chans.getD k {}).fsSpl : Int) * 10
      if !tone then s.complete pBench c stFailed (reason 9)
      else if 3000 < (level + spl - cal).natAbs then s.complete pBench c stFailed (reason 8)
      else
        let n := toBits 16 (roundHalfUp (cal - level) 10)
        (s.withPending fun p => (p.1.setChan k fun m => { m with fsSpl := n }, p.2)).complete pBench c stDone (Word.ofNat n)

/-- CAL_SETTINGS (R616); an argument outside its range is refused (R565). -/
def Stage.calSettings (s : Stage) (c : Cmd) : Stage :=
  s.calWith c true fun s =>
    let v := c.a1.toNat
    let len := bits c.a2.toNat 11 0
    if bits v 4 3 = 3 ∨ bits v 2 1 = 3 ∨ len < 1 ∨ 3600 < len then s.complete pBench c stRefused 0#32
    else
      (s.withPending fun p =>
        ({ p.1.setChan (bits c.a0.toNat 1 0) fun m => { m with src := bits v 7 5, freq := bits v 4 3, time := bits v 2 1 } with intLen := len }, p.2)).complete
        pBench c stDone 0#32

def Stage.calSetRtc (s : Stage) (c : Cmd) : Stage :=
  s.calWith c true fun s => (s.withPending fun p => (p.1, some c.a0.toNat)).complete pBench c stDone 0#32

/-- CAL_COMMIT (R618): the flash and a CAL entry are written; whether they read back is open. -/
def Stage.calCommit (s : Stage) (c : Cmd) : Stage :=
  s.calWith c true fun s =>
    let (d, s) := s.draw
    if !Config.flashOk d then s.complete pBench c stFailed (reason 0xA)
    else
      match s.bench.calib with
      | none => s
      | some (v, r) =>
        let spl (k : Nat) : Nat :=
          let n := (v.chans.getD k {}).fsSpl
          if n = (s.bench.vals.chans.getD k {}).fsSpl then 0xFFFF else n
        let e := logEntry (s.rtcMinutes ++ (upTo 4).flatMap (fun k => leBytes 2 (spl k)) ++ [BitVec.ofNat 8 s.bench.sealCount, 0x40#8])
        ((s.withBench fun b => { b with next := some (v, r), calib := some (v, none) }).logPut e).complete pBench c stDone 0#32

def Stage.calExit (s : Stage) (c : Cmd) : Stage :=
  s.calWith c true fun s => (s.withBench fun b => { b with calib := none }).complete pBench c stDone 0#32

/-- SEAL_N high, 30 minutes or a lost path end calibration (R618); `sealN` is that SEAL_N went high. -/
def Stage.calLeave (s : Stage) (sealN : Bool) : Stage :=
  s.withBench fun b => { b with calib := none, sealLow := b.sealLow && !sealN }

def Stage.nonceExpiry (s : Stage) : Stage := s.withBench fun b => { b with nonce := none }
def Stage.lockoutEnd (s : Stage) : Stage := s.withBench fun b => { b with lockout := false }

/-- A command of the BENCH_MAILBOX page starts (R625). -/
def Stage.benchCmd (s : Stage) (c : Cmd) : Stage :=
  match c.code with
  | 1 => s.readLog c | 2 => s.readId c | 3 => s.calChallenge c | 4 => s.calEnter c | 5 => s.calMeasure c
  | 6 => s.calSettings c | 7 => s.calSetRtc c | 8 => s.calCommit c | 9 => s.calExit c
  | _ => s.complete pBench c stRefused 0#32

/-! ### The UART (R612) -/

def Stage.uart (s : Stage) (o : Out) : Stage := if s.bench.on then s.emit o else s
def Stage.uartId (s : Stage) : Stage := s.uart (.uartId s.bench.fwCrc s.bench.sealCount s.bench.log.length)
def Stage.uartNow (s : Stage) : Stage := s.uart (.uartNow s.sup.rtc s.bench.levels)
def Stage.uartLog (s : Stage) (i n : Nat) : Stage :=
  if 1 ≤ n ∧ n ≤ 65280 then s.uart (.uartLog ((s.bench.log.drop i).take n)) else s.uart .uartErr

end Sys2Proof.Machine
end

