-- ==== Sys2Proof/Machine/Ecdsa.lean ====
section
/-!
DEFINITION. Verification of an ECDSA signature over P-256 (R650).
-/
namespace Sys2Proof.Machine

/-- The field prime, the order, the constant b and the base point of P-256. -/
def p256P : Nat := 0xFFFFFFFF00000001000000000000000000000000FFFFFFFFFFFFFFFFFFFFFFFF
def p256N : Nat := 0xFFFFFFFF00000000FFFFFFFFFFFFFFFFBCE6FAADA7179E84F3B9CAC2FC632551
def p256B : Nat := 0x5AC635D8AA3A93E7B3EBBD55769886BC651D06B0CC53B0F63BCE3C3E27D2604B
def p256G : Nat × Nat := (0x6B17D1F2E12C4247F8BCE6E563A440F277037D812DEB33A0F4A13945D898C296, 0x4FE342E2FE1A7F9B8EE7EB4A7C0F9E162BCE33576B315ECECBB6406837BF51F5)

/-- `a` to the power `e` modulo `m`, over the `k` low bits of `e`. -/
def powMod (m : Nat) : Nat → Nat → Nat → Nat
  | 0, _, _ => 1
  | k + 1, a, e => (if e % 2 = 1 then a else 1) * powMod m k (a * a % m) (e / 2) % m

/-- The inverse modulo a prime of 256 bits. -/
def invMod (m a : Nat) : Nat := powMod m 256 (a % m) (m - 2)

/-- The sum of two points of the curve; none is the point at infinity. -/
def p256Add (a b : Option (Nat × Nat)) : Option (Nat × Nat) :=
  match a, b with
  | none, b => b
  | a, none => a
  | some (x1, y1), some (x2, y2) =>
    let p := p256P
    let at' (l : Nat) : Option (Nat × Nat) :=
      let x := (l * l + 2 * p - x1 - x2) % p
      some (x, (l * (x1 + p - x) + p - y1) % p)
    if x1 = x2 then
      if (y1 + y2) % p = 0 then none else at' ((3 * x1 * x1 + p - 3) * invMod p (2 * y1) % p)
    else at' ((y2 + p - y1) * invMod p (x2 + p - x1) % p)

/-- `e` times a point, over the `k` low bits of `e`. -/
def p256Mul : Nat → Nat → Option (Nat × Nat) → Option (Nat × Nat)
  | 0, _, _ => none
  | k + 1, e, a => p256Add (if e % 2 = 1 then a else none) (p256Mul k (e / 2) (p256Add a a))

/-- The signature (r, s) of the digest `z` verifies under the public key (x, y). -/
def ecdsaOk (x y r s z : Nat) : Bool :=
  let w := invMod p256N s
  decide (x < p256P ∧ y < p256P ∧ y * y % p256P = (x * x * x + (p256P - 3) * x + p256B) % p256P ∧ 1 ≤ r ∧ r < p256N ∧ 1 ≤ s ∧ s < p256N)
    && (match p256Add (p256Mul 256 (z * w % p256N) (some p256G)) (p256Mul 256 (r * w % p256N) (some (x, y))) with
        | none => false
        | some (vx, _) => vx % p256N == r)

end Sys2Proof.Machine
end

