-- ==== Sys2Proof/Machine/Firmware.lean ====
section
/-!
DEFINITION. Firmware images, their signature and the boot flash (R649 to R651, R588).
-/
namespace Sys2Proof.Machine

/-- The byte of the boot flash at `a`; an unlisted byte reads zero. -/
def Stage.flash8 (s : Stage) (a : Nat) : Byte := Tab.get 0#8 s.flash a

/-- Bytes written to the flash from `a` on. -/
def Stage.flashWrite (s : Stage) (a : Nat) : List Byte → Stage
  | [] => s
  | b :: t => { s with flash := Tab.put 0#8 s.flash a b }.flashWrite (a + 1) t

/-- The flash offset of an image slot: 0 A, 1 B (R649). -/
def slotBase (slot : Nat) : Nat := if slot = 0 then 0x100000 else 0x900000

/-- The `k` bytes at `o` of the bytes that `rd` gives. -/
def bytesAt (rd : Nat → Byte) (o k : Nat) : List Byte := (upTo k).map fun i => rd (o + i)

/-- The little-endian number in them. -/
def numAt (rd : Nat → Byte) (o k : Nat) : Nat := ofLeBytes (bytesAt rd o k)

/-- The hash of PUBKEY is the one in fuses, and the signature verifies over every byte of an image of `len` bytes but the SIGNATURE field
(R650). -/
def signatureOk (rd : Nat → Byte) (len : Nat) : Bool :=
  let body := bytesAt rd 0 0x80 ++ bytesAt rd 0xC0 (len - 0xC0)
  let be (o : Nat) : Nat := ofBeBytes (bytesAt rd o 32)
  sha256 (bytesAt rd 0x40 64) == (upTo 32).map Config.keyHash
    && ecdsaOk (be 0x40) (be 0x60) (be 0x80) (be 0xA0) (ofBeBytes (sha256 body))

/-- The segments of an image: offset, length and Grid address. -/
def segments (rd : Nat → Byte) : List (Nat × Nat × Nat) :=
  (upTo (min 16 (numAt rd 0x010 4))).map fun i =>
    let e := 0x100 + 16 * i
    (numAt rd e 4, numAt rd (e + 4) 4, numAt rd (e + 8) 4 + numAt rd (e + 12) 4 % 16 * 2 ^ 32)

/-- A segment lies in management memory below the ring or in the pool (R650). -/
def segmentOk (g : Nat × Nat × Nat) : Bool :=
  let (_, len, a) := g
  (decide (0x10000000 ≤ a) && decide (a + len ≤ 0x100F8000)) || (decide (0x100000000 ≤ a) && decide (a + len ≤ 0x102000000))

/-- An image is valid (R650). -/
def imageValid (rd : Nat → Byte) : Bool :=
  let len := numAt rd 0x004 4
  let n := numAt rd 0x010 4
  numAt rd 0 4 == 0x474D4946 && decide (512 ≤ len) && decide (len ≤ 8388608) && decide (1 ≤ n) && decide (n ≤ 16)
    && decide (Config.minSvn ≤ numAt rd 0x008 4) && (segments rd).all segmentOk && signatureOk rd len

end Sys2Proof.Machine
end

