-- ==== Sys2Proof/Machine/Health.lean ====
section
/-!
DEFINITION. HEALTH words (R504 to R506, R685), their event (R574), and what every command ends with.
-/
namespace Sys2Proof.Machine

def pReh : Nat := 0x2B0

/-! ### Conditions (R505) -/

def Stage.spFailed (s : Stage) (k : Nat) : Bool := s.flag pReh (0x0D0 + 4 * (k / 32)) (k % 32)
def Stage.bankFailed (s : Stage) (b : Nat) : Bool := s.flag pReh (0x0B0 + 4 * (b / 32)) (b % 32)
def Stage.laneFailed (s : Stage) (i : Nat) : Bool := s.flag pReh 0x0D8 i

/-- The banks set in BANK_FAIL. -/
def Stage.bankFails (s : Stage) : Nat := (upTo 8).foldl (fun n i => n + popCount 32 (s.regN pReh (0x0B0 + 4 * i))) 0

def Stage.spFault (s : Stage) (k : Nat) : Bool := (s.sp k).run == .halted || s.spFailed k

/-- FAULT and DEGRADED of a page, as 2 and 1. -/
def Stage.healthOf (s : Stage) (k : PageKind) (i : Nat) : Nat :=
  let w (f d : Bool) : Nat := (if f then 2 else 0) + (if d then 1 else 0)
  match k with
  | .sp => w (s.spFault i) false
  | .bat => w (match (s.bat i).spare with | .subst _ => true | .out => true | _ => false) (!s.flag (pBat i) 0x0B4 0)
  | .pool => w (s.bankFails != 0 || s.reh.poolUe) (Tab.get 0 s.reh.corr pPool == 0xFFFF)
  | .level => w s.level.ceilingSeen (s.level.loop == .fault || s.vcoreNow == s.vmax)
  | .datum => w (!s.datum.pll) (s.datum.servo == .holdover || s.datum.servo == .slew)
  | .graph => w s.graph.broken false
  | .lanes => w false (s.fld pReh 0x0D8 15 0 != 0)
  | .net => w false (s.laneFailed (16 + i))
  | _ => 0

/-- FAULT and DEGRADED of page `p`. -/
def Stage.healthAt (s : Stage) (p : Nat) : Nat :=
  match pageOf p with
  | some (k, i) => s.healthOf k i
  | none => 0

/-- The pages that can show FAULT or DEGRADED now. -/
def Stage.healthPages (s : Stage) : List Nat :=
  let sps := (upTo 64).filter fun k => s.spFailed k || (Tab.find s.sps k).isSome
  let bats := (upTo 64).filter fun k => (Tab.find s.bats k).isSome || (Tab.find s.regs (pBat k * 4096 + 0x0B4)).isSome
  pPool :: sps.map (0x100 + ·) ++ bats.map pBat ++ [0x2D1, 0x280, 0x2F0, 0x260] ++ (upTo 8).map pNet

/-- The pages other than SYS that do, with what they show. -/
def Stage.pageFlags (s : Stage) : Tab Nat := s.healthPages.foldl (fun t p => Tab.put 0 t p (s.healthAt p)) []

/-- Some page is DEGRADED (R506). -/
def Stage.anyDegraded (s : Stage) : Bool := s.pageFlags.any fun e => e.2 % 2 == 1

/-- The same with SYS, whose HEALTH has DEGRADED and no FAULT (R506). -/
def Stage.healthFlags (s : Stage) : Tab Nat := Tab.put 0 s.pageFlags 0 (if s.anyDegraded then 1 else 0)

/-- UNTESTED of a page (R685). -/
def Stage.untested (s : Stage) (k : PageKind) (i : Nat) : Bool :=
  match k with
  | .sp => Tab.get 0 s.reh.segs i != 2 ^ 64 - 1
  | .bat => (s.bat i).untested
  | .pool =>
    let offered := (upTo 256).filter fun b => s.flag pReh (0x090 + 4 * (b / 32)) (b % 32)
    !(s.reh.scrubOnce && offered.all fun b => s.bankFailed b || Tab.get 0 s.reh.marched b == 3
        || (s.reh.graceOnce && !s.reh.borrowed.contains b && Tab.get 0 s.reh.marched b == 0))
  | .lanes => !((upTo 16).all fun i => s.reh.laneOnce.contains i)
  | .net => !s.reh.laneOnce.contains (16 + i)
  | _ => false

/-- HEALTH of a page other than SYS (R504). -/
def Stage.health (s : Stage) (p : Nat) : Nat :=
  match pageOf p with
  | none => 0
  | some (k, i) => s.healthOf k i * 2 ^ 30 + (if s.untested k i then 2 ^ 29 else 0) + Tab.get 0 s.reh.corr p

/-- SYS.HEALTH (R506). -/
def Stage.sysHealth (s : Stage) : Nat :=
  let l := s.pageFlags
  let has (f : Nat → Bool) (b : Nat) : Nat := if l.any fun e => f e.1 then 2 ^ b else 0
  (if s.fld 0x2A0 0x094 7 0 != 0 || l.any (fun e => decide (2 ≤ e.2)) then 2 ^ 31 else 0)
    + (if s.anyDegraded then 2 ^ 30 else 0) + (if s.reh.passOnce then 0 else 2 ^ 29)
    + s.fld 0x2A0 0x084 3 0 * 2 ^ 24
    + has (fun p => decide (0x100 ≤ p ∧ p < 0x140)) 15 + has (fun p => decide (0x140 ≤ p ∧ p < 0x180)) 14 + has (· == pPool) 13
    + has (fun p => p == 0x260 || decide (0x240 ≤ p ∧ p < 0x248)) 12 + has (· == 0x280) 11 + has (· == 0x2D1) 10 + has (· == 0x2F0) 9
    + s.regN pReh 0x0DC % 256

/-- HEALTH is raised where FAULT or DEGRADED has gone from 0 to 1, against the flags `old` (R574). -/
def Stage.healthEvents (s : Stage) (old : Tab Nat) : Stage :=
  s.healthFlags.foldl (fun s e => s.raiseIf (Nat.land e.2 (3 - Tab.get 0 old e.1) != 0) e.1 29) s

/-- What every command ends with: HEALTH events, then the interrupt vectors (R574 to R576). -/
def Stage.settle (s : Stage) (old : Tab Nat) : Stage := (s.healthEvents old).vectors

end Sys2Proof.Machine
end

