-- ==== Sys2Proof/Machine/Rehearsal.lean ====
section
/-!
DEFINITION. Rehearsal: loans and March tests, the scrub, self-test, loopback, passes and the health report (R492 to R511).
-/
namespace Sys2Proof.Machine

def Stage.withReh (s : Stage) (f : RehSt → RehSt) : Stage := { s with reh := f s.reh }

/-- Rehearsal runs in this mode (R492). -/
def rehMode (m : Nat) : Bool := decide (3 ≤ m ∧ m ≤ 11)

/-- Activity `b` of REH_CFG runs: 0 March, 1 scrub, 2 self-test, 3 loopback. -/
def Stage.rehOn (s : Stage) (b : Nat) : Bool := rehMode s.mode && s.flag pReh 0x080 b

/-- A bank is offered for loan. -/
def Stage.loanOffered (s : Stage) (b : Nat) : Bool := s.flag pReh (0x090 + 4 * (b / 32)) (b % 32)
def Stage.offeredBanks (s : Stage) : List Nat := (upTo 256).filter s.loanOffered

/-- A rehearsal failure (R502). -/
def Stage.rehFailure (s : Stage) : Stage := s.sdCause 4

def addOnce (l : List Nat) (x : Nat) : List Nat := if l.contains x then l else l ++ [x]

/-! ### Passes (R503) -/

/-- What a pass waits for of the March tests; `grace` lets banks never borrowed go. -/
def Stage.marchDone (s : Stage) (grace : Bool) : Bool :=
  !bit s.reh.used 0 || s.reh.offered.all fun b =>
    s.bankFailed b || Tab.get 0 s.reh.marchedNow b == 3 || (grace && !s.reh.borrowed.contains b)

/-- The other activities have finished. -/
def Stage.othersDone (s : Stage) : Bool :=
  let r := s.reh
  let spareOk (k : Nat) : Bool :=
    !s.inMap (64 + k) || !s.flag (pBat k) 0x0B4 0 || (match (s.bat k).spare with | .subst _ => true | .out => true | _ => false)
      || (s.bat k).turn.length == 8
  (!bit r.used 1 || r.scrubbed)
    && (!bit r.used 2 || (upTo 64).all fun k => s.spFailed k || !s.powered (0x100 + k) || Tab.get 0 r.segsNow k == 2 ^ 64 - 1)
    && (!bit r.used 3 || (upTo 24).all fun i => s.laneEn i || !s.powered (lanePage i) || r.laneNow.contains i)
    && (upTo 64).all spareOk

/-- At least one activity has been enabled in the interval. -/
def Stage.passUsed (s : Stage) : Bool :=
  s.reh.used != 0 || (upTo 64).any fun k => s.inMap (64 + k) && s.flag (pBat k) 0x0B4 0

/-- A pass is complete when every activity has finished since the last. -/
def Stage.passJudge (s : Stage) : Stage :=
  if s.passUsed && s.othersDone && s.marchDone s.reh.grace then
    let s := (s.bump pReh 0x0DC).raise pReh 5
    let s := s.withReh fun r => { r with scrubbed := false, marchedNow := [], segsNow := [], laneNow := [], offered := s.offeredBanks,
                                         borrowed := [], used := s.fld pReh 0x080 3 0, grace := false, passOnce := true }
    { s with bats := s.bats.map fun e => (e.1, { e.2 with turn := [] }) }
  else s

/-! ### Loans and March tests (R493 to R497) -/

/-- A bank is borrowed at raw `t` (R493). -/
def Stage.bankBorrow (s : Stage) (b t : Nat) : Stage :=
  let s := s.tick t
  let idle := s.bankOwner b false == 0x45 || decide (Tab.get 0 s.reh.lastUse b + s.fld pReh 0x088 9 0 * 1000000 * unit ≤ t)
  let quiet := (s.handingTo b false).isNone && (s.handingTo b true).isNone
  if decide (b < 256) && s.rehOn 0 && s.loanOffered b && !s.bankFailed b && (s.loan b).isNone && idle && quiet && s.fld 0x2D0 0x090 8 8 == 1 && !s.flag 0x2D0 0x090 28 then
    (s.putLoan b (some (Tab.get {} s.reh.resume b))).withReh fun r => { r with borrowed := addOnce r.borrowed b }
  else s

/-- The bank fails (R496, R497). -/
def Stage.bankFail (s : Stage) (b : Nat) : Stage :=
  (s.setFlag pReh (0x0B0 + 4 * (b / 32)) (b % 32) true).rehFailure

/-- The address of a block under test. -/
def blockAddr (b block : Nat) : Nat := poolBase + b * bankSize + block * 2048

/-- The save of a block reads its words; a word that is written back uncorrectable fails the bank (R494, R496). -/
def Stage.blockSave (s : Stage) (b block : Nat) : Stage :=
  let s := s.eccReads (blockAddr b block) 2048 (s.bankOwner b false)
  let bad := s.ecc.any fun e => decide (blockAddr b block ≤ 32 * e.1 ∧ 32 * e.1 < blockAddr b block + 2048) && s.lost (32 * e.1)
  if bad && !s.bankFailed b then s.bankFail b else s

/-- The March test of the block under test ends; `bad` that a read mismatched (R494, R497). -/
def Stage.marchBlock (s : Stage) (b : Nat) (bad : Bool) : Stage :=
  match s.loan b with
  | none => s
  | some l =>
    if l.recalled then s
    else
      let s := s.blockSave b l.block
      if bad && !l.suspect then s.putLoan b (some { l with suspect := true })
      else if bad then ((s.bankFail b).raise pReh 0).putLoan b none
      else
        let s := if l.suspect then (s.bump pReh 0x0E8).raise pReh 3 else s
        if l.block < 63 then s.putLoan b (some { l with block := l.block + 1, suspect := false })
        else
          let d := if l.bg then 2 else 1
          let s := s.withReh fun r => { r with marched := Tab.put 0 r.marched b (Nat.lor (Tab.get 0 r.marched b) d),
                                               marchedNow := Tab.put 0 r.marchedNow b (Nat.lor (Tab.get 0 r.marchedNow b) d) }
          (s.putLoan b (some { block := 0, bg := !l.bg })).passJudge

/-- An access of the bank's owner waits for it. -/
def Stage.awaited (s : Stage) (b : Nat) : List Stalled :=
  s.grid.stalled.filter fun x => poolBase ≤ x.addr && (x.addr % 0x40000000) / bankSize == b && x.addr < 0x1C0000000

/-- The recall of a loan begins (R495). -/
def Stage.recallStart (s : Stage) (b : Nat) : Stage :=
  match s.loan b with
  | none => s
  | some l => s.putLoan b (some { l with recalled := true })

/-- The bank controller recalls a loan that an access of its owner waits for (R495). -/
def Stage.bankRecall (s : Stage) (b : Nat) : Stage := if s.awaited b = [] then s else s.recallStart b

/-- A recall has finished its element and the restore at raw `t` (R495, R496). -/
def Stage.recallDone (s : Stage) (b t : Nat) : Stage :=
  let s := s.tick t
  match s.loan b with
  | none => s
  | some l =>
    if !l.recalled then s
    else
      let s := s.blockSave b l.block
      let stall := ((s.awaited b).foldl (fun m x => max m (t - x.at')) 0 + unit - 1) / unit
      let s := (s.bump pReh 0x0E0).setN pReh 0x0E4 (max (s.regN pReh 0x0E4) (min 4095 stall))
      (s.putLoan b none).withReh fun r => { r with resume := Tab.put {} r.resume b { block := l.block, bg := l.bg } }

/-- LOAN_i was written over `old` (R493). -/
def Stage.loanWritten (s : Stage) (i old : Nat) : Stage :=
  let s := s.withReh fun r => { r with offered := r.offered.filter fun b => b / 32 != i || s.loanOffered b }
  (upTo 32).foldl (fun s k => if bit old k && !s.flag pReh (0x090 + 4 * i) k then s.recallStart (32 * i + k) else s) s

/-- Every bank on loan is recalled. -/
def Stage.recallAll (s : Stage) : Stage := (s.reh.loans.map (·.1)).foldl Stage.recallStart s

/-- REH_CFG was written (R509). -/
def Stage.rehCfgWritten (s : Stage) : Stage :=
  let s := s.withReh fun r => { r with used := Nat.lor r.used (s.fld pReh 0x080 3 0) }
  if s.flag pReh 0x080 0 then s else s.recallAll

/-! ### The scrub (R498) -/

def scrubWords : Nat := 2097152

/-- Slots of the exchange whose word is lost read zero (R528). -/
def Stage.exchLose (s : Stage) (a : Nat) : Stage :=
  if 0x400240000 ≤ a ∧ a < 0x400250000 then
    let k := (a - 0x400240000) / 32 * 8
    { s with exch := { s.exch with cur := Tab.keep (fun i => !(decide (k ≤ i) && decide (i < k + 8))) s.exch.cur } }
  else s

/-- The scrub reads a word: at Grid address `addr` for `mem` 0, else of buffer `mem` of page `page` (R529, R532). `upset` names the stored
bits that have been upset since the word was written, `words` the words by which the pass advances. -/
def Stage.scrubRead (s : Stage) (mem addr page : Nat) (upset : List Nat) (words : Nat) : Stage :=
  if !s.rehOn 1 then s
  else
    let s :=
      if mem = 0 then
        let m := upset.foldl (fun m b => Nat.xor m (2 ^ (b % 266))) (s.flips addr)
        let s := { s with ecc := Tab.put 0 s.ecc (addr / 32) m }
        let own := if addr / 0x100000000 = 1 then s.bankOwner (addr % 0x2000000 / bankSize) false else 0x43
        let s := if s.lost addr then s.exchLose addr else s
        s.eccRead addr own
      else match upset with
        | [] => s
        | [_] => s.eccOne (some page) 0 mem (mem != 5)
        | _ => s.eccTwo 0 mem (mem != 5)
    let pos := s.reh.scrubPos + words
    if pos < scrubWords then s.withReh fun r => { r with scrubPos := pos }
    else (s.withReh fun r => { r with scrubPos := 0, scrubOnce := true, scrubbed := true, scrubPeriod := true }).passJudge

/-- A SCRUB_PERIOD ends (R498, R503, R685). -/
def Stage.scrubPeriodEnd (s : Stage) : Stage :=
  if !s.rehOn 1 then s
  else
    let s := s.raiseIf (!s.reh.scrubPeriod) pReh 4
    let hold := s.othersDone && !s.marchDone false && s.marchDone true
    (s.withReh fun r => { r with scrubPeriod := false, grace := hold, graceOnce := r.scrubOnce }).passJudge

/-! ### Self-test and loopback (R499 to R501) -/

/-- A processor may run a segment now (R499). -/
def Stage.segmentMay (s : Stage) (k : Nat) : Bool :=
  s.rehOn 2 && s.powered (0x100 + k) && (match (s.sp k).run with | .running => false | .draining => false | _ => true)

/-- Segment `g` of SP k ends; `ok` that its signature is right (R500). -/
def Stage.segmentDone (s : Stage) (k g : Nat) (ok : Bool) : Stage :=
  if !s.segmentMay k ∨ 64 ≤ g ∨ 64 ≤ k then s
  else
    let again := s.reh.rerun.contains (k, g)
    if !ok && !again then s.withReh fun r => { r with rerun := r.rerun ++ [(k, g)] }
    else
      let s := s.withReh fun r => { r with
        rerun := r.rerun.filter (· != (k, g)),
        segs := Tab.put 0 r.segs k (Nat.lor (Tab.get 0 r.segs k) (2 ^ g)),
        segsNow := Tab.put 0 r.segsNow k (Nat.lor (Tab.get 0 r.segsNow k) (2 ^ g)) }
      let s :=
        if !ok then ((s.setFlag pReh (0x0D0 + 4 * (k / 32)) (k % 32) true).raise pReh 1).rehFailure
        else if again then (s.bump pReh 0x0E8).raise pReh 3 else s
      s.passJudge

/-- The loopback of lane `i` ends (R501). -/
def Stage.loopbackEnd (s : Stage) (i : Nat) (ok : Bool) : Stage :=
  if 24 ≤ i ∨ !s.rehOn 3 ∨ s.laneEn i ∨ !s.powered (lanePage i) then s
  else
    let again := s.reh.laneRerun.contains i
    if !ok && !again then s.withReh fun r => { r with laneRerun := r.laneRerun ++ [i] }
    else
      let s := s.withReh fun r => { r with laneRerun := r.laneRerun.filter (· != i), laneOnce := addOnce r.laneOnce i,
                                           laneNow := addOnce r.laneNow i }
      (if ok then s else (s.setFlag pReh 0x0D8 i true).raise pReh 2).passJudge

/-! ### The report (R507) -/

/-- The words of the report of instant `t` (2^-16 ns), but for the CRC. -/
def Stage.reportWords (s : Stage) (seq t : Nat) : List Nat :=
  let batFault (n : Nat) : Nat := (upTo 32).foldl (fun m k => if 2 ≤ s.healthOf .bat (32 * n + k) then m + 2 ^ k else m) 0
  [ seq, t / unit % 1000000000, t / unitsPerSec % 2 ^ 32, t / unitsPerSec / 2 ^ 32 % 2 ^ 32, s.sysHealth, s.fld 0x2A0 0x094 7 0
  , s.regN pReh 0x0D0, s.regN pReh 0x0D4, batFault 0, batFault 1, s.bankFails, min 0xFFFFFFFF s.reh.sec, min 0xFFFFFFFF s.reh.ue
  , s.regN pReh 0x0D8, s.regN pReh 0x0DC ]

/-- The report of the `n`-th 10 ms of the datum is latched (R507). -/
def Stage.healthReport (s : Stage) (n : Nat) : Stage :=
  if !rehMode s.mode then s
  else
    let seq := (s.regN pReh 0x0F4 + 1) % 2 ^ 32
    let ws := s.reportWords seq (n * 10000000 * unit)
    let bytes := ws.flatMap (leBytes 4)
    let ws := ws ++ [crc32c bytes]
    let s := ((upTo 16).foldl (fun s j => s.setN pReh (0x100 + 4 * j) (ws.getD j 0)) s).setN pReh 0x0F4 seq
    let s := s.withReh fun r => { r with sec := 0, ue := 0 }
    let s := s.raise pReh 6
    if s.flag pReh 0x080 4 then
      s.withReh fun r => { r with report := some (s.regN pReh 0x0EC + s.fld pReh 0x0F0 3 0 * 2 ^ 32, ws.flatMap (leBytes 4)) }
    else s

/-! ### CLEAR_FAIL and resets (R508, R510) -/

/-- CLEAR_FAIL: the bits cleared and the state after it. -/
def Stage.clearFail (s : Stage) : Nat × Stage :=
  let n := s.bankFails + popCount 32 (s.regN pReh 0x0D0) + popCount 32 (s.regN pReh 0x0D4) + popCount 32 (s.regN pReh 0x0D8)
  (n, (s.clearRegs pReh (fun o => decide (0x0B0 ≤ o ∧ o ≤ 0x0D8))).withReh fun r => { r with poolUe := false })

/-- A soft reset of REHEARSAL. -/
def Stage.rehSoftReset (s : Stage) : Stage :=
  ((s.clearRegs pReh (fun o => decide (0x0DC ≤ o ∧ o ≤ 0x0E8))).recallAll).withReh fun r => { r with rerun := [], laneRerun := [] }

end Sys2Proof.Machine
end

