-- ==== Sys2Proof/Machine/Power.lean ====
section
/-!
DEFINITION. Modes, power domains, resets, boot and the supervisor (R628 to R663).
-/
namespace Sys2Proof.Machine

def pPower : Nat := 0x2D0

def Stage.withSup (s : Stage) (f : SupSt → SupSt) : Stage := { s with sup := f s.sup }

/-! ### Power domains (R638, R639, R658) -/

/-- The pages of the blocks in domain `d`. -/
def domainPages (d : Nat) : List Nat :=
  allPages.filter fun p => match pageOf p with
    | some (k, i) => pageDomain k i == d
    | none => false

/-- What a page keeps beside its registers goes back to the values of a reset of the Stage die; commands queued end with ABORTED. -/
def Stage.pageOff (s : Stage) (p : Nat) : Stage :=
  let s := s.abortQueue p
  let s := match s.runningCmd p with
    | some c => s.complete p c stAborted 0#32
    | none => s
  { s with regs := Tab.keep (fun a => a / 4096 != p) s.regs, args := Tab.keep (fun a => a / 4096 != p) s.args,
           routes := Tab.del s.routes p, seqs := Tab.del s.seqs p, running := Tab.del s.running p, tports := Tab.del s.tports p,
           tab := { s.tab with ids := Tab.del s.tab.ids p, snaps := Tab.del s.tab.snaps p },
           reh := { s.reh with corr := Tab.del s.reh.corr p } }

/-- The Grid memory of a domain's blocks reads zero (R515). -/
def Stage.domainMem (s : Stage) (d : Nat) : Stage :=
  if d = 4 then s.zeroMem (spBase 0) (32 * 0x100000) else if d = 5 then s.zeroMem (spBase 32) (32 * 0x100000)
  else if d = 6 then s.zeroMem (batBase 0) (32 * 0x40000) else if d = 7 then s.zeroMem (batBase 32) (32 * 0x40000)
  else s

/-- The blocks of a domain that is switched off lose everything (R638); their UNTESTED sets when it is next on (R685). -/
def Stage.domainClear (s : Stage) (d : Nat) : Stage :=
  let s := if d = 9 then s.decSoftReset else s
  let s := (domainPages d).foldl Stage.pageOff s
  let s := s.domainMem d
  let half (k : Nat) : Bool := k / 32 == d % 2
  if d = 4 ∨ d = 5 then
    { s with sps := Tab.keep (fun k => !half k) s.sps, reh := { s.reh with segs := Tab.keep (fun k => !half k) s.reh.segs },
             blocks := Tab.keep (fun k => !(decide (k < 64) && half k)) s.blocks }
  else if d = 6 ∨ d = 7 then
    { s with bats := Tab.keep (fun k => !half k) s.bats, blocks := Tab.keep (fun k => !(decide (64 ≤ k ∧ k < 128) && half (k - 64))) s.blocks }
  else if d = 9 then
    { s with ports := [], groups := [], decs := [], syncs := [], patch := {}, bridges := [], blocks := Tab.keep (fun k => decide (k < 128)) s.blocks }
  else if d = 10 then 
    { s with net := { keys := s.net.keys }, lanes := Tab.keep (fun k => decide (k < 16)) s.lanes,
             reh := { s.reh with laneOnce := s.reh.laneOnce.filter (· < 16) } }
  else if d = 11 then 
    { s with links := [], lanes := Tab.keep (fun k => decide (16 ≤ k)) s.lanes, reh := { s.reh with laneOnce := s.reh.laneOnce.filter (16 ≤ ·) } }
  else s

/-- Domain `d` is switched on: it wakes (R639). -/
def Stage.domainWake (s : Stage) (d : Nat) : Stage :=
  if s.pdOn d || s.flag pPower 0x090 (16 + d) then s else s.setFlag pPower 0x090 (16 + d) true

/-- Domain `d` is switched off. -/
def Stage.domainOff (s : Stage) (d : Nat) : Stage :=
  if s.pdOn d || s.flag pPower 0x090 (16 + d) then
    ((s.setFlag pPower 0x090 d false).setFlag pPower 0x090 (16 + d) false).domainClear d
  else s

/-- A waking domain is on (R639). -/
def Stage.domainOn (s : Stage) (d : Nat) : Stage :=
  if decide (d < 12) && s.flag pPower 0x090 (16 + d) then
    ((s.setFlag pPower 0x090 (16 + d) false).setFlag pPower 0x090 d true).raise pPower 0
  else s

/-- R638 holds domain `d` on in mode `m`. -/
def Stage.domainHeld (s : Stage) (d m : Nat) : Bool :=
  m == mService || (match d with
    | 9 => patchMode m
    | 11 => s.roleCfg != 0 && patchMode m
    | _ => false)

/-- Every domain of PD4 to PD7 and PD9 to PD11 follows the mode: those held on are switched on, and PD9 to PD11 otherwise follow PD_CTRL. -/
def Stage.domainsFollow (s : Stage) : Stage :=
  [4, 5, 6, 7, 9, 10, 11].foldl (fun s d =>
    if s.domainHeld d s.mode then s.domainWake d
    else if d < 8 then s
    else if s.flag pPower 0x08C d then s.domainWake d else s.domainOff d) s

/-- A write of PD_CTRL would be refused (R639). -/
def Stage.pdDenied (s : Stage) (v : Nat) : Bool :=
  (bit v 8 && s.mode != mDark)
    || [9, 10, 11].any fun d => !bit v d && s.flag pPower 0x08C d && s.domainHeld d s.mode

/-- A write of PD_CTRL has been applied (R639). -/
def Stage.pdWritten (s : Stage) : Stage := (s.setFlag pPower 0x090 28 (s.flag pPower 0x08C 8)).domainsFollow

/-! ### Mode changes (R641 to R644, R660) -/

/-- The code a SET_MODE is done with once mode `m` is entered. -/
def targetMet (target m : Nat) : Bool := target == m || (target == 4 && isRunning m)

/-- A SET_MODE whose target has been entered completes (R642). -/
def Stage.modeDone (s : Stage) (m : Nat) : Stage :=
  match s.modeReq with
  | none => s
  | some r => if targetMet r.target m then { s with modeReq := none }.complete pPower r.cmd stDone (Word.ofNat m) else s

/-- The mode `m` is entered at boundary `b` (R641, R643): SYS_MODE, the domains, the patch and the graph, levelling and the Prompt follow. -/
def Stage.enterMode (s : Stage) (m b : Nat) : Stage :=
  let old := s.mode
  if old = m then s
  else
    let s := if old = mDark then (s.setFlag pPower 0x08C 8 false).setFlag pPower 0x090 28 false else s
    let s := ((s.setN 0 0x0E0 m).set64 0 0x0E4 (if m = mBoot then 0 else b)).raise pPower 3
    let s := s.domainsFollow
    let s := if patchMode m then s.patchStart b else if patchMode old then s.patchStop else s
    let s := (if isRunning m then s.graphRun true else if m = mFixedPatch then s.graphRun false
              else s.withPatch fun p => { p with graphOn := false, graphRamp := none })
    let s := (s.levelMode old m).promptMode old m b
    let s := if m = mPrincipal then s.govAdopt else s
    s.modeDone m

/-- The transitions of R643 that SET_MODE can ask for. -/
def modeTable (old target : Nat) : Bool :=
  if target = 4 ∨ target = mService then old == mDark || (target == 4 && old == mFixedPatch)
  else if target = mFixedPatch then old == mDark || old == mSolo
  else if target = mDark then isRunning old || old == mFixedPatch || old == mService
  else isRunning old || old == mFixedPatch || old == mDark || old == mService

/-- ROLE_CFG holds the combination outside the legal range (R452). -/
def Stage.strapBad (s : Stage) : Bool := s.roleCfg == 3 && s.isPrimary

/-- The reason SET_MODE is refused for, if any; a target equal to the mode in effect is none (R642). -/
def Stage.modeRefused (s : Stage) (t : Nat) : Nat :=
  if !([0, 1, 3, 4, 0xA, 0xB].contains t) then 1
  else if s.modeReq.isSome then 4
  else if targetMet t s.mode then 0
  else if !modeTable s.mode t then 2
  else if (t == 4 || t == mFixedPatch) && s.strapBad then 5
  else if t == mFixedPatch && s.roleCfg != 0 then 3
  else 0

/-- SET_MODE is accepted (R642). -/
def Stage.setMode (s : Stage) (c : Cmd) : Stage :=
  let t := bits c.a0.toNat 3 0
  let r := s.modeRefused t
  if r ≠ 0 then s.complete pPower c stRefused (reason r)
  else { s with modeReq := some { cmd := c, target := t, c := s.dueNow } }

/-- A command of the POWER page starts (R661). -/
def Stage.powerCmd (s : Stage) (c : Cmd) : Stage :=
  if c.code = 1 then s.setMode c else s.complete pPower c stRefused 0#32

/-! ### Resets of the Stage die (R645, R646) -/

/-- The Stage die reset: everything but what lies outside it takes its reset value. -/
def Stage.stageReset (s : Stage) : Stage := { bench := s.bench, sup := s.sup, flash := s.flash, outs := s.outs, fresh := s.fresh }

/-- A power-down sequence begins, with the Stage die in reset (R635); one that runs goes on. -/
def Stage.powerDown (s : Stage) (target : RailState) (retry : Bool) : Stage :=
  let s := match s.sup.state with
    | .off => s
    | .watch => s
    | .down _ => s
    | _ => s.withSup fun u => { u with state := .down 5, en := setBit u.en 5 false }
  (s.withSup fun u => { u with target := target, retry := retry }).stageReset

/-- A power-on sequence begins with cause `c`, unless VIN forbids it (R629, R633). -/
def Stage.powerOn (s : Stage) (c : Nat) : Stage :=
  if s.sup.vinOk && !s.sup.ovp && s.sup.keep then
    ((s.withSup fun u => { u with state := .waitPg 0, en := 1, pg := 0, vaux := true, retry := false, cause := c }).withBench
      fun b => { b with on := true }).stageReset
  else s

/-- The reset of the Stage die is released with cause `c` (R633, R659). -/
def Stage.release (s : Stage) (c : Nat) : Stage :=
  (s.withSup fun u => { u with state := .up, faults := 0, cause := 0,
                               resetCause := min 3 u.faults * 2 ^ 16 + u.rail * 2 ^ 8 + u.fault * 2 ^ 4 + c }).stageReset

/-- The boundary at which a SET_MODE to WATCH or OFF completes: the power-down follows (R643). -/
def Stage.modeDown (s : Stage) (r : ModeReq) : Stage :=
  ({ s with modeReq := none }.complete pPower r.cmd stDone (Word.ofNat r.target)).powerDown (if r.target = 0 then .off else .watch) false

/-- A paired or triangulated part begins to listen (R470, R644). -/
def Stage.elect (s : Stage) : Stage := { s with red := { s.red with election := 1 } }

/-- The part starts or stops driving at boundary `b`: ACTIVE_OUT and the ports follow (R351, R456). -/
def Stage.setDrive (s : Stage) (on : Bool) (b : Nat) : Stage :=
  if s.flag 0x2A0 0x084 28 = on then s
  else ((((s.setFlag 0x2A0 0x084 31 on).setFlag 0x2A0 0x084 28 on).set64 0x2A0 0x0AC b).setDrives on b)

/-- The transition of a SET_MODE begins at its c (R643); a part in a group releases its drive (R644). -/
def Stage.modeBegin (s : Stage) (r : ModeReq) (b : Nat) : Stage :=
  if targetMet r.target s.mode then { s with modeReq := none }.complete pPower r.cmd stDone (Word.ofNat s.mode)
  else if r.target = 4 then
    (if s.roleCfg = 0 then s.enterMode mSolo b else ({ s with modeReq := some { r with leave := none } }).elect)
  else if r.target = mFixedPatch ∨ r.target = mService then s.enterMode r.target b
  else if patchMode s.mode then
    let s := if decide (mPrincipal ≤ s.mode ∧ s.mode ≤ mIsolated) then s.setDrive false b else s
    { s.patchFadeOut with modeReq := some { r with leave := some (b + s.dipN) } }
  else if r.target = mDark then s.enterMode mDark b
  else s.modeDown r

/-- What the modes do at boundary `b`: GRID_LOCK ends BOOT, a SET_MODE begins or its down half ends. -/
def Stage.modeBoundary (s : Stage) (b : Nat) : Stage :=
  let s := if s.lockDue then { s with lockDue := false }.enterMode mDark b else s
  let s := match s.modeReq with
    | some r => if r.c ≤ b ∧ r.leave = none ∧ s.red.election = 0 ∧ s.red.enterAt = none then s.modeBegin r b else s
    | none => s
  match s.modeReq with
  | some r => match r.leave with
    | some e =>
      if e ≤ b then
        let s := s.enterMode mDark b
        match s.modeReq with
        | some r => s.modeDown r
        | none => s
      else s
    | none => s
  | none => s

/-! ### The supervisor's sequences (R629 to R635) -/

/-- The Stage die runs. -/
def Stage.dieUp (s : Stage) : Bool := s.sup.state == .up

/-- The rails are off: OFF or WATCH. -/
def Stage.railsOff (s : Stage) : Bool := s.sup.state == .off || s.sup.state == .watch

/-- VIN rises through the under-voltage threshold (R629). -/
def Stage.vinRise (s : Stage) : Stage :=
  let s := s.withSup fun u => { u with vinOk := true, keep := true }
  s.powerOn (if s.sup.cause = 7 then 7 else 1)

def Stage.vinFall (s : Stage) : Stage := (s.withSup fun u => { u with vinOk := false }).powerDown .watch false

def Stage.vinOver (s : Stage) : Stage := (s.withSup fun u => { u with ovp := true, cause := 7 }).powerDown .watch false

def Stage.vinRecover (s : Stage) : Stage := s.withSup fun u => { u with ovp := false }

/-- The keep-alive is lost: PD0 and PD1 stop (R629 to R631). -/
def Stage.keepLost (s : Stage) : Stage :=
  let b := s.bench
  { s.stageReset with
    bench := { vals := b.vals, sealCount := b.sealCount, log := b.log, sealLow := b.sealLow, fwCrc := b.fwCrc, on := false }
    sup := { state := .off, vinOk := false, keep := false, vaux := false, en := 0, pg := 0 } }

/-- PG of rail `i` rises (R633). -/
def Stage.pgRise (s : Stage) (i : Nat) : Stage :=
  if s.sup.state = .waitPg i then s.withSup fun u => { u with pg := setBit u.pg i true, state := .delayUp i } else s

/-- A rail fault (R634). -/
def Stage.railFault (s : Stage) (rail code : Nat) : Stage :=
  let n := s.sup.faults + 1
  (s.withSup fun u => { u with faults := n, rail := rail, fault := code }).powerDown .watch (decide (n < 3))

/-- The part has its rails on or coming. -/
def Stage.railsUp (s : Stage) : Bool :=
  match s.sup.state with
  | .waitPg _ => true | .delayUp _ => true | .up => true | .held => true
  | _ => false

def Stage.pgTimeout (s : Stage) (i : Nat) : Stage := if s.sup.state = .waitPg i then s.railFault (i + 1) 1 else s
def Stage.pgDrop (s : Stage) (i : Nat) : Stage :=
  if s.railsUp && bit s.sup.pg i then (s.withSup fun u => { u with pg := setBit u.pg i false }).railFault (i + 1) 2 else s
def Stage.vauxOver (s : Stage) : Stage := if s.railsUp then s.railFault 6 3 else s
def Stage.thermal (s : Stage) : Stage := if s.railsUp then s.railFault 0 4 else s

/-- The next step of a power-down after rail `i` (R635). -/
def Stage.downNext (s : Stage) (i : Nat) : Stage :=
  if i = 0 then
    let off := s.sup.target == .off
    let s := s.withSup fun u => { u with state := if off then .off else .watch, vaux := false, en := 0 }
    if off then
      let b := s.bench
      { s with bench := { vals := b.vals, sealCount := b.sealCount, log := b.log, sealLow := b.sealLow, fwCrc := b.fwCrc, on := false } }
    else s
  else s.withSup fun u => { u with state := .down (i - 1), en := setBit u.en (i - 1) false }

/-- PG of rail `i` falls in a power-down (R635). -/
def Stage.pgFall (s : Stage) (i : Nat) : Stage :=
  let on := !bit s.sup.en i
  let s := if on then s.withSup fun u => { u with pg := setBit u.pg i false } else s
  if s.sup.state = .down i then s.downNext i else s

/-- The 1 ms delay of a sequence ends (R633, R635). -/
def Stage.sequenceDelay (s : Stage) : Stage :=
  match s.sup.state with
  | .delayUp i => if i < 5 then s.withSup fun u => { u with state := .waitPg (i + 1), en := setBit u.en (i + 1) true } else s.release s.sup.cause
  | .down i => s.downNext i
  | _ => s

def Stage.railRetry (s : Stage) : Stage := if s.sup.retry && s.railsOff then s.powerOn 4 else s

/-- The RTC reaches WAKE_AT (R631). -/
def Stage.rtcWake (s : Stage) : Stage :=
  if s.railsOff && s.sup.keep && bit s.sup.wakeCfg 0 then (s.withSup fun u => { u with rtc := u.wakeAt }).powerOn 5 else s

/-- RESET_N is held low: a reset of the Stage die with the rails up, or a wake (R631, R645). -/
def Stage.resetLow (s : Stage) : Stage :=
  if s.dieUp then (s.withSup fun u => { u with state := .held }).stageReset
  else if s.railsOff && s.sup.keep then s.powerOn 6 else s

def Stage.resetHigh (s : Stage) : Stage := if s.sup.state = .held then s.release 2 else s

/-- The watchdog's reset (R647). -/
def Stage.watchdog (s : Stage) : Stage :=
  if s.dieUp && s.flag pPower 0x09C 31 && !s.restarting then s.release 3 else s

/-! ### Boot (R648 to R651) -/

/-- FW_STAT after boot: the slot started, the preferred slot and the flag of the other (R592, R651). -/
def fwStat (slot pref : Nat) (other : Bool) : Nat := slot * 2 ^ 30 + pref * 2 ^ 29 + (if other then 2 ^ 28 else 0)

/-- The segments of the image in slot `slot` copied to their places. -/
def Stage.copySegments (s : Stage) (slot : Nat) : Stage :=
  let rd := fun o => s.flash8 (slotBase slot + o)
  (segments rd).foldl (fun s g => s.wrBytes g.2.2 (bytesAt rd g.1 g.2.1)) s

/-- The image in slot `slot` is valid. -/
def Stage.slotValid (s : Stage) (slot : Nat) : Bool := imageValid fun o => s.flash8 (slotBase slot + o)

/-- BOOT_RESULT. -/
def Stage.bootResult (s : Stage) (r : Nat) : Stage := s.setFld pPower 0x080 3 0 r

/-- A slot's image starts: the boot header gives PREFERRED and the flag of the other slot. -/
def Stage.bootSlot (s : Stage) (slot pref version : Nat) : Stage :=
  let h := (s.flash8 4).toNat
  let s := (s.copySegments slot).setN 0 0x0D8 (fwStat slot pref (bit h (2 - slot)))
  { s with fwVersion := version % 2 ^ 24 }

/-- The MAC addresses read from fuses (R10). -/
def Stage.fuseMacs (s : Stage) : Stage :=
  (upTo 8).foldl (fun s n => (s.setN (pNet n) 0x088 (Config.mac n).toNat).setN (pNet n) 0x08C ((Config.mac n).toNat / 2 ^ 32)) s

/-- At the release of the reset the straps are sampled, and the boot ROM verifies and starts an image (R648 to R651). -/
def Stage.bootRom (s : Stage) (primary : Bool) (cfg bootsel : Nat) (answered : Bool) (version : Nat) : Stage :=
  if s.mode != mBoot then s
  else
    let c := cfg % 4
    let rank := if c = 2 ∧ !primary then 1 else if c = 3 ∧ !primary then 2 else 0
    let s := s.fuseMacs.setN 0x2A0 0x080 (0x100 + rank * 16 + (if primary then 4 else 0) + c)
    let s := { s with red := { s.red with strapped := true } }
    if 4 ≤ bootsel ∧ bootsel ≤ 6 then s.bootResult 3
    else if bootsel = 7 then s.bootResult 4
    else if !answered then s.bootResult 5
    else
      let pref := (s.flash8 4).toNat % 2
      if s.slotValid pref then (s.bootSlot pref pref version).bootResult 0
      else if s.slotValid (1 - pref) then (s.bootSlot (1 - pref) pref version).bootResult 1
      else (s.setN 0 0x0D8 (fwStat 0 pref false)).bootResult 2

/-! ### Measurements (R637, R656) -/

/-- The junction temperature in 0.1 °C (R637). -/
def Stage.tempSample (s : Stage) (t : Int) : Stage :=
  let s := s.setN pPower 0x094 (toBits 16 t)
  let warn : Int := 10 * (s.fld pPower 0x098 7 0 : Int)
  let hot := s.flag pPower 0x080 29
  let now := if warn ≤ t then true else if t ≤ warn - 50 then false else hot
  (s.setFlag pPower 0x080 29 now).raiseIf (now && !hot) pPower 2

/-- VIN_LOW follows VIN_MEAS and VIN_WARN (R656). -/
def Stage.vinJudge (s : Stage) : Stage :=
  let low := decide (s.fld pPower 0x084 15 0 < s.fld pPower 0x088 15 0)
  let was := s.flag pPower 0x080 30
  (s.setFlag pPower 0x080 30 low).raiseIf (low && !was) pPower 1

/-- VIN is measured, in millivolts (R656). -/
def Stage.vinMeasure (s : Stage) (mv : Nat) : Stage := (s.setN pPower 0x084 (mv % 65536)).vinJudge

/-- PWR_STAT.VIN_OK and PG as the supervisor has them (R657), and the supervisor's own registers (R656). -/
def Stage.powerRead (s : Stage) (off : Nat) : Option Nat :=
  let u := s.sup
  match off with
  | 0x080 => some (setBits (setBit (s.regN pPower 0x080) 31 u.vinOk) 21 16 u.pg)
  | 0x0A4 => some u.wakeCfg
  | 0x0A8 => some u.wakeAt
  | 0x0AC => some u.rtc
  | 0x0B0 => some (if u.rtcValid then 2 ^ 31 else 0)
  | 0x0B4 => some u.resetCause
  | _ => none

end Sys2Proof.Machine
end

