-- ==== Sys2Proof/Machine/RegWrite.lean ====
section
/-!
DEFINITION. Writes of registers: the tests of R562 in their order, the registers whose write is boundary-applied, what each write changes beside the
register, and the soft resets.
-/
namespace Sys2Proof.Machine

/-! ### The value rule (R563) -/

/-- The worst-corner budget of a strip processor in bundles per sample (R52). -/
def spBudget (rate : Nat) : Nat := [7000, 6400, 3300, 3000, 1450].getD rate 1300

/-- The window that WIN_SEL selects, by 16 × class + index. -/
def Stage.winSel (s : Stage) : Nat := s.fld 1 0x088 6 4 * 16 + s.fld 1 0x088 3 0

def Stage.win (s : Stage) (i : Nat) : Window := Tab.get {} s.grid.wins i

/-- The window after a write of one of its words (R552, R553). -/
def Window.put (w : Window) (off v : Nat) : Window :=
  match off with
  | 0x08C => { w with base := setBits w.base 31 0 v }
  | 0x090 => { w with base := setBits w.base 35 32 v }
  | 0x094 => { w with target := setBits w.target 31 0 v }
  | 0x098 => { w with target := setBits w.target 35 32 v }
  | _ => { w with size := bits v 5 0, r := bit v 31, w := bit v 30 }

/-- A window of a legal size whose addresses are multiples of it (R542). -/
def Window.legal (w : Window) : Bool :=
  w.size == 0 || (decide (12 ≤ w.size) && decide (w.size ≤ 36) && w.base % 2 ^ w.size == 0 && w.target % 2 ^ w.size == 0)

/-- The relations and ranges of a register's value beyond the legal range of its single fields; `v` has its reserved bits zero. -/
def Stage.valueOk (s : Stage) (k : PageKind) (i off v : Nat) : Bool :=
  match k, off with
  | .sys, 0x0C4 => decide ((s.fld 0 0x0C0 10 0 + 2048 - v) % 2048 ≤ 1024)
  | .level, 0x084 => decide (bits v 25 16 + 100 ≤ bits v 9 0 ∧ bits v 9 0 + bits v 25 16 ≤ 600)
  | .level, 0x088 => decide (bits v 6 0 ≤ bits v 22 16)
  | .sp, 0x094 => decide (bits v 15 0 ≤ spBudget s.rateCode ∧ bits v 31 16 ≤ spBudget s.rateCode)
  | .bat, 0x084 => xfLegal v
  | .bat, 0x0A4 => decide (v ≤ (if s.highRate then 1024 else 2048))
  | .graph, 0x0C4 => bits v 17 16 != 0 || decide (bits v 6 0 < 64)
  | .patch, 0x084 => bits v 1 0 == 0 || decide (2 ^ bits v 1 0 * s.fs ≤ 768000)
  | .patch, 0x08C => inRouteLegal v
  | .patch, 0x094 => outRouteLegal v && destLegal (s.fld pPatch 0x090 12 0)
  | .patch, 0x09C => toneLegal v
  | .patch, 0x0A8 | .patch, 0x0AC => bits v 14 12 != 7 && bits v 30 28 != 7
  | .datum, 0x0EC => decide ((sext 32 v).natAbs ≤ 999999999)
  | .datum, 0x0F4 => decide ((sext 32 v).natAbs ≤ 1000000)
  | .datum, 0x0F8 => decide (-500000000 ≤ sext 32 v ∧ sext 32 v ≤ 499999999)
  | .prompt, 0x084 => !bit v 31 || decide (bits v 11 0 < s.cueCount)
  | .port, 0x08C => decide (v < 2 ^ s.portSlots i)
  | .port, 0x0C0 => s.cgLegal v (s.fld (pPort i) 0x0C4 17 0)
  | .port, 0x0C4 => s.bclkOk (s.cgCfg i) (bits v 17 0)
  | .port, 0x0CC => bits v 19 16 == 0 || decide (8 ≤ bits v 19 16)
  | .decim, 0x0B0 | .decim, 0x0B4 | .decim, 0x0B8 | .decim, 0x0BC => !bit v 31 || s.pdmOk (bits v 2 0)
  | .decim, _ => if 0x084 ≤ off ∧ off ≤ 0x0A0 then s.decLegal (s.fld pDecim 0x080 5 0) off v else true
  | .lanes, _ => if off < 0x280 ∧ off % 0x20 = 0 then laneCfgLegal false v else true
  | .link, 0x088 =>
    decide (bits v 11 0 + bits v 28 16 ≤ 4096)
      && (bits v 28 16 == 0 || s.fits (bits v 28 16) (s.blockOf i) (s.linkWidth i) (baudOf (s.topRate i)))
  | .link, 0x08C => decide (bits v 11 0 + bits v 28 16 ≤ 4096)
  | .link, 0x090 => s.parkFits i (bits v 3 0)
  | .link, 0x300 => bits v 6 4 == 0 || bits v 6 4 == 2 || bits v 6 4 == 3
  | .net, 0x300 =>
    decide (bits v 6 4 ≤ 4) && bits v 9 8 != 3 && decide (-7 ≤ sext 5 (bits v 28 24) ∧ sext 5 (bits v 28 24) ≤ 4)
      && decide (-7 ≤ sext 5 (bits v 20 16) ∧ sext 5 (bits v 20 16) ≤ 5)
  | .net, 0x380 => laneCfgLegal true v
  | .net, 0x0A4 => s.tc1Legal i v
  | .redundancy, 0x080 => !(bits v 1 0 == 3 && bit v 2)
  | .redundancy, 0x08C => s.fits (bits v 12 0 + 1) (s.blockOf 0) (s.linkWidth 0) (baudOf (s.topRate 0))
  | .redundancy, 0x0D0 | .redundancy, 0x0D8 | .redundancy, 0x0E0 | .redundancy, 0x0E8 =>
    decide (bits v 28 16 ≤ 4096) && decide (bits v 11 0 + bits v 28 16 ≤ 4096)
      && (!bit v 31 || (decide (1 ≤ bits v 28 16) && decide (s.fld 0x2A0 (off + 4) 11 0 + bits v 28 16 ≤ 4096)))
  | .redundancy, 0x0D4 | .redundancy, 0x0DC | .redundancy, 0x0E4 | .redundancy, 0x0EC =>
    !s.flag 0x2A0 (off - 4) 31 || decide (bits v 11 0 + s.fld 0x2A0 (off - 4) 28 16 ≤ 4096)
  | .rehearsal, 0x0EC => v % 32 == 0
  | .pool, 0x400 => injectLegal v
  | .pool, _ => if 0x100 ≤ off then ownersLegal off v else true
  | .grid, 0x08C | .grid, 0x094 => v % 4096 == 0 && ((s.win s.winSel).put off v).legal
  | .grid, 0x090 | .grid, 0x098 | .grid, 0x09C => ((s.win s.winSel).put off v).legal
  | .host, 0x080 => bits v 5 0 == 0 || decide (20 ≤ bits v 5 0 ∧ bits v 5 0 ≤ 36)
  | .host, 0x088 => v % 4096 == 0
  | .host, 0x090 => (pageOf (bits v 11 0)).isSome
  | .bench, 0x114 => !s.highRate || decide (bits v 2 0 < 4)
  | .power, 0x0A0 => bits v 15 0 == 0xA5C3
  | _, _ => true

/-! ### Protection (R562) -/

/-- The host and the management core may make no boundary-applied write now (R461); a joiner of a triangulated group holds its own (R485). -/
def Stage.ownBarred (s : Stage) (cls : Nat) : Bool :=
  decide (cls < 2) && heldMode s.mode && !(s.triangulated && s.mode == mCatchUp)

/-- BOOT or DARK. -/
def Stage.darkMode (s : Stage) : Bool := s.mode == mBoot || s.mode == mDark

/-- A field outside the mask `keep` of register `off` would change. -/
def Stage.changes (s : Stage) (p off v keep : Nat) : Bool := Nat.land (Nat.xor (s.regN p off) v) (0xFFFFFFFF - keep) != 0

/-- What refuses a write of `v` with DENIED beyond its access code: the rules of the chapters. -/
def Stage.denies (s : Stage) (k : PageKind) (i off v : Nat) : Bool :=
  match k, off with
  | .sys, 0x088 => !s.darkMode || (bits v 2 0 != s.rateCode && s.graph.commit.isSome)
  | .level, 0x0AC => !s.level.frames.isEmpty || s.level.loop == .emergency || s.level.loop == .settle
  | .sp, 0x080 => bit v 16 && s.graph.stagedSps.contains i
  | .patch, 0x084 => !s.darkMode
  | .port, 0x080 => s.portOn i && s.changes (pPort i) 0x080 v 0xC0000100
  | .port, 0x094 => s.portOn i
  | .port, 0x0C0 | .port, 0x0C4 => (s.portsOn i).any s.portOn
  | .lanes, _ => off < 0x280 && off % 0x20 == 0 && bit (s.regN 0x260 off) 31 && s.changes 0x260 off v 0x80FFFFFF
  | .net, 0x380 => bit (s.regN (pNet i) off) 31 && s.changes (pNet i) off v 0x80FFFFFF
  | .net, 0x080 => s.netOn i && s.changes (pNet i) off v 0x80000000
  | .net, 0x088 | .net, 0x08C => s.netOn i
  | .link, 0x080 => s.linkEn i && s.changes (pLink i) off v 0xC000007F
  | .link, 0x088 | .link, 0x08C => s.linkEn i
  | .redundancy, 0x080 => !s.darkMode
  | .power, 0x08C => s.pdDenied v
  | _, _ => false

/-! ### Boundary-applied registers -/

/-- The select register of a register reached through one (R224), and MASK_COMMIT's SLOT_MASK_NEXT (R338). -/
def selReg (k : PageKind) (off : Nat) : Option Nat :=
  match k with
  | .patch => if off = 0x08C then some 0x088 else if off = 0x094 then some 0x090 else if off = 0x09C then some 0x098
              else if off = 0x0A4 ∨ off = 0x0A8 ∨ off = 0x0AC then some 0x0A0 else none
  | .bridge => if off = 0x09C then some 0x098 else if off = 0x0A4 then some 0x0A0 else none
  | .decim => if 0x084 ≤ off ∧ off ≤ 0x0A0 then some 0x080 else none
  | .port => if off = 0x090 then some 0x08C else none
  | _ => none

/-- AUTOINC of a select register: the entries it counts over (R224). -/
def autoInc (k : PageKind) (off : Nat) : Nat :=
  match k with
  | .patch => if off = 0x08C then 4096 else if off = 0x094 then 8192 else 0
  | .bridge => if off = 0x09C ∨ off = 0x0A4 then 64 else 0
  | _ => 0

/-- A register with a field per program bank (R101), and the field of a bank. -/
def isBanked (off : Nat) : Bool := off == 0x084 || off == 0x088 || off == 0x08C || off == 0x094

def bankField (off v bank : Nat) : Nat :=
  let w := if off = 0x094 then 65536 else 2048
  if bank = 0 then v % w else v / 65536 % w

/-- A waiting write names this register. -/
def Stage.awaits (s : Stage) (a : Nat) : Bool := s.waiting.any fun w => match w.kind with
  | .reg b _ _ => b == a
  | _ => false

/-- Whether a write of `v` is boundary-applied, and the selection it takes along: the select register's value, or for a register with a field per
bank 1 + the active bank (R101, R224, R338). -/
def Stage.boundarySel (s : Stage) (k : PageKind) (i off v : Nat) : Option Nat :=
  match k with
  | .sp =>
    if (off = 0x080 ∧ bit v 16) ∨ off = 0x090 ∨ off = 0x0A4 then some 0
    else if isBanked off && (bankField off v (s.spBank i) != bankField off (s.regN (pSp i) off) (s.spBank i) || s.awaits (pSp i * 4096 + off))
    then some (1 + s.spBank i) else none
  | .bat => if off = 0x084 then some 0 else none
  | .graph => if off = 0x08C then some 0 else none
  | .port => if off = 0x090 ∧ bit v 0 then some (s.regN (pPort i) 0x08C) else none
  | _ => (selReg k off).map fun o => s.regN (k.page i) o

/-- What a boundary-applied register write is forwarded as (R459). -/
def regRecord (k : PageKind) (m : Master) (a sel : Nat) (v : Word) : FwdRec :=
  if (selReg k (a % 4096)).isSome then .selected (1 - m.cls) a sel v else .write (1 - m.cls) a [v]

/-- The last write to have taken its place is forwarded (R459). -/
def Stage.forwardWait (s : Stage) (m : Master) (recs : List FwdRec) : Stage :=
  if s.bus.resp = .okay ∧ m.cls < 2 then
    match s.waiting.getLast? with
    | some w => recs.foldl (fun s r => s.forward w.due r) s
    | none => s
  else s

/-- One bank's field of a register (R101). -/
def putBank (off old v bank : Nat) : Nat :=
  if bank = 0 then setBits old 15 0 (bankField off v 0) else setBits old 31 16 (bankField off v 1)

/-- A boundary-applied write of a register takes effect at boundary `b` (R20, R24): `sel` as `boundarySel` gives it. -/
def Stage.applyReg (s : Stage) (b cls a sel : Nat) (v : Word) : Stage :=
  let p := a / 4096
  let off := a % 4096
  let n := v.toNat
  match pageOf p with
  | none => s
  | some (k, i) =>
    match k with
    | .sp =>
      if off = 0x080 then
        (if (s.sp i).swapped = some b then
           let t := s.badWrite cls p off false
           { t with bus := s.bus }
         else
           let s := s.spSwapBank i
           (s.setFlag p 0x080 8 (s.awaits a)).putSp i { s.sp i with swapped := some b })
      else if off = 0x0A4 then s.mboxIn i v
      else if isBanked off ∧ sel ≠ 0 then s.setN p off (putBank off (s.regN p off) n (sel - 1))
      else s.store p off v
    | .bat => s.xfWord i n
    | .graph => (s.store p off v).setN p 0x090 (silenceThr (bits n 7 0))
    | .patch =>
      if off = 0x08C then
        let e := bits sel 11 0
        (s.routeApply false e n).raiseIf (s.mode == mPrincipal && routeClass n != 0 && decide (s.fwdCount ≤ e)) 0x2A0 0
      else if off = 0x094 then s.routeApply true (bits sel 12 0) n
      else if off = 0x09C then s.toneApply (bits sel 1 0) n b
      else s.interpApply (bits sel 5 0) ((off - 0x0A4) / 4) n
    | .bridge => s.brMapApply i (off == 0x0A4) (bits sel 5 0) n
    | .port => (s.setMask i b sel).raise p 4
    | .decim => s.decApply (bits sel 5 0) off n
    | _ => s.store p off v

/-! ### What a write changes beside its register -/

/-- The EVENT bits a page has (R574 and the chapters). -/
def eventMask (k : PageKind) (i : Nat) : Nat :=
  0xE0000000 + (match k with
    | .sys => 0x3F | .grid => 0x1F | .pool => 0x1F | .sp => 0x7F | .bat => 0x3FF | .port => 0x3FF | .decim => 0xF | .bridge => 0x1F
    | .net => if i = 0 then 0x7FF else 0x7F
    | .lanes => 0x3F | .link => 0x7FF | .datum => 0xFFF | .prompt => 0x3F | .tableau => 0x1F | .redundancy => 0xFFFF | .rehearsal => 0xFF
    | .bench => 0x7F | .power => 0xF | .level => 0x7F | .patch => 0x7 | .graph => 0x1F | .host => 0x7)

/-- The image and its staged state are released (R188). -/
def Stage.unstage (s : Stage) : Stage :=
  { s with graph := { s.graph with staged := none, stagedBats := [], stagedSps := [], hdr := [], store := [] } }

/-- A change of the engine rate discards the committed graph and the staged image (R27). -/
def Stage.graphDiscard (s : Stage) : Stage :=
  if s.graphId = 0 ∧ s.graph.map = [] ∧ s.graph.staged = none then s
  else
    let s := { s with
      graph := { s.graph with map := [], src := [], lat := [], feedback := [], idle := [], leaving := [] }
      sps := s.sps.map fun (e : Nat × SpSt) => (e.1, if e.2.run = SpRun.halted then e.2 else { e.2 with run := .idle })
      blocks := [] }
    let s := (s.unstage.set64 0x2F0 0x094 0).exchClear fun x => decide (0x1000 ≤ x ∧ x < 0x3000)
    let s := (s.prompt.trigs.foldl Stage.trigAbort s).setN pPrompt 0x0B0 0
    if s.flag 0x2F0 0x084 0 then [4, 5, 6, 7].foldl Stage.domainOff s else s

/-- The engine rate has been written over rate code `old` (R27, R230, R328, R362). -/
def Stage.rateWritten (s : Stage) (old : Nat) : Stage :=
  if s.rateCode = old then s
  else
    let s := s.graphDiscard
    let s := { s with datum := { s.datum with index := if s.datum.started then indexAt s.now s.fs else 0 } }
    let s := if 768000 < 2 ^ s.fld pPatch 0x084 1 0 * s.fs then s.setFld pPatch 0x084 1 0 0 else s
    s.clocksJudge.pdmJudge

/-- A write of FW_CTRL.READY ends a hot restart (R589): the running slot is the other one, and HELLO leaves anew. -/
def Stage.fwReady (s : Stage) : Stage :=
  if !s.restarting then s
  else
    let slot := s.fld 0 0x0D8 30 30
    let (x, s) := s.draw
    let s := { s with fwVersion := Config.fwVersion x % 2 ^ 24 }
    let s := (s.setFlag 0 0x0D8 31 false).raise 0 1
    let s := (upTo 4).foldl (fun s n => if s.memberLink n && s.ctrlOk n then s.ctlSend n s.helloMsg else s) s
    match s.runningCmd 0 with
    | some c => (s.setRunning 0 none).complete 0 c stDone (Word.ofNat slot)
    | none => s

/-- RANK of a ROLE_CFG word (R452). -/
def rankOf (v : Nat) : Nat := if bits v 1 0 = 2 then (if bit v 2 then 0 else 1) else if bits v 1 0 = 3 ∧ !bit v 2 then 2 else 0

/-- What the write of a register changes beside it; `s` holds the new value, `old` is the value before and `v` what was written. -/
def Stage.written (s : Stage) (k : PageKind) (i off old v : Nat) : Stage :=
  let p := k.page i
  match k, off with
  | .sys, 0x088 => s.rateWritten (bits old 2 0)
  | .sys, 0x0C4 => s.drainRing 1024
  | .sys, 0x0DC => if bit v 0 then s.fwReady else s
  | .level, _ => s.levelWritten off
  | .sp, 0x0A0 => s.putSp i ((s.sp i).setSreg rSPSTAT (Nat.land ((s.sp i).sreg rSPSTAT) (0xFFFFFFFF - v % 64)))
  | .sp, 0x400 => if bit v 1 then s.breakNow i else s
  | .patch, 0x084 => s.clocksJudge
  | .bridge, 0x080 => s.brCfgWritten i
  | .datum, 0x080 => s.datumCtrlWritten
  | .datum, 0x0E0 => s.deliver 4 (sext 64 (s.regN p 0x0DC + v % 2 ^ 32 * 2 ^ 32)) none
  | .link, 0x300 | .net, 0x300 => s.tpCtrlWritten p old
  | .link, 0x308 | .link, 0x30C | .net, 0x308 | .net, 0x30C => s.asymWritten p
  | .prompt, 0x084 => s.forward 0 (.standby s.standby16)
  | .tableau, 0x0A0 => if bit v 0 then s.setFlag p 0x084 0 false else s
  | .port, 0x080 => s.portFollow i
  | .port, 0x0C0 | .port, 0x0C4 => s.cgWritten i
  | .port, 0x0CC => s.mclkJudge i true
  | .decim, 0x0B0 | .decim, 0x0B4 | .decim, 0x0B8 | .decim, 0x0BC => s.pdmWritten ((off - 0x0B0) / 4)
  | .lanes, _ =>
    let l := (off - 0x080) / 0x20
    if 0x280 ≤ off ∨ off < 0x080 then s
    else if off % 0x20 = 0 then s.laneDo l fun s => s.laneCfgWritten l old
    else if off % 0x20 = 0x0C ∧ bit v 0 then s.laneDo l fun s => s.laneRetrain l
    else s
  | .net, 0x380 => s.laneDo (16 + i) fun s => s.laneCfgWritten (16 + i) old
  | .net, 0x38C => if bit v 0 then s.laneDo (16 + i) fun s => s.laneRetrain (16 + i) else s
  | .net, 0x080 => s.netJudge i
  | .link, 0x080 => s.linkCfgWritten i old
  | .link, 0x088 | .link, 0x08C => s.linkUpdate i
  | .link, 0x090 => s.linkCtrlWritten i old
  | .redundancy, 0x080 => s.setFld p 0x080 5 4 (rankOf v)
  | .rehearsal, 0x080 => s.rehCfgWritten
  | .rehearsal, _ => if 0x090 ≤ off ∧ off ≤ 0x0AC then s.loanWritten ((off - 0x090) / 4) old else s
  | .grid, 0x080 => if bit v 0 then { s with grid := { s.grid with lock := true }, lockDue := true }.setN p 0x080 1 else s
  | .grid, 0x08C | .grid, 0x090 | .grid, 0x094 | .grid, 0x098 | .grid, 0x09C =>
    { s with grid := { s.grid with wins := Tab.put {} s.grid.wins s.winSel ((s.win s.winSel).put off v) } }
  | .host, 0x094 => { s with routes := Tab.put 0x20000000#32 s.routes (s.fld 0x300 0x090 11 0) (s.reg p off) }
  | .bench, 0x0A8 | .bench, 0x0AC | .bench, 0x0B0 | .bench, 0x0B4 => s.setN p off v
  | .bench, 0x114 | .bench, 0x118 => s.govWritten off v
  | .power, 0x088 => s.vinJudge
  | .power, 0x08C => s.pdWritten
  | .power, 0x0A4 => s.withSup fun u => { u with wakeCfg := v % 2 }
  | .power, 0x0A8 => s.withSup fun u => { u with wakeAt := v }
  | _, _ => s

/-! ### Soft resets (R560) -/

/-- A master resets with transactions outstanding (R551): those that wait retire with ABORTED, and so do a strip processor's pool transfers. -/
def Stage.masterReset (s : Stage) (cls idx : Nat) : Stage :=
  let hit (x : Stalled) : Bool := x.master.cls == cls && x.master.idx == idx
  let was := s.grid.stalled
  let n := (s.grid.stalled.filter hit).length + (if cls = 7 then (s.sp idx).far.length else 0)
  if n = 0 then s
  else
    let s := { s with grid := { s.grid with stalled := s.grid.stalled.filter fun x => !hit x } }
    let s := (was.filter hit).foldl (fun s x => s.emit (.late x.master x.id .aborted [])) s
    let s := if cls = 7 then s.putSp idx { s.sp idx with far := [] } else s
    (s.bumpBy 1 0x0B0 n).raise 1 2

/-- The Grid master a page's block is (R536). -/
def masterOf (k : PageKind) (i : Nat) : Option (Nat × Nat) :=
  match k with
  | .sp => some (7, i) | .port => some (6, i) | .net => some (4, i) | .link => some (5, i) | .prompt => some (2, 0)
  | .rehearsal => some (3, 0) | .host => some (1, 0) | _ => none

/-- The counts of a page that a SYS soft reset clears, by offset. -/
def countAt (k : PageKind) (off : Nat) : Bool :=
  match k with
  | .sys => off == 0x0B0 || off == 0x0B4 || off == 0x0D0 || off == 0x0D4
  | .level => off == 0x0A0 || off == 0x0A4
  | .sp => off == 0x098 || off == 0x09C
  | .bat => off == 0x09C || off == 0x0A0 || off == 0x0AC || off == 0x0B0 || off == 0x0BC
  | .bridge => off == 0x0A8
  | .prompt => decide (0x0A0 ≤ off ∧ off ≤ 0x0AC)
  | .tableau => off == 0x0A4 || off == 0x0A8
  | .lanes => decide (0x080 ≤ off ∧ off < 0x280 ∧ 0x10 ≤ off % 0x20 ∧ off % 0x20 ≤ 0x18)
  | .net => decide (0x0B0 ≤ off ∧ off ≤ 0x0BC) || off == 0x140 || off == 0x144 || decide (0x390 ≤ off ∧ off ≤ 0x398)
  | .link => decide (0x0BC ≤ off ∧ off ≤ 0x0CC)
  | .redundancy => decide (0x0B4 ≤ off ∧ off ≤ 0x0C0)
  | .rehearsal => decide (0x0DC ≤ off ∧ off ≤ 0x0E8)
  | .grid => decide (0x0A4 ≤ off ∧ off ≤ 0x0B8)
  | _ => false

/-- A soft reset of POOL, LEVEL, TABLEAU, REDUNDANCY, GRID or another page whose reset is its counts. -/
def Stage.clearCounts (s : Stage) (k : PageKind) (i : Nat) : Stage :=
  let s := s.clearRegs (k.page i) (countAt k)
  match k with
  | .level => { s with level := { s.level with ceilingSeen := false } }
  | .grid => { s with grid := { s.grid with lastErr := (0, 0) } }
  | .net => if i = 0 then s.withNet fun n => { n with
      talkers := n.talkers.map fun e => (e.1, e.2.map fun t => { t with pkts := 0 })
      listeners := n.listeners.map fun e => (e.1, e.2.map fun l => { l with pkts := 0, lostA := 0, lostB := 0, discard := 0 }) } else s
  | _ => s

/-- The soft reset of one block as its chapter sets it out. -/
def Stage.unitReset (s : Stage) (k : PageKind) (i : Nat) : Stage :=
  match k with
  | .sp => s.spSoftReset i
  | .bat => s.batSoftReset i
  | .patch => s.patchSoftReset
  | .bridge => s.brSoftReset i
  | .datum => s.datumSoftReset.calApply pDatum
  | .prompt => s.promptSoftReset
  | .port => s.portSoftReset i
  | .decim => s.decSoftReset
  | .lanes => s.lanesSoftReset
  | .link => (s.linkSoftReset i).tpSoftReset (pLink i)
  | .net => ((s.netSoftReset i).tpSoftReset (pNet i)).calApply (pNet i)
  | .rehearsal => s.rehSoftReset
  | .pool => s.poolSoftReset
  | .bench => s.benchSoftReset
  | .level => (s.clearCounts .level 0).calApply 0x2D1
  | .host => s.calApply 0x300
  | .sys | .tableau | .redundancy | .grid | .graph | .power => s.clearCounts k i

/-- What a SYS soft reset does to a page other than SYS (R560): what its chapter names, or else it clears EVENT. -/
def Stage.sysReset (s : Stage) (p : Nat) : Stage :=
  match pageOf p with
  | none => s
  | some (k, i) =>
    match k with
    | .sys => s
    | .datum => s.datumSoftReset
    | .pool => s.poolSoftReset
    | .bench => s.benchSoftReset
    | .graph | .patch | .port | .decim | .power | .host => s.setN p 0x014 0
    | _ => s.clearCounts k i

/-- The soft reset of page `p` (R560): EVENT clears, queued commands end with ABORTED, and the block is reset; a block that is a Grid master
resets as one (R551). -/
def Stage.softReset (s : Stage) (k : PageKind) (i : Nat) : Stage :=
  let p := k.page i
  let s := match masterOf k i with
    | some (c, x) => s.masterReset c x
    | none => s
  let s := (s.unitReset k i).abortQueue p
  let s := s.setN p 0x014 0
  if k = .sys then allPages.foldl Stage.sysReset s else s

/-- A write of CTRL: its fields first, then the soft reset (R559, R560). -/
def Stage.ctrlWrite (s : Stage) (k : PageKind) (i v : Nat) : Stage :=
  let p := k.page i
  let was := s.flag p 0x00C 0
  let s := s.store p 0x00C (Word.ofNat v)
  let s := if enableRW k then
      (match k with
       | .port => s.portEnabled i was
       | .bridge => s.brEnabled i was
       | .net => s.netEnabled i was
       | _ => s)
    else s
  if bit v 1 then s.softReset k i else s

/-! ### The write of a register -/

/-- What protection and value make of a write of `v` (its reserved bits zero), in that order (R562, R563). -/
inductive Verdict where
  | go | denied | bad
deriving DecidableEq, Repr

def Stage.regVerdict (s : Stage) (cls : Nat) (k : PageKind) (i : Nat) (d : RegDef) (v : Nat) : Verdict :=
  if !s.protOk cls (k.page i) d.prot || s.denies k i d.off v then .denied
  else if !d.inRange v || !s.valueOk k i d.off v then .bad
  else .go

/-- A boundary-applied write of a register with selection `x` has taken its place: what reads of the page show of it at once. -/
def Stage.waitTaken (s : Stage) (k : PageKind) (i off v x : Nat) : Stage :=
  let p := k.page i
  if x ≠ 0 ∧ k = .sp then s.setN p off (putBank off (s.regN p off) v (2 - x))
  else if k = .sp ∧ off = 0x080 then s.setFlag p off 8 true
  else match selReg k off with
    | some o => if autoInc k off ≠ 0 ∧ s.flag p o 31 then s.setFld p o 12 0 ((bits (s.regN p o) 12 0 + 1) % autoInc k off) else s
    | none => s

/-- A write of page register `off` that is neither CMD nor an argument (R562): protection, value, room, and its effect. -/
def Stage.regPut (s : Stage) (m : Master) (k : PageKind) (i : Nat) (d : RegDef) (n : Nat) : Stage :=
  let p := k.page i
  let off := d.off
  let v := Nat.land n (Nat.lor d.rw (Nat.lor d.w1c d.wo))
  let sel := s.boundarySel k i off v
  let verdict := s.regVerdict m.cls k i d v
  if verdict = .denied ∨ (sel.isSome && s.ownBarred m.cls) then s.respond .denied
  else if verdict = .bad ∨ (sel.isSome && s.tagTooFar m.cls) then s.badWrite m.cls p off false
  else
    match sel with
    | some x =>
      let a := p * 4096 + off
      let t := (s.wait m.cls (.reg a x (Word.ofNat v))).forwardWait m [regRecord k m a x (Word.ofNat v)]
      if t.bus.resp ≠ .okay then t else t.waitTaken k i off v x
    | none =>
      if k = .pool ∧ 0x100 ≤ off ∧ off < 0x300 then s.ownerWrite off v
      else
        let old := s.regN p off
        let s := s.store p off (Word.ofNat v)
        (s.written k i off old v).respond .okay

/-- A 32-bit write of `n` by master `m` at register `off` of page `p` (R546, R562, R566). A CMD write queues its command; what starts it is its
page's affair. -/
def Stage.regWrite (s : Stage) (m : Master) (p off n : Nat) : Stage :=
  match pageOf p with
  | none => s.respond .fault
  | some (k, i) =>
    let v := n % 2 ^ 32
    if !s.powered p then s.respond .fault
    else if off = 0x020 then s.cmdWrite m p (v % 256)
    else if off = 0x024 ∨ off = 0x028 ∨ off = 0x02C then (s.setArg p m ((off - 0x024) / 4) (Word.ofNat v)).respond .okay
    else if off = 0x01C then
      (s.setN p 0x014 (Nat.lor (s.regN p 0x014) (Nat.land v (eventMask k i)))).respond .okay
    else if off = 0x018 then (s.setN p 0x018 (Nat.land v (eventMask k i))).respond .okay
    else if off = 0x00C then (s.ctrlWrite k i v).respond .okay
    else if k = .bat ∧ off = 0x090 then (s.setArg p m 4 (Word.ofNat v)).respond .okay
    else if k = .bat ∧ off = 0x094 then s.rampWrite m i v
    else if 0xF00 ≤ off then
      (if !holdsCal k then s.respond .okay
       else if 0xF80 ≤ off ∧ s.mode ≠ mService then s.respond .denied
       else (s.setN p off v).respond .okay)
    else match regDef k i off with
      | none => s.respond .okay
      | some d => s.regPut m k i d v

end Sys2Proof.Machine
end

