-- ==== Sys2Proof/Machine/GridMap.lean ====
section
/-!
DEFINITION. The Grid's windows and address map, its errors, and what reads and writes of memory do at their targets (R536 to R547, R552, R553; for
the targets R59, R60, R92, R135 to R137, R142, R289, R313, R513, R569, R582).
-/
namespace Sys2Proof.Machine

/-! ### Windows (R541 to R543) -/

/-- An enabled window that covers the issued address. -/
def Window.covers (w : Window) (a : Nat) : Bool := w.size != 0 && decide (w.base ≤ a) && decide (a < w.base + 2 ^ w.size)

/-- Steps 2 to 4 of R541 against the window that decides: the address the request keeps or is given, or none when it is denied. `lo` is the start of
the range, BASE or for a request to BAR0 TARGET, that the window covers the request by. -/
def Window.decides (w : Window) (a len lo : Nat) (write : Bool) : Option Nat :=
  if (if write then w.w else w.r) && decide (a + len ≤ lo + 2 ^ w.size) then some (w.target + (a - lo)) else none

/-- The windows of a class, lowest first. -/
def Stage.winsOf (s : Stage) (cls : Nat) : List Window := (upTo 16).map fun i => s.win (16 * cls + i)

/-- The Grid address of a request of a class, or none when no window permits it. Before GRID_LOCK only the management core's requests are made,
and no window is consulted. -/
def Stage.winMap (s : Stage) (cls a len : Nat) (write : Bool) : Option Nat :=
  if !s.grid.lock then some a
  else match (s.winsOf cls).find? fun w => w.covers a with
    | some w => w.decides a len w.base write
    | none => none

/-- The Grid address of `n` bytes that the management class reads at issued address `a`, where the windows of every page of 4 KiB permit it and lead
to Grid addresses one after another; else the first address denied. -/
def Stage.winSpan (s : Stage) (a n : Nat) : Except Nat Nat :=
  let at' (j : Nat) : Nat := max a (4096 * (a / 4096 + j))
  let g := (s.winMap 0 a 1 false).getD a
  match (upTo ((a + n - 1) / 4096 - a / 4096 + 1)).find? fun j => s.winMap 0 (at' j) 1 false != some (g + (at' j - a)) with
  | some j => .error (at' j)
  | none => .ok g

/-! ### Errors (R539, R540, R552, R553) -/

/-- RESP of LAST_ERR_HI. -/
def errDenied : Nat := 2
def errFault : Nat := 3
def errTimeout : Nat := 4

/-- A request is latched: class and index of its master, its ID, issued address and direction. -/
def Stage.gridLatch (s : Stage) (m : Master) (id a : Nat) (write : Bool) (resp : Nat) : Stage :=
  let hi := m.cls % 8 * 2 ^ 29 + m.idx % 64 * 2 ^ 23 + id % 64 * 2 ^ 17 + (if write then 2 ^ 16 else 0) + resp * 2 ^ 13 + bits a 35 32
  { s with grid := { s.grid with lastErr := (a % 2 ^ 32, hi) } }

/-- No window permits the request (R541). -/
def Stage.gridDenied (s : Stage) (m : Master) (id a : Nat) (write : Bool) : Stage :=
  (((s.gridLatch m id a write errDenied).bump 1 0x0A4).raise 1 0).respond .denied

/-- The address map, the Gallery or a burst rule gives FAULT. -/
def Stage.gridFault (s : Stage) (m : Master) (id a : Nat) (write : Bool) : Stage :=
  (((s.gridLatch m id a write errFault).bump 1 0x0A8).raise 1 1).respond .fault

/-- A transaction times out (R540). -/
def Stage.gridTimeout (s : Stage) (m : Master) (id a : Nat) (write : Bool) : Stage :=
  (((s.gridLatch m id a write errTimeout).bump 1 0x0AC).raise 1 3).respond .fault

/-! ### The address map (R547) -/

/-- What an address leads to. -/
inductive Region where
  | none
  | regs
  | mgmt
  | pool (w : WMode) (off : Nat)
  | bat (k off : Nat)
  | sp (k off : Nat)
  | book
  | tableau
  | exch (off : Nat)
  | host
deriving DecidableEq, Repr

/-- All of `len` bytes at `a` lie in the range of `size` bytes at `lo`. -/
def within (lo size a len : Nat) : Bool := decide (lo ≤ a) && decide (a + len ≤ lo + size)

/-- The target of an access; one that leaves its target's range has none. -/
def regionOf (a len : Nat) : Region :=
  if len = 0 then .none
  else if within 0 0x1000000 a len then .regs
  else if within 0x10000000 0x100000 a len then .mgmt
  else if within 0x100000000 0x2000000 a len then .pool .plain (a - 0x100000000)
  else if within 0x140000000 0x2000000 a len then .pool .setBits (a - 0x140000000)
  else if within 0x180000000 0x2000000 a len then .pool .clearBits (a - 0x180000000)
  else if within 0x200000000 0x1000000 a len then .bat ((a - 0x200000000) / 0x40000) ((a - 0x200000000) % 0x40000)
  else if within 0x300000000 0x4000000 a len then .sp ((a - 0x300000000) / 0x100000) ((a - 0x300000000) % 0x100000)
  else if within 0x400000000 0x200000 a len then .book
  else if within 0x400200000 0x40000 a len then .tableau
  else if within 0x400240000 0x10000 a len then .exch (a - 0x400240000)
  else if within 0x800000000 0x400000000 a len then .host
  else .none

/-- The named areas of a strip processor's window (R59): X, Y and C; the banks PA and PB; the gather and scatter lists of PA, then of PB. -/
def spAreas : List (Nat × Nat) :=
  [(0, 0x18000), (0x40000, 0x18000), (0x80000, 0x10000), (0xC0000, 0x8000), (0xC8000, 0x8000), (0xD0000, 0x400), (0xD0400, 0x400),
   (0xD0800, 0x400), (0xD0C00, 0x400)]

/-- The named areas of a batten's window (R135): the planes, the zero maps, the user curve and the ramp slots. -/
def batAreas : List (Nat × Nat) := [(0, 0x10000), (0x10000, 0x10000), (0x20000, 0x200), (0x20800, 0x800), (0x21000, 0x1000)]

/-- The area that holds the offset, by its place in the list. -/
def areaOf (l : List (Nat × Nat)) (off : Nat) : Option Nat :=
  l.findIdx? fun e => decide (e.1 ≤ off) && decide (off < e.1 + e.2)

/-- Every byte of an access of at most 512 bytes lies in a named area. -/
def named (l : List (Nat × Nat)) (off len : Nat) : Bool := (areaOf l off).isSome && (areaOf l (off + len - 1)).isSome

/-- The lengths of a pool access: a single beat of R523, or a burst of whole words. -/
def poolLen (len : Nat) : Bool := [1, 2, 4, 8, 16].contains len || len % 32 == 0

/-! ### Reads -/

/-- The byte of the exchange read view at `off` (R547). -/
def Stage.exchByte (s : Stage) (off : Nat) : Byte := (leBytes 4 (s.exchRead (off / 4)).toNat).getD (off % 4) 0#8

/-- A read of memory at Grid address `g` by master `m`, at its target: what changes, the response and the data. `ext` is what the host answers an
outbound request with, if it does. -/
def Stage.memRead (s : Stage) (m : Master) (g len : Nat) (ext : Option (List Byte)) : Stage × Resp × List Byte :=
  let fail (r : Resp) : Stage × Resp × List Byte := (s, r, List.replicate len 0#8)
  match regionOf g len with
  | .none | .regs => fail .fault
  | .mgmt | .book | .tableau => s.wordsRead g len (ownerOf m)
  | .pool _ off =>
    (match poolBank off len with
     | none => fail .fault
     | some bank =>
       if !poolLen len then fail .fault
       else match s.bankGate bank (ownerOf m) with
         | .answer .denied => (s.poolDenied bank (ownerOf m), .denied, List.replicate len 0#8)
         | .answer r => fail r
         | _ => s.poolRead off len (ownerOf m))
  | .bat k off =>
    if !s.powered (pBat k) || !named batAreas off len then fail .fault
    else if off < 0x20000 ∨ areaOf batAreas off = some 3 then s.wordsRead g len (ownerOf m)
    else (s, .okay, (upTo len).map fun j => s.batByte k (off + j))
  | .sp k off =>
    if !s.powered (pSp k) || !named spAreas off len then fail .fault
    else s.wordsRead g len (ownerOf m)
  | .exch off => (s, .okay, (upTo len).map fun j => s.exchByte (off + j))
  | .host =>
    if !s.host.linkUp || !s.host.bme then fail .fault
    else
      let t := s.emit (.pcieOut (s.reg64 0x300 0x088 + (g - 0x800000000)) .none len)
      match ext with
      | some d => (t, .okay, (d ++ List.replicate len 0#8).take len)
      | none => (t, .fault, List.replicate len 0#8)

/-- The pool bank of an access that waits there: for a handover to its owner (R520), or for a loan to be recalled (R495). -/
def Stage.memStalls (s : Stage) (m : Master) (g len : Nat) : Option Nat :=
  match regionOf g len with
  | .pool _ off =>
    (match poolBank off len with
     | some bank => if s.bankGate bank (ownerOf m) = .stall then some bank else none
     | none => none)
  | _ => none

/-! ### Writes -/

/-- The bytes of an access that are enabled, with their addresses. -/
def cellsOf (a : Nat) (d : List (Byte × Bool)) : List (Nat × Byte) :=
  ((upTo d.length).zip d).filterMap fun e => if e.2.2 then some (a + e.1, e.2.1) else none

/-- The records that forward a boundary-applied write of memory (R459): whole words in WRITE records of up to 59 words, each other word in a
WRITE_BYTES record. -/
def memRecords (m : Master) (cells : List (Nat × Byte)) : List FwdRec :=
  let words := (cells.map fun e => e.1 / 4 * 4).eraseDups
  let mask (w : Nat) : Nat := cells.foldl (fun k e => if e.1 / 4 * 4 = w then setBit k (e.1 % 4) true else k) 0
  let value (w : Nat) : Nat := cells.foldl (fun v e => if e.1 / 4 * 4 = w then v + e.2.toNat * 256 ^ (e.1 % 4) else v) 0
  let who := 1 - m.cls
  (words.foldl (fun (acc : List FwdRec) w =>
    let v := Word.ofNat (value w)
    if mask w = 15 then
      (match acc.head? with
       | some (.write x a ws) => if a + 4 * ws.length = w ∧ ws.length < 59 then .write x a (ws ++ [v]) :: acc.drop 1 else .write who w [v] :: acc
       | _ => .write who w [v] :: acc)
    else .writeBytes who w (mask w) v :: acc) []).reverse

/-- A boundary-applied write of memory of page `p` whose value has been judged (R22, R23, R461, R562). -/
def Stage.memWait (s : Stage) (m : Master) (p a : Nat) (d : List (Byte × Bool)) (legal : Bool) : Stage :=
  if s.ownBarred m.cls then s.respond .denied
  else if !legal || s.tagTooFar m.cls then s.badWrite m.cls p a true
  else
    let cells := cellsOf a d
    if cells.isEmpty then s.respond .okay
    else (s.wait m.cls (.mem cells)).forwardWait m (memRecords m cells)

/-- A write of memory that takes effect when it completes. -/
def Stage.memNow (s : Stage) (m : Master) (w : WMode) (a : Nat) (d : List (Byte × Bool)) (clash : List Nat) : Stage :=
  let (s, r) := s.wordsWrite w a d (ownerOf m) clash
  s.respond r

/-- The word at `a` as it would be with the enabled bytes of a write. -/
def Stage.merged (s : Stage) (a k : Nat) (cells : List (Nat × Byte)) : Nat :=
  ofLeBytes ((upTo k).map fun j => match cells.find? fun e => e.1 == a + j with
    | some e => e.2
    | none => s.rd8 (a + j))

/-- Every list entry that a write touches is legal (R19, R92); `scatter` tells the list. -/
def Stage.entriesLegal (s : Stage) (scatter : Bool) (cells : List (Nat × Byte)) : Bool :=
  (cells.map fun e => e.1 / 4 * 4).eraseDups.all fun w =>
    let v := s.merged w 4 cells
    let slot := bits v 29 16
    decide (bits v 14 0 ≤ 24575)
      && (if scatter then (decide (0x1000 ≤ slot) && decide (slot < 0x1800)) || (decide (0x1A00 ≤ slot) && decide (slot < 0x3000))
          else decide (slot < 0x2000))

/-- Every curve entry that a write touches is at most 0x8000 (R142). -/
def Stage.curveLegal (s : Stage) (cells : List (Nat × Byte)) : Bool :=
  (cells.map fun e => e.1 / 2 * 2).eraseDups.all fun w => decide (s.merged w 2 cells ≤ 0x8000)

/-- A write inside one named area of a strip processor's memories (R60, R92, R188). -/
def Stage.spMemWrite (s : Stage) (m : Master) (k area a : Nat) (d : List (Byte × Bool)) : Stage :=
  if area < 3 then s.memWait m (pSp k) a d true
  else
    let bank := if area < 5 then area - 3 else (area - 5) / 2
    if bank = s.spBank k ∨ s.graph.stagedSps.contains k then s.respond .denied
    else if 5 ≤ area ∧ !s.entriesLegal ((area - 5) % 2 == 1) (cellsOf a d) then s.badWrite m.cls (pSp k) a true
    else s.memNow m .plain a d []

/-- A write inside one named area of a batten's window (R135 to R137, R142, R188). -/
def Stage.batMemWrite (s : Stage) (m : Master) (k area a : Nat) (d : List (Byte × Bool)) : Stage :=
  let b := s.bat k
  if area = 2 ∨ area = 4 then s.respond .denied
  else if area = 3 then s.memWait m (pBat k) a d (s.curveLegal (cellsOf a d))
  else if b.fading then (if area = b.xfFrom then s.respond .denied else s.memWait m (pBat k) a d true)
  else if area = b.live then s.memWait m (pBat k) a d true
  else if s.batStaged k then s.respond .denied
  else
    let cells := cellsOf a d
    (s.rampsCut k fun x => cells.any fun e => e.1 / 4 == x / 4).memNow m .plain a d []

/-- An access is cut where one named area meets the next, and each part is answered on its own (R539). -/
def Stage.areaWrite (s : Stage) (areas : List (Nat × Nat)) (base off : Nat) (d : List (Byte × Bool))
    (f : Stage → Nat → Nat → List (Byte × Bool) → Stage) : Stage :=
  match areaOf areas off with
  | none => s.respond .fault
  | some i =>
    let e := areas.getD i (0, 0)
    let n := e.1 + e.2 - off
    let s := f s i (base + off) (d.take n)
    if d.length ≤ n then s
    else
      let r := s.bus.resp
      let t := f s (i + 1) (base + off + n) (d.drop n)
      t.respond (r.worse t.bus.resp)

/-- A write of memory at Grid address `g` by master `m`, at its target. `clash` names the words, counted from the first, that lose to port A of a
dual-port bank (R522); `ext` that the host takes an outbound write. -/
def Stage.memWrite (s : Stage) (m : Master) (g : Nat) (d : List (Byte × Bool)) (clash : List Nat) (ext : Bool) : Stage :=
  match regionOf g d.length with
  | .none | .regs => s.respond .fault
  | .mgmt => if 0x100F8000 < g + d.length then s.respond .denied else s.memNow m .plain g d []
  | .book | .tableau | .exch _ => s.respond .denied
  | .pool w off =>
    (match poolBank off d.length with
     | none => s.respond .fault
     | some bank =>
       if !poolLen d.length then s.respond .fault
       else match s.bankGate bank (ownerOf m) with
         | .answer .denied => (s.poolDenied bank (ownerOf m)).respond .denied
         | .answer r => s.respond r
         | .port portB => ((s.bankUsed bank).memNow m w (poolBase + off) d (if portB then clash else []))
         | .stall => ((s.bankUsed bank).memNow m w (poolBase + off) d []))
  | .bat k off =>
    if !s.powered (pBat k) || !named batAreas off d.length then s.respond .fault
    else s.areaWrite batAreas (batBase k) off d fun s i a d => s.batMemWrite m k i a d
  | .sp k off =>
    if !s.powered (pSp k) || !named spAreas off d.length then s.respond .fault
    else s.areaWrite spAreas (0x300000000 + k * 0x100000) off d fun s i a d => s.spMemWrite m k i a d
  | .host =>
    if !s.host.linkUp || !s.host.bme then s.respond .fault
    else
      (s.emit (.pcieOut (s.reg64 0x300 0x088 + (g - 0x800000000)) (some d) d.length)).respond (if ext then .okay else .fault)

/-! ### Reads by engines of the part -/

/-- A 32-byte beat read by master `m` at issued address `a`: none where a window, the map or the target refuses it. -/
def Stage.engineBeat (s : Stage) (m : Master) (a len : Nat) : Stage × Option (List Byte) :=
  match s.winMap m.cls a len false with
  | none => (s.gridDenied m 0 a false, none)
  | some g =>
    match regionOf g len with
    | .none => (s.gridFault m 0 a false, none)
    | .regs => (s.gridFault m 0 a false, none)
    | _ => match s.memRead m g len none with
      | (s, .okay, d) => (s, some d)
      | (s, _, _) => (s, none)

/-- `n` beats of 32 bytes from issued address `a` on; `f` takes each beat's data with its number, and the first beat that is refused ends them. -/
def Stage.engineRead (s : Stage) (m : Master) (a n : Nat) (f : Nat → List Byte → Stage → Stage) : Stage × Bool :=
  (upTo n).foldl (fun (x : Stage × Bool) i =>
    if !x.2 then x
    else match x.1.engineBeat m (a + 32 * i) 32 with
      | (s, some d) => (f i d s, true)
      | (s, none) => (s, false)) (s, true)

end Sys2Proof.Machine
end

