-- ==== Sys2Proof/Machine/Image.lean ====
section
/-!
DEFINITION. Show images: their layout and the checks of LOAD_GRAPH in the order of R187 (R175 to R184, R187, R189, R193, R195 to R197).
-/
namespace Sys2Proof.Machine

def pGraph : Nat := 0x2F0

/-! ### Header and section table (R175 to R177) -/

/-- The 32-bit word at byte `o` of the image at `a`. -/
def Stage.imgW (s : Stage) (a o : Nat) : Nat := s.rdN (a + o) 4

/-- The 16-bit entry at byte `o` of the image at `a`. -/
def Stage.imgH (s : Stage) (a o : Nat) : Nat := s.rdN (a + o) 2

/-- One section of an image (R176), with its place in the table. -/
structure Sect where
  idx : Nat
  typ : Nat
  key : Nat
  off : Nat
  len : Nat
  rest : Nat
deriving DecidableEq, Repr

/-- REPLACE of a section (R176). -/
def Sect.replace (x : Sect) : Bool := bit x.rest 0

def tStageMap : Nat := 1
def tSourceMap : Nat := 2
def tSpBank : Nat := 3
def tSpMem : Nat := 4
def tBatPlanes : Nat := 5
def tBatCurve : Nat := 6
def tRegImage : Nat := 7
def tBook : Nat := 8
def tCapacity : Nat := 9
def tLatency : Nat := 10
def tDip : Nat := 11
def tFeedback : Nat := 12

/-- Entry `i` of the section table of the image at `a`. -/
def Stage.sect (s : Stage) (a i : Nat) : Sect :=
  let o := 0x40 + 16 * i
  let w := s.imgW a o
  { idx := i, typ := bits w 15 0, key := bits w 31 16, off := s.imgW a (o + 4), len := s.imgW a (o + 8), rest := s.imgW a (o + 12) }

/-- The sections of the image at `a`, in table order. -/
def Stage.sects (s : Stage) (a : Nat) : List Sect := (upTo (s.imgW a 0x10)).map (s.sect a)

/-- Types of which an image may hold one section. -/
def onceType (t : Nat) : Bool := t == 1 || t == 2 || decide (8 ≤ t)

/-- INSTANCE means something for the type (R177). -/
def keyOk (t k : Nat) : Bool :=
  if onceType t then k == 0
  else if t = tRegImage then decide (k < 4096)
  else if t = tSpMem then decide (k / 256 ≤ 2) && k % 256 / 64 == 0
  else decide (k < 64)

/-- IMAGE_SIZE is legal (R175). -/
def sizeOk (n : Nat) : Bool := n % 32 == 0 && decide (128 ≤ n ∧ n ≤ 32505856)

/-- The header keeps R175, and the table lies inside the image. -/
def Stage.headOk (s : Stage) (a : Nat) : Bool :=
  s.imgW a 0 == 0x4853594C && bits (s.imgW a 4) 31 16 == 1 && sizeOk (s.imgW a 8) && decide (s.imgW a 12 < 8)
    && decide (1 ≤ s.imgW a 0x10 ∧ s.imgW a 0x10 ≤ 1024) && s.imgW a 0x14 == 0 && s.rdN (a + 0x18) 8 != 0
    && (s.rdBytes (a + 0x2C) 20).all (· == 0#8) && decide (0x40 + 16 * s.imgW a 0x10 ≤ s.imgW a 8)

/-- Section `x` of the table `l` keeps R176 and R177, the sections before it being given. -/
def sectOk (l : List Sect) (size : Nat) (x : Sect) : Bool :=
  let before := l.take x.idx
  x.rest / 2 == 0 && decide (1 ≤ x.typ ∧ x.typ ≤ 12) && x.off % 32 == 0 && decide (0x40 + 16 * l.length ≤ x.off)
    && decide (x.off + x.len ≤ size) && keyOk x.typ x.key && (x.typ != tBatPlanes || x.replace)
    && (x.typ == tSpMem || before.all fun y => y.typ != x.typ || (!onceType x.typ && y.key != x.key))
    && before.all fun y => x.len == 0 || y.len == 0 || decide (y.off + y.len ≤ x.off) || decide (x.off + x.len ≤ y.off)

/-- A section of type `t`. -/
def ofType (l : List Sect) (t : Nat) : Option Sect := l.find? fun x => x.typ == t

/-- FORMAT (R187): the section to blame, 0xFFFF for none. -/
def Stage.formatFail (s : Stage) (a : Nat) : Option Nat :=
  if !s.headOk a then some 0xFFFF
  else
    let l := s.sects a
    match l.find? fun x => !sectOk l (s.imgW a 8) x with
    | some x => some x.idx
    | none =>
      let need := [tCapacity, tLatency] ++ (if s.rdN (a + 0x20) 8 = 0 then [tStageMap, tSourceMap] else [])
      if need.all fun t => (ofType l t).isSome then none else some 0xFFFF

/-- The CRC of an image (R175). -/
def Stage.imageCrc (s : Stage) (a : Nat) : Nat :=
  crc32c (s.rdBytes a 0x28 ++ [0#8, 0#8, 0#8, 0#8] ++ s.rdBytes (a + 0x2C) (s.imgW a 8 - 0x2C))

/-! ### Place (R185, R187) -/

/-- The `n` bytes at `a` can be read by MGMT: in the pool, in its banks, and no word of them lost. -/
def Stage.imgHeld (s : Stage) (a n : Nat) : Bool :=
  decide (poolBase ≤ a ∧ a + n ≤ poolBase + 0x2000000)
    && ((upTo ((a - poolBase + n - 1) / bankSize - (a - poolBase) / bankSize + 1)).all fun j =>
          match s.bankGate ((a - poolBase) / bankSize + j) 0x43 with
          | .answer _ => false
          | _ => true)
    && !(s.ecc.any fun e => decide (a < 32 * e.1 + 32 ∧ 32 * e.1 < a + n) && s.lost (32 * e.1))

/-- How much of the image PLACE judges. -/
def Stage.imgSpan (s : Stage) (a : Nat) : Nat := if sizeOk (s.imgW a 8) then s.imgW a 8 else 64

/-- PLACE holds. -/
def Stage.placeOk (s : Stage) (a : Nat) : Bool := s.imgHeld a 64 && s.imgHeld a (s.imgSpan a)

/-! ### What an image replaces and places -/

/-- The processors and battens (at 64 + k) that an image replaces (R193). -/
def replacedOf (l : List Sect) : List Nat :=
  l.filterMap fun x => if x.typ = tSpBank ∧ x.replace then some x.key else if x.typ = tBatPlanes then some (64 + x.key) else none

/-- The words of an SP_MEM section. -/
def memWords (x : Sect) : Nat := (x.len - 32) / 4

/-- A STAGE_MAP body keeps R178. -/
def Stage.stageMapOk (s : Stage) (a : Nat) (x : Sect) : Bool :=
  x.len == 128 && (s.rdBytes (a + x.off) 128).all fun b => bits b.toNat 6 3 == 0

/-- The entry of block `b` in the model's stage map: 8 + its stage, 0 outside the map (R178). -/
def Stage.mapByte (s : Stage) (a : Nat) (x : Sect) (b : Nat) : Nat :=
  let v := s.rdN (a + x.off + b) 1
  if bit v 7 then 8 + v % 8 else 0

/-- The stage map that an image brings, or the map in effect. -/
def Stage.newMap (s : Stage) (a : Nat) (l : List Sect) (b : Nat) : Nat :=
  match ofType l tStageMap with
  | some x => s.mapByte a x b
  | none => Tab.get 0 s.graph.map b

/-- The power domain of stage block `b` (R638). -/
def blockDomain (b : Nat) : Nat := 4 + b / 32

/-! ### Lists (R92, R179, R189) -/

/-- The gather or scatter list that an SP_BANK section holds. -/
def Stage.imageList (s : Stage) (a : Nat) (x : Sect) (gather : Bool) : List Nat :=
  let g := s.imgW a (x.off + 4)
  let n := if gather then g else s.imgW a (x.off + 8)
  (upTo n).map fun j => s.imgW a (x.off + 32 + 4 * (if gather then j else g + j))

/-- The list that SP `k` runs from its active bank. -/
def Stage.liveList (s : Stage) (k : Nat) (gather : Bool) : List Nat :=
  let b := s.spBank k
  (upTo (s.bankFld k (if gather then 0x088 else 0x08C) 9 b)).map fun j =>
    (s.rd32 (if gather then gatherAddr k b j else scatterAddr k b j)).toNat

/-- The SP_BANK section of SP `k`. -/
def bankOf (l : List Sect) (k : Nat) : Option Sect := l.find? fun x => x.typ == tSpBank && x.key == k

/-- The list that SP `k` runs in the incoming graph. -/
def Stage.nextList (s : Stage) (a : Nat) (l : List Sect) (k : Nat) (gather : Bool) : List Nat :=
  match bankOf l k with
  | some x => s.imageList a x gather
  | none => s.liveList k gather

/-- SLOT of a list entry. -/
def slotOf (e : Nat) : Nat := bits e 29 16

/-! ### Bodies (R178 to R184) -/

/-- An SP_BANK body keeps R179, R92 and R101. -/
def Stage.spBankOk (s : Stage) (a : Nat) (x : Sect) : Bool :=
  let h (j : Nat) : Nat := s.imgW a (x.off + 4 * j)
  let lists := 32 + 4 * (h 1 + h 2)
  let code := x.len - lists
  decide (32 ≤ x.len ∧ h 0 < 2048 ∧ h 1 ≤ 256 ∧ h 2 ≤ 256 ∧ h 4 < 65536) && bits (h 3) 30 15 == 0 && decide (bits (h 3) 14 0 ≤ 24565)
    && h 5 == 0 && h 6 == 0 && h 7 == 0 && decide (lists + 16 ≤ x.len) && code % 16 == 0 && decide (code / 16 ≤ 2048)
    && (s.imageList a x true ++ s.imageList a x false).all fun e =>
        bits e 31 30 == 0 && !bit e 15 && decide (bits e 14 0 ≤ 24575)

/-- The words of memory `m` of a strip processor (R59). -/
def memSize (m : Nat) : Nat := if m < 2 then 24576 else 16384

/-- An SP_MEM body keeps R180. -/
def Stage.spMemOk (s : Stage) (a : Nat) (repl : List Nat) (x : Sect) : Bool :=
  decide (32 ≤ x.len) && x.len % 4 == 0 && ((upTo 7).all fun j => s.imgW a (x.off + 4 + 4 * j) == 0)
    && decide (s.imgW a x.off + memWords x ≤ memSize (x.key / 256)) && (repl.contains (x.key % 64) || decide (memWords x ≤ 4096))

/-- A BAT_PLANES body keeps R181. -/
def Stage.batPlanesOk (s : Stage) (a : Nat) (x : Sect) : Bool :=
  (x.len == 32 + 0x10000 || x.len == 32 + 0x20000) && decide (s.imgW a x.off < 4096)
    && (upTo 7).all fun j => s.imgW a (x.off + 4 + 4 * j) == 0

/-- Strictly ascending entries. -/
def ascending : List Nat → Bool
  | [] => true
  | [_] => true
  | x :: y :: t => decide (x < y) && ascending (y :: t)

/-- The egress indices of a DIP section (R177). -/
def Stage.dipList (s : Stage) (a : Nat) (x : Sect) : List Nat :=
  ((upTo (x.len / 2)).map fun j => s.imgH a (x.off + 2 * j)).takeWhile (· != 0xFFFF)

/-- A DIP body keeps R177. -/
def Stage.dipOk (s : Stage) (a : Nat) (x : Sect) : Bool :=
  let d := s.dipList a x
  x.len % 2 == 0 && ascending d && d.all (fun k => decide (k < 4096))
    && (upTo (x.len / 2 - d.length)).all fun j => s.imgH a (x.off + 2 * (d.length + j)) == 0xFFFF

/-- The entries of a FEEDBACK section (R183). -/
def Stage.feedbackList (s : Stage) (a : Nat) (x : Sect) : List Nat := (upTo (x.len / 4)).map fun j => s.imgW a (x.off + 4 * j)

/-! ### The prompt book (R290 to R293) -/

/-- A link to a cue: no reserved bit, and a cue of the book when VALID. -/
def cueLink (count v : Nat) : Bool := bits v 30 12 == 0 && (!bit v 31 || decide (bits v 11 0 < count))

/-- An action keeps R293 but for the destinations of its rate; `w` are its four words. -/
def actionOk (count : Nat) (w : Nat → Nat) : Bool :=
  let low (hi lo : Nat) : Bool := bits (w 0) hi lo == 0
  match bits (w 0) 31 24 with
  | 1 => low 23 0 && w 1 % 4 == 0 && decide (w 2 < 16)
  | 2 => low 23 22 && low 15 0 && !bit (w 2) 14 && rampLegal false (w 2) && w 3 == 0
  | 3 => low 23 0 && xfLegal (w 3) && bits (w 3) 25 19 == 0
  | 4 => low 22 13 && w 2 == 0 && w 3 == 0 &&
      (if bit (w 0) 23 then destLegal (bits (w 0) 12 0) && outRouteLegal (w 1) else !bit (w 0) 12 && inRouteLegal (w 1))
  | 5 => low 23 22 && low 15 0 && w 1 % 32 == 0 && decide (w 2 < 16) && w 3 == 0
  | 6 => low 23 5 && w 2 == 0 && w 3 == 0
  | 7 => low 23 0 && w 3 == 0
  | 8 => low 23 0 && decide (w 1 < 65536) && w 2 == 0 && w 3 == 0
  | 9 => low 23 0 && w 1 == 0 && w 2 == 0 && w 3 == 0
  | 10 => low 23 12 && decide (bits (w 0) 11 0 < count) && decide (w 1 ≤ 600000000) && w 2 == 0 && w 3 == 0
  | _ => false

/-- The byte offsets of the actions of the record at `rec` of the book at `b`. -/
def Stage.recActions (s : Stage) (b r : Nat) : List Nat := (upTo (s.imgW b (r + 4))).map fun j => r + 16 + 16 * j

/-- A cue's index entry and record keep R291 to R293. -/
def Stage.cueFits (s : Stage) (b count size q : Nat) : Bool :=
  let r := s.imgW b (0x20 + 8 * q)
  cueLink count (s.imgW b (0x24 + 8 * q)) &&
    (r == 0 || (r % 16 == 0 && decide (0x20 + 8 * count ≤ r ∧ r + 16 ≤ size) && decide (s.imgW b r ≤ 600000000)
      && decide (s.imgW b (r + 4) ≤ 1023) && s.imgW b (r + 8) == 0 && s.imgW b (r + 12) == 0
      && decide (r + 16 + 16 * s.imgW b (r + 4) ≤ size)
      && (s.recActions b r).all fun o => actionOk count fun j => s.imgW b (o + 4 * j)))

/-- A PROMPT_BOOK body keeps R290 to R293. -/
def Stage.bookOk (s : Stage) (a : Nat) (x : Sect) : Bool :=
  let b := a + x.off
  let count := s.imgW b 4
  let size := s.imgW b 8
  decide (32 ≤ x.len) && s.imgW b 0 == 0x4B4F4F42 && decide (1 ≤ count ∧ count ≤ 4096) && size % 16 == 0
    && decide (size ≤ 2097152 ∧ size ≤ x.len ∧ 0x20 + 8 * count ≤ size) && cueLink count (s.imgW b 12)
    && (s.rdBytes (b + 16) 16).all (· == 0#8) && (upTo count).all (s.cueFits b count size)

/-- A RAMP action of the book names a destination beyond those of the image's rate (R187, R293). -/
def Stage.bookOver (s : Stage) (a : Nat) (x : Sect) : Bool :=
  let b := a + x.off
  s.highRate && (upTo (s.imgW b 4)).any fun q =>
    let r := s.imgW b (0x20 + 8 * q)
    r != 0 && (s.recActions b r).any fun o => bits (s.imgW b o) 31 24 == 2 && bit (s.imgW b (o + 8)) 2

/-! ### Register pairs (R182, R194) -/

/-- A page that REG_IMAGE may name. -/
def imagePage (p : Nat) : Bool :=
  decide (0x200 ≤ p ∧ p ≤ 0x220) || decide (0x228 ≤ p ∧ p ≤ 0x22F) || p == 0x2E0 || p == 0x2F0

/-- The pairs of a REG_IMAGE section. -/
def Stage.pairs (s : Stage) (a : Nat) (x : Sect) : List (Nat × Nat) :=
  (upTo (x.len / 8)).map fun j => (s.imgW a (x.off + 8 * j), s.imgW a (x.off + 8 * j + 4))

/-- A pair is written to page `p`: what the page makes of it, and the state after it. A boundary-applied pair waits for `due`, or for none takes
effect at once (R182, R194). -/
def Stage.pairWrite (s : Stage) (due : Option Nat) (p off n : Nat) : Verdict × Stage :=
  match pageOf p with
  | none => (.denied, s)
  | some (k, i) =>
    if !s.powered p then (.denied, s)
    else match regDef k i off with
      | none => (.go, s)
      | some d =>
        let v := Nat.land n (Nat.lor d.rw (Nat.lor d.w1c d.wo))
        match s.regVerdict 0 k i d v with
        | .denied => (.denied, s)
        | .bad => (.bad, { s.badWrite 0 p off false with bus := s.bus })
        | .go =>
          (.go, match s.boundarySel k i off v, due with
            | some x, some b =>
              let w : WWrite := { due := b, cls := 0, kind := .reg (p * 4096 + off) x (Word.ofNat v), ord := s.order, place := false }
              { s with waiting := s.waiting ++ [w], order := s.order + 1 }.waitTaken k i off v x
            | some x, none => (s.applyReg s.datum.index 0 (p * 4096 + off) x (Word.ofNat v)).waitTaken k i off v x
            | none, _ => (s.store p off (Word.ofNat v)).written k i off (s.regN p off) v)

/-- The pair names a register that REG_IMAGE may write. -/
def pairNamed (p off : Nat) : Bool :=
  off % 4 == 0 && decide (0x080 ≤ off ∧ off < 0x400) && (p != pGraph || off == 0x088 || off == 0x08C)

/-- The pairs of a section are tried on a copy of the state (R182). -/
def Stage.tryPairs (s : Stage) (p : Nat) : List (Nat × Nat) → Option Stage
  | [] => some s
  | (off, v) :: t =>
    if !pairNamed p off then none
    else match s.pairWrite none p off v with
      | (.go, s) => s.tryPairs p t
      | _ => none

/-! ### The checks of the bodies -/

/-- A body other than a REG_IMAGE keeps its layout. -/
def Stage.bodyOk (s : Stage) (a : Nat) (repl : List Nat) (x : Sect) : Bool :=
  match x.typ with
  | 1 => s.stageMapOk a x
  | 2 => x.len == 4096 && (upTo 2048).all fun j => !bit (s.imgH a (x.off + 2 * j)) 14
  | 3 => s.spBankOk a x
  | 4 => s.spMemOk a repl x
  | 5 => s.batPlanesOk a x
  | 6 => x.len == 2048 && (upTo 1024).all fun j => decide (s.imgH a (x.off + 2 * j) ≤ 0x8000)
  | 8 => s.bookOk a x
  | 9 => x.len == 32
  | 10 => x.len == 16384
  | 11 => s.dipOk a x
  | _ => x.len % 4 == 0 && (s.feedbackList a x).all fun e => bits e 31 30 == 0 && bits e 15 12 == 0

/-- SECTION (R187): the first section whose body breaks its layout. `t` is the copy on which the pairs are tried. -/
def Stage.bodiesFail (s : Stage) (a : Nat) (repl : List Nat) (t : Stage) : List Sect → Option Nat
  | [] => none
  | x :: l =>
    if x.typ = tRegImage then
      (if x.len % 8 ≠ 0 ∨ !imagePage x.key then some x.idx
       else match t.tryPairs x.key (s.pairs a x) with
        | some t => s.bodiesFail a repl t l
        | none => some x.idx)
    else if s.bodyOk a repl x then s.bodiesFail a repl t l
    else some x.idx

/-- The limits of R13 in the order of R184. -/
def capacities (hi : Bool) : List Nat :=
  (if hi then [512, 256, 256] else [1024, 512, 512]) ++ [1024, 1024, 512, 512, 64]

/-- The first SP_MEM section at which the words of unreplaced processors pass the commit store (R195). -/
def storeOver (repl : List Nat) : Nat → List Sect → Option Nat
  | _, [] => none
  | n, x :: l =>
    if x.typ = tSpMem ∧ !repl.contains (x.key % 64) then
      (if 16384 < n + memWords x then some x.idx else storeOver repl (n + memWords x) l)
    else storeOver repl n l

/-- CAPACITY (R187). -/
def Stage.capacityFail (s : Stage) (a : Nat) (l : List Sect) : Option Nat :=
  match ofType l tCapacity with
  | none => none
  | some x =>
    if ((upTo 8).zip (capacities s.highRate)).any fun (j, m) => decide (m < s.imgW a (x.off + 4 * j)) then some x.idx
    else match l.find? fun x => x.typ == tBook && s.bookOver a x with
      | some x => some x.idx
      | none => storeOver (replacedOf l) 0 l

/-- BUDGET (R187): W of a strip processor (R52) or W_DECL of a batten (R166). -/
def Stage.budgetFail (s : Stage) (a : Nat) (l : List Sect) : Option Nat :=
  (l.find? fun x =>
    (x.typ == tSpBank && decide (spBudget s.rateCode < s.imgW a (x.off + 16)))
      || (x.typ == tBatPlanes && decide ((if s.highRate then 1024 else 2048) < s.imgW a x.off))).map (·.idx)

/-- Slots that a scatter list, and a source-map entry, may name (R18, R19, R92). -/
def scatterSlot (e : Nat) : Bool := decide (0x1000 ≤ e ∧ e < 0x1800) || decide (0x1A00 ≤ e ∧ e < 0x3000)
def sourceSlot (e : Nat) : Bool := decide (e < 0x1800) || decide (0x3000 ≤ e)

/-- SLOTS (R187). -/
def Stage.slotsFail (s : Stage) (a : Nat) (l : List Sect) : Option Nat :=
  (l.find? fun x =>
    (x.typ == tSpBank && !((s.imageList a x true).all (fun e => decide (slotOf e < 0x2000))
        && (s.imageList a x false).all fun e => scatterSlot (slotOf e)))
      || (x.typ == tSourceMap && !((upTo 2048).all fun j => sourceSlot (bits (s.imgH a (x.off + 2 * j)) 13 0)))).map (·.idx)

/-- The stages of the blocks that write exchange slot `slot` in the incoming graph (R189). -/
def Stage.writers (s : Stage) (a : Nat) (l : List Sect) (slot : Nat) : List Nat :=
  ((upTo 64).filterMap fun k =>
    let m := s.newMap a l k
    if m ≠ 0 ∧ (s.nextList a l k false).any (fun e => slotOf e == slot) then some (m - 8) else none)
  ++ (if 0x1800 ≤ slot ∧ slot < 0x1A00 ∧ (slot - 0x1800) / (if s.highRate then 4 else 8) < 64 then
        let m := s.newMap a l (64 + (slot - 0x1800) / (if s.highRate then 4 else 8))
        if m ≠ 0 then [m - 8] else []
      else [])

/-- A gather entry of SP `k` in stage `t` keeps R189. -/
def Stage.gatherOk (s : Stage) (a : Nat) (l : List Sect) (k t e : Nat) : Bool :=
  let slot := slotOf e
  decide (slot < 0x1000) ||
    (let w := s.writers a l slot
     w == [] || w.any (fun u => decide (u < t)) ||
      (match ofType l tFeedback with
       | some x => (s.feedbackList a x).any fun f => bits f 29 16 == slot && bits f 11 0 == 0x100 + k
       | none => false))

/-- The section to blame for SP `k`'s stage. -/
def stageBlame (l : List Sect) (k : Nat) : Nat :=
  match bankOf l k with
  | some x => x.idx
  | none => ((ofType l tStageMap).map (·.idx)).getD 0xFFFF

/-- STAGE (R187): a map that a partial image may not bring (R193), or a gather entry that breaks R189. -/
def Stage.stageFail (s : Stage) (a : Nat) (l : List Sect) : Option Nat :=
  let repl := replacedOf l
  let bad (b : Nat) : Bool :=
    let m := s.newMap a l b
    !repl.contains b && m != 0 && m != Tab.get 0 s.graph.map b
  match ofType l tStageMap with
  | some x =>
    if s.rdN (a + 0x20) 8 ≠ 0 ∧ (upTo 128).any bad then some x.idx
    else ((upTo 64).find? fun k =>
      let m := s.newMap a l k
      m != 0 && !(s.nextList a l k true).all (s.gatherOk a l k (m - 8))).map (stageBlame l)
  | none => ((upTo 64).find? fun k =>
      let m := s.newMap a l k
      m != 0 && !(s.nextList a l k true).all (s.gatherOk a l k (m - 8))).map (stageBlame l)

/-- DIP_LIST (R187, R197): the OUT slots of a replaced processor's lists are all listed in a partial image. -/
def Stage.dipFail (s : Stage) (a : Nat) (l : List Sect) : Option Nat :=
  if s.rdN (a + 0x20) 8 = 0 then none
  else
    let dips := match ofType l tDip with
      | some x => s.dipList a x
      | none => []
    (l.find? fun x => x.typ == tSpBank && x.replace &&
      ((s.imageList a x false ++ s.liveList x.key false).map slotOf).any fun o =>
        decide (0x2000 ≤ o ∧ o < 0x3000) && !dips.contains (o - 0x2000)).map (·.idx)

/-- BUSY (R187): a batten to be staged has a crossfade running or held, or a commit is in progress. -/
def Stage.busyFail (s : Stage) (l : List Sect) : Option Nat :=
  if s.graph.commit.isSome then some 0xFFFF
  else (l.find? fun x => x.typ == tBatPlanes && (s.bat x.key).fading).map (·.idx)

/-- The checks of R187 in the order of its table: none, or the reason and the section. -/
def Stage.imageFail (s : Stage) (a : Nat) : Option (Nat × Nat) :=
  if !s.placeOk a then some (1, 0xFFFF)
  else match s.formatFail a with
  | some i => some (2, i)
  | none =>
    let l := s.sects a
    if s.imageCrc a ≠ s.imgW a 0x28 then some (3, 0xFFFF)
    else if s.imgW a 12 ≠ s.rateCode then some (4, 0xFFFF)
    else if s.rdN (a + 0x20) 8 ≠ 0 ∧ s.rdN (a + 0x20) 8 ≠ s.graphId then some (5, 0xFFFF)
    else match s.bodiesFail a (replacedOf l) s l with
    | some i => some (6, i)
    | none =>
      match s.capacityFail a l with
      | some i => some (7, i)
      | none =>
        match s.budgetFail a l with
        | some i => some (8, i)
        | none =>
          match s.slotsFail a l with
          | some i => some (9, i)
          | none =>
            match s.stageFail a l with
            | some i => some (10, i)
            | none =>
              match s.dipFail a l with
              | some i => some (11, i)
              | none => (s.busyFail l).map fun i => (12, i)

/-! ### Classes and the gap (R192, R196) -/

/-- A live edit (R192). -/
def Stage.liveEdit (s : Stage) (a : Nat) : Bool := s.rdN (a + 0x20) 8 != 0 && (s.sects a).all fun x => !x.replace

/-- A section that is copied during the gap: SP_MEM of a replaced processor, or a second plane (R193, R196). -/
def copied (repl : List Nat) (x : Sect) : Bool :=
  (x.typ == tSpMem && repl.contains (x.key % 64)) || (x.typ == tBatPlanes && x.len == 32 + 0x20000)

/-- B of R196. -/
def gapBytes (l : List Sect) : Nat :=
  (l.filter (copied (replacedOf l))).foldl (fun n x => n + (if x.typ = tSpMem then 4 * memWords x else 65536)) 0

/-- GAP of the image at `a` (R196). -/
def Stage.gapOf (s : Stage) (a : Nat) : Nat :=
  if s.liveEdit a then 0 else 2 + (gapBytes (s.sects a) * s.fs + 2 ^ 32 - 1) / 2 ^ 32

end Sys2Proof.Machine
end

