-- ==== Sys2Proof/Machine/Graph.lean ====
section
/-!
DEFINITION. LOAD_GRAPH, DISCARD and GRAPH_COMMIT: staging, the commit timeline and compact placement (R185 to R204, R208, R209, R213).
-/
namespace Sys2Proof.Machine

def Stage.withGraph (s : Stage) (f : GraphSt → GraphSt) : Stage := { s with graph := f s.graph }

/-! ### Compact placement (R208) -/

/-- Block `b` is in the stage map in effect or in that of the staged image. -/
def Stage.placed (s : Stage) (b : Nat) : Bool :=
  s.inMap b || (match s.graph.staged with
    | some g => s.newMap g.addr (s.sects g.addr) b != 0
    | none => false)

/-- The domains of PD4 to PD7 that hold no block of a map are switched off. -/
def Stage.compactOff (s : Stage) : Stage :=
  if s.flag pGraph 0x084 0 then
    [4, 5, 6, 7].foldl (fun s d =>
      if s.domainHeld d s.mode || (upTo 128).any (fun b => blockDomain b == d && s.placed b) then s else s.domainOff d) s
  else s

/-! ### Staging (R186) -/

/-- Bytes written whole word by whole word by the engine itself: an error that a word held is gone. -/
def Stage.fillBytes (s : Stage) (a : Nat) (l : List Byte) : Stage :=
  { s with ecc := Tab.keep (fun w => !(decide (a ≤ 32 * w) && decide (32 * w + 32 ≤ a + l.length))) s.ecc }.wrBytes a l

/-- An SP_BANK goes into the inactive bank of its processor, with that bank's fields. -/
def Stage.stageBank (s : Stage) (a : Nat) (x : Sect) : Stage :=
  let k := x.key
  let b := 1 - s.spBank k
  let h (j : Nat) : Nat := s.imgW a (x.off + 4 * j)
  let put (l : List Nat) : List Byte := l.flatMap (leBytes 4)
  let lists := 32 + 4 * (h 1 + h 2)
  let code := s.rdBytes (a + x.off + lists) (x.len - lists)
  let rest := (upTo (2048 - code.length / 16)).flatMap fun _ => leBytes 16 (encodeBundle {})
  let g := s.imageList a x true
  let c := s.imageList a x false
  let s := ((s.fillBytes (gatherAddr k b 0) (put g)).fillBytes (scatterAddr k b 0) (put c)).fillBytes (bundleAddr k b 0) (code ++ rest)
  let fld (s : Stage) (off v : Nat) : Stage := s.setFld (pSp k) off (16 * b + 15) (16 * b) v
  let s := fld (fld (fld (fld s 0x084 (h 0)) 0x088 (h 1)) 0x08C (h 2)) 0x094 (h 4)
  s.withGraph fun g => { g with hdr := Tab.put none g.hdr k (some (Word.ofNat (h 3))), stagedSps := g.stagedSps ++ [k] }

/-- The first plane of a BAT_PLANES goes into the batten's shadow plane. -/
def Stage.stagePlane (s : Stage) (a : Nat) (x : Sect) : Stage :=
  let k := x.key
  let p := 1 - (s.bat k).live
  let data := s.rdBytes (a + x.off + 32) 0x10000
  ((s.zeroMem (planeAddr k p) 0x10000).fillBytes (planeAddr k p) data).withGraph fun g => { g with stagedBats := g.stagedBats ++ [k] }

/-- The Grid address of word `w` of memory `m` of SP `k`. -/
def memAddr (k m w : Nat) : Nat := wordAddr k (if m = 0 then .x else if m = 1 then .y else .c) w

/-- The words of an SP_MEM section, with their addresses. -/
def Stage.memCells (s : Stage) (a : Nat) (x : Sect) : List (Nat × Word) :=
  (upTo (memWords x)).map fun j =>
    (memAddr (x.key % 64) (x.key / 256) (s.imgW a x.off + j), Word.ofNat (s.imgW a (x.off + 32 + 4 * j)))

/-- One section is staged. -/
def Stage.stageSect (a : Nat) (repl : List Nat) (s : Stage) (x : Sect) : Stage :=
  if x.typ = tSpBank then s.stageBank a x
  else if x.typ = tBatPlanes then s.stagePlane a x
  else if x.typ = tSpMem ∧ !repl.contains (x.key % 64) then s.withGraph fun g => { g with store := g.store ++ s.memCells a x }
  else s

/-- The domains that the image places a block in are switched on, when its header, table and STAGE_MAP can be read and keep their layout. -/
def Stage.wakeFor (s : Stage) (a : Nat) : Stage :=
  if s.imgHeld a 64 && s.headOk a && s.imgHeld a (0x40 + 16 * s.imgW a 0x10) && (s.formatFail a).isNone then
    match ofType (s.sects a) tStageMap with
    | some x =>
      if s.imgHeld (a + x.off) x.len && s.stageMapOk a x then
        (upTo 128).foldl (fun s b => if s.mapByte a x b = 0 then s else s.domainWake (blockDomain b)) s
      else s
    | none => s
  else s

/-- The image's bytes as the loader, a master of the management class, finds them (R536, R541): the Grid address, or none with the denial counted. -/
def Stage.loaderFind (s : Stage) (a : Nat) : Option Nat × Stage :=
  match s.winSpan a 64 with
  | .error x => (none, s.gridDenied { cls := 0, idx := 0 } 0 x false)
  | .ok g =>
    if !s.imgHeld g 64 then (some g, s)
    else match s.winSpan a (s.imgSpan g) with
      | .error x => (none, s.gridDenied { cls := 0, idx := 0 } 0 x false)
      | .ok g => (some g, s)

/-- LOAD_GRAPH runs (R185, R186). An address that is not 32-byte aligned is refused. -/
def Stage.loadGraph (s : Stage) (c : Cmd) : Stage :=
  if c.a0.toNat % 32 ≠ 0 then s.complete pGraph c stRefused 0#32
  else if s.graph.commit.isSome then s.complete pGraph c stRefused (Word.ofNat (12 * 2 ^ 24 + 0xFFFF))
  else
    match s.unstage.loaderFind (c.a0.toNat + c.a1.toNat % 16 * 2 ^ 32) with
    | (none, s) => s.compactOff.complete pGraph c stFailed (Word.ofNat (2 ^ 24 + 0xFFFF))
    | (some a, s) =>
      let s := s.wakeFor a
      let s := if s.placeOk a then s.eccReads a (s.imgSpan a) 0x43 else s
      match s.imageFail a with
      | some (r, i) =>
        s.compactOff.complete pGraph c (if r = 12 then stRefused else stFailed) (Word.ofNat (r * 2 ^ 24 + i))
      | none =>
        let l := s.sects a
        let g : Staged := { handle := handleOf pGraph c.seq, addr := a, size := s.imgW a 8, id := s.rdN (a + 0x18) 8,
                            crc := s.imgW a 0x28, gap := s.gapOf a, live := s.liveEdit a }
        let s := l.foldl (Stage.stageSect a (replacedOf l)) s
        ((s.withGraph fun x => { x with staged := some g }).raise pGraph 0).complete pGraph c stDone (Word.ofNat (g.gap % 65536))

/-- DISCARD runs (R188). -/
def Stage.discardGraph (s : Stage) (c : Cmd) : Stage :=
  match s.graph.staged with
  | some g =>
    if g.handle = c.a0.toNat then s.unstage.compactOff.complete pGraph c stDone 0#32 else s.complete pGraph c stRefused 0#32
  | none => s.complete pGraph c stRefused 0#32

/-! ### The acceptance of a commit (R191, R196, R197, R202, R204) -/

/-- GRAPH_COMMIT is carried out in this mode. -/
def commitMode (m : Nat) : Bool := m == mSolo || m == mPrincipal || m == mTriangulate || m == mDark || m == mFixedPatch

/-- The LATENCY entry of OUT_k in the image. -/
def Stage.imageLat (s : Stage) (a k : Nat) : Nat :=
  match ofType (s.sects a) tLatency with
  | some x => s.imgW a (x.off + 4 * k)
  | none => 0

/-- The egress channels that dip (R197). -/
def Stage.dipsOf (s : Stage) (g : Staged) : List Nat :=
  if g.live then []
  else if s.rdN (g.addr + 0x20) 8 = 0 then
    (upTo 4096).filter fun k => Tab.get 0 s.graph.lat k != 0 || s.imageLat g.addr k != 0
  else match ofType (s.sects g.addr) tDip with
    | some x => s.dipList g.addr x
    | none => []

/-- The register pairs of the image are written, for boundary `b` (R194). -/
def Stage.writePairs (s : Stage) (a b : Nat) : Stage :=
  ((s.sects a).filter fun x => x.typ == tRegImage).foldl (fun s x =>
    (s.pairs a x).foldl (fun s (e : Nat × Nat) => (s.pairWrite (some b) x.key e.1 e.2).2) s) s

/-- REG_IMAGE is written in sample s − 1 (R194). -/
def Stage.commitSettings (s : Stage) : Stage :=
  match s.graph.commit with
  | some k =>
    if !k.settings && decide (k.s ≤ s.datum.index + 1) then
      (s.withGraph fun g => { g with commit := some { k with settings := true } }).writePairs k.img.addr k.s
    else s
  | none => s

/-- A commit of the staged image `g` begins, with boundary `c` (R196). -/
def Stage.commitBegin (s : Stage) (cmd : Option Cmd) (g : Staged) (c : Nat) : Stage :=
  let dark := s.mode == mDark || s.mode == mFixedPatch
  let dips := s.dipsOf g
  let n := if dark || dips.isEmpty then 0 else samplesOf (s.fld pGraph 0x088 8 0) s.fs
  let f := if dark then 0 else dips.foldl (fun m k => max m (s.imageLat g.addr k / 65536)) 0
  let k : Commit := { cmd := cmd, c := c, n := n, s := c + n, r := c + n + g.gap, u := c + n + g.gap + f, done := c + n + g.gap + f + n,
                      img := g, dips := dips, replaced := replacedOf (s.sects g.addr), dark := dark }
  ((s.setRunning pGraph cmd).withGraph fun x => { x with commit := some k }).commitSettings

/-- The boundary of a commit tagged `t`, 0 untagged: none when the tag lies too far ahead (R191). -/
def Stage.commitTag (s : Stage) (t : Nat) : Option Nat × Stage :=
  if t = 0 then (some s.dueNow, s)
  else if s.datum.index + 65535 < t then (none, s)
  else if t < s.dueNow then (some s.dueNow, (s.bump 0 0x0B0).raise 0 4)
  else (some t, s)

/-- GRAPH_COMMIT runs (R191, R202, R203). -/
def Stage.commitGraph (s : Stage) (c : Cmd) : Stage :=
  match s.graph.staged with
  | none => s.complete pGraph c stRefused 0#32
  | some g =>
    if !commitMode s.mode || s.graph.commit.isSome || g.handle != c.a0.toNat then s.complete pGraph c stRefused 0#32
    else match s.commitTag (c.a1.toNat + 2 ^ 32 * c.a2.toNat) with
      | (none, s) => s.complete pGraph c stRefused 0#32
      | (some b, s) => (s.forward b (.commit g.id g.crc)).commitBegin (some c) g b

/-- The GRAPH_COMMIT of a cue's action, tagged with `b`: 0, or the reason of its failure (R293, R303). -/
def Stage.commitAction (s : Stage) (id b : Nat) : Nat × Stage :=
  match s.graph.staged with
  | none => (if s.graph.commit.isSome || !commitMode s.mode then rsRefused else rsNoGraph, s)
  | some g =>
    if !commitMode s.mode || s.graph.commit.isSome then (rsRefused, s)
    else if g.id ≠ id then (rsNoGraph, s)
    else match s.commitTag b with
      | (none, s) => (rsRefused, s)
      | (some x, s) =>
        let (q, s) := s.takeSeq pGraph
        let c : Cmd := { seq := q, cls := 2, idx := 0, code := 2, a0 := Word.ofNat g.handle, a1 := Word.ofNat b, a2 := Word.ofNat (b / 2 ^ 32) }
        (0, (s.forward x (.commit g.id g.crc)).commitBegin (some c) g x)

/-- The first forwarded commit that waits begins, when the image it names is staged (R204). -/
def Stage.commitFollow (s : Stage) : Stage :=
  match s.graph.fwd, s.graph.staged, s.graph.commit with
  | (c, id, crc) :: t, some g, none =>
    if g.id = id ∧ g.crc = crc ∧ c ≤ s.datum.index + 1 then
      (s.withGraph fun x => { x with fwd := t }).commitBegin none g c
    else s
  | _, _, _ => s

/-- A COMMIT record arrives (R204, R459). -/
def Stage.commitForwarded (s : Stage) (c id crc : Nat) : Stage :=
  if c ≤ s.datum.index then s.lose
  else (s.withGraph fun g => { g with fwd := g.fwd ++ [(c, id, crc)] }).commitFollow

/-! ### The swap (R165, R192, R199) -/

/-- A replaced processor takes the values of R66 and the staged bank; its memories read zero (R199). -/
def Stage.spReplace (s : Stage) (b k : Nat) : Stage :=
  let s := { s with sps := Tab.put {} s.sps k {} }.setBlk k {}
  let s := ((s.zeroMem (memAddr k 0 0) (4 * memSize 0)).zeroMem (memAddr k 1 0) (4 * memSize 1)).zeroMem (memAddr k 2 0) (4 * memSize 2)
  let s := s.spSwapBank k
  s.putSp k { s.sp k with swapped := some b }

/-- The words that a copied section brings (R193). -/
def Stage.copySect (a : Nat) (s : Stage) (x : Sect) : Stage :=
  if x.typ = tSpMem then (s.memCells a x).foldl (fun s (e : Nat × Word) => s.wr32 e.1 e.2) s
  else
    let p := planeAddr x.key (1 - (s.bat x.key).live)
    let data := s.rdBytes (a + x.off + 32 + 0x10000) 0x10000
    (s.zeroMem p 0x10000).fillBytes p data

/-- A processor that has reached its done point after s is replaced now, with what has been copied for it (R48, R199). -/
def Stage.spLeave (s : Stage) (k : Nat) : Stage :=
  if s.graph.leaving.contains k then
    let s := (s.withGraph fun g => { g with leaving := g.leaving.filter (· != k) }).spReplace s.datum.index k
    match s.graph.commit with
    | some c =>
      if c.copied then
        ((s.sects c.img.addr).filter fun x => x.typ == tSpMem && x.key % 64 == k).foldl (Stage.copySect c.img.addr) s
      else s
    | none => s
  else s

/-- A replaced processor at s: at once, or at its next done point when it still works on a sample (R48, R199). -/
def Stage.spSwapIn (b : Nat) (s : Stage) (k : Nat) : Stage :=
  if (s.blk k).busy && (s.sp k).run != SpRun.halted then s.withGraph fun g => { g with leaving := g.leaving ++ [k] }
  else s.spReplace b k

/-- A replaced batten at s: the staged plane is live, its W_DECL holds, and the shadow is ready from r (R165, R199). -/
def Stage.batReplace (a r : Nat) (s : Stage) (x : Sect) : Stage :=
  let k := x.key
  let s := s.batClear k
  let v := s.bat k
  ((s.putBat k { v with live := 1 - v.live, loading := false, ready := false, readyAt := some r }).setBlk (64 + k) {}).setN
    (pBat k) 0x0A4 (s.imgW a x.off)

/-- A block outside the new map stops (R199). -/
def Stage.blockStop (s : Stage) (b : Nat) : Stage :=
  let s := s.setBlk b {}
  if b < 64 ∧ (s.sp b).run ≠ .halted then s.putSp b { s.sp b with run := .idle } else s

/-- The writes of a live edit: bank swaps, then the words of the commit store and the curves, due at `b` before every other write (R24, R192, R195). -/
def Stage.liveWrites (s : Stage) (a b : Nat) (l : List Sect) : List WWrite :=
  let w (k : WKind) : WWrite := { due := b, cls := 0, kind := k, ord := 0, place := false }
  (l.filterMap fun x => if x.typ = tSpBank ∧ !x.replace then some (w (.reg (pSp x.key * 4096 + 0x080) 0 0x10000#32)) else none)
    ++ (s.graph.store.map fun (e : Nat × Word) => w (.mem (((upTo 4).zip (leBytes 4 e.2.toNat)).map fun (j, v) => (e.1 + j, v))))
    ++ (l.filterMap fun x => if x.typ = tBatCurve then
          some (w (.mem ((upTo 2048).map fun j => (batBase x.key + 0x20800 + j, s.rd8 (a + x.off + j))))) else none)

/-- The source map of the image (R178). -/
def Stage.imageSources (s : Stage) (a : Nat) (x : Sect) : Tab Nat :=
  (upTo 2048).foldl (fun t j => Tab.put 0x3000 t j (s.imgH a (x.off + 2 * j))) []

/-- The swap boundary `b` = s (R199). -/
def Stage.commitSwap (s : Stage) (k : Commit) (b : Nat) : Stage :=
  let a := k.img.addr
  let l := s.sects a
  let full := decide (s.rdN (a + 0x20) 8 = 0)
  let outgoing := (k.replaced.filter (· < 64)).flatMap fun i => (s.liveList i false).map slotOf
  let dests := if s.highRate then 4 else 8
  let buses := (k.replaced.filter (64 ≤ ·)).flatMap fun i => (upTo dests).map (s.busSlot (i - 64))
  let map := (upTo 128).foldl (fun t i => Tab.put 0 t i (s.newMap a l i)) []
  let s := if full then s.exchClear fun x => decide (0x1000 ≤ x ∧ x < 0x3000)
    else s.exchClear fun x => outgoing.contains x || buses.contains x
  let s := s.withGraph fun g => { g with
    map := map, src := match ofType l tSourceMap with
      | some x => s.imageSources a x
      | none => g.src
    idle := (g.idle.filter fun i => !k.replaced.contains i) ++ k.replaced, leaving := [], dipped := k.dips
    stuck := g.stuck.filter fun i => !k.dips.contains i }
  let s := { s with waiting := s.liveWrites a b l ++ s.waiting
                    blocks := s.blocks.filterMap fun (e : Nat × Blk) => if ({ e.2 with proj := none } : Blk) = {} then none else some (e.1, { e.2 with proj := none }) }
  let s := (k.replaced.filter (· < 64)).foldl (Stage.spSwapIn b) s
  let s := (l.filter fun x => x.typ == tBatPlanes).foldl (Stage.batReplace a k.r) s
  let s := ((upTo 128).filter fun i => s.inMap i == false && !k.replaced.contains i).foldl Stage.blockStop s
  let s := match ofType l tBook with
    | some x => ((s.zeroMem bookBase 0x200000).fillBytes bookBase (s.rdBytes (a + x.off) (s.imgW a (x.off + 8)))).bookTake (s.imgW a (x.off + 4))
    | none => s
  (s.withGraph fun g => { g with
    staged := none, stagedBats := [], stagedSps := [], store := []
    hdr := g.hdr.filter fun (e : Nat × Option Word) => l.any fun x => x.typ == tSpBank && x.key == e.1
    commit := some { k with swapped := true, copied := !l.any (copied k.replaced) } }).raise pGraph 2

/-! ### The end of a commit (R200, R201) -/

/-- The commit fails with section `i` to blame (R201). -/
def Stage.commitFail (s : Stage) (k : Commit) (i : Nat) : Stage :=
  let s := s.withGraph fun g => { g with
    commit := none, broken := true, stuck := g.stuck ++ k.dips.filter fun x => !g.stuck.contains x }
  let s := ((s.setRunning pGraph none).raise pGraph 4).sdCause 6
  let s := match k.cmd with
    | some c => s.complete pGraph c stFailed (Word.ofNat (13 * 2 ^ 24 + i))
    | none => s
  (if s.mode = mUnderstudy ∨ s.mode = mCatchUp then s.lose else s).compactOff

/-- The commit completes with DONE (R190, R200, R208). -/
def Stage.commitDone (s : Stage) (k : Commit) : Stage :=
  let a := k.img.addr
  let lat := (upTo 4096).foldl (fun t i => Tab.put 0 t i (s.imageLat a i)) []
  let fb := match ofType (s.sects a) tFeedback with
    | some x => s.feedbackList a x
    | none => []
  let s := s.withGraph fun g => { g with
    commit := none, broken := false, stuck := [], lat := lat, feedback := fb, idle := g.idle.filter fun i => !k.replaced.contains i }
  let s := ((s.setRunning pGraph none).set64 pGraph 0x094 k.img.id).raise pGraph 3
  let s := match k.cmd with
    | some c => s.complete pGraph c stDone (Word.ofNat (k.dips.length * 65536 + k.img.gap % 65536))
    | none => s
  s.compactOff

/-- The copies of the gap are made, or one of their reads fails (R193, R201, R202). -/
def Stage.copiesMade (s : Stage) : Stage :=
  match s.graph.commit with
  | none => s
  | some k =>
    if !k.swapped || k.copied then s
    else
      let a := k.img.addr
      let l := (s.sects a).filter (Sys2Proof.Machine.copied k.replaced)
      match l.find? fun x => !s.imgHeld (a + x.off) x.len with
      | some x => s.commitFail k x.idx
      | none =>
        let s := l.foldl (fun s x => s.eccReads (a + x.off) x.len 0x43) s
        let s := l.foldl (Stage.copySect a) s
        let k := { k with copied := true }
        if k.dark then s.commitDone k else s.withGraph fun g => { g with commit := some k }

/-- The restart boundary r: the replaced blocks may start, or the commit fails (R199, R201). -/
def Stage.commitRestart (s : Stage) (k : Commit) : Stage :=
  if k.copied then s.withGraph fun g => { g with idle := g.idle.filter fun i => !k.replaced.contains i }
  else s.commitFail k (((s.sects k.img.addr).find? (Sys2Proof.Machine.copied k.replaced)).map (·.idx) |>.getD 0xFFFF)

/-- Boundary c (R196, R209). -/
def Stage.commitStart (s : Stage) (k : Commit) : Stage := ((s.set64 pGraph 0x0A8 k.c).withGraph fun g => { g with commit := some { k with started := true } }).raise pGraph 1

/-- One event of the commit at boundary `b`. -/
def Stage.commitAt (s : Stage) (hit : Commit → Bool) (f : Stage → Commit → Stage) : Stage :=
  match s.graph.commit with
  | some k => if hit k then f s k else s
  | none => s

/-- The graph at boundary `b`, within R24 item 1: the follower's commits, then c, s, r and done. -/
def Stage.graphBoundary (s : Stage) (b : Nat) : Stage :=
  let s := s.commitFollow
  let s := match s.graph.fwd with
    | (c, _) :: _ =>
      if c ≤ b then
        let s := s.withGraph fun g => { g with fwd := [] }
        if s.mode = mUnderstudy ∨ s.mode = mCatchUp then s.lose else s
      else s
    | [] => s
  let s := s.graph.leaving.foldl (fun s k => if (s.blk k).busy then s else s.spLeave k) s
  let s := s.commitAt (fun k => decide (k.c ≤ b) && !k.started) fun s k => s.commitStart k
  let s := s.commitAt (fun k => decide (k.s ≤ b) && !k.swapped) fun s k => s.commitSwap k b
  let s := s.commitAt (fun k => k.dark && k.swapped && k.copied) Stage.commitDone
  let s := s.commitAt (fun k => !k.dark && decide (k.r ≤ b)) Stage.commitRestart
  s.commitAt (fun k => !k.dark && decide (k.done ≤ b)) Stage.commitDone

/-! ### Commands and registers (R209 to R213) -/

/-- A command of the GRAPH page starts (R213). -/
def Stage.graphCmd (s : Stage) (c : Cmd) : Stage :=
  match c.code with
  | 1 => s.loadGraph c
  | 2 => s.commitGraph c
  | 3 => s.discardGraph c
  | _ => s.complete pGraph c stRefused 0#32

/-- A commit is in progress, from its acceptance on (R203). -/
def Stage.committing (s : Stage) : Bool := s.graph.commit.isSome || (s.queue pGraph).any fun c => c.code == 2

/-- A CMD write on the GRAPH page: a LOAD_GRAPH or GRAPH_COMMIT written while a commit is in progress is refused at once (R203). -/
def Stage.graphCmdWrite (s : Stage) (m : Master) (code : Nat) : Stage :=
  if !s.restarting && s.committing && (code % 256 == 1 || code % 256 == 2) then
    let (q, s) := s.takeSeq pGraph
    let c : Cmd := { seq := q, cls := m.cls, idx := m.idx, code := code % 256, a0 := s.arg pGraph m 0, a1 := s.arg pGraph m 1, a2 := s.arg pGraph m 2 }
    ((s.complete pGraph c stRefused (if code % 256 = 1 then Word.ofNat (12 * 2 ^ 24 + 0xFFFF) else 0#32)).setArg pGraph m 3
      (Word.ofNat (handleOf pGraph q))).respond .okay
  else s.cmdWrite m pGraph code

/-- PHASE of GRAPH_STAT in the present sample (R210). -/
def Stage.graphPhase (s : Stage) : Nat :=
  match s.graph.commit with
  | none => 0
  | some k =>
    let n := s.datum.index
    if n < k.c then 0 else if n < k.s then 2 else if n < k.r ∨ k.dark then 3 else if n < k.u then 4 else 5

/-- Bit `i` of map `m` (R212). -/
def Stage.mapBit (s : Stage) (m i : Nat) : Bool :=
  match m with
  | 0 => s.srcSilent i
  | 1 => s.slotSilent i
  | 2 => s.slotSilent (0x2000 + i)
  | _ => s.graph.dipped.contains i

/-- The computed registers of the GRAPH page (R209 to R212). -/
def Stage.graphRead (s : Stage) (off : Nat) : Option Nat :=
  let id := (s.graph.staged.map (·.id)).getD 0
  if off = 0x080 then some ((if s.graph.broken then 16 else 0) + (if s.graph.staged.isSome then 8 else 0) + s.graphPhase)
  else if off = 0x09C then some (id % 2 ^ 32)
  else if off = 0x0A0 then some (id / 2 ^ 32)
  else if off = 0x0A4 then some ((s.graph.staged.map (·.handle)).getD 0)
  else if off = 0x0B0 then some s.graph.dipped.length
  else if off = 0x0B4 then some (s.graph.feedback.length % 2048)
  else if off = 0x0B8 then some s.silCount
  else if off = 0x0C0 then some (Tab.get 0 s.graph.lat (s.fld pGraph 0x0BC 11 0))
  else if off = 0x0C8 then
    some ((upTo 32).foldl (fun v j => if s.mapBit (s.fld pGraph 0x0C4 17 16) (32 * s.fld pGraph 0x0C4 6 0 + j) then v + 2 ^ j else v) 0)
  else none

end Sys2Proof.Machine
end

