-- ==== Sys2Proof/Machine/Redundancy.lean ====
section
/-!
DEFINITION. Redundancy: the digests and votes of a sample, the decisions of a boundary, abdication, takeover, the election and the phases of
catch-up (R452 to R485). What a record or a REGION does at the joiner is in Catchup.
-/
namespace Sys2Proof.Machine

def pRed : Nat := 0x2A0

def Stage.withRed (s : Stage) (f : RedSt → RedSt) : Stage := { s with red := f s.red }

/-- The command that REDUNDANCY runs completes, when there is one. -/
def Stage.redDone (s : Stage) (status : Nat) (result : Word) : Stage :=
  match s.runningCmd pRed with
  | some c => (s.setRunning pRed none).complete pRed c status result
  | none => s

/-- The event is raised when the condition did not hold at the last boundary; `k` is its place among the conditions. -/
def Stage.onset (s : Stage) (k : Nat) (now : Bool) (ev : Nat) : Stage :=
  (s.raiseIf (now && !bit s.red.conds k) pRed ev).withRed fun r => { r with conds := setBit r.conds k now }

/-! ### The peers (R453, R455, R464) -/

/-- The filtered ACTIVE line that belongs to link `n` (R453). -/
def Stage.peerActive (s : Stage) (n : Nat) : Bool := s.flag pRed 0x084 (30 - n)

/-- The rank of the peer on link `n`. -/
def Stage.peerRank (s : Stage) (n : Nat) : Nat := (s.rank + 1 + n) % 3

/-- The peer's heartbeat reports a self-diagnosis fault (R506). -/
def Stage.peerFault (s : Stage) (n : Nat) : Bool := s.flag (pLink n) 0x0A0 31

/-- R464. -/
def Stage.eligible (s : Stage) : Bool :=
  s.mode == mPrincipal && s.hbOk 0 && s.ctrlOk 0 && s.peerRole 0 == mUnderstudy && !s.peerFault 0 && !s.red.clash.contains 0

/-- A HELLO arrives on link `n` (R455). -/
def Stage.hello (s : Stage) (n cfg primary rank version graph : Nat) : Stage :=
  if !s.memberLink n then s
  else
    let bad := cfg != s.roleCfg || version != s.version
      || (if s.paired then (primary == 1) == s.isPrimary else rank == s.rank)
    let s := s.withRed fun r => { r with
      clash := (r.clash.filter (· != n)) ++ (if bad then [n] else [])
      hellos := Tab.put none r.hellos n (some (version, graph)) }
    s.raiseIf bad pRed 15

/-! ### The samples of a group (R458, R481, R482) -/

/-- The egress slots as reads of OUT_0 to OUT_4095 return them in the present sample. -/
def Stage.egressReads (s : Stage) : Tab Word :=
  (Tab.keep (fun k => decide (0x2000 ≤ k ∧ k < 0x3000)) s.exch.cur).map fun e => (e.1 - 0x2000, e.2)

/-- The digest of the present sample (R458). -/
def Stage.digest (s : Stage) : Nat :=
  let t := s.egressReads
  crc32c ((upTo 0x1000).flatMap fun k => leBytes 4 (Tab.get 0#32 t k).toNat)

/-- V of R481. -/
def Stage.voteV (s : Stage) : Nat := max (s.rxOffset 0) (s.rxOffset 1)

/-- The value of channel `i` of sample `k` as it arrived on link `n`. -/
def Stage.arrived (s : Stage) (n k i : Nat) : Option Word :=
  if s.linkEn n then ((s.link n).rx.find? fun e => e.k == k && e.g == i / 64).map fun e => e.vals.getD (i % 64) 0#32 else none

/-- What a vote makes of one channel: the value, whether it split, and whether this part is outvoted. -/
structure Vote where
  val : Word
  split : Bool := false
  out : Bool := false
deriving DecidableEq, Repr

/-- R482 and R483 for one channel: `own` and the peers' values with their ranks and whether they report a fault; `tie` the value where every
part that is present reports one. -/
def voteOne (own : Word) (rank : Nat) (fault : Bool) (peers : List (Nat × Bool × Word)) (tie : Word) : Vote :=
  match peers with
  | [] => { val := own }
  | [(r, f, v)] =>
    if v = own then { val := own }
    else
      let sound := (if fault then [] else [(rank, own)]) ++ (if f then [] else [(r, v)])
      { val := match sound with
          | [(_, x)] => x
          | [(ra, x), (rb, y)] => if ra < rb then x else y
          | _ => tie
        split := true }
  | (r, f, v) :: (r2, f2, v2) :: _ =>
    if v = v2 then { val := v, out := v != own }
    else if own = v ∨ own = v2 then { val := own }
    else
      let sound := (if fault then [] else [(rank, own)]) ++ (if f then [] else [(r, v)]) ++ (if f2 then [] else [(r2, v2)])
      let best := sound.foldl (fun (a : Option (Nat × Word)) e => match a with
        | some x => if x.1 ≤ e.1 then some x else some e
        | none => some e) none
      { val := match best with
          | some x => x.2
          | none => tie
        split := true }

/-- The vote over the egress values of sample `k` (R482): the voted values, a split, and whether the part is outvoted. -/
def Stage.voteSample (s : Stage) (k : Nat) : Tab Word × Bool × Bool :=
  let own := ((s.red.eg.find? fun e => e.1 == k).map (·.2.1)).getD []
  let fault := bit s.sysHealth 31
  (upTo s.voteCount).foldl (fun (a : Tab Word × Bool × Bool) i =>
    let peers := (upTo 2).filterMap fun n => (s.arrived n k i).map fun v => (s.peerRank n, s.peerFault n, v)
    let v := voteOne (Tab.get 0#32 own i) s.rank fault peers (Config.voteTie k i)
    (Tab.put 0#32 a.1 i v.val, a.2.1 || v.split, a.2.2 || v.out)) (own, false, false)

/-- Sample `n` as the group sees it, before the output patch closes it (R458, R481 to R483). -/
def Stage.redSample (s : Stage) (n : Nat) : Stage :=
  if s.roleCfg = 0 ∨ s.mode < mPrincipal ∨ mIsolated < s.mode then s.withRed fun r => { r with voted := none, outvoted := 0 }
  else
    let s := s.withRed fun r => { r with
      eg := ((n, s.egressReads, s.patch.hold) :: r.eg).take 160
      digests := ((n, s.digest) :: r.digests).take 160 }
    if s.mode = mTriangulate ∧ s.voteV ≤ n then
      let k := n - s.voteV
      let (vals, split, out) := s.voteSample k
      let hold := ((s.red.eg.find? fun e => e.1 == k).map (·.2.2)).getD []
      let s := if split then (s.bump pRed 0x0BC).raise pRed 2 else s
      s.withRed fun r => { r with voted := some (vals, hold), outvoted := if out then r.outvoted + 1 else 0 }
    else s.withRed fun r => { r with voted := none, outvoted := 0 }

/-- The digests of one sample are compared (R458): none while either is missing. -/
def Stage.digestAgrees (s : Stage) (link channel b : Nat) : Option Bool :=
  if b < s.rxOffset link then none
  else
    let k := b - s.rxOffset link
    match s.arrived link k channel, s.red.digests.find? (fun e => e.1 == k) with
    | some v, some d => some (v.toNat == d.2)
    | _, _ => none

/-- A comparison counts (R458, R462). -/
def Stage.digestTake (s : Stage) (agree : Bool) : Stage :=
  if agree then s.withRed fun r => { r with diverge := 0 }
  else
    let s := ((s.bump pRed 0x0B8).raise pRed 5).withRed fun r => { r with diverge := r.diverge + 1 }
    if s.fld pRed 0x098 31 16 ≤ s.red.diverge then s.lose else s

/-! ### Leaving and taking the drive (R465, R472) -/

/-- This part starts driving at boundary `b` as a takeover (R472, R484, R490). -/
def Stage.takeOver (s : Stage) (b : Nat) : Stage := ((s.setDrive true b).raise pRed 10).bump pRed 0x0B4

/-- PRINCIPAL is entered at boundary `b` by taking over (R472). -/
def Stage.takePrincipal (s : Stage) (b : Nat) : Stage :=
  ((s.enterMode mPrincipal b).takeOver b).withRed fun r => { r with peerT := [], election := 0, enterAt := none, diverge := 0 }

/-- What was under way in the group is given up. -/
def Stage.redClear (s : Stage) : Stage :=
  { s with waiting := s.waiting.filter fun w => !w.fwd, graph := { s.graph with fwd := [] } }.withRed fun r => { r with
    held := [], abdicating := none, peerT := [], election := 0, enterAt := none, catchup := none, source := none, diverge := 0,
    voted := none, outvoted := 0, yieldAt := none }

/-- ISOLATED is entered at boundary `b`. -/
def Stage.isolate (s : Stage) (b : Nat) : Stage := ((s.setDrive false b).enterMode mIsolated b).redClear

/-- The abdication of R465 begins at boundary `f` on the links given. -/
def Stage.abdicate (s : Stage) (f cause : Nat) (links : List Nat) (cmd : Option Cmd) : Stage :=
  (links.foldl (fun s n => s.ctlSendFirst n (.abdicate (f + 2) cause)) s).withRed fun r => { r with abdicating := some (f + 2, cmd) }

/-- This part's own T has come (R465); an outvoted part of a triangulated group goes on to catch up (R483). -/
def Stage.abdicated (s : Stage) (b t : Nat) (cmd : Option Cmd) : Stage :=
  let s := (s.isolate b).raise pRed 9
  let s := match cmd with
    | some _ => s.redDone stDone (Word.ofNat t)
    | none => s
  if s.triangulated then s.withRed fun r => { r with enterAt := some (b + 1, mCatchUp) } else s

/-- HANDOVER starts (R466). -/
def Stage.handover (s : Stage) (c : Cmd) : Stage :=
  if s.eligible ∧ s.red.abdicating = none then
    ((s.sdCause 9).setRunning pRed (some c)).withRed fun r => { r with handover := some c }
  else s.complete pRed c stRefused 0#32

/-- The abdication of a principal at boundary `f` (R465): a cause that has arisen, one that waits for an eligible understudy, or HANDOVER. -/
def Stage.abdicateJudge (s : Stage) (f : Nat) : Stage :=
  if s.red.abdicating.isSome then s
  else
    let cause := s.red.arose != 0 && s.red.arose != 9
    let pend := s.fld pRed 0x094 7 0 != 0
    match s.red.handover with
    | some c =>
      let s := s.withRed fun r => { r with handover := none }
      if s.eligible then s.abdicate f (s.fld pRed 0x084 3 0) [0] (some c)
      else (s.redDone stRefused 0#32).raiseIf cause pRed 7
    | none =>
      if pend && s.eligible then s.abdicate f (s.fld pRed 0x084 3 0) [0] none
      else s.raiseIf cause pRed 7

/-! ### Catch-up at the joiner (R477, R480) -/

/-- The link a part catches up on: link 0 of a pair, else that to the lowest-ranked peer in TRIANGULATE (R477, R483). -/
def Stage.joinLink (s : Stage) : Option Nat :=
  let ok (n : Nat) : Bool := s.ctrlOk n && !s.red.clash.contains n
  if s.paired then (if ok 0 then some 0 else none)
  else if s.triangulated then
    let c := (upTo 2).filter fun n => ok n && s.hbOk n && s.peerRole n == mTriangulate
    match c with
    | [n] => some n
    | [a, b] => if s.peerRank a < s.peerRank b then some a else some b
    | _ => none
  else none

/-- Catch-up starts at boundary `b`: CATCH_UP is entered and REQUEST is sent, after a HELLO that tells what the part runs now (R475, R477). -/
def Stage.catchStart (s : Stage) (b : Nat) : Stage :=
  match s.joinLink with
  | none => (if s.mode = mIsolated then s else s.isolate b).redDone stFailed (Word.ofNat (4 * 2 ^ 24))
  | some n =>
    let s := if s.triangulated then s.isolate b else s.redClear
    let s := (s.enterMode mCatchUp b).withRed fun r => { r with
      catchup := some { link := n, cmd := s.runningCmd pRed }, lost := false, hellos := Tab.put none r.hellos n none }
    (s.ctlSend n s.helloMsg).ctlSend n .request

/-- Catch-up ends without success at boundary `b` (R477): reasons 1 GRAPH, 2 VERSION, 3 QUEUE, 4 LOST, 5 TIMEOUT, 6 BUSY (R489). -/
def Stage.catchFail (s : Stage) (b reason : Nat) : Stage :=
  ((s.isolate b).raise pRed 3).redDone stFailed (Word.ofNat (reason * 2 ^ 24))

/-- The boundary after the present sample. -/
def Stage.nextBoundary (s : Stage) : Nat := s.datum.index + 1

/-- Catch-up ends without success before the boundary: the part is ISOLATED from the next boundary on; a loss keeps its reason. -/
def Stage.catchBreak (s : Stage) (reason : Nat) : Stage :=
  match s.red.catchup with
  | some c => s.withRed fun r => { r with catchup := some { c with phase := 5, got := reason } }
  | none => s

/-- JOIN starts (R489). -/
def Stage.joinCmd (s : Stage) (c : Cmd) : Stage :=
  if s.mode = mIsolated ∧ s.joinLink.isSome ∧ s.red.abdicating = none then
    (s.setRunning pRed (some c)).withRed fun r => { r with election := 0, enterAt := some (s.nextBoundary, mCatchUp) }
  else s.complete pRed c stRefused 0#32

/-- A START with the hold boundary `h` arrives on link `n` (R477): the source's HELLO before it must name this part's graph and version. -/
def Stage.startMsg (s : Stage) (n h : Nat) : Stage :=
  match s.red.catchup with
  | none => s
  | some c =>
    if c.link ≠ n ∨ c.phase ≠ 1 then s
    else match Tab.get none s.red.hellos n with
      | some (v, g) =>
        if v ≠ s.version then s.catchBreak 2
        else if g ≠ s.graphId then s.catchBreak 1
        else s.withRed fun r => { r with catchup := some { c with phase := 2, h := h }, held := [] }
      | none => s.withRed fun r => { r with catchup := some { c with phase := 2, h := h }, held := [] }

/-- A REFUSE arrives (R475, R489). -/
def Stage.refuseMsg (s : Stage) (n reason : Nat) : Stage :=
  match s.red.catchup with
  | some c => if c.link = n ∧ c.phase = 1 then s.catchBreak (if reason = 1 then 1 else if reason = 2 then 2 else 6) else s
  | none => s

/-- COPY_DONE arrives (R477). -/
def Stage.copyDone (s : Stage) (n count : Nat) : Stage :=
  match s.red.catchup with
  | some c => if c.link = n ∧ c.phase = 2 then s.withRed fun r => { r with catchup := some { c with expect := some count } } else s
  | none => s

/-- WARM has elapsed (R477). -/
def Stage.warmEnd (s : Stage) : Stage :=
  match s.red.catchup with
  | some c => if c.phase = 3 then s.withRed fun r => { r with catchup := some { c with phase := 4, agree := 0 }, diverge := 0 } else s
  | none => s

/-- MATCH has lasted 60 s (R477). -/
def Stage.matchTimeout (s : Stage) : Stage :=
  match s.red.catchup with
  | some c => if c.phase = 4 ∧ c.join = none then s.catchBreak 5 else s
  | none => s

/-- The part joins at its boundary j: UNDERSTUDY, or TRIANGULATE in a triangulated group (R477, R480, R485). -/
def Stage.joinNow (s : Stage) (b : Nat) : Stage :=
  let tri := s.triangulated
  let s := if tri then
      let s := { s with waiting := s.waiting.filter fun w => !w.fwd || decide (w.due < b)
                        graph := { s.graph with fwd := s.graph.fwd.filter fun x => decide (x.1 < b) } }
      (s.prompt.trigs.filter fun x => x.src == 7 && decide (b ≤ x.b)).foldl Stage.trigAbort s
    else s
  let s := (s.enterMode (if tri then mTriangulate else mUnderstudy) b).withRed fun r => { r with
    catchup := none, diverge := 0, peerT := [], held := [] }
  (s.raise pRed 4).redDone stDone (Word.ofNat b)

/-- The forwarded records that wait for their boundary (R477, R486). -/
def Stage.holdDepth (s : Stage) : Nat :=
  (s.waiting.filter fun w => w.fwd).length + (s.prompt.trigs.filter fun t => t.src == 7).length + s.graph.fwd.length
    + (s.red.held.filter fun x => decide (x.1 ≤ s.datum.index)).length

/-- The phases of catch-up at boundary `b` (R477, R480). -/
def Stage.catchBoundary (s : Stage) (b : Nat) : Stage :=
  match s.red.catchup with
  | none => s
  | some c =>
    if c.phase = 5 then s.catchFail b c.got
    else if s.red.lost then (s.withRed fun r => { r with lost := false }).catchFail b 4
    else if 16384 < s.holdDepth then s.catchFail b 3
    else if c.phase = 2 ∧ c.wait = [] ∧ c.expect = some c.got then
      let warm := s.fld pRed 0x09C 31 16 * (unitsPerSec / 10)
      s.withRed fun r => { r with held := [], catchup := some { c with phase := 3, warmEnd := boundaryDatum b s.fs + warm } }
    else if c.phase = 4 then
      match c.join with
      | some j => if j ≤ b then s.joinNow b else s
      | none =>
        match s.digestAgrees c.link (if s.triangulated then s.voteCount else s.fwdCount) b with
        | none => s
        | some ok =>
          let s := s.digestTake ok
          let agree := if ok then c.agree + 1 else 0
          let s := s.withRed fun r => { r with catchup := some { c with agree := agree } }
          if s.fld pRed 0x09C 15 0 ≤ agree then
            (s.withRed fun r => { r with catchup := some { c with agree := agree, join := some (b + 2) } }).ctlSend c.link (.joined (b + 2))
          else s
    else s

/-- JOINED arrives at the source (R480, R484). -/
def Stage.joinedMsg (s : Stage) (n j : Nat) : Stage :=
  if s.memberLink n then
    (s.set64 pRed 0x0A4 j).withRed fun r => { r with joined := Tab.put 0 r.joined n j, peerT := Tab.put none r.peerT n none }
  else s

/-- An ABDICATE arrives on link `n` (R467, R484). -/
def Stage.abdicateMsg (s : Stage) (n t : Nat) : Stage :=
  if s.memberLink n then s.withRed fun r => { r with peerT := Tab.put none r.peerT n (some t) } else s

/-! ### The election (R470, R644) -/

/-- The part is in CATCH_UP, or ISOLATED without a control channel, from the next boundary on. -/
def Stage.electJoin (s : Stage) : Stage :=
  s.withRed fun r => { r with election := 0, enterAt := some (s.nextBoundary, if s.ctrlOk 0 then mCatchUp else mIsolated) }

/-- A listening period ends (R470, R644). -/
def Stage.electionTimeout (s : Stage) : Stage :=
  let go (m : Nat) : Stage := s.withRed fun r => { r with election := 0, enterAt := some (s.nextBoundary, m) }
  if s.red.election = 0 then s
  else if s.triangulated then
    let found := (upTo 2).any fun n => s.hbOk n && s.peerRole n == mTriangulate
    go (if found then mCatchUp else mTriangulate)
  else if (s.hbOk 0 && s.peerRole 0 == mPrincipal) || s.peerActive 0 then s.electJoin
  else if s.isPrimary ∨ s.red.election = 2 then go mPrincipal
  else s.withRed fun r => { r with election := 2 }

/-- A mode that the election or JOIN gave is entered at its boundary. -/
def Stage.enterDue (s : Stage) (b : Nat) : Stage :=
  match s.red.enterAt with
  | none => s
  | some (at', m) =>
    if b < at' then s
    else
      let s := s.withRed fun r => { r with enterAt := none, lost := false }
      if m = mPrincipal then ((s.enterMode m b).setDrive true b).raise pRed 10
      else if m = mCatchUp then s.catchStart b
      else s.enterMode m b

/-! ### The decisions of a boundary (R467 to R471, R484) -/

/-- UNDERSTUDY (R467). -/
def Stage.decideUnderstudy (s : Stage) (b : Nat) : Stage :=
  let act := s.peerActive 0
  match Tab.get none s.red.peerT 0 with
  | some t => if t ≤ b then s.takePrincipal b else s
  | none =>
    if s.hbOk 0 then
      let wire := if s.peerRole 0 = mPrincipal then !act else act
      let s := (s.onset 0 wire 13).setFlag pRed 0x084 26 wire
      if s.peerRole 0 = mPrincipal then s else s.takePrincipal b
    else
      let s := (s.onset 0 false 13).setFlag pRed 0x084 26 false
      if act then (s.isolate b).raise pRed 12 else s.takePrincipal b

/-- PRINCIPAL (R468, R469). A heartbeat from before the part became principal says nothing of a dual drive. -/
def Stage.decidePrincipal (s : Stage) (b : Nat) : Stage :=
  let act := s.peerActive 0
  let hb := s.hbOk 0
  let fresh := decide (s.reg64 0 0x0E4 ≤ s.reg64 (pLink 0) 0x0A4)
  let dual := if hb then s.peerRole 0 == mPrincipal && fresh else act
  let wire := hb && !dual && act
  let s := (s.onset 0 wire 13).setFlag pRed 0x084 26 wire
  let s := s.onset 1 (!hb && !act) 11
  let s := s.onset 3 dual 14
  let s := if dual && !s.isPrimary && s.red.yieldAt.isNone then s.withRed fun r => { r with yieldAt := some (b + 1) } else s
  s.abdicateJudge b

/-- ISOLATED (R471, R483). -/
def Stage.decideIsolated (s : Stage) (b : Nat) : Stage :=
  let auto := s.flag pRed 0x080 8 && s.fld pRed 0x094 7 0 == 0
  if s.triangulated then (if auto && s.joinLink.isSome then s.catchStart b else s)
  else if s.flag pRed 0x080 9 && !s.hbOk 0 && !s.peerActive 0 then s.takePrincipal b
  else if s.hbOk 0 && s.peerRole 0 == mPrincipal && auto && s.joinLink.isSome then s.catchStart b
  else if s.hbOk 0 && s.peerRole 0 == mIsolated && !s.peerActive 0 && s.red.election == 0 && s.red.enterAt.isNone then s.elect
  else s

/-- A peer of a triangulated group is gone at boundary `b` (R484). After its JOINED, a heartbeat from before its j says nothing. -/
def Stage.gone (s : Stage) (n b : Nat) : Bool :=
  let j := Tab.get 0 s.red.joined n
  let stale := decide (j ≠ 0 ∧ j ≤ b ∧ s.reg64 (pLink n) 0x0A4 < j)
  (match Tab.get none s.red.peerT n with
   | some t => decide (t ≤ b)
   | none => false)
  || (s.hbOk n && s.peerRole n != mTriangulate && !stale)
  || (!s.hbOk n && !s.peerActive n)

/-- TRIANGULATE (R483, R484). -/
def Stage.decideTriangulate (s : Stage) (b : Nat) : Stage :=
  let s := (upTo 2).foldl (fun s n =>
    s.onset (2 + 2 * n) (!s.hbOk n && s.peerActive n && decide (s.peerRank n < s.rank)) 12) s
  if !s.hbOk 0 && !s.hbOk 1 then s.isolate b
  else if s.fld pRed 0x0A0 15 0 ≤ s.red.outvoted ∧ s.red.abdicating = none then
    let s := (s.bump pRed 0x0C0).raise pRed 1
    if s.flag pRed 0x084 28 then (s.abdicate b (s.fld pRed 0x084 3 0) [0, 1] none).withRed fun r => { r with outvoted := 0 }
    else (s.isolate b).withRed fun r => { r with enterAt := some (b + 1, mCatchUp) }
  else
    let want := (upTo 2).all fun n => decide (s.rank < s.peerRank n) || s.gone n b
    if want = s.flag pRed 0x084 28 then s
    else if want then s.takeOver b else s.setDrive false b

/-- A digest of the principal meets this part's (R458). -/
def Stage.understudyDigest (s : Stage) (b : Nat) : Stage :=
  match s.digestAgrees 0 s.fwdCount b with
  | some ok => s.digestTake ok
  | none => s

/-- The ACTIVE lines are sampled at a boundary (R456): `active` bit 0 is ACTIVE_IN_A, bit 1 ACTIVE_IN_B. -/
def Stage.activeSample (s : Stage) (active : Nat) : Stage :=
  let s1 := (upTo 2).foldl (fun s n => if bit active n == bit s.red.lines n then s.setFlag pRed 0x084 (30 - n) (bit active n) else s) s
  s1.withRed fun r => { r with lines := active % 4 }

/-- A loss of step outside catch-up (R462). -/
def Stage.lossJudge (s : Stage) (b : Nat) : Stage :=
  if !s.red.lost || s.red.catchup.isSome then s
  else
    let s := s.withRed fun r => { r with lost := false }
    if s.mode = mUnderstudy then (s.isolate b).raise pRed 6 else s

/-- The redundancy controller at boundary `b`. -/
def Stage.redBoundary (s : Stage) (b active : Nat) : Stage :=
  let was := s.mode
  let s := (s.raiseIf (s.red.strapped && s.strapBad) pRed 15).withRed fun r => { r with strapped := false }
  let s := s.activeSample active
  let s := if s.mode = mUnderstudy ∧ s.red.arose ≠ 0 then s.lose else s
  let s := if s.mode = mUnderstudy then s.understudyDigest b else s
  let s := (s.lossJudge b).enterDue b
  let s := s.catchBoundary b
  let s := match s.red.abdicating with
    | some (t, cmd) => if t ≤ b then s.abdicated b t cmd else s
    | none => s
  let s := match s.red.yieldAt with
    | some y => if y ≤ b then s.isolate b else s
    | none => s
  let leaving := match s.modeReq with
    | some r => r.leave.isSome
    | none => false
  let s :=
    if leaving then s
    else if s.mode = mUnderstudy then s.decideUnderstudy b
    else if s.mode = mPrincipal then s.decidePrincipal b
    else if s.mode = mIsolated then (if was = mIsolated then s.decideIsolated b else s)
    else if s.mode = mTriangulate then s.decideTriangulate b
    else (s.setFlag pRed 0x084 26 false).withRed fun r => { r with conds := 0 }
  let s := match s.red.source with
    | some c =>
      let j := Tab.get 0 s.red.joined c.link
      if !s.ctrlOk c.link || (j != 0 && decide (j ≤ b)) then s.withRed fun r => { r with source := none } else s
    | none => s
  s.withRed fun r => { r with arose := 0 }

/-- What the changes of boundary `b` itself brought: a loss of step, and a cause that arises at this boundary (R462, R465). -/
def Stage.redAfter (s : Stage) (b : Nat) : Stage :=
  let leaving := match s.modeReq with
    | some r => r.leave.isSome
    | none => false
  if s.mode = mUnderstudy then s.lossJudge b
  else if s.mode = mPrincipal ∧ s.red.arose ≠ 0 ∧ leaving = false then (s.abdicateJudge b).withRed fun r => { r with arose := 0 }
  else s

/-- REDUNDANCY's computed registers (R486, R488): RED_STAT.ELIGIBLE, HOLD_DEPTH and CATCH_STAT. -/
def Stage.redRead (s : Stage) (off : Nat) : Option Nat :=
  match off with
  | 0x084 => some (setBit (s.regN pRed 0x084) 27 s.eligible)
  | 0x0C4 => some (min 16384 s.holdDepth)
  | 0x0C8 => some (match s.red.catchup with
    | some c => (if c.phase < 5 then c.phase * 2 ^ 29 + min 0xFFFF c.got else 0)
    | none => 0)
  | _ => none

/-- A command of the REDUNDANCY page starts (R489). -/
def Stage.redCmd (s : Stage) (c : Cmd) : Stage :=
  if c.code = 1 then s.handover c else if c.code = 2 then s.joinCmd c else s.complete pRed c stRefused 0#32

end Sys2Proof.Machine
end

