-- ==== Sys2Proof/Machine/RegRead.lean ====
section
/-!
DEFINITION. Reads of registers: the values of the common registers (R556 to R558), of the computed registers of each page, and what a read changes.
-/
namespace Sys2Proof.Machine

/-- The wide state of a page's STAT (R103, R172); the other pages name none. -/
def Stage.statWord (s : Stage) (k : PageKind) (i : Nat) : Nat :=
  match k with
  | .sp => s.spStat i
  | .bat => s.batStat i
  | _ => 0

/-- HEALTH of a page (R504, R506). -/
def Stage.healthWord (s : Stage) (p : Nat) : Nat := if p = 0 then s.sysHealth else s.health p

/-- The pending vectors that are not deliverable, as the PBA shows them (R576, R595). -/
def Stage.pba (s : Stage) : Nat :=
  (upTo 32).foldl (fun m v => if bit s.vecPending v && !s.deliverable v then m + 2 ^ v else m) 0

/-- The computed registers of SYS (R25, R591). -/
def Stage.sysRead (s : Stage) (off : Nat) : Option Nat :=
  match off with
  | 0x080 => some (s.datum.index % 2 ^ 32)
  | 0x08C => some s.applyDelay
  | 0x0B8 => some s.places
  | 0x0C8 => some (s.ringCount + s.recStore.length * 65536)
  | _ => none

/-- A half of the last counted error as the latch holds it now, and the window that WIN_SEL selects (R552). -/
def Stage.gridRead (s : Stage) (off : Nat) : Option Nat :=
  let w := s.win s.winSel
  match off with
  | 0x08C => some (w.base % 2 ^ 32)
  | 0x090 => some (w.base / 2 ^ 32 % 16)
  | 0x094 => some (w.target % 2 ^ 32)
  | 0x098 => some (w.target / 2 ^ 32 % 16)
  | 0x09C => some ((if w.r then 2 ^ 31 else 0) + (if w.w then 2 ^ 30 else 0) + w.size)
  | 0x0B4 => some s.grid.lastErr.1
  | _ => none

/-- The computed registers of HOST (R595). -/
def Stage.hostRead (s : Stage) (off : Nat) : Option Nat :=
  let h := s.host
  match off with
  | 0x084 => some ((if h.linkUp then 2 ^ 31 else 0) + (if h.bme then 2 ^ 30 else 0) + (if h.msixEn then 2 ^ 29 else 0)
      + h.speed % 4 * 16 + h.width % 16)
  | 0x094 => some (s.route (s.fld 0x300 0x090 11 0))
  | 0x0A0 => some s.vecPending
  | 0x1F8 => some s.pba
  | _ => none

/-- TAB_STAT with the state of the timed trigger and of the copy (R323). -/
def Stage.tabStat (s : Stage) : Nat :=
  s.regN pTab 0x084 + (if s.tab.timed.isSome then 8 else 0) + (if s.tab.ext.isSome then 2 else 0)

/-- The computed registers of a page: none where the register holds its own value. -/
def Stage.readUnit (s : Stage) (m : Master) (k : PageKind) (i off : Nat) : Option Nat :=
  match k with
  | .sys => s.sysRead off
  | .grid => s.gridRead off
  | .sp => if off = 0x0A0 then some ((s.sp i).sreg rSPSTAT % 64) else none
  | .bat => s.batRead i off m
  | .port => s.portRead i off
  | .decim => s.decRead off
  | .bridge => s.brRead i off
  | .net => if 0x300 ≤ off ∧ off < 0x380 then s.tpRead (pNet i) off else s.netRead i off
  | .link => if 0x300 ≤ off then s.tpRead (pLink i) off else s.linkRead i off
  | .datum => s.datumRead off
  | .prompt => s.promptRead off
  | .tableau => if off = 0x084 then some s.tabStat else none
  | .redundancy => s.redRead off
  | .bench => s.benchRead off
  | .power => s.powerRead off
  | .patch => s.patchRead off
  | .graph => s.graphRead off
  | .host => s.hostRead off
  | .pool | .lanes | .level | .rehearsal => none

/-- The value that a read by master `m` of register `off` of page `p` returns (R556 to R558, R566); what no chapter names reads zero. -/
def Stage.readReg (s : Stage) (m : Master) (p off : Nat) : Nat :=
  match pageOf p with
  | none => 0
  | some (k, i) =>
    if off = 0x000 then k.typeCode * 2 ^ 24 + i * 2 ^ 16 + 1
    else if off = 0x004 then (if k = .sys then s.version else 0x01000000)
    else if off = 0x008 then (if k = .sys ∧ Config.partE then 1 else 0)
    else if off = 0x010 then s.statWord k i
    else if off = 0x01C then s.regN p 0x014
    else if off = 0x024 ∨ off = 0x028 ∨ off = 0x02C then (s.arg p m ((off - 0x024) / 4)).toNat
    else if off = 0x030 then (s.arg p m 3).toNat
    else if off = 0x034 then s.healthWord p
    else if off = 0x038 then Tab.get 0 s.tab.ids p
    else if 0x040 ≤ off ∧ off < 0x080 then (((Tab.get [] s.tab.snaps p)[(off - 0x040) / 4]?).getD 0#32).toNat
    else if 0xF00 ≤ off then (if holdsCal k then s.regN p off else 0)
    else match s.readUnit m k i off with
      | some v => v % 2 ^ 32
      | none => if (regDef k i off).isSome then s.regN p off else 0

/-- What a read changes: the latches of R25, R256, R343, R529, R552 and R607. -/
def Stage.readEffect (s : Stage) (k : PageKind) (i off : Nat) : Stage :=
  match k, off with
  | .sys, 0x080 => s.setN 0 0x084 (s.datum.index / 2 ^ 32)
  | .datum, 0x088 => s.latchNow
  | .port, 0x0A8 => s.blkLatch i
  | .pool, 0x0A0 => { s with pool := { s.pool with latched := false } }
  | .grid, 0x0B4 => (s.setN 1 0x0B4 s.grid.lastErr.1).setN 1 0x0B8 s.grid.lastErr.2
  | .bench, 0x0C0 => s.recLatch
  | _, _ => s

/-- A 32-bit read by master `m` of register `off` of page `p`: FAULT on an unlisted page or in a domain that is off (R638). -/
def Stage.regRead (s : Stage) (m : Master) (p off : Nat) : Stage :=
  match pageOf p with
  | none => s.respond .fault
  | some (k, i) =>
    if !s.powered p then s.respond .fault
    else
      let s := s.readEffect k i off
      s.answer (Word.ofNat (s.readReg m p off))

end Sys2Proof.Machine
end

