-- ==== Sys2Proof/Machine/Tableau.lean ====
section
/-!
DEFINITION. The tableau: captures, the snapshots of every page, the extended copy and the TRIGGER command (R308 to R317, R322 to R324).
-/
namespace Sys2Proof.Machine

def tabMem : Nat := 0x400200000

/-! ### Snapshots (R312 and the chapters) -/

/-- Registers of page `p` as a read returns them. -/
def Stage.snapRegs (s : Stage) (p : Nat) (offs : List Nat) : List Nat := offs.map (s.readReg mgmt p)

/-- SNAP_5 onwards of a page; `d` is the draw of the capture. -/
def Stage.snapUnit (s : Stage) (d p : Nat) (k : PageKind) (i : Nat) : List Nat :=
  match k with
  | .sp =>
    let sp := s.sp i
    s.snapRegs p [0x408] ++ [sp.e, sp.sreg rSPSTAT, sp.lc 1 * 65536 + sp.lc 0, sp.rrb * 16 + sp.sreg rFLAGS, sp.sreg rISTAT]
      ++ s.snapRegs p [0x0A8]
  | .bat =>
    s.snapRegs p [0x088, 0x098] ++ [if (s.blk (64 + i)).busy then Config.laneWords d i else s.regN p 0x0A8] ++ s.snapRegs p [0x0B8, 0x080]
  | .level =>
    s.snapRegs p [0x090, 0x094] ++ [match s.level.loop with | .hold => 0 | .level => 1 | .emergency => 2 | .settle => 3 | .fault => 4]
  | .datum =>
    s.snapRegs p [0x0A4, 0x0A8, 0x084] ++ [s.datum.raw % 2 ^ 32, s.datum.raw / 2 ^ 32 % 2 ^ 32, s.datum.raw / 2 ^ 64 % 2 ^ 32]
  | .graph => s.snapRegs p [0x080, 0x094, 0x098]
  | .prompt => s.snapRegs p [0x084, 0x08C, 0x090]
  | .port => s.snapRegs p [0x09C] ++ [(s.port i).rxCount] ++ s.snapRegs p [0x084, 0x088]
  | .decim => s.snapRegs p [0x0C0, 0x0C4]
  | .lanes => (upTo 4).map fun g => (upTo 4).foldl (fun w j => w + s.laneStat (4 * g + j) 31 24 * 256 ^ j) 0
  | .link => s.snapRegs p [0x084, 0x0B0, 0x0B4, 0x0D0]
  | .redundancy => s.snapRegs p [0x084, 0x094, 0x0C8, 0x0C4]
  | .rehearsal => [s.sysHealth] ++ s.snapRegs p [0x0D0, 0x0D4, 0x0D8]
  | .pool => s.snapRegs p [0x094, 0x098, 0x08C, 0x084]
  | .grid => s.snapRegs p [0x0A4, 0x0A8, 0x0AC, 0x0B0]
  | .bench => s.snapRegs p [0x0C0, 0x080, 0x10C]
  | .power => s.snapRegs p [0x080, 0x090, 0x094]
  | .sys | .bridge | .net | .tableau | .patch | .host => []

/-- The snapshot of page `p` in sample `n` (R312). -/
def Stage.snapOf (s : Stage) (d n p : Nat) : List Word :=
  match pageOf p with
  | none => []
  | some (k, i) =>
    (s.snapRegs p [0x010, 0x014, 0x034] ++ [n % 2 ^ 32, n / 2 ^ 32 % 2 ^ 32] ++ s.snapUnit d p k i).map Word.ofNat

/-! ### The extended copy (R313, R314) -/

/-- The three words of a 72-bit value, as ARD lays its parts out (R121). -/
def accWords (a : Int) : List Word := [accPart a 0, accPart a 1, accPart a 2]

/-- The words of SP `k`. -/
def Stage.extSp (s : Stage) (k : Nat) : List Word :=
  let sp := s.sp k
  (upTo 32).map (Tab.get 0#32 sp.d) ++ (upTo 8).flatMap (fun i => accWords (sp.acc i))
    ++ ([0x00, 0x10, 0x20, 0x30].flatMap fun c => (upTo 12).map fun i => sp.movr (c + i))
    ++ [0x40, 0x41, 0x42, 0x43, 0x44, 0x49, 0x45, 0x46, 0x48, 0x47].map sp.movr
    ++ (upTo 4).map fun i => Word.ofNat (sp.rstack.getD i 0)

/-- The words of BAT `k`; the accumulators are free values. -/
def Stage.extBat (s : Stage) (d k : Nat) : List Word :=
  (upTo 9).flatMap (fun i => accWords (Config.laneAcc d k i))
    ++ (s.snapRegs (pBat k) [0x088, 0x08C, 0x098]).map Word.ofNat

/-- A list of words laid from word `w` on. -/
def layWords (t : Tab Word) (w : Nat) (l : List Word) : Tab Word :=
  ((upTo l.length).zip l).foldl (fun t (e : Nat × Word) => Tab.put 0#32 t (w + e.1) e.2) t

/-- The tableau memory that a capture fills, by word. -/
def Stage.extWords (s : Stage) (d : Nat) : Tab Word :=
  let t := ((upTo 64).filter fun k => s.powered (pSp k)).foldl (fun t k => layWords t (k * 0x100) (s.extSp k)) []
  let t := ((upTo 64).filter fun k => s.powered (pBat k)).foldl (fun t k => layWords t (0x4000 + k * 0x80) (s.extBat d k)) t
  (s.exch.cur.filter fun (e : Nat × Word) => decide (e.1 < 0x3000)).foldl (fun t e => Tab.put 0#32 t (0x8000 + e.1) e.2) t

/-- The extended copy completes (R314). -/
def Stage.extDone (s : Stage) : Stage :=
  match s.tab.ext with
  | none => s
  | some (id, t) =>
    let s := { s with tab := { s.tab with ext := none }, ecc := Tab.keep (fun w => !decide (tabMem / 32 ≤ w ∧ w < (tabMem + 0x40000) / 32)) s.ecc }
    let s := t.foldl (fun s (e : Nat × Word) => s.wr32 (tabMem + 4 * e.1) e.2) (s.zeroMem tabMem 0x40000)
    (s.setN pTab 0x0AC id).raise pTab 1

/-! ### Captures (R308 to R311, R315) -/

/-- What becomes of a tableau trigger: merged, dropped under KEEP, or captured. -/
inductive TabOut where
  | merged | kept | captured
deriving DecidableEq, Repr

def Stage.tabOut (s : Stage) : TabOut :=
  let near := match s.tab.last with
    | some l => decide (s.datum.raw ≤ l + 1000 * unit)
    | none => false
  if near then .merged
  else if s.flag pTab 0x080 3 && s.flag pTab 0x084 0 then .kept
  else .captured

/-- Every powered block captures, and the tableau is recorded with T (2^-16 ns), its sample `n` and its source (R309, R311). -/
def Stage.tabTake (s : Stage) (t n src : Nat) : Stage :=
  let (d, s) := s.draw
  let id := (Tab.get 0 s.tab.ids pTab + 1) % 2 ^ 32
  let ps := allPages.filter s.powered
  let snaps := ps.foldl (fun x p => Tab.put [] x p (s.snapOf d n p)) s.tab.snaps
  let ids := ps.foldl (fun x p => Tab.put 0 x p id) s.tab.ids
  let copy := s.flag pTab 0x080 4
  let busy := s.tab.ext.isSome
  let ext := if copy && !busy then some (id, s.extWords d) else s.tab.ext
  let s := { s with tab := { s.tab with last := some s.datum.raw, ids := ids, snaps := snaps, ext := ext } }
  let s := ((((s.setN pTab 0x088 (t % 65536)).setN pTab 0x08C (t / 65536 % 1000000000)).set64 pTab 0x090 (t / unitsPerSec)).set64 pTab 0x098 n)
  let s := s.setN pTab 0x084 (src * 16 + (if copy && busy then 4 else 0) + 1)
  let s := if copy && busy then (s.bump pTab 0x0A8).raise pTab 2 else s
  let s := s.raise pTab 0
  if s.flag pTab 0x080 2 then s.emit (.tableauOut (10 * s.fld pTab 0x0B0 7 0)) else s

/-- A tableau trigger with T, sample `n` and source `src` (R310). -/
def Stage.tabTrigger (s : Stage) (t n src : Nat) : TabOut × Stage :=
  match s.tabOut with
  | .merged => (.merged, s.bump pTab 0x0A4)
  | .kept => (.kept, (s.bump pTab 0x0A4).raise pTab 3)
  | .captured => (.captured, s.tabTake t n src)

/-- The trigger of a command, which completes (R316): a merged one with the ID of the capture it merged with. -/
def Stage.tabCommand (s : Stage) (c : Cmd) (t : Nat) : Stage :=
  let (o, s) := s.tabTrigger t s.datum.index 2
  match o with
  | .kept => s.complete pTab c stRefused 0#32
  | _ => s.complete pTab c stDone (Word.ofNat (Tab.get 0 s.tab.ids pTab))

/-- A command of the TABLEAU page starts (R316, R324). -/
def Stage.tabCmd (s : Stage) (c : Cmd) : Stage :=
  if c.code ≠ 1 then s.complete pTab c stRefused 0#32
  else
    let links := (upTo 4).filter fun n => s.flag pTab 0x080 (8 + n)
    let timed := bit c.a0.toNat 0
    if !timed && links.isEmpty then s.tabCommand c s.now
    else if s.tab.timed.isSome || (timed && decide (1000000000 ≤ bits c.a2.toNat 29 0)) then s.complete pTab c stRefused 0#32
    else
      let t := if timed then s.datumArg c.a1.toNat c.a2.toNat else s.now + s.fld pTab 0x0B4 13 0 * 1000 * unit
      if t < s.now then s.complete pTab c stExpired 0#32
      else
        let s := { s with tab := { s.tab with timed := some (t, c) } }
        if timed then s else links.foldl (fun s n => s.ctlSend n (.tableau t)) s

/-- The datum has reached that of the timed trigger, and of messages that wait: each captures (R316, R317). -/
def Stage.tabTimed (s : Stage) : Stage :=
  let now := s.now
  let s := match s.tab.timed with
    | some (t, c) => if t ≤ now then { s with tab := { s.tab with timed := none } }.tabCommand c t else s
    | none => s
  let due := s.tab.msgs.filter (· ≤ now)
  due.foldl (fun s t => (s.tabTrigger t s.datum.index 4).2) { s with tab := { s.tab with msgs := s.tab.msgs.filter fun t => !decide (t ≤ now) } }

/-- A tableau message over Islos (R317). -/
def Stage.tabMessage (s : Stage) (t : Nat) : Stage :=
  if !s.flag pTab 0x080 5 then s
  else if t < s.now then (s.bump pTab 0x0A4).raise pTab 4
  else { s with tab := { s.tab with msgs := s.tab.msgs ++ [t] } }

/-- An edge on TABLEAU_IN at raw `t` (R308). -/
def Stage.tabEdge (s : Stage) (t : Nat) (rising : Bool) : Stage :=
  let s := s.tick t
  if s.flag pTab 0x080 0 && (rising != s.flag pTab 0x080 1) then (s.tabTrigger s.now s.datum.index 1).2 else s

end Sys2Proof.Machine
end

