-- ==== Sys2Proof/Machine/Commands.lean ====
section
/-!
DEFINITION. The commands of every page: what each does when its block starts it, when a block starts its next one, and the commands of the SYS and BAT
pages (R138, R173, R320, R437, R565 to R571, R586 to R593, R649 to R654).
-/
namespace Sys2Proof.Machine

/-! ### Plane loads (R138) -/

/-- LOAD_PLANE starts. -/
def Stage.loadPlane (s : Stage) (k : Nat) (c : Cmd) : Stage :=
  if (s.bat k).fading || s.batStaged k || c.a0.toNat % 32 != 0 then s.complete (pBat k) c stRefused 0#32
  else (s.putBat k { s.bat k with loading := true, ready := false, readyAt := none }).setRunning (pBat k) (some c)

/-- A plane load ends: its source is read and the shadow plane written, up to a read that is refused. It ends only once no bank of the source
stalls it. -/
def Stage.loadPlaneDone (s : Stage) (k : Nat) : Stage :=
  match s.runningCmd (pBat k) with
  | none => s
  | some c =>
    let src := c.a0.toNat + c.a1.toNat % 16 * 2 ^ 32
    let m : Master := { cls := 0, idx := k }
    let stalls := (upTo 2048).any fun i => match s.winMap 0 (src + 32 * i) 32 false with
      | some g => (s.memStalls m g 32).isSome
      | none => false
    if !(s.bat k).loading || stalls then s
    else
      let p := planeAddr k (1 - (s.bat k).live)
      let r := s.engineRead m src 2048 fun i d s => (s.rampsCut k fun x => x / 32 == (p + 32 * i) / 32).fillBytes (p + 32 * i) d
      let s := { r.1 with bus := s.bus }
      let s := (s.putBat k { s.bat k with loading := false }).setRunning (pBat k) none
      if r.2 then
        let s := s.putBat k { s.bat k with readyAt := some s.dueNow }
        (s.forward s.dueNow (.planeReady k)).complete (pBat k) c stDone 0#32
      else s.complete (pBat k) c stFailed 0#32

/-! ### The Prompt's commands (R320) -/

/-- A command of the PROMPT page starts. A reserved bit of an argument is ignored. -/
def Stage.promptCmd (s : Stage) (c : Cmd) : Stage :=
  let done (x : Nat × Nat × Stage) : Stage := x.2.2.complete pPrompt c x.1 (Word.ofNat x.2.1)
  match c.code with
  | 1 => (s.trigger 0 (goCue c.a0.toNat) (.datum s.now) (some c)).2
  | 2 =>
    if 1000000000 ≤ bits c.a2.toNat 29 0 then (s.trigRefuse 1 (goCue c.a0.toNat) (some c) rsRange).2
    else (s.trigger 1 (goCue c.a0.toNat) (.datum (s.datumArg c.a1.toNat c.a2.toNat)) (some c)).2
  | 3 => done (s.cancel c.a0.toNat)
  | 4 => done s.cancelAll
  | _ => s.complete pPrompt c stRefused 0#32

/-! ### Streams (R437) -/

/-- STREAM_ADD reads its descriptor of 16 words as the DMA engine of NET_0. -/
def Stage.streamCmd (s : Stage) (c : Cmd) : Stage :=
  let p := pNet 0
  match c.code with
  | 1 =>
    if c.a0.toNat % 32 ≠ 0 then s.complete p c stRefused 0#32
    else
      let src := c.a0.toNat + c.a1.toNat % 16 * 2 ^ 32
      match s.engineBeat { cls := 4, idx := 0 } src 32 with
      | (s, none) => let (st, r, s) := s.streamAdd none; s.complete p c st r
      | (s, some d0) =>
        match s.engineBeat { cls := 4, idx := 0 } (src + 32) 32 with
        | (s, none) => let (st, r, s) := s.streamAdd none; s.complete p c st r
        | (s, some d1) =>
          let d := d0 ++ d1
          let (st, r, s) := s.streamAdd (some ((upTo 16).map fun i => ofLeBytes ((d.drop (4 * i)).take 4)))
          s.complete p c st r
  | 2 => let (st, s) := s.streamRemove c.a0.toNat; s.complete p c st 0#32
  | _ => s.complete p c stRefused 0#32

/-! ### Calibration and firmware (R586 to R590, R649) -/

/-- The record of calibration in the flash: 0x1000 factory, 0x2000 user. -/
def calRecord (factory : Bool) : Nat := if factory then 0x1000 else 0x2000

/-- A region of the flash is written: with the bytes given, or with free values where the write or its read-back fails. -/
def Stage.flashStore (s : Stage) (a : Nat) (l : List Byte) : Bool × Stage :=
  let (x, s) := s.draw
  if Config.flashOk x then (true, s.flashWrite a l) else (false, s.flashWrite a ((upTo l.length).map (Config.flashByte x)))

/-- A record of 4 KiB with the CRC of its own bytes in the last four (R649). -/
def recordBytes (l : List Byte) : List Byte :=
  let body := (l ++ List.replicate 4092 0#8).take 4092
  body ++ leBytes 4 (crc32c body)

/-- Every area of calibration, in the order of the pages. -/
def Stage.calRecordBytes (s : Stage) (factory : Bool) : List Byte := recordBytes (calPages.flatMap fun p => s.calBytes p factory)

/-- CAL_SAVE_USER, and in SERVICE alone CAL_SAVE_FACTORY (R587). -/
def Stage.calSave (s : Stage) (c : Cmd) (factory : Bool) : Stage :=
  if factory && s.mode != mService then s.complete 0 c stRefused 0#32
  else
    let (ok, s) := s.flashStore (calRecord factory) (s.calRecordBytes factory)
    s.complete 0 c (if ok then stDone else stFailed) (if ok then 0#32 else Word.ofNat (4 * 2 ^ 24))

/-- A calibration record of the flash, when its CRC holds. -/
def Stage.calLoadRecord (s : Stage) (factory : Bool) : Option (List Byte) :=
  let l := (upTo 4096).map fun i => s.flash8 (calRecord factory + i)
  if crc32c (l.take 4092) == ofLeBytes (l.drop 4092) then some l else none

/-- Boot code loads calibration (R585). -/
def Stage.calBoot (s : Stage) : Stage :=
  let user := s.calLoadRecord false
  let s := match s.calLoadRecord true with
    | some l => (calPages.zip (upTo calPages.length)).foldl (fun s e => s.calPut e.1 true ((l.drop (128 * e.2)).take 128)) s
    | none => s
  (calPages.zip (upTo calPages.length)).foldl (fun s e =>
    let a := ((user.getD []).drop (128 * e.2)).take 128
    if user.isSome && calSound a then s.calPut e.1 false a else (s.calPut e.1 false (s.calBytes e.1 true)).raise 0 2) s

/-- RESTORE_FACTORY (R586). -/
def Stage.restoreFactory (s : Stage) (c : Cmd) : Stage :=
  let x := bits c.a0.toNat 11 0
  let l := if x = 0 then calPages else calPages.filter (· == x)
  if l = [] then s.complete 0 c stRefused 0#32
  else (l.foldl (fun s p => s.calPut p false (s.calBytes p true)) s).complete 0 c stDone (Word.ofNat l.length)

/-- The running slot, and the bit of the boot header's byte 4 for VALID of a slot. -/
def Stage.fwSlot (s : Stage) : Nat := s.fld 0 0x0D8 30 30
def validBit (slot : Nat) : Nat := 1 + slot

/-- A change of the boot header's flags, with its CRC. -/
def Stage.bootFlags (s : Stage) (f : Nat → Nat) : Stage :=
  let h := (upTo 4092).map fun i => if i = 4 then BitVec.ofNat 8 (f (s.flash8 4).toNat) else s.flash8 i
  s.flashWrite 0 (recordBytes h)

/-- VALID of the slot that does not run: in FW_STAT and in the boot header. -/
def Stage.otherValid (s : Stage) (v : Bool) : Stage :=
  (s.setFlag 0 0x0D8 28 v).bootFlags fun h => setBit h (validBit (1 - s.fwSlot)) v

/-- FW_LOAD (R588). -/
def Stage.fwLoad (s : Stage) (c : Cmd) : Stage :=
  let len := c.a2.toNat
  let issued := c.a0.toNat + c.a1.toNat % 16 * 2 ^ 32
  let fail (s : Stage) (r : Nat) : Stage := (s.otherValid false).complete 0 c stFailed (Word.ofNat (r * 2 ^ 24))
  if c.a0.toNat % 32 ≠ 0 then s.complete 0 c stRefused 0#32
  else match s.winSpan issued (max 1 len) with
  | .error x => fail (s.gridDenied mgmt 0 x false) 1
  | .ok a =>
    if len ≠ 0 ∧ !s.imgHeld a len then fail s 1
    else if len = 0 ∨ 8388608 < len then fail s 2
    else
      let s := s.eccReads a len 0x43
      if !signatureOk (fun o => s.rd8 (a + o)) len then fail s 3
      else
        let (ok, s) := s.flashStore (slotBase (1 - s.fwSlot)) (s.rdBytes a len)
        if ok then (s.otherValid true).complete 0 c stDone 0#32 else fail s 4

/-- The engine copies the segments of a slot's image that lie in management memory, over the firmware region (R654). -/
def Stage.firmwareCopy (s : Stage) (slot : Nat) : Stage :=
  let rd := fun o => s.flash8 (slotBase slot + o)
  ((segments rd).filter fun g => decide (0x10000000 ≤ g.2.2) && decide (g.2.2 + g.2.1 ≤ 0x100F8000)).foldl (fun s g =>
    s.fillBytes g.2.2 (bytesAt rd g.1 g.2.1)) s

/-- FW_RESTART (R589). -/
def Stage.fwRestart (s : Stage) (c : Cmd) : Stage :=
  if !s.flag 0 0x0D8 28 then s.complete 0 c stRefused 0#32
  else
    let slot := 1 - s.fwSlot
    let s := if bit c.a0.toNat 0 then (s.bootFlags fun h => setBit h 0 (slot == 1)).setFld 0 0x0D8 29 29 slot else s
    let s := (s.setFlag 0 0x0D8 31 true).setFld 0 0x0D8 30 30 slot
    let s := s.setFld 0 0x0D8 7 0 (min 255 (s.fld 0 0x0D8 7 0 + 1))
    ((s.masterReset 0 0).firmwareCopy slot).setRunning 0 (some c)

/-- READY has not been written within 1 s (R590). -/
def Stage.fwTimeout (s : Stage) : Stage :=
  if !s.restarting then s
  else
    let bad := s.fwSlot
    let s := (s.setFld 0 0x0D8 30 30 (1 - bad)).setFlag 0 0x0D8 31 false
    let s := if s.fld 0 0x0D8 29 29 = bad then (s.bootFlags fun h => setBit h 0 (bad == 0)).setFld 0 0x0D8 29 29 (1 - bad) else s
    let s := ((s.otherValid false).firmwareCopy (1 - bad)).raise 0 3
    match s.runningCmd 0 with
    | some c => (s.setRunning 0 none).complete 0 c stFailed (Word.ofNat (5 * 2 ^ 24))
    | none => s

/-- A command of the SYS page starts (R593). -/
def Stage.sysCmd (s : Stage) (c : Cmd) : Stage :=
  match c.code with
  | 1 => s.restoreFactory c
  | 2 => s.fwLoad c
  | 3 => s.fwRestart c
  | 4 => s.calSave c false
  | 5 => s.calSave c true
  | _ => s.complete 0 c stRefused 0#32

/-! ### Starting commands (R566, R568, R571, R589) -/

/-- A SYNC that will be accepted is forwarded with its instant (R459). -/
def Stage.syncForward (s : Stage) (c : Cmd) : Stage :=
  let mask := bits c.a0.toNat 15 0
  if bit c.a0.toNat 31 then
    let t := s.datumOf c.a1.toNat (bits c.a2.toNat 29 0)
    if bits c.a2.toNat 29 0 < 1000000000 ∧ s.now ≤ t ∧ s.timedSyncs < 16 then s.forward 0 (.dsync mask t) else s
  else if s.places < 4096 then s.forward 0 (.dsync mask (boundaryDatum s.dueNow s.fs))
  else s

/-- Command `c` of a page starts; a code that the page's chapter does not accept completes with REFUSED. -/
def Stage.runCmd (s : Stage) (k : PageKind) (i : Nat) (c : Cmd) : Stage :=
  match k with
  | .sys => s.sysCmd c
  | .bat => if c.code = 1 then s.loadPlane i c else s.complete (pBat i) c stRefused 0#32
  | .net => if i = 0 then s.streamCmd c else s.complete (pNet i) c stRefused 0#32
  | .datum => if c.code = 1 then s.stepCmd c else s.complete pDatum c stRefused 0#32
  | .prompt => s.promptCmd c
  | .tableau => s.tabCmd c
  | .decim => if c.code = 1 then (s.syncForward c).syncCmd c else s.complete pDecim c stRefused 0#32
  | .redundancy => s.redCmd c
  | .rehearsal =>
    if c.code = 1 then (let (n, s) := s.clearFail; s.complete pReh c stDone (Word.ofNat n)) else s.complete pReh c stRefused 0#32
  | .bench => s.benchCmd c
  | .power => s.powerCmd c
  | .graph => s.graphCmd c
  | .grid | .pool | .sp | .port | .bridge | .lanes | .link | .level | .patch | .host => s.complete (k.page i) c stRefused 0#32

/-- The page's block runs no command that keeps the next one waiting. Before GRID_LOCK the DMA engine of NET_0 cannot read (R543). -/
def Stage.cmdFree (s : Stage) (p : Nat) : Bool :=
  (s.runningCmd p).isNone && (p != pGraph || s.graph.commit.isNone) && (p != pNet 0 || s.grid.lock)

/-- A block starts the next command in its queue, if it may. What the last Grid access was answered stays. -/
def Stage.startNext (s : Stage) (p : Nat) : Stage :=
  match pageOf p, s.queue p with
  | some (k, i), c :: _ =>
    if s.powered p && s.mayStart p && s.cmdFree p then { (s.popCmd p).runCmd k i c with bus := s.bus } else s
  | _, _ => s

/-- A CMD write of `code` by `m`: the command joins the queue, and starts at once when nothing is before it. -/
def Stage.cmdIssue (s : Stage) (m : Master) (p code : Nat) : Stage :=
  if !s.powered p || (pageOf p).isNone then s.respond .fault
  else
    let first := (s.queue p).isEmpty
    let t := if p = pGraph then s.graphCmdWrite m (code % 256) else s.cmdWrite m p (code % 256)
    if t.bus.resp = .okay ∧ first then t.startNext p else t

/-- A CMD write that brings its arguments along. -/
def Stage.cmdWith (s : Stage) (m : Master) (p code : Nat) (a : List Word) : Stage :=
  let s := ((upTo a.length).zip a).foldl (fun s e => if s.powered p then s.setArg p m e.1 e.2 else s) s
  s.cmdIssue m p code

/-- A 32-bit register write by master `m`, a CMD write among them (R546). -/
def Stage.access (s : Stage) (m : Master) (p off n : Nat) : Stage :=
  if off = 0x020 then s.cmdIssue m p n else s.regWrite m p off n

end Sys2Proof.Machine
end

