-- ==== Sys2Proof/Machine/Grid.lean ====
section
/-!
DEFINITION. Transactions on the Grid: bursts, the Gallery, stalls and their end, timeouts, PCI Express requests and the pool transfers of the strip
processors (R96, R536 to R553, R578 to R583).
-/
namespace Sys2Proof.Machine

/-! ### Bursts and the Gallery (R537, R545) -/

/-- A single beat of up to 32 bytes, or a burst of 2 to 16 whole beats on a 32-byte boundary that crosses no 4 KiB boundary (R537). -/
def burstOk (a len : Nat) : Bool :=
  decide (1 ≤ len) && (decide (len ≤ 32) || (len % 32 == 0 && decide (len ≤ 512) && a % 32 == 0 && a / 4096 == (a + len - 1) / 4096))

/-- The access is a single beat, and its bytes lie in one word of 32 bytes. -/
def oneBeat (a len : Nat) : Bool := decide (1 ≤ len) && decide (len ≤ 32) && a / 32 == (a + len - 1) / 32

/-- The registers that a write of the enabled bytes names, with their values, ascending: none where it is no single beat of whole, aligned words
(R545). -/
def galleryWords (g : Nat) (d : List (Byte × Bool)) : Option (List (Nat × Nat)) :=
  let cells := cellsOf g d
  let words := (cells.map fun e => e.1 / 4 * 4).eraseDups
  if oneBeat g d.length && !words.isEmpty && cells.length == 4 * words.length then
    some (words.map fun w => (w, ofLeBytes ((cells.filter fun e => e.1 / 4 * 4 == w).map (·.2))))
  else none

/-- Register writes of one transaction, each accepted or refused on its own. -/
def Stage.regsWrite (s : Stage) (m : Master) (l : List (Nat × Nat)) : Stage :=
  let r := l.foldl (fun (x : Stage × Resp) e =>
    let t := x.1.access m (e.1 / 4096) (e.1 % 4096) e.2
    (t, x.2.worse t.bus.resp)) (s, .okay)
  r.1.respond r.2

/-- Register reads of one transaction; a failed one returns zero. -/
def Stage.regsRead (s : Stage) (m : Master) (g len : Nat) : Stage :=
  let r := (upTo (len / 4)).foldl (fun (x : Stage × Resp × List Byte) j =>
    let a := g + 4 * j
    let t := x.1.regRead m (a / 4096) (a % 4096)
    (t, x.2.1.worse t.bus.resp, x.2.2 ++ (if t.bus.resp = .okay then t.bus.data else List.replicate 4 0#8))) (s, .okay, [])
  { r.1 with bus := { resp := r.2.1, data := r.2.2 } }

/-! ### A transaction at its target -/

/-- A write that has its Grid address `g`; `a` is its issued address. The words of one transaction share a place (R23). -/
def Stage.targetWrite (s : Stage) (m : Master) (id a g : Nat) (d : List (Byte × Bool)) (clash : List Nat) (ext : Bool) : Stage :=
  match regionOf g d.length with
  | .none => s.gridFault m id a true
  | .regs =>
    (match galleryWords g d with
     | none => s.gridFault m id a true
     | some l =>
       let t := { ({ s with txn := some s.order }).regsWrite m l with txn := none }
       if t.bus.resp = .fault then t.gridFault m id a true else t)
  | _ => { ({ s with txn := some s.order }).memWrite m g d clash ext with txn := none }

/-- A read that has its Grid address. -/
def Stage.targetRead (s : Stage) (m : Master) (id a g len : Nat) (ext : Option (List Byte)) : Stage :=
  let zero (s : Stage) : Stage := { s with bus := { s.bus with data := List.replicate len 0#8 } }
  match regionOf g len with
  | .none => zero (s.gridFault m id a false)
  | .regs =>
    if !oneBeat g len || g % 4 != 0 || len % 4 != 0 then zero (s.gridFault m id a false)
    else
      let t := s.regsRead m g len
      if t.bus.resp = .fault then { t.gridFault m id a false with bus := t.bus } else t
  | _ =>
    let (t, r, l) := s.memRead m g len ext
    { t with bus := { resp := r, data := l } }

/-- A write that nothing holds back: the burst rules, the window and the target. -/
def Stage.gridWriteCore (s : Stage) (m : Master) (id a : Nat) (d : List (Byte × Bool)) (clash : List Nat) (ext : Bool) : Stage :=
  if !burstOk a d.length then s.gridFault m id a true
  else match s.winMap m.cls a d.length true with
    | none => s.gridDenied m id a true
    | some g => s.targetWrite m id a g d clash ext

/-- A read that nothing holds back. -/
def Stage.gridReadCore (s : Stage) (m : Master) (id a len : Nat) (ext : Option (List Byte)) : Stage :=
  let zero (s : Stage) : Stage := { s with bus := { s.bus with data := List.replicate len 0#8 } }
  if !burstOk a len then zero (s.gridFault m id a false)
  else match s.winMap m.cls a len false with
    | none => zero (s.gridDenied m id a false)
    | some g => s.targetRead m id a g len ext

/-! ### Stalls (R495, R520, R538, R543) -/

/-- The transactions of a master that wait. -/
def Stage.waitsOf (s : Stage) (m : Master) : List Stalled := s.grid.stalled.filter fun x => x.master == m

/-- A request waits at its master: before GRID_LOCK, behind one of its own of the same ID, or with 32 outstanding. -/
def Stage.masterHolds (s : Stage) (m : Master) (id : Nat) : Bool :=
  (!s.grid.lock && m.cls != 0) || ((s.waitsOf m).any fun x => x.id == id) || decide (32 ≤ (s.waitsOf m).length)

/-- The Grid address of a request that waits at a pool bank. -/
def Stage.bankHolds (s : Stage) (m : Master) (a len : Nat) (write : Bool) : Option Nat :=
  if !burstOk a len then none
  else match s.winMap m.cls a len write with
    | some g => if (s.memStalls m g len).isSome then some g else none
    | none => none

/-- A transaction is taken up, or waits; `x` holds all but where it waits. What waits has no response yet. -/
def Stage.gridTake (s : Stage) (x : Stalled) (core : Stage → Stage) : Stage :=
  if s.masterHolds x.master x.id then { s with grid := { s.grid with stalled := s.grid.stalled ++ [x] } }
  else match s.bankHolds x.master x.addr x.len x.wr.isSome with
    | some g => { s with grid := { s.grid with stalled := s.grid.stalled ++ [{ x with addr := g, mapped := true }] } }
    | none => core s

/-- A Grid write (R536 to R547). -/
def Stage.txWrite (s : Stage) (m : Master) (id a : Nat) (d : List (Byte × Bool)) (clash : List Nat) (ext : Bool) : Stage :=
  s.gridTake { master := m, id := id, addr := a, wr := some d, len := d.length, at' := s.datum.raw } fun s => s.gridWriteCore m id a d clash ext

/-- A Grid read. -/
def Stage.txRead (s : Stage) (m : Master) (id a len : Nat) (ext : Option (List Byte)) : Stage :=
  s.gridTake { master := m, id := id, addr := a, wr := none, len := len, at' := s.datum.raw } fun s => s.gridReadCore m id a len ext

/-! ### PCI Express requests (R549, R578 to R583) -/

def pHost : Nat := 0x300

/-- The end of a PCI Express request as the endpoint answers it (R581): `a` its Grid address. -/
def Stage.pcieEnd (s : Stage) (write : Bool) (a : Nat) : Stage :=
  let good := s.bus.resp = .okay ∨ s.bus.resp = .collided
  if write then
    if s.bus.resp = .okay then s else ((s.bump pHost 0x098).setN pHost 0x09C (a % 2 ^ 32 / 32 * 32)).raise pHost 2
  else s.emit (if good then .pcieCpl 0 s.bus.data else .pcieCpl 4 [])

/-- The HOST window that decides a request at `a`: by BASE for BAR2, by TARGET for BAR0 (R580). -/
def Stage.barMap (s : Stage) (bar0 : Bool) (a len : Nat) (write : Bool) : Option Nat :=
  if bar0 then
    match (s.winsOf 1).find? fun w => w.size != 0 && decide (w.target ≤ a) && decide (a < w.target + 2 ^ w.size) with
    | some w => w.decides a len w.target write
    | none => none
  else s.winMap 1 a len write

def hostMaster : Master := { cls := 1, idx := 0 }

/-- A request to BAR0 or BAR2 (R549, R580, R581). BAR2 is absent while MEMBAR_SIZE is 0, and a request outside a BAR or before GRID_LOCK is no
request to this function. -/
def Stage.pcieInbound (s : Stage) (bar0 : Bool) (id a : Nat) (wr : Option (List (Byte × Bool))) (len : Nat) : Stage :=
  let size := if bar0 then 24 else s.fld pHost 0x080 5 0
  let n := match wr with
    | some d => d.length
    | none => len
  let w := wr.isSome
  if !s.host.linkUp || !s.grid.lock || size = 0 || decide (2 ^ size < a + n) then (if w then s else s.emit (.pcieCpl 1 []))
  else
    let hold : Stalled := { master := hostMaster, id := id, addr := a, wr := wr, len := n, at' := s.datum.raw, mapped := true, pcie := true }
    if !burstOk a n then (s.gridFault hostMaster id a w).pcieEnd w a
    else match s.barMap bar0 a n w with
      | none => (s.gridDenied hostMaster id a w).pcieEnd w a
      | some g =>
        if s.masterHolds hostMaster id || (s.memStalls hostMaster g n).isSome then
          { s with grid := { s.grid with stalled := s.grid.stalled ++ [{ hold with addr := g }] } }
        else match wr with
          | some d => (s.targetWrite hostMaster id a g d [] false).pcieEnd true g
          | none => (s.targetRead hostMaster id a g n none).pcieEnd false g

/-- A configuration request (R579): `cfg` what it leaves in Bus Master Enable, MSI-X Enable and Function Mask, when it writes them. -/
def Stage.pcieConfig (s : Stage) (cfg : Option (Bool × Bool × Bool)) : Stage :=
  if !s.host.linkUp then s
  else if !s.grid.lock then s.emit (.pcieCpl 2 [])
  else match cfg with
    | some (bme, en, mask) => ({ s with host := { s.host with bme := bme, msixEn := en, funcMask := mask } }).emit (.pcieCpl 0 [])
    | none => s.emit (.pcieCpl 0 [])

/-- The link reaches L0 (R597). -/
def Stage.pcieUp (s : Stage) (speed width : Nat) : Stage :=
  if s.host.linkUp then s
  else { s with host := { s.host with linkUp := true, speed := speed % 4, width := width % 8 } }.raise pHost 0

/-- The link goes down: the HOST master resets (R583), and what configuration requests had set is gone. -/
def Stage.pcieDown (s : Stage) : Stage :=
  if s.host.linkUp then ({ s with host := {} }.masterReset 1 0).raise pHost 1 else s

/-! ### The end of a wait -/

/-- A transaction that waited has its response. -/
def Stage.lateEnd (s : Stage) (x : Stalled) : Stage :=
  if x.pcie then s.pcieEnd x.wr.isSome x.addr else s.emit (.late x.master x.id s.bus.resp s.bus.data)

/-- A transaction that waits is taken up again, or goes on waiting. -/
def Stage.retryOne (s : Stage) (x : Stalled) : Stage :=
  let again := { s with grid := { s.grid with stalled := s.grid.stalled ++ [x] } }
  if s.masterHolds x.master x.id then again
  else if x.mapped then
    if (s.memStalls x.master x.addr x.len).isSome then again
    else match x.wr with
      | some d => (s.targetWrite x.master x.id x.addr x.addr d [] false).lateEnd x
      | none => (s.targetRead x.master x.id x.addr x.addr x.len none).lateEnd x
  else match s.bankHolds x.master x.addr x.len x.wr.isSome with
    | some g => { s with grid := { s.grid with stalled := s.grid.stalled ++ [{ x with addr := g, mapped := true }] } }
    | none => match x.wr with
      | some d => (s.gridWriteCore x.master x.id x.addr d [] false).lateEnd x
      | none => (s.gridReadCore x.master x.id x.addr x.len none).lateEnd x

/-- The transactions that wait are taken up again in their order, once what held some of them has ended. -/
def Stage.retryStalled (s : Stage) : Stage :=
  let l := s.grid.stalled
  l.foldl Stage.retryOne { s with grid := { s.grid with stalled := [] } }

/-- The oldest waiting transaction of a master and ID has had no response for TIMEOUT (R540). A later response is discarded. -/
def Stage.timeoutOf (s : Stage) (m : Master) (id : Nat) : Stage :=
  match s.grid.stalled.find? fun x => x.master == m && x.id == id with
  | some x =>
    let s := { s with grid := { s.grid with stalled := s.grid.stalled.erase x } }
    ((s.gridTimeout m id x.addr x.wr.isSome).lateEnd x).retryStalled
  | none => s

/-! ### Pool transfers (R96) -/

/-- The bursts of a transfer of `n` bytes from a 32-byte boundary: (offset, length), none beyond 512 bytes or across a 512-byte boundary; a last
part of less than a beat goes on its own. -/
def burstsOf (a n : Nat) : List (Nat × Nat) :=
  (upTo ((a + n + 511) / 512 - a / 512)).flatMap fun i =>
    let lo := max a (512 * (a / 512 + i))
    let hi := min (a + n) (512 * (a / 512 + i + 1))
    let whole := (hi - lo) / 32 * 32
    (if whole = 0 then [] else [(lo - a, whole)]) ++ (if whole = hi - lo then [] else [(lo - a + whole, hi - lo - whole)])

/-- The local bytes of a transfer. -/
def Far.localAddr (f : Far) (k : Nat) : Nat := wordAddr k (if f.isY then .y else .x) f.loc

/-- The Grid holds a burst of the transfer back. -/
def Stage.farHeld (s : Stage) (m : Master) (f : Far) : Bool :=
  !s.grid.lock || (burstsOf f.addr (4 * f.len)).any fun b => (s.bankHolds m (f.addr + b.1) b.2 f.toGrid).isSome

/-- One burst of a transfer: false once one has failed, none once one has been refused and must be repeated. -/
def Stage.farBurst (k : Nat) (m : Master) (f : Far) (x : Option (Stage × Bool)) (b : Nat × Nat) : Option (Stage × Bool) :=
  match x with
  | some (s, true) =>
    let a := f.addr + b.1
    let l := f.localAddr k + b.1
    if f.toGrid then
      let t := s.gridWriteCore m 0 a ((s.rdBytes l b.2).map fun v => (v, true)) [] false
      if t.bus.resp = .refused then none else some (t, t.bus.resp == .okay || t.bus.resp == .collided)
    else
      let t := s.gridReadCore m 0 a b.2 none
      if t.bus.resp = .okay then some (t.wrBytes l t.bus.data, true) else some (t, false)
  | y => y

/-- Transfer `j` of those that SP k has outstanding completes (R96). -/
def Stage.farComplete (s : Stage) (k j : Nat) : Stage :=
  let m : Master := { cls := 7, idx := k }
  match (s.sp k).far[j]? with
  | none => s
  | some f =>
    if s.farHeld m f then s
    else match (burstsOf f.addr (4 * f.len)).foldl (Stage.farBurst k m f) (some (s, true)) with
      | none => s
      | some (t, ok) =>
        let t := t.putSp k { t.sp k with far := (t.sp k).far.eraseIdx j }
        { (if ok then t else t.putSp k ((t.sp k).stick fFAR)) with bus := s.bus }

end Sys2Proof.Machine
end

