-- ==== Sys2Proof/Machine/Apply.lean ====
section
/-!
DEFINITION. Boundary-applied changes at their boundary: what a late block holds back, how one change takes effect, and the order of a boundary
(R20 to R24, R48, R50, R137, R152, R459).
-/
namespace Sys2Proof.Machine

/-- A strip processor does not wait for a boundary: it works on an earlier sample, or in a handler that it entered while it waited (R30). A halted
one works on none (R99). -/
def Stage.spLate (s : Stage) (k : Nat) : Bool :=
  let sp := s.sp k
  ((s.blk k).busy || (sp.run == .done && sp.inHandler)) && sp.run != .halted

def Stage.batLate (s : Stage) (k : Nat) : Bool := (s.blk (64 + k)).busy

/-- The block of a page is late, and a change of its register `off` waits until it starts a sample again (R50). -/
def Stage.pageLate (s : Stage) (p off : Nat) : Bool :=
  match pageOf p with
  | some (.sp, k) => s.spLate k
  | some (.bat, k) => s.batLate k
  | some (.patch, _) => if off = 0x08C ∨ off = 0x09C then s.patch.inHeld.isSome else !s.patch.outHeld.isEmpty
  | _ => false

/-- The block of the memory at a Grid address is late. -/
def Stage.memLate (s : Stage) (a : Nat) : Bool :=
  match regionOf a 1 with
  | .sp k _ => s.spLate k
  | .bat k _ => s.batLate k
  | _ => false

/-- A change is held back by a late block. -/
def Stage.heldBack (s : Stage) (k : WKind) : Bool :=
  match k with
  | .reg a _ _ => s.pageLate (a / 4096) (a % 4096)
  | .mem cells => cells.any fun e => s.memLate e.1
  | .ramp k _ _ => s.batLate k
  | .ready k => s.batLate k
  | .sync _ _ => false

/-- Bytes of memory take effect at boundary `b`. The requests submitted to a batten before the write start first (R24), and a ramp of a crosspoint
written ends (R137). -/
def Stage.applyMem (s : Stage) (b ord : Nat) (cells : List (Nat × Byte)) : Stage :=
  let bats := (cells.filterMap fun e => match regionOf e.1 1 with
    | .bat k _ => some k
    | _ => none).eraseDups
  let s := bats.foldl (fun s k => (s.rampsDue b k ord).rampsCut k fun x => cells.any fun e => e.1 / 4 == x / 4) s
  s.wrCells cells

/-- The block a change is for is powered. A change for a block that has been switched off since is lost with the block (R638). -/
def Stage.reaches (s : Stage) (k : WKind) : Bool :=
  match k with
  | .reg a _ _ => s.powered (a / 4096)
  | .mem cells => cells.all fun e => match regionOf e.1 1 with
    | .sp k _ => s.powered (pSp k)
    | .bat k _ => s.powered (pBat k)
    | _ => true
  | .ramp k _ _ => s.powered (pBat k)
  | .ready k => s.powered (pBat k)
  | .sync _ _ => true

/-- One change takes effect at boundary `b`. -/
def Stage.applyKind (s : Stage) (b cls ord : Nat) (k : WKind) : Stage :=
  if !s.reaches k then s
  else match k with
  | .reg a sel v =>
    let s := match pageOf (a / 4096) with
      | some (.bat, i) => s.rampsDue b i ord
      | _ => s
    s.applyReg b cls a sel v
  | .mem cells => s.applyMem b ord cells
  | .sync mask cmd => s.syncFire mask (boundaryDatum b s.fs) cmd
  | .ramp i lo hi =>
    let s := s.rampsDue b i ord
    Stage.rampStart b i { s with order := s.order + 1 } { due := b, ord := s.order, lo := lo, hi := hi, deferred := false }
  | .ready i => if (s.bat i).loading then s.lose else s.putBat i { s.bat i with ready := true, readyAt := none }

/-- A change due at boundary `b` takes effect, or waits for the late block it is for (R50). -/
def Stage.applyOrHold (s : Stage) (b cls : Nat) (place : Bool) (k : WKind) : Stage :=
  let ord := s.order
  let s := { s with order := s.order + 1 }
  if s.heldBack k then { s with waiting := s.waiting ++ [{ due := b, cls := cls, kind := k, ord := ord, place := place }] }
  else s.applyKind b cls ord k

/-- A program-bank swap (R24). -/
def WKind.isSwap (k : WKind) : Bool :=
  match k with
  | .reg a _ _ => decide (0x100 ≤ a / 4096) && decide (a / 4096 < 0x140) && a % 4096 == 0x080
  | _ => false

/-- The waiting changes due at boundary `b` whose block is not late take effect: the program-bank swaps first, then the others, each in the order of
completion (R24). -/
def Stage.applyDue (s : Stage) (b : Nat) : Stage :=
  let go (w : WWrite) : Bool := decide (w.due ≤ b) && !s.heldBack w.kind
  let now := s.waiting.filter go
  let s := { s with waiting := s.waiting.filter fun w => !go w }
  let run (s : Stage) (w : WWrite) : Stage := s.applyKind b w.cls w.ord w.kind
  (now.filter fun w => !w.kind.isSwap).foldl run ((now.filter fun w => w.kind.isSwap).foldl run s)

end Sys2Proof.Machine
end

