-- ==== Sys2Proof/Machine/CueRun.lean ====
section
/-!
DEFINITION. The run of a cue: its actions, their failures and its record (R293, R299, R301 to R303, R316, R338, R373, R460).
-/
namespace Sys2Proof.Machine

/-- The Prompt as a Grid master (R536). -/
def promptMaster : Master := { cls := 2, idx := 0 }

/-- What an action comes to: 0, or the reason of its failure (R303). -/
abbrev ActOut := Nat × Stage

/-- A failure is counted and latched (R303). -/
def Stage.actFail (s : Stage) (cue j reason : Nat) : Stage :=
  ((s.bump pPrompt 0x0A0).setN pPrompt 0x09C (reason * 2 ^ 24 + cue * 2 ^ 12 + j)).raise pPrompt 3

/-- A WRITE that is boundary-applied, and has passed the tests of its target but room: it takes effect at `b`. -/
def Stage.actPlace (s : Stage) (b : Nat) (k : WKind) : ActOut :=
  if 4096 ≤ s.places then (rsRefused, s) else (0, s.applyOrHold b 2 true k)

/-- A WRITE action to register `off` of page `p` (R293): marked boundary-applied, protection, value, room. -/
def Stage.actReg (s : Stage) (b p off n : Nat) : ActOut :=
  match pageOf p with
  | none => (rsAccess, { s.gridFault promptMaster 0 (p * 4096 + off) true with bus := s.bus })
  | some (k, i) =>
    match regDef k i off with
    | none => (rsNotBoundary, s)
    | some d =>
      let v := Nat.land n (Nat.lor d.rw (Nat.lor d.w1c d.wo))
      match s.boundarySel k i off v with
      | none => (rsNotBoundary, s)
      | some x =>
        if !s.powered p then (rsAccess, s)
        else match s.regVerdict 2 k i d v with
          | .denied => (rsAccess, s)
          | .bad => (rsRefused, { s.badWrite 2 p off false with bus := s.bus })
          | .go =>
            if 4096 ≤ s.places then (rsRefused, s)
            else (0, (s.waitTaken k i off v x).applyOrHold b 2 true (.reg (p * 4096 + off) x (Word.ofNat v)))

/-- A WRITE action (R293): the window and the map, then its target. -/
def Stage.actWrite (s : Stage) (b a n : Nat) : ActOut :=
  match s.winMap 2 a 4 true with
  | none => (rsAccess, { s.gridDenied promptMaster 0 a true with bus := s.bus })
  | some g =>
    let cells := (upTo 4).map fun j => (g + j, (leBytes 4 n).getD j 0#8)
    match regionOf g 4 with
    | .none => (rsAccess, { s.gridFault promptMaster 0 a true with bus := s.bus })
    | .regs => s.actReg b (g / 4096) (g % 4096) n
    | .sp k off =>
      if (areaOf spAreas off).getD 9 < 3 then (if s.powered (pSp k) then s.actPlace b (.mem cells) else (rsAccess, s)) else (rsNotBoundary, s)
    | .bat k off =>
      (match areaOf batAreas off with
       | none => (rsNotBoundary, s)
       | some i =>
         let x := s.bat k
         if i = 2 ∨ i = 4 then (rsNotBoundary, s)
         else if !s.powered (pBat k) then (rsAccess, s)
         else if i = 3 then
           (if s.curveLegal cells then s.actPlace b (.mem cells) else (rsRefused, { s.badWrite 2 (pBat k) g true with bus := s.bus }))
         else if x.fading then (if i = x.xfFrom then (rsAccess, s) else s.actPlace b (.mem cells))
         else if i = x.live then s.actPlace b (.mem cells)
         else (rsNotBoundary, s))
    | _ => (rsNotBoundary, s)

/-- A RAMP action. -/
def Stage.actRamp (s : Stage) (b k : Nat) (lo : Word) (hi : Nat) : ActOut :=
  if !s.powered (pBat k) then (rsRefused, s)
  else match s.rampSubmit k b lo hi with
    | (s, true) => (0, s)
    | (s, false) => (rsRefused, s)

/-- An XFADE action: its word goes to every batten of the mask. -/
def Stage.actXfade (s : Stage) (b mask v : Nat) : ActOut :=
  (0, ((upTo 64).filter fun k => bit mask k).foldl (fun s k => s.applyOrHold b 2 false (.reg (pBat k * 4096 + 0x084) 0 (Word.ofNat v))) s)

/-- A ROUTE action: the entry named, without the select register. -/
def Stage.actRoute (s : Stage) (b : Nat) (out : Bool) (entry v : Nat) : ActOut :=
  (0, s.applyOrHold b 2 false (.reg (pPatch * 4096 + if out then 0x094 else 0x08C) entry (Word.ofNat v)))

/-- A LOAD_PLANE action: the command joins the batten's queue (R138). -/
def Stage.actLoadPlane (s : Stage) (k : Nat) (a0 a1 : Word) : ActOut :=
  let p := pBat k
  if !s.powered p || decide (8 ≤ (s.queue p).length) then (rsRefused, s)
  else
    let (q, s) := s.takeSeq p
    let c : Cmd := { seq := q, cls := 2, idx := 0, code := 1, a0 := a0, a1 := a1, a2 := 0#32 }
    (0, { s with cmdq := Tab.put [] s.cmdq p (s.queue p ++ [c]) }.startNext p)

/-- A SLOT_MASK action (R338, R339). -/
def Stage.actMask (s : Stage) (b p mask : Nat) : ActOut :=
  if 2 ^ s.portSlots p ≤ mask then (rsRefused, { s.badWrite 2 (pPort p) 0x08C false with bus := s.bus })
  else (0, (s.setN (pPort p) 0x08C mask).applyOrHold b 2 false (.reg (pPort p * 4096 + 0x090) mask 1#32))

/-- A DECIM_SYNC action: a SYNC at the datum of `b` (R368, R373). -/
def Stage.actSync (s : Stage) (b mask : Nat) : ActOut :=
  let t := boundaryDatum b s.fs
  (0, (s.forward 0 (.dsync (mask % 65536) t)).syncFire (mask % 65536) t none)

/-- A GO_AFTER action: the child is accepted or refused at `b` (R299). -/
def Stage.actGoAfter (s : Stage) (b cue us : Nat) : ActOut :=
  match s.trigger 6 (some cue) (.datum (boundaryDatum b s.fs + us * 1000 * unit)) none with
  | (.refused r, s) => (r, s)
  | (_, s) => (0, s)

/-- The GRAPH_COMMIT actions of a trigger that have not been issued are issued, tagged with its boundary (R293). -/
def Stage.issueCommits (s : Stage) (t : Trig) : Stage :=
  if t.src = 7 then s
  else
    let l := (upTo (s.cueActions t.cue)).filter fun j => s.actType t.cue j == actGraphCommit && !(t.issued.any fun e => e.1 == j)
    if l = [] ∨ !s.cueOk t.cue then s
    else
      let r := l.foldl (fun (x : Stage × List (Nat × Nat)) j =>
        let (why, s) := x.1.commitAction (s.actWord t.cue j 1 + 2 ^ 32 * s.actWord t.cue j 2) t.b
        (s, x.2 ++ [(j, why)])) (s, t.issued)
      r.1.withPrompt fun p => { p with trigs := p.trigs.map fun x => if x = t then { t with issued := r.2 } else x }

/-- The GRAPH_COMMITs that fall to be issued in the present sample, the later of the acceptance sample and b − D (R293). -/
def Stage.commitsDue (s : Stage) : Stage :=
  if !runsCues s.mode then s
  else (s.prompt.trigs.filter fun t => decide (t.m ≤ s.datum.index) && decide (t.b ≤ s.datum.index + s.applyDelay)).foldl Stage.issueCommits s

/-- Action `j` of a run (R293). An understudy leaves out what reaches it by another path (R460). -/
def Stage.runAction (s : Stage) (t : Trig) (b j : Nat) : ActOut :=
  let w := s.actWord t.cue j
  match s.actType t.cue j with
  | 1 => s.actWrite b (w 1 + w 2 % 16 * 2 ^ 32) (w 3)
  | 2 => s.actRamp b (bits (w 0) 21 16) (Word.ofNat (w 1)) (w 2)
  | 3 => s.actXfade b (w 1 + w 2 * 2 ^ 32) (w 3)
  | 4 => s.actRoute b (bit (w 0) 23) (bits (w 0) 12 0) (w 1)
  | 5 => s.actLoadPlane (bits (w 0) 21 16) (Word.ofNat (w 1)) (Word.ofNat (w 2))
  | 6 => s.actMask b (bits (w 0) 4 0) (w 1)
  | 7 => if t.src = 7 then (0, s) else (((t.issued.find? fun e => e.1 == j).map (·.2)).getD 0, s)
  | 8 => if t.src = 7 then (0, s) else s.actSync b (w 1)
  | 10 => if t.src = 7 then (0, s) else s.actGoAfter b (bits (w 0) 11 0) (bits (w 1) 29 0)
  | _ => (0, s)

/-- A run takes effect at boundary `b`, with its record (R301, R302). -/
def Stage.runCue (s : Stage) (b : Nat) (t : Trig) : Stage :=
  let s := s.withPrompt fun p => { p with trigs := p.trigs.filter fun x => x.seq != t.seq
                                          ran := (p.ran.filter fun e => decide (b ≤ e.2 + s.mirrorDelay)) ++ [(t.cue, b)] }
  let s := (s.setN pPrompt 0x090 (t.cue * 2 ^ 20 + t.src * 2 ^ 16)).set64 pPrompt 0x094 b
  let s := s.raise pPrompt 0
  let r : Stage × Bool :=
    if !s.cueOk t.cue then (s.actFail t.cue 0 rsNoCue, true)
    else (upTo (s.cueActions t.cue)).foldl (fun (x : Stage × Bool) j =>
      match x.1.runAction t b j with
      | (0, s) => (s, x.2)
      | (why, s) => (s.actFail t.cue j why, true)) (s, false)
  let s := if !r.2 && t.late then (r.1.bump pPrompt 0x0A4).raise pPrompt 1 else r.1
  s.promptRecord t.seq t.cls (if r.2 then stFailed else if t.late then stDoneLate else stDone) t.result (boundaryDatum b s.fs)

/-- A trigger runs in the present mode (R305). -/
def Stage.mayRun (s : Stage) (t : Trig) : Bool :=
  runsCues s.mode || ((s.mode == mUnderstudy || s.mode == mCatchUp) && t.src == 7)

/-- The triggers that run at boundary `b`, in the order of acceptance. -/
def Stage.runsAt (s : Stage) (b : Nat) : List Trig := s.prompt.trigs.filter fun t => decide (t.b ≤ b) && s.mayRun t

/-- The tableaux of the runs of boundary `b` capture at its strobe, before any change due there (R293, R308). -/
def Stage.tableauxAt (s : Stage) (b : Nat) : Stage :=
  (s.runsAt b).foldl (fun s t =>
    if !s.cueOk t.cue then s
    else ((upTo (s.cueActions t.cue)).filter fun j => s.actType t.cue j == actTableau).foldl (fun s _ =>
      (s.tabTrigger (boundaryDatum b s.fs) b 3).2) s) s

/-- The runs of boundary `b` take effect. -/
def Stage.cuesAt (s : Stage) (b : Nat) : Stage := (s.runsAt b).foldl (fun s t => s.runCue b t) s

end Sys2Proof.Machine
end

