-- ==== Sys2Proof/Machine/Catchup.lean ====
section
/-!
DEFINITION. Forwarded records at the follower, and catch-up: what a source sends after a REQUEST, the REGIONs and how a joiner installs them
(R459 to R462, R475 to R478, R485, R684).
-/
namespace Sys2Proof.Machine

/-! ### Records (R459 to R462) -/

/-- Words from a Grid address on, as bytes with their addresses. -/
def wordCells (a : Nat) : List Word → List (Nat × Byte)
  | [] => []
  | w :: l => ((upTo 4).map fun j => (a + j, (leBytes 4 w.toNat).getD j 0#8)) ++ wordCells (a + 4) l

/-- The selection of a register write that a record brings: a banked register acts on the active bank (R101). -/
def Stage.recSel (s : Stage) (a : Nat) : Nat :=
  match pageOf (a / 4096) with
  | some (.sp, k) => if isBanked (a % 4096) then 1 + s.spBank k else 0
  | _ => 0

/-- The changes a record brings, with the class of their writer. -/
def Stage.recKinds (s : Stage) (r : FwdRec) : List (Nat × WKind) :=
  match r with
  | .write m a ws =>
    if regionOf a 4 = .regs then
      (upTo ws.length).map fun j => (1 - m, .reg (a + 4 * j) (s.recSel (a + 4 * j)) (ws.getD j 0#32))
    else [(1 - m, .mem (wordCells a ws))]
  | .writeBytes m a mask v =>
    [(1 - m, .mem (((upTo 4).filter fun j => bit mask j).map fun j => (a + j, (leBytes 4 v.toNat).getD j 0#8)))]
  | .ramp k lo hi => [(0, .ramp k lo hi)]
  | .planeReady k => [(0, .ready k)]
  | .selected m a sel v => [(1 - m, .reg a sel v)]
  | _ => []

/-- A record's changes wait for their boundary. -/
def Stage.recHold (s : Stage) (b : Nat) (r : FwdRec) : Stage :=
  (s.recKinds r).foldl (fun s (e : Nat × WKind) =>
    { s with waiting := s.waiting ++ [{ due := b, cls := e.1, kind := e.2, ord := s.order, place := false, fwd := true }]
             order := s.order + 1 }) s

/-- The hold boundary of a catch-up in progress. -/
def Stage.holdAt (s : Stage) : Nat :=
  match s.red.catchup with
  | some c => c.h
  | none => 0

/-- The part takes records on link `n` (R461): an understudy on link 0, a joiner from START on. -/
def Stage.takesRecords (s : Stage) (n : Nat) : Bool :=
  if s.mode = mUnderstudy then n == 0
  else if s.mode = mCatchUp then
    match s.red.catchup with
    | some c => c.link == n && decide (2 ≤ c.phase) && decide (c.phase ≤ 4)
    | none => false
  else false

/-- The address of the Prompt's private block. -/
def promptBlock : Nat := 0xF00100000

/-- STANDBY arrives; a Prompt block that waits to be installed is older than it. -/
def Stage.standbyRx (s : Stage) (v : Nat) : Stage :=
  let s := s.setStandby16 v
  match s.red.catchup with
  | some c => s.withRed fun x => { x with
      catchup := some { c with wait := c.wait.map fun g => if g.addr = promptBlock then { g with words := g.words.set 0 (Word.ofNat v) } else g } }
  | none => s

/-- A record that carries a boundary is kept for it; one that comes too late loses step (R462), and a joiner lets go what opened before h. During COPY
it is held for the REGIONs as well (R478). -/
def Stage.recordAt (s : Stage) (b : Nat) (r : FwdRec) (f : Stage → Stage) : Stage :=
  if b < s.holdAt then s
  else if b ≤ s.datum.index then s.lose
  else
    let copying := match s.red.catchup with
      | some c => c.phase == 2
      | none => false
    f (if copying then s.withRed fun x => { x with held := x.held ++ [(b, r)] } else s)

/-- A FORWARD record arrives on link `n` for boundary `b`. -/
def Stage.recordRx (s : Stage) (n b : Nat) (r : FwdRec) : Stage :=
  if !s.takesRecords n then s
  else match r with
  | .standby v => s.standbyRx v
  | .dsync mask t =>
    if t < boundaryDatum s.holdAt s.fs then s
    else if t < s.now then s.lose
    else { s with syncs := s.syncs ++ [{ mask := mask, datum := t, cmd := none }] }
  | .trigger cue v => s.recordAt b r fun s => (s.trigger 7 (some cue) (.boundary b) none).2.standbyRx v
  | .cancel cue => (s.forwardedCancel b cue).withRed fun x => { x with
      held := x.held.filter fun e => match e.2 with
        | .trigger q _ => !(e.1 == b && q == cue)
        | _ => true }
  | .commit id crc => s.recordAt b r fun s => s.commitForwarded b id crc
  | _ => s.recordAt b r fun s => s.recHold b r

/-! ### The source (R684) -/

/-- The records of what waits for a boundary at or after `h`. -/
def Stage.waitingRecs (s : Stage) (h : Nat) : List (Nat × FwdRec) :=
  (s.waiting.filter fun w => decide (h ≤ w.due) && decide (w.cls < 2)).flatMap fun w => match w.kind with
    | .reg a sel v => (match pageOf (a / 4096) with
      | some (k, _) => [(w.due, regRecord k { cls := w.cls, idx := 0 } a sel v)]
      | none => [])
    | .mem cells => (memRecords { cls := w.cls, idx := 0 } cells).map fun r => (w.due, r)
    | .sync mask _ => [(0, .dsync mask (boundaryDatum w.due s.fs))]
    | _ => []

/-- Every other change that is accepted for a boundary at or after `h`. -/
def Stage.otherRecs (s : Stage) (h : Nat) : List (Nat × FwdRec) :=
  (s.bats.flatMap fun (e : Nat × BatSt) =>
    (e.2.queue.filter fun q => !q.deferred && decide (h ≤ q.due)).map (fun q => (q.due, FwdRec.ramp e.1 q.lo q.hi))
    ++ (match e.2.readyAt with
        | some r => if h ≤ r then [(r, FwdRec.planeReady e.1)] else []
        | none => []))
  ++ ((s.prompt.trigs.filter fun t => decide (h ≤ t.b)).map fun t => (t.b, FwdRec.trigger t.cue s.standby16))
  ++ (match s.graph.commit with
      | some k => if h ≤ k.c then [(k.c, FwdRec.commit k.img.id k.img.crc)] else []
      | none => [])
  ++ ((s.syncs.filter fun x => !x.fired && decide (boundaryDatum h s.fs ≤ x.datum)).map fun x => (0, FwdRec.dsync x.mask x.datum))

/-- A REQUEST arrives on link `n` (R475, R684): a part in PRINCIPAL or TRIANGULATE becomes the source, or refuses. -/
def Stage.requestMsg (s : Stage) (n : Nat) : Stage :=
  if !s.memberLink n || (s.mode ≠ mPrincipal && s.mode ≠ mTriangulate) then s
  else
    let hello := Tab.get none s.red.hellos n
    let busy := (match s.red.source with
      | some c => c.link != n
      | none => false) || s.red.abdicating.isSome
    if (hello.map (·.2)).getD s.graphId ≠ s.graphId then s.ctlSend n (.refuse 1)
    else if (hello.map (·.1)).getD s.version ≠ s.version then s.ctlSend n (.refuse 2)
    else if busy then s.ctlSend n (.refuse 3)
    else
      let h := s.dueNow
      let s := (s.ctlSend n s.helloMsg).ctlSend n (.start h)
      let s := (s.waitingRecs h ++ s.otherRecs h).foldl (fun s (e : Nat × FwdRec) => s.ctlSend n (.forward e.1 e.2)) s
      s.withRed fun r => { r with source := some { link := n, h := h }, joined := Tab.put 0 r.joined n 0 }

/-! ### REGIONs (R475, R476)

The layout of private state is the model's own. A batten's block holds the crossfade and the queued swap at 0, the deferred ramp requests from 0x100
and the ramp slots from 0x400, an item at each fourth address. Tables reached through a select register stand from 0xF_0020_0000 on. -/

def privateBase : Nat := 0xF00000000
def tableBase : Nat := 0xF00200000

/-- What an address in a REGION names. -/
inductive Item where
  | word (a : Nat) | reg (p off : Nat) | xf (k : Nat) | req (k j : Nat) | slot (k j : Nat) | prompt
  | inRoute (i : Nat) | outRoute (i : Nat) | tone (g : Nat) | interp (i j : Nat) | map (b : Nat) (out : Bool) (c : Nat) | dec (c off : Nat)
  | other
deriving DecidableEq, Repr

def itemAt (a : Nat) : Item :=
  if a < privateBase then (if regionOf a 4 = .regs then .reg (a / 4096) (a % 4096) else .word a)
  else
    let o := a - privateBase
    if o < 0x40000 then
      let k := o / 0x1000
      let x := o % 0x1000
      if x = 0 then .xf k else if 0x100 ≤ x ∧ x < 0x200 then .req k ((x - 0x100) / 4)
      else if 0x400 ≤ x ∧ x < 0x800 then .slot k ((x - 0x400) / 4) else .other
    else if a = promptBlock then .prompt
    else if a < tableBase then .other
    else
      let x := a - tableBase
      let i := x / 4
      if x < 0x4000 then .inRoute i else if x < 0xC000 then .outRoute (i - 0x1000) else if x < 0xC010 then .tone (i - 0x3000)
      else if 0xD000 ≤ x ∧ x < 0xE000 then .interp ((x - 0xD000) / 16) ((x - 0xD000) / 4 % 4)
      else if 0x10000 ≤ x ∧ x < 0x11000 then .map ((x - 0x10000) / 0x200) (decide (0x100 ≤ x % 0x200)) (x % 0x100 / 4)
      else if 0x18000 ≤ x ∧ x < 0x18800 then .dec ((x - 0x18000) / 32) (0x084 + (x - 0x18000) % 32)
      else .other

/-- The words of an item. -/
def Item.width : Item → Nat
  | .xf _ => 6
  | .req _ _ => 4
  | .slot _ _ => 6
  | .tone _ => 3
  | .prompt => 59
  | _ => 1

def wide (n : Nat) : List Nat := [n % 2 ^ 32, n / 2 ^ 32]

/-- An item as the source reads it in the present sample. -/
def Stage.itemRead (s : Stage) (x : Item) : List Nat :=
  match x with
  | .word a => [(s.rd32 a).toNat]
  | .reg p off => [s.regN p off]
  | .xf k =>
    let b := s.bat k
    let q := b.queued.getD (0, 0)
    [b.live + (match b.xf with | .idle => 0 | .running => 2 | .held => 4) + (if b.xfRev then 8 else 0) + 16 * b.xfFrom
       + (if b.ready then 32 else 0) + (if b.queued.isSome then 64 else 0), b.xfCurve, b.xfN, b.xfK, q.1, q.2]
  | .req k j => (match ((s.bat k).queue.filter fun q => q.deferred)[j]? with
    | some q => [q.lo.toNat, q.hi] ++ wide q.due
    | none => [0, 0, 0, 0])
  | .slot k j => (match (s.bat k).ramps.find? fun r => r.slot == j with
    | some r => [2 ^ 31 + r.shape * 2 ^ 24 + r.plane * 2 ^ 16 + r.src * 8 + r.dst, toBits 32 r.g0, r.gT.toNat, r.n] ++ wide r.start
    | none => [0, 0, 0, 0, 0, 0])
  | .prompt => [s.standby16] ++ (s.prompt.ran.take 19).flatMap fun r => r.1 :: wide r.2
  | .inRoute i => [s.routeOf false i]
  | .outRoute i => [s.routeOf true i]
  | .tone g => Tab.get 0 s.patch.tone g :: wide (Tab.get 0 s.patch.toneFrom g)
  | .interp i j => [s.interpWord i j]
  | .map b out c => [Tab.get 0 (if out then (s.bridge b).outMap else (s.bridge b).inMap) c]
  | .dec c off =>
    let d := s.dec c
    [if off = 0x084 then d.src else if off = 0x088 then d.st01 else if off = 0x08C then d.st23 else if off = 0x0A0 then d.phase
     else d.gc.getD ((off - 0x090) / 4) 0]
  | .other => [0]

/-- The RW registers of a page's basic area that hold a value of their own. -/
def rwOffsets (k : PageKind) (i : Nat) : List Nat :=
  (pageDefs k i).filterMap fun d => if d.off < 0x400 ∧ d.rw ≠ 0 ∧ (selReg k d.off).isNone then some d.off else none

/-- What the source sends: (address, items) (R476). -/
def Stage.pieces (s : Stage) : List (Nat × Nat) :=
  let regs (k : PageKind) (i : Nat) (l : List Nat) : List (Nat × Nat) := l.map fun o => (k.page i * 4096 + o, 1)
  ((upTo 64).flatMap fun k =>
    if !s.inMap k then []
    else [(spBase k, 0x6000), (spBase k + 0x40000, 0x6000), (spBase k + 0x80000, 0x4000), (spBase k + 0xC0000, 0x4000), (spBase k + 0xD0000, 0x400)]
      ++ regs .sp k (0x080 :: rwOffsets .sp k))
  ++ ((upTo 64).flatMap fun k =>
    if !s.inMap (64 + k) then []
    else
      let o := privateBase + 0x1000 * k
      let block := [(o, 1), (o + 0x100, 64), (o + 0x400, 256)]
      block ++ [(batBase k, 0x8000), (batBase k + 0x20800, 0x200)] ++ block)
  ++ [(tableBase, 0x1000), (tableBase + 0x4000, 0x2000), (tableBase + 0xC000, 4), (tableBase + 0xD000, 0x100)]
  ++ regs .decim 0 (rwOffsets .decim 0) ++ [(tableBase + 0x18000, 0x200)]
  ++ ((upTo 8).flatMap fun b => regs .bridge b (rwOffsets .bridge b)) ++ [(tableBase + 0x10000, 0x400)]
  ++ ((upTo 32).flatMap fun p => regs .port p (0x088 :: rwOffsets .port p))
  ++ [(promptBlock, 1)]

/-- The next REGION leaves, captured in the present sample, or COPY_DONE after the last. -/
def Stage.regionSend (l : List (Nat × Nat)) (s : Stage) : Stage :=
  match s.red.source with
  | none => s
  | some c =>
    if c.done then s
    else match l[c.range]? with
      | none => (s.withRed fun r => { r with source := some { c with done := true } }).ctlSend c.link (.copyDone c.sent)
      | some (a, n) =>
        let first := a + 4 * c.pos
        let most := 59 / (itemAt first).width
        let k := min most (n - c.pos)
        let ws := (upTo k).flatMap fun j => (s.itemRead (itemAt (first + 4 * j))).map Word.ofNat
        let c' := if n ≤ c.pos + k then { c with range := c.range + 1, pos := 0, sent := c.sent + 1 }
          else { c with pos := c.pos + k, sent := c.sent + 1 }
        (s.withRed fun r => { r with source := some c' }).ctlSend c.link (.region s.datum.index first ws)

/-- The source sends sixteen REGIONs in each sample from h on. -/
def Stage.regionsSend (s : Stage) : Stage :=
  match s.red.source with
  | some c =>
    if c.done ∨ s.datum.index < c.h then s
    else
      let l := s.pieces
      (upTo 16).foldl (fun s _ => s.regionSend l) s
  | none => s

/-! ### Installation (R478) -/

/-- A REGION arrives on link `n`. -/
def Stage.regionMsg (s : Stage) (n r a : Nat) (ws : List Word) : Stage :=
  match s.red.catchup with
  | some c =>
    if c.link ≠ n ∨ c.phase ≠ 2 then s
    else s.withRed fun x => { x with catchup := some { c with wait := c.wait ++ [{ r := r, addr := a, words := ws }] } }
  | none => s

/-- The changes that the actions of cue `q` make to state that REGIONs cover. -/
def Stage.cueKinds (s : Stage) (q : Nat) : List WKind :=
  if !s.cueOk q then []
  else (upTo (s.cueActions q)).flatMap fun j =>
    let w := s.actWord q j
    match s.actType q j with
    | 1 =>
      let a := w 1 + w 2 % 16 * 2 ^ 32
      (match s.winMap 2 a 4 true with
       | none => []
       | some g =>
         if regionOf g 4 = .regs then
           (match pageOf (g / 4096) with
            | some (k, i) => (match s.boundarySel k i (g % 4096) (w 3) with
              | some x => [.reg g x (Word.ofNat (w 3))]
              | none => [])
            | none => [])
         else [.mem (wordCells g [Word.ofNat (w 3)])])
    | 3 => ((upTo 64).filter fun k => bit (w 1 + w 2 * 2 ^ 32) k).map fun k => .reg (pBat k * 4096 + 0x084) 0 (Word.ofNat (w 3))
    | 4 => [.reg (pPatch * 4096 + if bit (w 0) 23 then 0x094 else 0x08C) (bits (w 0) 12 0) (Word.ofNat (w 1))]
    | 6 => [.reg (pPort (bits (w 0) 4 0) * 4096 + 0x090) (w 1) 1#32]
    | _ => []

/-- The held changes of boundaries after `r` and before `i`, in the order of their boundaries. -/
def Stage.heldKinds (s : Stage) (r i : Nat) : List (Nat × Nat × WKind) :=
  let l := s.red.held.filter fun e => decide (r < e.1) && decide (e.1 < i)
  let sorted := (upTo (i - r)).flatMap fun d => l.filter fun e => e.1 == r + d
  sorted.flatMap fun e => match e.2 with
    | .trigger q _ => (s.cueKinds q).map fun k => (e.1, 2, k)
    | x => (s.recKinds x).map fun k => (e.1, k.1, k.2)

/-- The item that a register change acts on. -/
def itemOf (a sel : Nat) : Item :=
  match pageOf (a / 4096) with
  | some (.patch, _) =>
    let off := a % 4096
    if off = 0x08C then .inRoute (bits sel 11 0) else if off = 0x094 then .outRoute (bits sel 12 0)
    else if off = 0x09C then .tone (bits sel 1 0) else .interp (bits sel 5 0) ((off - 0x0A4) / 4)
  | some (.bridge, b) => .map b (a % 4096 == 0x0A4) (bits sel 5 0)
  | some (.decim, _) => .dec (bits sel 5 0) (a % 4096)
  | some (.port, p) => .reg (pPort p) 0x088
  | some (k, i) => .reg (k.page i) (a % 4096)
  | none => .other

/-- A batten's crossfade runs through the samples from `x` on, `n` of them, with the XF_REQs and ready planes of their boundaries. -/
def Stage.xfCatch (k : Nat) (l : List (Nat × Nat × WKind)) : Nat → Nat → Stage → Stage
  | _, 0, s => s
  | x, n + 1, s =>
    let s := if (s.bat k).xf = .running ∧ (s.bat k).atEnd then s.xfEnd k else s
    let s := l.foldl (fun s e =>
      if e.1 ≠ x then s
      else match e.2.2 with
        | .reg a _ v => if a = pBat k * 4096 + 0x084 then s.xfWord k v.toNat else s
        | .ready j => if j = k then s.putBat k { s.bat k with ready := true } else s
        | _ => s) s
    Stage.xfCatch k l (x + 1) n (s.xfStep k)

/-- A ramp stops where a held write reaches its crosspoint. -/
def Stage.rampsWritten (s : Stage) (k : Nat) (l : List (Nat × Nat × WKind)) : Stage :=
  l.foldl (fun s e => match e.2.2 with
    | .mem cells =>
      let b := s.bat k
      s.putBat k { b with ramps := b.ramps.filter fun r =>
        !(decide (r.start ≤ e.1) && cells.any fun c => c.1 / 4 == s.crossAddr k r.plane r.src r.dst / 4) }
    | _ => s) s

/-- An item of a REGION captured in sample `r` takes its state at boundary `i`; `l` the held changes between. -/
def Stage.itemPut (s : Stage) (r i : Nat) (l : List (Nat × Nat × WKind)) (x : Item) (w : Nat → Nat) : Stage :=
  match x with
  | .word a =>
    (match regionOf a 4 with
     | .sp _ _ => s.fillBytes a (leBytes 4 (w 0))
     | .bat k _ =>
       let s := s.fillBytes a (leBytes 4 (w 0))
       let b := s.bat k
       s.putBat k { b with ramps := b.ramps.map fun q =>
         if r < q.start ∧ s.crossAddr k q.plane q.src q.dst = a then { q with g0 := (Word.ofNat (w 0)).toInt } else q }
     | _ => s)
  | .reg p off =>
    (match pageOf p with
     | some (.sp, _) => s.setN p off (w 0)
     | some (.port, j) =>
       if off = 0x088 then (if s.regN p off = w 0 then s else s.setMask j i (w 0))
       else if s.regN p off = w 0 then s
       else (s.setN p off (w 0)).written .port j off (s.regN p off) (w 0)
     | some (k, j) => if s.regN p off = w 0 then s else (s.setN p off (w 0)).written k j off (s.regN p off) (w 0)
     | none => s)
  | .xf k =>
    let b := s.bat k
    let s := s.putBat k { b with
      live := w 0 % 2, xf := if bit (w 0) 1 then .running else if bit (w 0) 2 then .held else .idle, xfRev := bit (w 0) 3,
      xfFrom := bits (w 0) 4 4, ready := bit (w 0) 5, readyAt := none, queued := if bit (w 0) 6 then some (w 4, w 5) else none,
      xfCurve := w 1, xfN := w 2, xfK := w 3, fresh := false,
      ramps := b.ramps.filter fun q => decide (r < q.start), queue := b.queue.filter fun q => decide (r < q.due) }
    s.putBat k ((Stage.xfCatch k l (r + 1) (i - 1 - r) s).bat k)
  | .req k _ =>
    if w 1 = 0 then s
    else
      let b := s.bat k
      let q : RampReq := { due := w 2 + 2 ^ 32 * w 3, ord := s.order, lo := Word.ofNat (w 0), hi := w 1, deferred := true }
      { s with order := s.order + 1 }.putBat k { b with queue := b.queue ++ [q] }
  | .slot k j =>
    let b := s.bat k
    let plane := bits (w 0) 16 16
    let src := bits (w 0) 13 3
    let dst := bits (w 0) 2 0
    let keep := b.ramps.filter fun q => decide (r < q.start) || !(q.slot == j || (bit (w 0) 31 && q.on plane src dst))
    let start := w 4 + 2 ^ 32 * w 5
    if bit (w 0) 31 && !(keep.any fun q => q.on plane src dst) then
      let q : Ramp := { slot := j, plane := plane, src := src, dst := dst, g0 := sext 32 (w 1), gT := Word.ofNat (w 2), n := w 3, start := start,
                        shape := bits (w 0) 25 24 }
      (s.putBat k { b with ramps := keep ++ [q] }).rampsWritten k (l.filter fun e => decide (r < e.1))
    else s.putBat k { b with ramps := keep }
  | .prompt =>
    let ran := (upTo 19).filterMap fun j =>
      if w (2 + 3 * j) = 0 ∧ w (3 + 3 * j) = 0 then none else some (w (1 + 3 * j), w (2 + 3 * j) + 2 ^ 32 * w (3 + 3 * j))
    (s.setStandby16 (w 0)).withPrompt fun p => { p with ran := ran ++ p.ran.filter fun e => decide (r < e.2) }
  | .inRoute e => (s.setRoute false e (w 0)).setDip false e none
  | .outRoute e => (s.setRoute true e (w 0)).setDip true e none
  | .tone g => s.withPatch fun p => { p with tone := Tab.put 0 p.tone g (w 0), toneFrom := Tab.put 0 p.toneFrom g (w 1 + 2 ^ 32 * w 2) }
  | .interp c j => if s.interpWord c j = w 0 then s else s.interpApply c j (w 0)
  | .map b out c => s.brMapApply b out c (w 0)
  | .dec c off =>
    if off = 0x0A4 ∨ off = 0x0A8 ∨ off = 0x0AC ∨ s.itemRead (.dec c off) = [w 0] then s else s.decApply c off (w 0)
  | .other => s

/-- A held change of boundary `b` takes effect again on what a REGION has just overwritten. -/
def Stage.replay (items : List Item) (s : Stage) (e : Nat × Nat × WKind) : Stage :=
  match e.2.2 with
  | .mem cells => s.wrCells (cells.filter fun c => items.contains (.word (c.1 / 4 * 4)))
  | .reg a sel v => if items.contains (itemOf a sel) then s.applyReg e.1 e.2.1 a sel v else s
  | _ => s

/-- A REGION is installed at boundary `i`. -/
def Stage.regionInstall (i : Nat) (s : Stage) (g : RegionIn) : Stage :=
  let x := itemAt g.addr
  let n := (g.words.length + x.width - 1) / x.width
  let l := s.heldKinds g.r i
  let items := (upTo n).map fun j => itemAt (g.addr + 4 * j)
  let s := (upTo n).foldl (fun s j => s.itemPut g.r i l (itemAt (g.addr + 4 * j)) fun d => (g.words.getD (x.width * j + d) 0#32).toNat) s
  l.foldl (Stage.replay items) s

/-- The REGIONs that have arrived are installed at boundary `b` (R478). The ramps that land at it are kept beside the held records, for planes that
arrive later. -/
def Stage.regionsInstall (s : Stage) (b : Nat) : Stage :=
  match s.red.catchup with
  | none => s
  | some c =>
    if c.phase ≠ 2 then s
    else
      let s := (c.wait.foldl (Stage.regionInstall b) s).withRed fun r => { r with
        catchup := some { c with wait := [], got := c.got + c.wait.length } }
      let landed := s.bats.flatMap fun (e : Nat × BatSt) =>
        (e.2.ramps.filter fun q => decide (q.start + q.n ≤ b)).map fun q =>
          (q.start + q.n, FwdRec.write 2 (s.crossAddr e.1 q.plane q.src q.dst) [q.gT])
      s.withRed fun r => { r with held := landed ++ r.held }

/-- A joiner of a triangulated group lets its own changes go that come due before it joins (R485). -/
def Stage.ownDrop (s : Stage) (b : Nat) : Stage :=
  if s.triangulated && s.mode == mCatchUp then
    { s with waiting := s.waiting.filter fun w => decide (b < w.due) || w.fwd || decide (2 ≤ w.cls) }
  else s

end Sys2Proof.Machine
end

