-- ==== Sys2Proof/Machine/Boundary.lean ====
section
/-!
DEFINITION. A sample boundary: what ends with the sample before it, what takes effect at it, and what the sample it opens begins with
(R14, R24, R30 to R36, R48 to R50, R145, R277).
-/
namespace Sys2Proof.Machine

/-- The first whole unit of the raw count at which boundary `b` has come (R277). -/
def Stage.strobeRaw (s : Stage) (b : Nat) : Nat :=
  let (num, den) := s.boundaryRaw b
  (ceilDiv num den).toNat

/-- The battens that hold anything or work in the graph. -/
def Stage.batsUsed (s : Stage) : List Nat := (upTo 64).filter fun k => s.inMap (64 + k) || (Tab.find s.bats k).isSome

/-- The stage blocks that work on a sample now: battens, patches, and strip processors that are not halted (R48, R99). -/
def Stage.lateBlocks (s : Stage) : List Nat :=
  (s.blocks.filter fun (e : Nat × Blk) => if e.1 < 64 then s.spLate e.1 else e.2.busy).map (·.1)

/-- The page of a stage block. -/
def blockPage (b : Nat) : Nat := if b < 64 then pSp b else if b < 128 then pBat (b - 64) else pPatch

/-- The blocks whose slack is measured: powered and in the stage map, and the patches while they run (R33). -/
def Stage.measured (s : Stage) (b : Nat) : Bool :=
  if b < 128 then s.inMap b && s.powered (blockPage b) else s.patch.patchOn

/-- W of a block (R34, R101, R166). -/
def Stage.declared (s : Stage) (b : Nat) : Nat := if b < 64 then s.bankFld b 0x094 16 (s.spBank b) else s.fld (pBat (b - 64)) 0x0A4 11 0

/-- The slack of a block that has reached its done point, and its projection (R32, R34). -/
def Stage.slackOf (s : Stage) (b : Nat) (x : Blk) (d : Nat) : Slack :=
  let m := s.slackNs d (x.n + 1)
  let p : Int :=
    if 128 ≤ b ∨ s.declared b = 0 then m
    else if x.exec = 0 then x.proj.getD m
    else projected m s.fs (s.declared b) x.exec
  { page := blockPage b, meas := m, proj := p }

/-- The sample is measured, and late boundaries are counted (R33, R49). -/
def Stage.measureAll (s : Stage) : Stage :=
  let l := s.blocks.filterMap fun (e : Nat × Blk) => match e.2.done with
    | some d => if s.measured e.1 then some (e.1, s.slackOf e.1 e.2 d) else none
    | none => none
  let late := s.lateBlocks
  let s := s.measure (l.map (·.2)) (late.any s.measured)
  let s := s.blocks.foldl (fun (t : Stage) (e : Nat × Blk) =>
    let p := match l.find? fun x => x.1 == e.1 with
      | some x => if e.2.exec = 0 ∨ 128 ≤ e.1 then e.2.proj else some x.2.proj
      | none => e.2.proj
    t.setBlk e.1 { e.2 with done := none, proj := p }) s
  late.foldl (fun s b => s.countLate (blockPage b) (decide (128 ≤ b))) s

/-- What ends with sample `n`: the battens that are late keep their sums, then the bridges, the decimators and the patches close it. -/
def Stage.sampleClose (s : Stage) (n : Nat) (pdm : List (Nat × List Bool)) (inDone outDone : Option Nat) : Stage :=
  let s := s.batsUsed.foldl Stage.batHold s
  let s := (s.bridgesClose).decsClose n pdm
  let s := if s.patch.patchOn then s.inClose n inDone else s
  let s := s.redSample n
  if s.patch.patchOn then s.outClose n outDone else s

/-- The changes of boundary `b` in the order of R24, within the first and the last part of every batten that is not late (R145, R50). -/
def Stage.changesAt (s : Stage) (b : Nat) : Stage :=
  let bats := s.batsUsed.filter fun k => !s.batLate k
  let s := bats.foldl (fun s k => s.batPre b k) s
  let s := (s.ownDrop b).graphBoundary b
  let s := (s.applyDue b).syncInstant s.datum.raw
  let s := (s.runsAt b).foldl Stage.issueCommits s
  let s := (s.cuesAt b).commitSettings
  let s := s.srcTicks
  (s.batsUsed.filter fun k => !s.batLate k).foldl (fun s k => s.batPost b k) s

/-- Block `i` starts a sample at this boundary (R30, R97, R199). -/
def Stage.starts (s : Stage) (i : Nat) : Bool :=
  isRunning s.mode && s.inMap i && !s.graph.idle.contains i
    && (if i < 64 then !s.spLate i && (s.sp i).run != .halted else !(s.blk i).busy)

/-- The blocks that wait start the sample that boundary `b` opens. -/
def Stage.startAll (s : Stage) (b : Nat) : Stage :=
  (upTo 128).foldl (fun s i => if s.starts i then (if i < 64 then s.spStart i b else s.batStart (i - 64) b) else s) s

/-- The steps that wait are applied right after a strobe (R257), and the timed triggers are judged afresh (R306). -/
def Stage.stepNow (s : Stage) : Stage :=
  let t := s.stepsApply
  if s.datum.stepReady = [] then t else t.promptRejudge t.datum.index

/-- The strobe of the next boundary. `pdm` gives the bits of the PDM inputs of the sample it closes, by pin and edge; `inDone` and `outDone` the raw
done points of the input and output patch in that sample, none for a patch that is still working; `active` the ACTIVE lines. Before the raw counter
runs there is no strobe (R250). -/
def Stage.strobe (s : Stage) (pdm : List (Nat × List Bool)) (inDone outDone : Option Nat) (active : Nat) : Stage :=
  if !s.datum.started then s
  else
    let s := s.stepNow
    let n := s.datum.index
    let b := n + 1
    let s := s.tick (s.strobeRaw b)
    let s := (s.sampleClose n pdm inDone outDone).measureAll
    let s := { s.exchSwap with datum := { s.datum with index := b, stepReq := [], stepReady := s.datum.stepReq } }
    let s := s.tableauxAt b
    let s := (s.linksPresent b).netPresent b
    let s := (s.modeBoundary b).regionsInstall b
    let s := s.redBoundary b active
    let s := (s.changesAt b).redAfter b
    let s := s.patchBoundary
    let s := (upTo 32).foldl (Stage.portBoundary b) s
    let s := s.decsUsed.foldl (fun s c => (s.decOpen c).decJudge c) s
    let s := s.syncBoundary b
    let s := s.startAll b
    let s := (upTo 4).foldl (Stage.linkBeat b (s.healthWord 0)) s
    (s.netDrive b (s.flag pRed 0x084 28)).regionsSend

end Sys2Proof.Machine
end

