-- ==== Sys2Proof/Machine/Act.lean ====
section
/-!
DEFINITION. How the meaning of a command acts on the state, and the smaller events of the chapters that no other file holds (R98, R112, R257,
R416, R445, R446, R507, R550, R636, R638, R651, R653).
-/
namespace Sys2Proof

/-- A bundle with one of its multiply slots, its A slot or its T slot given. -/
def Bundle.withM (o : Bundle) (second : Bool) (m : MSlot) : Bundle := if second then { o with m2 := m } else { o with m1 := m }
def Bundle.withA (o : Bundle) (pred : Nat) (op : AOp) : Bundle := { o with a := { pred := pred, op := op } }
def Bundle.withT (o : Bundle) (pred : Nat) (op : TOp) : Bundle := { o with t := { pred := pred, op := op } }

end Sys2Proof

namespace Sys2Proof.Machine

/-! ### Lifts and guards -/

/-- The end of a command that has taken `s` to `t`. A Stage die that has only just left its reset raises no HEALTH for what the reset left. -/
def Stage.ends (s t : Stage) : Stage := if !t.dieUp then t else if s.dieUp then t.settle s.healthFlags else t.vectors

/-- A command of the Stage die: without effect while that die is held in reset or has no power (R628, R645). Every command ends with what follows from
it at once: HEALTH events and interrupt vectors (R574 to R576). -/
def State.act (s : State) (f : Stage → Stage) : Host.Outcome State Fault Refusal :=
  .next { s with stage := if s.stage.dieUp then s.stage.ends (f s.stage) else s.stage }

/-- A command of the supervisor or of the sealed core, which lie outside the Stage die. -/
def State.always (s : State) (f : Stage → Stage) : Host.Outcome State Fault Refusal :=
  .next { s with stage := s.stage.ends (f s.stage) }

/-- A command that resets the Stage die and leaves it running: nothing is compared with what was before (R647). -/
def State.restart (s : State) (f : Stage → Stage) : Host.Outcome State Fault Refusal :=
  .next { s with stage := let t := f s.stage; if t.dieUp then t.vectors else t }

/-- What block `i` of a kind does; nothing where there is no such block or its domain is off (R638). -/
def Stage.block (s : Stage) (k : PageKind) (i : Nat) (f : Stage → Stage) : Stage :=
  if pageOf (k.page i) = some (k, i) ∧ s.powered (k.page i) then f s else s

/-- What a network port with a link does (R431). -/
def Stage.netPort (s : Stage) (p : Nat) (f : Stage → Stage) : Stage := s.block .net p fun s => if s.netLink p then f s else s

/-- What a lane does, with what the link or the port above it makes of it. -/
def Stage.onLane (s : Stage) (i : Nat) (f : Stage → Stage) : Stage :=
  if i < 16 then (if s.powered 0x260 then s.laneDo i f else s)
  else s.block .net (i - 16) fun s => s.laneDo i f

/-- A message of the control channel of link `n` is accepted; without the channel there is none (R416). -/
def Stage.message (s : Stage) (n : Nat) (f : Stage → Stage) : Stage := s.block .link n fun s => if s.ctrlOk n then f s else s

/-! ### Levelling and time -/

/-- 64 ms have passed since the last emergency raise (R41). -/
def Stage.downBarEnd (s : Stage) : Stage := { s with level := { s.level with downBar := false } }

/-- REFCLK_IN has been within limits for 10 ms: the PLL relocks (R251). -/
def Stage.refRecover (s : Stage) : Stage := if s.datum.everLocked then { s with datum := { s.datum with pll := true } } else s

/-! ### Strip processors -/

/-- A word with an illegal slot issues (R112). -/
def Stage.issueIllegal (s : Stage) (k w : Nat) : Stage := if (decodeBundle w).isNone then s.issueWord k w else s

/-- An interrupt that is due is taken (R84, R86). -/
def Stage.spEntryNow (s : Stage) (k : Nat) : Stage := if (s.sp k).entryDue then s.spEntry k else s

/-- One issue of SP `k` as it runs its program: the interrupt that is due, else the bundle at its program counter. -/
def Stage.spTick (s : Stage) (k : Nat) : Stage :=
  if (s.sp k).entryDue then s.block .sp k fun s => s.spEntry k
  else if (s.sp k).active then s.block .sp k fun s => s.spStep k
  else s

/-- With no command waiting, every strip processor that may issue does so once, in ascending order (DESIGN CHOICE, log entry 3). -/
def State.idle (s : State) : Host.Outcome State Fault Refusal := s.act fun s => (upTo 64).foldl Stage.spTick s

/-- The scatter of SP `k`; a processor that a commit has replaced leaves at its done point (R48, R95, R199). -/
def Stage.scatterDone (s : Stage) (k t : Nat) : Stage :=
  let s := s.scatterWrite k t
  if s.graph.leaving.contains k && !(s.blk k).busy then s.spLeave k else s

/-- The word of an XF_REQ (R168). -/
def xfReq (cmd curve time : Nat) : Nat := cmd * 2 ^ 28 + curve % 4 * 2 ^ 26 + time % 2 ^ 19

/-! ### Ports -/

/-- A leading edge on a port: one of the engine or the fast domain, or one of the foreign domain, whose slots the bridges drive (R235, R340). -/
def Stage.frameEdge (s : Stage) (p t bclks : Nat) (slots : List Nat) (done : Option Nat) : Stage :=
  if s.portDomain p = 2 then s.foreignEdge p t else s.fsyncEdge p t bclks slots done

/-! ### Control datagrams (R445, R446) -/

/-- A trigger that a datagram brings, with its reply: the handle, or the reason it was refused for. -/
def Stage.cdgTrigger (s : Stage) (m : CdgMsg) (src a : Nat) (w : TrigWhen) : Stage :=
  if !s.flag pPrompt 0x080 5 then s.cdgAnswer m cdgRefused rsMode
  else match s.trigger src (goCue a) w none with
    | (.taken q, s) => s.cdgAnswer m cdgAccepted (handleOf pPrompt q)
    | (.refused r, s) => s.cdgAnswer m cdgRefused r
    | (.ignored, s) => s.cdgAnswer m cdgRefused rsMode

def Stage.cdgGo (s : Stage) : Stage :=
  match s.cdgTake 1 with
  | none => s
  | some (m, s) => if m.body.length ≠ 4 then s.cdgAnswer m cdgRefused 0 else s.cdgTrigger m 3 (be m.body 0 4) (.datum s.now)

def Stage.cdgGoAt (s : Stage) : Stage :=
  match s.cdgTake 2 with
  | none => s
  | some (m, s) =>
    if m.body.length ≠ 18 then s.cdgAnswer m cdgRefused 0
    else if 1000000000 ≤ be m.body 12 4 then s.cdgAnswer m cdgRefused rsRange
    else s.cdgTrigger m 4 (be m.body 0 4) (.datum (timeOf m.body 4))

/-- The status of a reply for a response of the Grid. -/
def cdgStatus (r : Resp) : Nat :=
  match r with
  | .okay => cdgAccepted
  | .denied => cdgDenied
  | _ => cdgRefused

/-- WRITE: a write of the management core, but never of an expert area or of a field with access SV or BT; what the last Grid access was answered
stays. -/
def Stage.cdgWrite (s : Stage) : Stage :=
  match s.cdgTake 3 with
  | none => s
  | some (m, s) =>
    if m.body.length ≠ 8 || s.restarting then s.cdgAnswer m cdgRefused 0
    else
      let p := be m.body 0 2
      let off := be m.body 2 2
      let guarded : Bool := match pageOf p with
        | some (k, i) => (match regDef k i off with
          | some d => decide (2 ≤ d.prot)
          | none => false)
        | none => false
      if decide (0x400 ≤ off) || guarded then s.cdgAnswer m cdgDenied 0
      else
        let d := (leBytes 4 (be m.body 4 4)).map fun x => (x, true)
        let t : Stage := s.gridWriteCore mgmt 0 (p * 4096 + off) d [] false
        ({ t with bus := s.bus }).cdgAnswer m (cdgStatus t.bus.resp) 0

def Stage.cdgRead (s : Stage) : Stage :=
  match s.cdgTake 4 with
  | none => s
  | some (m, s) =>
    if m.body.length ≠ 4 ∨ 0x1000 ≤ be m.body 2 2 ∨ s.restarting then s.cdgAnswer m cdgRefused 0
    else
      let t : Stage := s.gridReadCore mgmt 0 (be m.body 0 2 * 4096 + be m.body 2 2) 4 none
      ({ t with bus := s.bus }).cdgAnswer m (cdgStatus t.bus.resp) (if t.bus.resp = Resp.okay then ofLeBytes t.bus.data else 0)

/-- MAILBOX; during a hot restart no firmware takes it (R589). -/
def Stage.cdgMail (s : Stage) : Stage :=
  if s.restarting then (match s.cdgTake 5 with
    | none => s
    | some (m, s) => s.cdgAnswer m cdgRefused 0)
  else s.cdgMailbox

/-! ### Rehearsal -/

/-- The write of a health report ends, made by the rehearsal master in one burst (R507); `ext` that a host window took it. -/
def Stage.reportWritten (s : Stage) (ext : Bool) : Stage :=
  match s.reh.report with
  | none => s
  | some (a, d) =>
    let t : Stage := s.gridWriteCore { cls := 3, idx := 0 } 0 a (d.map fun x => (x, true)) [] ext
    ({ t with bus := s.bus, reh := { t.reh with report := none } }).raiseIf (t.bus.resp != Resp.okay) pReh 7

/-! ### The Catwalk (R550, R636, R653) -/

/-- A path that is refused returns nothing. -/
def Stage.catDenied (s : Stage) : Stage := (s.raise 1 4).emit .catRefused

/-- The management core reads `n` fuse words. -/
def Stage.fuseRead (s : Stage) (first n : Nat) : Stage :=
  if s.catOk 0 then s.emit (.fuse ((upTo n).map fun i => (Config.fuseWord (first + i)).toNat)) else s.catDenied

/-- Boot code passes a wrapped key of 40 bytes to the key store, which keeps it when it unwraps. -/
def Stage.keyStore (s : Stage) (slot : Nat) (wrapped : List Byte) : Stage :=
  if s.grid.lock then s.catDenied
  else if 8 ≤ slot then s
  else match keyUnwrap ((upTo 32).map Config.kek) wrapped with
    | some k => (s.withNet fun n => { n with keys := Tab.put [] n.keys slot k }).setFlag (pNet 0) (0x120 + 4 * slot) 31 true
    | none => s

/-- The management core commands VCORE directly. -/
def Stage.levelDirect (s : Stage) (code : Nat) : Stage :=
  let boot := decide (s.mode = mBoot ∧ s.vmin ≤ code ∧ code ≤ s.vmax)
  let service := decide (s.mode = mService ∧ code ≤ 96)
  if s.catOk 2 && (boot || service) then s.command code false else s.catDenied

/-! ### Boot -/

/-- The boot ROM runs, and boot code loads calibration once an image has started (R585, R648 to R651). -/
def Stage.bootStart (s : Stage) (primary : Bool) (cfg bootsel : Nat) (answered : Bool) (version : Nat) : Stage :=
  if s.mode ≠ mBoot then s
  else
    let t := s.bootRom primary cfg (bootsel % 8) answered version
    if t.fld pPower 0x080 3 0 ≤ 1 then t.calBoot else t

end Sys2Proof.Machine
end

