-- ==== Sys2Proof/Machine/ExecBat.lean ====
section
/-!
DEFINITION. The battens (chapter 05): the meaning of each command.
-/
namespace Sys2Proof.Machine

/-- BATTEN_SUM_WRITE (R132). A batten's lanes finish their pass and write their bus sums with rounding and saturation. -/
def execBattenSumWrite (k t : Nat) (errs : List (Nat × Int)) (s : State) : Host.Outcome State Fault Refusal :=
  s.act fun s => s.block .bat k fun s => s.batSum k t errs

/-- REH_CTRL_WRITE (R163). A write of REH_CTRL.EN starts the spare lane or stops it at the next boundary. -/
def execRehCtrlWrite (m : Master) (k v : Nat) (s : State) : Host.Outcome State Fault Refusal := s.act fun s => s.access m (pBat k) 0x0B4 v

/-- SWAP (R147). An XF_REQ SWAP starts a crossfade to the shadow plane, or is queued or deferred. -/
def execSwap (m : Master) (k curve time : Nat) (s : State) : Host.Outcome State Fault Refusal :=
  s.act fun s => s.access m (pBat k) 0x084 (xfReq 1 curve time)

/-- HOLD (R147). An XF_REQ HOLD freezes a running crossfade. -/
def execHold (m : Master) (k : Nat) (s : State) : Host.Outcome State Fault Refusal :=
  s.act fun s => s.access m (pBat k) 0x084 (xfReq 2 0 0)

/-- RELEASE (R147). An XF_REQ RELEASE resumes a held crossfade. -/
def execRelease (m : Master) (k : Nat) (s : State) : Host.Outcome State Fault Refusal :=
  s.act fun s => s.access m (pBat k) 0x084 (xfReq 3 0 0)

/-- REVERSE (R147). An XF_REQ REVERSE reverses the direction of a crossfade. -/
def execReverse (m : Master) (k : Nat) (s : State) : Host.Outcome State Fault Refusal :=
  s.act fun s => s.access m (pBat k) 0x084 (xfReq 4 0 0)

/-- CANCEL_QUEUED (R147). An XF_REQ CANCEL_QUEUED discards a queued or deferred swap. -/
def execCancelQueued (m : Master) (k : Nat) (s : State) : Host.Outcome State Fault Refusal :=
  s.act fun s => s.access m (pBat k) 0x084 (xfReq 5 0 0)

/-- RAMP_REQ_LO_WRITE (R150). A master writes its own copy of the ramp target gain. -/
def execRampReqLoWrite (m : Master) (k v : Nat) (s : State) : Host.Outcome State Fault Refusal :=
  s.act fun s => s.access m (pBat k) 0x090 v

/-- RAMP_REQ_HI_WRITE (R152). A write of RAMP_REQ_HI submits a ramp request to the batten's queue, or is refused. -/
def execRampReqHiWrite (m : Master) (k v : Nat) (s : State) : Host.Outcome State Fault Refusal :=
  s.act fun s => s.access m (pBat k) 0x094 v

/-- LOAD_PLANE (R138). Command 0x01 on a BAT page copies 64 KiB into the shadow plane. -/
def execLoadPlane (m : Master) (k a0 a1 : Nat) (s : State) : Host.Outcome State Fault Refusal :=
  s.act fun s => s.cmdWith m (pBat k) 1 [Word.ofNat a0, Word.ofNat a1]

/-- LOAD_PLANE_COMPLETE (R138). A plane load finishes with DONE or FAILED, and the plane becomes ready at m + D. -/
def execLoadPlaneComplete (k : Nat) (s : State) : Host.Outcome State Fault Refusal :=
  s.act fun s => s.block .bat k fun s => s.loadPlaneDone k

/-- QUEUED_COMMAND_START (R568). A block starts the next command in its queue once the one before it has completed. -/
def execQueuedCommandStart (p : Nat) (s : State) : Host.Outcome State Fault Refusal := s.act fun s => s.startNext p

/-- CMD_UNKNOWN (R566). A CMD write with a code the page does not accept is queued and completes with REFUSED. -/
def execCmdUnknown (m : Master) (p code : Nat) (s : State) : Host.Outcome State Fault Refusal := s.act fun s => s.cmdIssue m p code

end Sys2Proof.Machine
end

