-- ==== Sys2Proof/Machine/ExecBench.lean ====
section
/-!
DEFINITION. The Benchmark measuring core and its mailbox (chapter 20). The core and its line lie outside the Stage die: the meaning of each command.
-/
namespace Sys2Proof.Machine

/-- BENCH_CORE_START (R609). The sealed core starts, checks its firmware CRC and writes a START entry. -/
def execBenchCoreStart (crc : Nat) (s : State) : Host.Outcome State Fault Refusal := s.always fun s => s.benchStart crc

/-- BENCH_PERIOD_END (R607). A 100 ms measuring period ends and the core sends a record. -/
def execBenchPeriodEnd (lv : List (Nat × Nat × Nat × Nat)) (overload fault : Nat) (sealLow : Bool) (s : State) : Host.Outcome State Fault Refusal :=
  s.always fun s => s.periodEnd (lv.map fun x => { laeq := x.1, top := x.2.1, peak := x.2.2.1, run := x.2.2.2 }) overload fault sealLow

/-- BENCH_MINUTE_END (R609). An RTC minute ends and the core writes a MINUTE log entry. -/
def execBenchMinuteEnd (laeq : List Nat) (s : State) : Host.Outcome State Fault Refusal := s.always fun s => s.minuteEnd laeq

/-- BENCH_INTEGRITY_CHECK (R600). The hourly firmware CRC is computed and INTEGRITY is set on a mismatch. -/
def execBenchIntegrityCheck (crc : Nat) (s : State) : Host.Outcome State Fault Refusal := s.always fun s => s.integrityCheck crc

/-- BENCH_RECORD (R608). A record arrives at BENCH_MAILBOX and is checked and latched. -/
def execBenchRecord (t : Nat) (err : List Nat) (s : State) : Host.Outcome State Fault Refusal := s.act fun s => s.benchRecord t err

/-- BENCH_SILENT (R608). No record is accepted for 300 ms and LIVE clears. -/
def execBenchSilent (s : State) : Host.Outcome State Fault Refusal := s.act fun s => s.benchSilent

/-- REC_0_READ (R608). A read of REC_0 latches the rest of the record and the arrival set. -/
def execRec0Read (m : Master) (s : State) : Host.Outcome State Fault Refusal := s.act fun s => s.regRead m pBench 0x0C0

/-- READ_LOG (R611). Command 0x01 on BENCH_MAILBOX copies log entries into LOG_BUF. -/
def execReadLog (m : Master) (a0 a1 : Nat) (s : State) : Host.Outcome State Fault Refusal :=
  s.act fun s => s.cmdWith m pBench 1 [Word.ofNat a0, Word.ofNat a1]

/-- READ_ID (R611). Command 0x02 on BENCH_MAILBOX fills ID_BUF with the core's identity. -/
def execReadId (m : Master) (s : State) : Host.Outcome State Fault Refusal := s.act fun s => s.cmdWith m pBench 2 []

/-- CAL_CHALLENGE (R614). Command 0x03 draws a fresh nonce for calibration entry. -/
def execCalChallenge (m : Master) (s : State) : Host.Outcome State Fault Refusal := s.act fun s => s.cmdWith m pBench 3 []

/-- CAL_ENTER (R615). Command 0x04 checks the tag, increments the seal counter and enters calibration. -/
def execCalEnter (m : Master) (s : State) : Host.Outcome State Fault Refusal := s.act fun s => s.cmdWith m pBench 4 []

/-- CAL_MEASURE (R617). Command 0x05 starts a 10 s calibrator measurement of a channel. -/
def execCalMeasure (m : Master) (a0 : Nat) (s : State) : Host.Outcome State Fault Refusal :=
  s.act fun s => s.cmdWith m pBench 5 [Word.ofNat a0]

/-- CAL_MEASURE_COMPLETE (R617). The 10 s measurement ends and sets the pending FS_SPL or fails. -/
def execCalMeasureComplete (level : Int) (tone : Bool) (s : State) : Host.Outcome State Fault Refusal :=
  s.always fun s => s.calMeasured level tone

/-- CAL_SETTINGS (R616). Command 0x06 sets pending channel settings and INT_LEN. -/
def execCalSettings (m : Master) (a0 a1 a2 : Nat) (s : State) : Host.Outcome State Fault Refusal :=
  s.act fun s => s.cmdWith m pBench 6 [Word.ofNat a0, Word.ofNat a1, Word.ofNat a2]

/-- CAL_SET_RTC (R616). Command 0x07 sets the pending RTC. -/
def execCalSetRtc (m : Master) (a0 : Nat) (s : State) : Host.Outcome State Fault Refusal :=
  s.act fun s => s.cmdWith m pBench 7 [Word.ofNat a0]

/-- CAL_COMMIT (R618). Command 0x08 writes the pending values to flash with a CAL entry. -/
def execCalCommit (m : Master) (s : State) : Host.Outcome State Fault Refusal := s.act fun s => s.cmdWith m pBench 8 []

/-- CAL_EXIT (R616). Command 0x09 leaves calibration and discards the pending copy. -/
def execCalExit (m : Master) (s : State) : Host.Outcome State Fault Refusal := s.act fun s => s.cmdWith m pBench 9 []

/-- CAL_AUTO_EXIT (R618). SEAL_N high, 30 minutes or a lost path makes the core leave calibration. -/
def execCalAutoExit (sealN : Bool) (s : State) : Host.Outcome State Fault Refusal := s.always fun s => s.calLeave sealN

/-- NONCE_EXPIRY (R614). A calibration nonce expires after 60 s. -/
def execNonceExpiry (s : State) : Host.Outcome State Fault Refusal := s.always fun s => s.nonceExpiry

/-- CAL_LOCKOUT_END (R614). The 10-minute lockout after three failed entries ends. -/
def execCalLockoutEnd (s : State) : Host.Outcome State Fault Refusal := s.always fun s => s.lockoutEnd

/-- UART_ID (R612). The line ID on METRO_RX is answered with the identity. -/
def execUartId (s : State) : Host.Outcome State Fault Refusal := s.always fun s => s.uartId

/-- UART_NOW (R612). The line NOW is answered with the RTC time and present levels. -/
def execUartNow (s : State) : Host.Outcome State Fault Refusal := s.always fun s => s.uartNow

/-- UART_LOG (R612). The line LOG s n is answered with n log entries. -/
def execUartLog (i n : Nat) (s : State) : Host.Outcome State Fault Refusal := s.always fun s => s.uartLog i n

/-- UART_ERR (R612). Any other line is answered with ERR. -/
def execUartErr (s : State) : Host.Outcome State Fault Refusal := s.always fun s => s.uart .uartErr

/-- GOV_CTRL_WRITE (R622). A write of GOV_CTRL enables the governor; clearing EN ramps ATT back to zero. -/
def execGovCtrlWrite (m : Master) (v : Nat) (s : State) : Host.Outcome State Fault Refusal := s.act fun s => s.access m pBench 0x100 v

end Sys2Proof.Machine
end

