-- ==== Sys2Proof/Machine/ExecCue.lean ====
section
/-!
DEFINITION. Cues and the tableau (chapter 09): the meaning of each command.
-/
namespace Sys2Proof.Machine

/-- GO (R320). Command 0x01 on PROMPT triggers a cue or the standby at once. -/
def execGo (m : Master) (a0 : Nat) (s : State) : Host.Outcome State Fault Refusal := s.act fun s => s.cmdWith m pPrompt 1 [Word.ofNat a0]

/-- GO_AT (R320). Command 0x02 on PROMPT triggers a cue or the standby at a given datum. -/
def execGoAt (m : Master) (a0 a1 a2 : Nat) (s : State) : Host.Outcome State Fault Refusal :=
  s.act fun s => s.cmdWith m pPrompt 2 [Word.ofNat a0, Word.ofNat a1, Word.ofNat a2]

/-- CANCEL (R303). Command 0x03 on PROMPT removes a waiting trigger if its boundary is far enough away. -/
def execCancel (m : Master) (a0 : Nat) (s : State) : Host.Outcome State Fault Refusal :=
  s.act fun s => s.cmdWith m pPrompt 3 [Word.ofNat a0]

/-- CANCEL_ALL (R303). Command 0x04 on PROMPT removes every trigger that can be removed. -/
def execCancelAll (m : Master) (s : State) : Host.Outcome State Fault Refusal := s.act fun s => s.cmdWith m pPrompt 4 []

/-- CUE_GO_EDGE (R295). An edge on CUE_GO triggers the standby, unless it falls within the lockout. -/
def execCueGoEdge (t : Nat) (rising : Bool) (s : State) : Host.Outcome State Fault Refusal := s.act fun s => s.cueGoEdge t rising

/-- STANDBY_WRITE (R296). A write of STANDBY sets the standby cue at once. -/
def execStandbyWrite (m : Master) (v : Nat) (s : State) : Host.Outcome State Fault Refusal := s.act fun s => s.access m pPrompt 0x084 v

/-- ACTION_GRAPH_COMMIT (R293). The Prompt issues a GRAPH_COMMIT tagged with b in the later of the acceptance sample and b − D. -/
def execActionGraphCommit (s : State) : Host.Outcome State Fault Refusal := s.act fun s => s.commitsDue

/-- TABLEAU_IN_EDGE (R308). An edge on TABLEAU_IN triggers a tableau. -/
def execTableauInEdge (t : Nat) (rising : Bool) (s : State) : Host.Outcome State Fault Refusal := s.act fun s => s.tabEdge t rising

/-- TRIGGER (R316). Command 0x01 on TABLEAU triggers a tableau at acceptance or at a datum. -/
def execTrigger (m : Master) (a0 a1 a2 : Nat) (s : State) : Host.Outcome State Fault Refusal :=
  s.act fun s => s.cmdWith m pTab 1 [Word.ofNat a0, Word.ofNat a1, Word.ofNat a2]

/-- TABLEAU_TIMED_CAPTURE (R316). The datum of a timed tableau trigger arrives and the tableau is captured. -/
def execTableauTimedCapture (t : Nat) (s : State) : Host.Outcome State Fault Refusal := s.act fun s => (s.tick t).tabTimed

/-- TABLEAU_EXT_DONE (R314). The extended copy into the tableau memory completes. -/
def execTableauExtDone (s : State) : Host.Outcome State Fault Refusal := s.act fun s => s.extDone

/-- TABLEAU_ACK (R310). A write of 1 to ACK clears UNREAD. -/
def execTableauAck (m : Master) (s : State) : Host.Outcome State Fault Refusal := s.act fun s => s.access m pTab 0x0A0 1

end Sys2Proof.Machine
end

