-- ==== Sys2Proof/Machine/ExecDatum.lean ====
section
/-!
DEFINITION. The datum, its servo and the time ports (chapter 08): the meaning of each command.
-/
namespace Sys2Proof.Machine

/-- PLL_LOCK (R250). The PLL first locks to REFCLK_IN and the raw counter starts. -/
def execPllLock (s : State) : Host.Outcome State Fault Refusal := s.act fun s => s.pllLock

/-- REF_FAULT (R251). REFCLK_IN stops or departs from 25 MHz and REF_OK clears. -/
def execRefFault (s : State) : Host.Outcome State Fault Refusal := s.act fun s => s.refFault

/-- REF_RECOVER (R251). REFCLK_IN has been within limits for 10 ms and the PLL relocks. -/
def execRefRecover (s : State) : Host.Outcome State Fault Refusal := s.act fun s => s.refRecover

/-- NOW_FRAC_READ (R256). A read of NOW_FRAC latches the datum and the raw counter. -/
def execNowFracRead (m : Master) (t : Nat) (s : State) : Host.Outcome State Fault Refusal :=
  s.act fun s => (s.tick t).regRead m pDatum 0x088

/-- STEP (R258). Command 0x01 on DATUM steps the datum by a signed amount. -/
def execStep (m : Master) (s : State) : Host.Outcome State Fault Refusal := s.act fun s => s.cmdWith m pDatum 1 []

/-- STEP_APPLY (R257). A step is applied right after the next strobe and waiting writes fall due at the next boundary. -/
def execStepApply (s : State) : Host.Outcome State Fault Refusal := s.act fun s => s.stepNow

/-- SLEW_PLAN_END (R261). A slew plan has removed its offset and RATE returns to I. -/
def execSlewPlanEnd (s : State) : Host.Outcome State Fault Refusal := s.act fun s => s.planDone

/-- HOLD_TIMEOUT_EXPIRY (R262). No offset arrives for HOLD_TIMEOUT; the servo switches source or enters HOLDOVER. -/
def execHoldTimeoutExpiry (t : Nat) (s : State) : Host.Outcome State Fault Refusal := s.act fun s => (s.tick t).holdExpiry

/-- DATUM_CTRL_WRITE (R263). A write of DATUM_CTRL sets the servo's sources; a write of SRC returns the servo to FREE. -/
def execDatumCtrlWrite (m : Master) (v : Nat) (s : State) : Host.Outcome State Fault Refusal := s.act fun s => s.access m pDatum 0x080 v

/-- SERVO_OFFSET_IN_HI_WRITE (R259). A write of SERVO_OFFSET_IN_HI delivers a firmware offset to the servo. -/
def execServoOffsetInHiWrite (m : Master) (v : Nat) (s : State) : Host.Outcome State Fault Refusal :=
  s.act fun s => s.access m pDatum 0x0E0 v

/-- ASYMMETRY_WRITE (R269). A write of ASYMMETRY or TP_LAT_ADJ of the servo's source puts the servo into SLEW at the next offset. -/
def execAsymmetryWrite (m : Master) (p : Nat) (adj : Bool) (v : Nat) (s : State) : Host.Outcome State Fault Refusal :=
  s.act fun s => s.access m p (if adj then 0x30C else 0x308) v

/-- TP_CTRL_WRITE (R288). A write of TP_CTRL sets a time port; a STATE other than SLAVE clears its path and jump state. -/
def execTpCtrlWrite (m : Master) (p v : Nat) (s : State) : Host.Outcome State Fault Refusal := s.act fun s => s.access m p 0x300 v

/-- SYNC_RX (R267). A port receives a PTP Sync and time-stamps it. -/
def execSyncRx (p t : Nat) (msg : PtpMsg) (s : State) : Host.Outcome State Fault Refusal :=
  s.act fun s => s.netPort p fun s => s.syncRx (pNet p) t msg

/-- FOLLOW_UP_RX (R267). A slave port receives a Follow_Up, computes an offset and delivers it unless withheld. -/
def execFollowUpRx (p : Nat) (msg : PtpMsg) (s : State) : Host.Outcome State Fault Refusal :=
  s.act fun s => s.netPort p fun s => s.followUpRx (pNet p) msg

/-- DELAY_REQ_RX (R265). A master port receives a Delay_Req and answers with a Delay_Resp. -/
def execDelayReqRx (p t : Nat) (msg : PtpMsg) (s : State) : Host.Outcome State Fault Refusal :=
  s.act fun s => s.netPort p fun s => s.delayReqRx (pNet p) t msg

/-- DELAY_RESP_RX (R270). A slave port receives a Delay_Resp and measures and filters the mean path delay. -/
def execDelayRespRx (p : Nat) (msg : PtpMsg) (s : State) : Host.Outcome State Fault Refusal :=
  s.act fun s => s.netPort p fun s => s.delayRespRx (pNet p) msg

/-- PDELAY_REQ_RX (R268). A port receives a Pdelay_Req and answers with a Pdelay_Resp. -/
def execPdelayReqRx (p t2 t3 : Nat) (msg : PtpMsg) (s : State) : Host.Outcome State Fault Refusal :=
  s.act fun s => s.netPort p fun s => s.pdelayReqRx (pNet p) t2 t3 msg

/-- PDELAY_RESP_RX (R267). A port receives a Pdelay_Resp of its peer-delay exchange. -/
def execPdelayRespRx (p t : Nat) (msg : PtpMsg) (s : State) : Host.Outcome State Fault Refusal :=
  s.act fun s => s.netPort p fun s => s.pdelayRespRx (pNet p) t msg

/-- PDELAY_RESP_FOLLOW_UP_RX (R267). A port receives a Pdelay_Resp_Follow_Up and measures the peer delay. -/
def execPdelayRespFollowUpRx (p : Nat) (msg : PtpMsg) (s : State) : Host.Outcome State Fault Refusal :=
  s.act fun s => s.netPort p fun s => s.pdelayFollowUpRx (pNet p) msg

/-- PTP_SYNC_SEND (R268). Every 2^LOG_SYNC s a master port sends a Sync, one-step or two-step. -/
def execPtpSyncSend (p t : Nat) (s : State) : Host.Outcome State Fault Refusal :=
  s.act fun s => s.netPort p fun s => s.syncSend (pNet p) t

/-- PTP_DELAY_REQ_SEND (R268). A port sends a Delay_Req or Pdelay_Req at its randomised interval. -/
def execPtpDelayReqSend (p t : Nat) (s : State) : Host.Outcome State Fault Refusal :=
  s.act fun s => s.netPort p fun s => s.delayReqSend (pNet p) t

/-- PPS_EDGE (R274). A PPS_IN edge is accepted and gives an offset. -/
def execPpsEdge (t : Nat) (falling : Bool) (s : State) : Host.Outcome State Fault Refusal := s.act fun s => (s.tick t).ppsEdge falling

/-- PPS_LOST (R274). No PPS_IN edge is accepted for 1.5 s and PPS_OK clears. -/
def execPpsLost (s : State) : Host.Outcome State Fault Refusal := s.act fun s => s.ppsLost

/-- CLK10M_GATE (R275). A 1 s gate of CLK10M_IN ends, the error is published and the integrator may be steered. -/
def execClk10mGate (t : Nat) (err : Int) (s : State) : Host.Outcome State Fault Refusal := s.act fun s => (s.tick t).clk10mGate err

/-- CLK10M_LOST (R275). CLK10M_IN has no edge for 1 µs and CLK10M_OK clears. -/
def execClk10mLost (s : State) : Host.Outcome State Fault Refusal := s.act fun s => s.clk10mLost

/-- PPS_OUT_PULSE (R276). At each datum whole second plus PPS_OUT_OFFSET, PPS_OUT pulses. -/
def execPpsOutPulse (s : State) : Host.Outcome State Fault Refusal := s.act fun s => s.ppsOut

end Sys2Proof.Machine
end

