-- ==== Sys2Proof/Machine/ExecGraph.lean ====
section
/-!
DEFINITION. Graph programs, the patch and the bridges (chapters 06 and 07): the meaning of each command.
-/
namespace Sys2Proof.Machine

/-- LOAD_GRAPH (R186). Command 0x01 on GRAPH checks a show image and stages it. -/
def execLoadGraph (m : Master) (a0 a1 : Nat) (s : State) : Host.Outcome State Fault Refusal :=
  s.act fun s => s.cmdWith m pGraph 1 [Word.ofNat a0, Word.ofNat a1]

/-- GRAPH_COMMIT (R191). Command 0x02 on GRAPH puts the staged image into service at boundary c. -/
def execGraphCommit (m : Master) (a0 a1 a2 : Nat) (s : State) : Host.Outcome State Fault Refusal :=
  s.act fun s => s.cmdWith m pGraph 2 [Word.ofNat a0, Word.ofNat a1, Word.ofNat a2]

/-- DISCARD (R188). Command 0x03 on GRAPH releases the staged image. -/
def execDiscard (m : Master) (a0 : Nat) (s : State) : Host.Outcome State Fault Refusal :=
  s.act fun s => s.cmdWith m pGraph 3 [Word.ofNat a0]

/-- COMMIT_COPY_DONE (R201). The copies of a topology change complete or fail; a failure marks the graph BROKEN. -/
def execCommitCopyDone (s : State) : Host.Outcome State Fault Refusal := s.act fun s => s.copiesMade

/-- IN_ROUTE_WRITE (R224). A write of IN_ROUTE changes the selected input entry at its boundary and advances AUTOINC. -/
def execInRouteWrite (m : Master) (v : Nat) (s : State) : Host.Outcome State Fault Refusal := s.act fun s => s.access m pPatch 0x08C v

/-- OUT_ROUTE_WRITE (R224). A write of OUT_ROUTE changes the selected output entry at its boundary and advances AUTOINC. -/
def execOutRouteWrite (m : Master) (v : Nat) (s : State) : Host.Outcome State Fault Refusal := s.act fun s => s.access m pPatch 0x094 v

/-- TONE_CFG_WRITE (R228). A boundary-applied write of TONE_CFG sets a tone generator and restarts it on a mode or frequency change. -/
def execToneCfgWrite (m : Master) (v : Nat) (s : State) : Host.Outcome State Fault Refusal := s.act fun s => s.access m pPatch 0x09C v

/-- INTERP_WRITE (R233). A boundary-applied write of an interpolator register reconfigures the channel and clears its history. -/
def execInterpWrite (m : Master) (j v : Nat) (s : State) : Host.Outcome State Fault Refusal :=
  s.act fun s => s.access m pPatch (0x0A4 + 4 * (j % 3)) v

/-- FAST_CFG_WRITE (R230). A write of FAST_CFG.MULT sets the fast-rate multiple. -/
def execFastCfgWrite (m : Master) (v : Nat) (s : State) : Host.Outcome State Fault Refusal := s.act fun s => s.access m pPatch 0x084 v

/-- CTRL_ENABLE_WRITE (R559). A write of CTRL.ENABLE enables or disables a port, bridge or network port. -/
def execCtrlEnableWrite (m : Master) (p : Nat) (en : Bool) (s : State) : Host.Outcome State Fault Refusal :=
  s.act fun s => s.access m p 0x00C (setBit (setBit (s.regN p 0x00C) 1 false) 0 en)

/-- BR_CFG_WRITE (R246). A write of BR_CFG.CLK_GROUP returns the bridge to NO_CLOCK, fading out first. -/
def execBrCfgWrite (m : Master) (b v : Nat) (s : State) : Host.Outcome State Fault Refusal :=
  s.act fun s => s.access m (pBridge b) 0x080 v

/-- BRIDGE_MAP_WRITE (R235). A boundary-applied write of IN_MAP or OUT_MAP maps a bridge channel to a foreign slot. -/
def execBridgeMapWrite (m : Master) (b : Nat) (out : Bool) (v : Nat) (s : State) : Host.Outcome State Fault Refusal :=
  s.act fun s => s.access m (pBridge b) (if out then 0x0A4 else 0x09C) v

/-- BRIDGE_EDGE_GAP (R236). A bridge sees no FSYNC edge for 250 µs and goes to NO_CLOCK. -/
def execBridgeEdgeGap (b : Nat) (s : State) : Host.Outcome State Fault Refusal := s.act fun s => s.block .bridge b fun s => s.brGap b

/-- BRIDGE_EDGES_PRESENT (R236). Edges have been present for 2 ms and the bridge enters ACQUIRE. -/
def execBridgeEdgesPresent (b : Nat) (s : State) : Host.Outcome State Fault Refusal :=
  s.act fun s => s.block .bridge b fun s => s.brPresent b

/-- BRIDGE_WINDOW (R236). A 16 ms rate window ends and the bridge locks, relocks or enters RANGE. -/
def execBridgeWindow (b r : Nat) (s : State) : Host.Outcome State Fault Refusal :=
  s.act fun s => s.block .bridge b fun s => s.brWindow b r

/-- BRIDGE_RATIO_UPDATE (R240). Every 1 ms a locked bridge updates RATIO and its published delays. -/
def execBridgeRatioUpdate (b r : Nat) (inOff outOff : Int) (s : State) : Host.Outcome State Fault Refusal :=
  s.act fun s => s.block .bridge b fun s => s.brRatio b r inOff outOff

/-- BRIDGE_FADE_END (R237). A bridge fade-out or ramp-in reaches its end. -/
def execBridgeFadeEnd (b : Nat) (s : State) : Host.Outcome State Fault Refusal := s.act fun s => s.block .bridge b fun s => s.brFadeEnd b

end Sys2Proof.Machine
end

