-- ==== Sys2Proof/Machine/ExecGrid.lean ====
section
/-!
DEFINITION. The Grid, the Catwalk, the control model and the host link (chapters 18 and 19): the meaning of each command.
-/
namespace Sys2Proof.Machine

/-- GRID_LOCK_SET (R544). A write of 1 to GRID_LOCK holds every class to its windows and freezes BT fields. -/
def execGridLockSet (m : Master) (s : State) : Host.Outcome State Fault Refusal := s.act fun s => (s.access m 1 0x080 1).retryStalled

/-- GRID_TIMEOUT (R540). A transaction has no response for TIMEOUT and completes with FAULT. -/
def execGridTimeout (m : Master) (id : Nat) (s : State) : Host.Outcome State Fault Refusal := s.act fun s => s.timeoutOf m id

/-- MASTER_RESET (R551). A master resets with transactions outstanding and they retire with ABORTED. -/
def execMasterReset (m : Master) (s : State) : Host.Outcome State Fault Refusal := s.act fun s => s.masterReset m.cls m.idx

/-- LAST_ERR_LO_READ (R552). A read of LAST_ERR_LO latches both error words. -/
def execLastErrLoRead (m : Master) (s : State) : Host.Outcome State Fault Refusal := s.act fun s => s.regRead m 1 0x0B4

/-- FUSE_READ (R550). The management core reads fuse words over the Catwalk. -/
def execFuseRead (first n : Nat) (s : State) : Host.Outcome State Fault Refusal := s.act fun s => s.fuseRead first n

/-- KEY_STORE_WRITE (R653). Boot code passes a wrapped key to the key store, which unwraps and stores it. -/
def execKeyStoreWrite (slot : Nat) (wrapped : List Byte) (s : State) : Host.Outcome State Fault Refusal :=
  s.act fun s => s.keyStore slot wrapped

/-- LEVEL_DIRECT_COMMAND (R636). The management core commands VCORE directly over the Catwalk in BOOT or SERVICE. -/
def execLevelDirectCommand (code : Nat) (s : State) : Host.Outcome State Fault Refusal := s.act fun s => s.levelDirect code

/-- SOFT_RESET (R560). A write of CTRL.SOFT_RESET makes the block's soft reset. -/
def execSoftReset (m : Master) (p : Nat) (s : State) : Host.Outcome State Fault Refusal :=
  s.act fun s => s.access m p 0x00C (setBit (s.regN p 0x00C) 1 true)

/-- EVENT_FORCE_WRITE (R573). A write of 1 to an EVENT_FORCE bit sets the EVENT bit. -/
def execEventForceWrite (m : Master) (p v : Nat) (s : State) : Host.Outcome State Fault Refusal := s.act fun s => s.access m p 0x01C v

/-- RING_TAIL_WRITE (R570). A write of RING_TAIL releases records and lets waiting records enter the ring. -/
def execRingTailWrite (m : Master) (v : Nat) (s : State) : Host.Outcome State Fault Refusal := s.act fun s => s.access m 0 0x0C4 v

/-- PCIE_CONFIG_REQUEST (R579). A PCI Express configuration request is retried before GRID_LOCK and served after it. -/
def execPcieConfigRequest (cfg : Option (Bool × Bool × Bool)) (s : State) : Host.Outcome State Fault Refusal :=
  s.act fun s => s.pcieConfig cfg

/-- PCIE_INBOUND_REQUEST (R580). A host request to BAR0 or BAR2 is decided by a HOST window and answered. -/
def execPcieInboundRequest (bar0 : Bool) (id a : Nat) (wr : Option (List (Byte × Bool))) (len : Nat) (s : State) : Host.Outcome State Fault Refusal :=
  s.act fun s => s.pcieInbound bar0 id a wr len

/-- PCIE_LINK_UP (R597). The PCI Express link reaches L0. -/
def execPcieLinkUp (speed width : Nat) (s : State) : Host.Outcome State Fault Refusal := s.act fun s => s.pcieUp speed width

/-- PCIE_LINK_DOWN (R583). The PCI Express link goes down and the HOST master resets. -/
def execPcieLinkDown (s : State) : Host.Outcome State Fault Refusal := s.act fun s => s.pcieDown

/-- RESTORE_FACTORY (R586). SYS command 0x01 copies CAL_FACTORY into CAL_USER. -/
def execRestoreFactory (m : Master) (a0 : Nat) (s : State) : Host.Outcome State Fault Refusal :=
  s.act fun s => s.cmdWith m 0 1 [Word.ofNat a0]

/-- FW_LOAD (R588). SYS command 0x02 verifies a firmware image and writes it into the other flash slot. -/
def execFwLoad (m : Master) (a0 a1 a2 : Nat) (s : State) : Host.Outcome State Fault Refusal :=
  s.act fun s => s.cmdWith m 0 2 [Word.ofNat a0, Word.ofNat a1, Word.ofNat a2]

/-- FW_RESTART (R589). SYS command 0x03 hot-restarts the management core into the other slot. -/
def execFwRestart (m : Master) (a0 : Nat) (s : State) : Host.Outcome State Fault Refusal := s.act fun s => s.cmdWith m 0 3 [Word.ofNat a0]

/-- FW_READY (R589). A write of FW_CTRL.READY ends the hot restart. -/
def execFwReady (m : Master) (s : State) : Host.Outcome State Fault Refusal := s.act fun s => s.access m 0 0x0DC 1

/-- FW_RESTART_TIMEOUT (R590). READY is not written within 1 s and the engine falls back to the old slot. -/
def execFwRestartTimeout (s : State) : Host.Outcome State Fault Refusal := s.act fun s => s.fwTimeout

/-- CAL_SAVE_USER (R587). SYS command 0x04 writes every CAL_USER area to flash. -/
def execCalSaveUser (m : Master) (s : State) : Host.Outcome State Fault Refusal := s.act fun s => s.cmdWith m 0 4 []

/-- CAL_SAVE_FACTORY (R587). SYS command 0x05 writes every CAL_FACTORY area to flash in SERVICE. -/
def execCalSaveFactory (m : Master) (s : State) : Host.Outcome State Fault Refusal := s.act fun s => s.cmdWith m 0 5 []

end Sys2Proof.Machine
end

