-- ==== Sys2Proof/Machine/ExecLane.lean ====
section
/-!
DEFINITION. The serial lanes and the Islos links (chapters 12 and 13): the meaning of each command.
-/
namespace Sys2Proof.Machine

/-- LANE_CFG_WRITE (R390). A write of LANE_CFG enables a lane into SEEK or sends it to OFF. -/
def execLaneCfgWrite (m : Master) (i v : Nat) (s : State) : Host.Outcome State Fault Refusal :=
  s.act fun s => s.access m (lanePage i) (laneBase i) v

/-- RETRAIN (R398). A write of LANE_CTRL.RETRAIN sends the lane to SEEK and clears RATE_FAIL. -/
def execRetrain (m : Master) (i : Nat) (s : State) : Host.Outcome State Fault Refusal :=
  s.act fun s => s.access m (lanePage i) (laneBase i + 0x0C) 1

/-- TS1_RX (R390). A lane receives an error-free TS1 and advances its training. -/
def execTs1Rx (i peer : Nat) (ack : Bool) (s : State) : Host.Outcome State Fault Refusal :=
  s.act fun s => s.onLane i fun s => s.ts1Rx i peer ack

/-- TS2_RX (R392). A lane receives a TS2 and, after eight naming one rate, changes to it. -/
def execTs2Rx (i peer rate : Nat) (s : State) : Host.Outcome State Fault Refusal := s.act fun s => s.onLane i fun s => s.ts2Rx i peer rate

/-- SEEK_ATTEMPT_END (R391). A 1 ms attempt in SEEK ends without LOCK and the lane waits at idle. -/
def execSeekAttemptEnd (i : Nat) (s : State) : Host.Outcome State Fault Refusal := s.act fun s => s.onLane i fun s => s.attemptEnd i

/-- SEEK_WAIT_END (R391). A back-off wait ends and the next attempt starts. -/
def execSeekWaitEnd (i : Nat) (s : State) : Host.Outcome State Fault Refusal := s.act fun s => s.onLane i fun s => s.waitEnd i

/-- TRAIN_TIMEOUT (R390). A lane stays 1 ms in LOCK or AGREE without progress and returns to SEEK. -/
def execTrainTimeout (i : Nat) (s : State) : Host.Outcome State Fault Refusal := s.act fun s => s.onLane i fun s => s.trainTimeout i

/-- RATE_CHANGE_TIMEOUT (R392). A receiver does not align within 100 µs of a rate change; the rate is struck. -/
def execRateChangeTimeout (i : Nat) (s : State) : Host.Outcome State Fault Refusal := s.act fun s => s.onLane i fun s => s.rateTimeout i

/-- DESKEW_DONE (R393). Alignment of a bond completes and its lanes enter UP, or a lane fails to join. -/
def execDeskewDone (n : Nat) (lag : List Nat) (s : State) : Host.Outcome State Fault Refusal :=
  s.act fun s => s.block .link n fun s => (s.deskewDone n lag).linkUpdate n

/-- LOS_DETECT (R388). The receive amplitude stays below threshold and loss of signal is declared. -/
def execLosDetect (i : Nat) (s : State) : Host.Outcome State Fault Refusal := s.act fun s => s.onLane i fun s => s.los i

/-- LOS_CLEAR (R388). The receive amplitude returns and LOS clears. -/
def execLosClear (i : Nat) (s : State) : Host.Outcome State Fault Refusal := s.act fun s => s.onLane i fun s => s.losClear i

/-- LOL_DETECT (R389). Frequency, alignment or error limits are broken and loss of lock is declared. -/
def execLolDetect (i errs : Nat) (s : State) : Host.Outcome State Fault Refusal := s.act fun s => s.onLane i fun s => s.lol i errs

/-- EIOS_RX (R394). A receiver recognises the electrical idle ordered set and enters idle. -/
def execEiosRx (i : Nat) (s : State) : Host.Outcome State Fault Refusal := s.act fun s => s.onLane i fun s => s.eiosRx i

/-- IDLE_EXIT_DETECT (R395). An idle receiver detects amplitude and begins the exit. -/
def execIdleExitDetect (i : Nat) (s : State) : Host.Outcome State Fault Refusal := s.act fun s => s.onLane i fun s => s.idleExit i

/-- IDLE_TIMEOUT (R395). No exit begins within IDLE_TIMEOUT and the lane declares LOS. -/
def execIdleTimeout (i : Nat) (s : State) : Host.Outcome State Fault Refusal := s.act fun s => s.onLane i fun s => s.idleTimeout i

/-- FTB_END (R396). A fast training burst ends and the receiver aligns or declares LOL. -/
def execFtbEnd (i pairs : Nat) (s : State) : Host.Outcome State Fault Refusal := s.act fun s => s.onLane i fun s => s.ftbEnd i pairs

/-- LOOPBACK_TEST_END (R501). A 1 ms loopback test of an idle lane ends, passes or fails. -/
def execLoopbackTestEnd (i : Nat) (ok : Bool) (s : State) : Host.Outcome State Fault Refusal :=
  s.act fun s => s.onLane i fun s => s.loopbackEnd i ok

/-- LINK_CFG_WRITE (R425). A write of LINK_CFG enables or configures an Islos link. -/
def execLinkCfgWrite (m : Master) (n v : Nat) (s : State) : Host.Outcome State Fault Refusal :=
  s.act fun s => s.access m (pLink n) 0x080 v

/-- LINK_CTRL_WRITE (R405). A write of LINK_CTRL.PARK parks or unparks lanes from the next frame start. -/
def execLinkCtrlWrite (m : Master) (n v : Nat) (s : State) : Host.Outcome State Fault Refusal :=
  s.act fun s => s.access m (pLink n) 0x090 v

/-- AUDIO_BLOCK_SEND (R409). Once the output patch is done with a block's last sample, the link sends that block's audio frames. -/
def execAudioBlockSend (n k : Nat) (s : State) : Host.Outcome State Fault Refusal :=
  s.act fun s => s.block .link n fun s => s.audioSend n k

/-- AUDIO_FRAME_RX (R411). An audio frame is received, checked for time and map, and its samples held for presentation. -/
def execAudioFrameRx (n lanes g c b idx : Nat) (held silent hdr errs : Bool) (samples : List (List Word)) (s : State) : Host.Outcome State Fault Refusal :=
  s.act fun s => s.block .link n fun s => s.audioRx n lanes g c b idx held silent hdr errs samples

/-- GROUP_RAMP_END (R413). A receive group completes its ramp-in and enters RUN. -/
def execGroupRampEnd (n g : Nat) (s : State) : Host.Outcome State Fault Refusal :=
  s.act fun s => s.block .link n fun s => s.groupRampEnd n g

/-- GROUP_FADE_END (R413). A receive group completes its fade and enters ACQUIRE. -/
def execGroupFadeEnd (n g : Nat) (s : State) : Host.Outcome State Fault Refusal :=
  s.act fun s => s.block .link n fun s => s.groupFadeEnd n g

/-- CONTROL_FRAME_RX (R416). A control frame is received; its ACK is taken and the expected frame is accepted. -/
def execControlFrameRx (n lanes seq ack : Nat) (ackOnly ok good : Bool) (s : State) : Host.Outcome State Fault Refusal :=
  s.act fun s => s.block .link n fun s => s.ctlFrameRx n lanes seq ack ackOnly ok good

/-- ACK_ONLY_TIMER (R416). Nothing carrying an ACK leaves within 2 µs of an acceptance and an ACK_ONLY frame is sent. -/
def execAckOnlyTimer (n : Nat) (s : State) : Host.Outcome State Fault Refusal := s.act fun s => s.block .link n fun s => s.ackTimer n

/-- RETX_TIMEOUT (R416). ACK does not advance within RETX_TIMEOUT; frames are resent or the channel fails. -/
def execRetxTimeout (n : Nat) (s : State) : Host.Outcome State Fault Refusal := s.act fun s => s.block .link n fun s => s.retxTimeout n

/-- TIME_FRAME_SEND (R418). Every 1 ms an end sends a time frame with its departure time. -/
def execTimeFrameSend (n t : Nat) (s : State) : Host.Outcome State Fault Refusal :=
  s.act fun s => s.block .link n fun s => s.timeFrameSend (pLink n) t

/-- TIME_FRAME_RX (R272). A time frame is received and gives a path delay and offset. -/
def execTimeFrameRx (n t : Nat) (dep ownDep ownArr : Int) (s : State) : Host.Outcome State Fault Refusal :=
  s.act fun s => s.block .link n fun s => s.timeFrameRx (pLink n) t dep ownDep ownArr

/-- MARKER_RX (R273). A K28.3 marker is time-stamped and BOUNDARY_SKEW is published. -/
def execMarkerRx (n t residual b : Nat) (s : State) : Host.Outcome State Fault Refusal :=
  s.act fun s => s.block .link n fun s => s.markerRx n t residual b

/-- HEARTBEAT_RX (R420). A valid heartbeat latches the peer's role, health and index. -/
def execHeartbeatRx (n lanes : Nat) (ok : Bool) (role ack idx health : Nat) (s : State) : Host.Outcome State Fault Refusal :=
  s.act fun s => s.block .link n fun s => s.heartbeatRx n lanes ok role ack idx health

/-- HB_TIMEOUT_EXPIRY (R420). No valid heartbeat arrives for HB_TIMEOUT intervals and HB_OK clears. -/
def execHbTimeoutExpiry (n : Nat) (s : State) : Host.Outcome State Fault Refusal := s.act fun s => s.block .link n fun s => s.hbTimeout n

/-- IDLE_EXIT_REQUEST (R422). A quiet Islos transmitter at electrical idle requests its exit early enough for the first symbol of its next scheduled send to leave on time. -/
def execIdleExitRequest (n : Nat) (s : State) : Host.Outcome State Fault Refusal :=
  s.act fun s => s.block .link n fun s => s.idleExitRequest n

end Sys2Proof.Machine
end

