-- ==== Sys2Proof/Machine/ExecNet.lean ====
section
/-!
DEFINITION. The network ports (chapter 14): the meaning of each command.
-/
namespace Sys2Proof.Machine

/-- NET_LINK_CHANGE (R431). A network port's link comes up or goes down after synchronisation and negotiation. -/
def execNetLinkChange (p : Nat) (sync up full : Bool) (speed : Nat) (s : State) : Host.Outcome State Fault Refusal :=
  s.act fun s => s.block .net p fun s => s.netLinkChange p sync { up := up, full := full, speed := speed }

/-- NET_FRAME_RX (R432). A received Ethernet frame is sorted to PTP, control datagrams, a listener, firmware or discard. -/
def execNetFrameRx (p : Nat) (frame : List Byte) (s : State) : Host.Outcome State Fault Refusal :=
  s.act fun s => s.netPort p fun s => s.netFrameRx p frame

/-- MGMT_FRAME_SEND (R433). Management firmware sends a frame in traffic class TC_0. -/
def execMgmtFrameSend (p : Nat) (frame : List Byte) (s : State) : Host.Outcome State Fault Refusal :=
  s.act fun s => s.netPort p fun s => s.mgmtSend p frame

/-- STREAM_ADD (R437). Command 0x01 on NET_0 reads a stream descriptor and adds a talker or listener context. -/
def execStreamAdd (m : Master) (a0 a1 : Nat) (s : State) : Host.Outcome State Fault Refusal :=
  s.act fun s => s.cmdWith m (pNet 0) 1 [Word.ofNat a0, Word.ofNat a1]

/-- STREAM_REMOVE (R437). Command 0x02 on NET_0 stops a stream context and returns its bandwidth. -/
def execStreamRemove (m : Master) (a0 : Nat) (s : State) : Host.Outcome State Fault Refusal :=
  s.act fun s => s.cmdWith m (pNet 0) 2 [Word.ofNat a0]

/-- TALKER_PACKET_SEND (R438). After the done point of a packet's last sample, a talker sends one RTP packet. -/
def execTalkerPacketSend (c k : Nat) (s : State) : Host.Outcome State Fault Refusal :=
  s.act fun s => s.block .net 0 fun s => s.talkerSend c k

/-- LISTENER_PACKET_RX (R440). A listener takes an RTP packet, merges the two paths and holds its samples for presentation. -/
def execListenerPacketRx (p : Nat) (frame : List Byte) (s : State) : Host.Outcome State Fault Refusal :=
  s.act fun s => s.netPort p fun s => s.listenerRx p frame

/-- CONTROL_DATAGRAM_RX (R444). A control datagram is checked for length, CRC, key, tag, sequence and time. -/
def execControlDatagramRx (p : Nat) (frame : List Byte) (s : State) : Host.Outcome State Fault Refusal :=
  s.act fun s => s.netPort p fun s => s.cdgRx p frame

/-- CDG_GO (R445). A datagram GO triggers a cue as source 0x3. -/
def execCdgGo (s : State) : Host.Outcome State Fault Refusal := s.act fun s => s.block .net 0 fun s => s.cdgGo

/-- CDG_GO_AT (R445). A datagram GO_AT triggers a cue at a datum as source 0x4. -/
def execCdgGoAt (s : State) : Host.Outcome State Fault Refusal := s.act fun s => s.block .net 0 fun s => s.cdgGoAt

/-- CDG_WRITE (R445). A datagram WRITE makes a 32-bit management-core write. -/
def execCdgWrite (s : State) : Host.Outcome State Fault Refusal := s.act fun s => s.block .net 0 fun s => s.cdgWrite

/-- CDG_READ (R445). A datagram READ reads a 32-bit register and returns it in the reply. -/
def execCdgRead (s : State) : Host.Outcome State Fault Refusal := s.act fun s => s.block .net 0 fun s => s.cdgRead

/-- CDG_MAILBOX (R445). A datagram MAILBOX is delivered to management firmware. -/
def execCdgMailbox (s : State) : Host.Outcome State Fault Refusal := s.act fun s => s.block .net 0 fun s => s.cdgMail

/-- SGMII_SPEED_CHANGE (R437). The SGMII in-band word changes the link speed while the link stays up; NET_STAT.SPEED follows it, and talkers are shed with BW_SHED or resumed. -/
def execSgmiiSpeedChange (p speed : Nat) (s : State) : Host.Outcome State Fault Refusal :=
  s.act fun s => s.block .net p fun s => s.sgmiiSpeed p speed

end Sys2Proof.Machine
end

