-- ==== Sys2Proof/Machine/ExecPort.lean ====
section
/-!
DEFINITION. The serial audio ports and the decimators (chapters 10 and 11): the meaning of each command.
-/
namespace Sys2Proof.Machine

/-- CG_CFG_WRITE (R328). A write of CG_CFG or CG_RATE sets a clock group's format and direction. -/
def execCgCfgWrite (m : Master) (g : Nat) (rate : Bool) (v : Nat) (s : State) : Host.Outcome State Fault Refusal :=
  s.act fun s => s.access m (pPort g) (if rate then 0x0C4 else 0x0C0) v

/-- MCLK_CFG_WRITE (R332). A write of MCLK_CFG starts, stops or holds low an MCLK output. -/
def execMclkCfgWrite (m : Master) (n v : Nat) (s : State) : Host.Outcome State Fault Refusal :=
  s.act fun s => s.access m (pPort n) 0x0CC v

/-- PORT_CFG_WRITE (R333). A write of PORT_CFG enables directions and sets a port's format. -/
def execPortCfgWrite (m : Master) (p v : Nat) (s : State) : Host.Outcome State Fault Refusal :=
  s.act fun s => s.access m (pPort p) 0x080 v

/-- FSYNC_EDGE (R340). A port time-stamps an FSYNC leading edge and assigns the frame to a sample, or finds a slip. -/
def execFsyncEdge (p t bclks : Nat) (slots : List Nat) (done : Option Nat) (s : State) : Host.Outcome State Fault Refusal :=
  s.act fun s => s.block .port p fun s => s.frameEdge p t bclks slots done

/-- FRAME_WINDOW_END (R345). A frame's window ends with no leading edge in it, which is a MISSING fault. -/
def execFrameWindowEnd (p t bclks : Nat) (slots : List Nat) (s : State) : Host.Outcome State Fault Refusal :=
  s.act fun s => s.block .port p fun s => s.windowEnd p t bclks slots

/-- CLK_LOST (R330). A slave group sees no leading edge for four frame periods and CLK_OK clears. -/
def execClkLost (g t : Nat) (s : State) : Host.Outcome State Fault Refusal := s.act fun s => s.block .port g fun s => s.clkLost g t

/-- PORT_RAMP_END (R346). N_F frames of RAMP_IN have passed and the direction enters RUN. -/
def execPortRampEnd (p : Nat) (tx : Bool) (t : Nat) (s : State) : Host.Outcome State Fault Refusal :=
  s.act fun s => s.block .port p fun s => s.portRampEnd p tx t

/-- PORT_FADE_END (R346). N_F frames of FADE have passed and the direction enters ACQUIRE. -/
def execPortFadeEnd (p : Nat) (tx : Bool) (t : Nat) (s : State) : Host.Outcome State Fault Refusal :=
  s.act fun s => s.block .port p fun s => s.portFadeEnd p tx t

/-- MASK_COMMIT (R338). A boundary-applied write of MASK_COMMIT captures SLOT_MASK_NEXT and changes the mask at its boundary. -/
def execMaskCommit (m : Master) (p : Nat) (s : State) : Host.Outcome State Fault Refusal := s.act fun s => s.access m (pPort p) 0x090 1

/-- BLK_FRAC_READ (R343). A read of BLK_FRAC latches the block stamp set. -/
def execBlkFracRead (m : Master) (p : Nat) (s : State) : Host.Outcome State Fault Refusal := s.act fun s => s.regRead m (pPort p) 0x0A8

/-- DEC_CONFIG_WRITE (R369). A boundary-applied write of DEC_SRC, DEC_ST01, DEC_ST23 or DEC_PHASE reconfigures and may clear a decimator channel. -/
def execDecConfigWrite (m : Master) (j v : Nat) (s : State) : Host.Outcome State Fault Refusal :=
  s.act fun s => s.access m pDecim (if j % 4 = 3 then 0x0A0 else 0x084 + 4 * (j % 4)) v

/-- DEC_GC_WRITE (R366). A boundary-applied write of GCORR changes a stage's gain and keeps the history. -/
def execDecGcWrite (m : Master) (j v : Nat) (s : State) : Host.Outcome State Fault Refusal :=
  s.act fun s => s.access m pDecim (0x090 + 4 * (j % 4)) v

/-- PDM_CLK_CFG_WRITE (R362). A write of PDM_CLK_CFG starts or stops a PDM clock. -/
def execPdmClkCfgWrite (m : Master) (k v : Nat) (s : State) : Host.Outcome State Fault Refusal :=
  s.act fun s => s.access m pDecim (0x0B0 + 4 * (k % 4)) v

/-- SYNC (R373). Command 0x01 on DECIM clears the channels of a mask of sync groups at an instant. -/
def execSync (m : Master) (a0 a1 a2 : Nat) (s : State) : Host.Outcome State Fault Refusal :=
  s.act fun s => s.cmdWith m pDecim 1 [Word.ofNat a0, Word.ofNat a1, Word.ofNat a2]

/-- SYNC_INSTANT (R368). The instant of a SYNC arrives and the channels of its groups are cleared. -/
def execSyncInstant (t : Nat) (s : State) : Host.Outcome State Fault Refusal := s.act fun s => s.syncInstant t

end Sys2Proof.Machine
end

