-- ==== Sys2Proof/Machine/ExecPower.lean ====
section
/-!
DEFINITION. Power, boot and modes (chapter 21). The supervisor lies outside the Stage die: the meaning of each command.
-/
namespace Sys2Proof.Machine

/-- VIN_RISE (R629). VIN rises through the under-voltage threshold and the supervisor makes a power-on. -/
def execVinRise (s : State) : Host.Outcome State Fault Refusal := s.always fun s => s.vinRise

/-- VIN_FALL (R629). VIN falls through the under-voltage threshold; the Stage die is reset and the part enters WATCH. -/
def execVinFall (s : State) : Host.Outcome State Fault Refusal := s.always fun s => s.vinFall

/-- VIN_OVERVOLTAGE (R629). VIN rises through the over-voltage shutdown and the rails are sequenced down. -/
def execVinOvervoltage (s : State) : Host.Outcome State Fault Refusal := s.always fun s => s.vinOver

/-- KEEP_ALIVE_LOSS (R629). VIN falls below the keep-alive threshold and PD0 and PD1 stop. -/
def execKeepAliveLoss (s : State) : Host.Outcome State Fault Refusal := s.always fun s => s.keepLost

/-- PG_RISE (R633). A rail's PG rises and the power-on sequence goes on, releasing the reset after PG_5. -/
def execPgRise (i : Nat) (s : State) : Host.Outcome State Fault Refusal := s.always fun s => s.pgRise i

/-- PG_TIMEOUT (R634). A PG does not rise within 10 ms of its EN, which is a rail fault. -/
def execPgTimeout (i : Nat) (s : State) : Host.Outcome State Fault Refusal := s.always fun s => s.pgTimeout i

/-- PG_DROP (R634). A PG falls for 2 µs after rising, which is a rail fault. -/
def execPgDrop (i : Nat) (s : State) : Host.Outcome State Fault Refusal := s.always fun s => s.pgDrop i

/-- VAUX_OVERLOAD (R630). A V_AUX load above 250 mA for 1 ms is a rail fault. -/
def execVauxOverload (s : State) : Host.Outcome State Fault Refusal := s.always fun s => s.vauxOver

/-- THERMAL_SHUTDOWN (R637). The junction reaches 125 °C and is treated as a rail fault. -/
def execThermalShutdown (s : State) : Host.Outcome State Fault Refusal := s.always fun s => s.thermal

/-- RAIL_RETRY (R634). 1 s, or 10 s after a thermal fault, the supervisor tries a new power-on. -/
def execRailRetry (s : State) : Host.Outcome State Fault Refusal := s.always fun s => s.railRetry

/-- RTC_WAKE (R631). The RTC reaches WAKE_AT in OFF or WATCH and the supervisor makes a power-on. -/
def execRtcWake (s : State) : Host.Outcome State Fault Refusal := s.always fun s => s.rtcWake

/-- RESET_N_ASSERT (R645). RESET_N is held low, which resets the Stage die or wakes the part. -/
def execResetNAssert (s : State) : Host.Outcome State Fault Refusal := s.always fun s => s.resetLow

/-- RESET_N_RELEASE (R645). RESET_N returns high and the Stage-die reset is released. -/
def execResetNRelease (s : State) : Host.Outcome State Fault Refusal := s.always fun s => s.resetHigh

/-- BOOT_ROM_START (R651). At reset release the straps are sampled and the boot ROM verifies and starts an image. -/
def execBootRomStart (primary : Bool) (cfg bootsel : Nat) (answered : Bool) (version : Nat) (s : State) : Host.Outcome State Fault Refusal :=
  s.act fun s => s.bootStart primary cfg bootsel answered version

/-- TEMP_SAMPLE (R637). Every 1 ms the junction temperature is read and HOT updated. -/
def execTempSample (t : Int) (s : State) : Host.Outcome State Fault Refusal := s.act fun s => s.tempSample t

/-- VIN_MEASURE (R656). Every 1 ms VIN is measured and VIN_LOW updated. -/
def execVinMeasure (mv : Nat) (s : State) : Host.Outcome State Fault Refusal := s.act fun s => s.vinMeasure mv

/-- PD_CTRL_WRITE (R639). A write of PD_CTRL switches domains on or off, or sets PD8 retention. -/
def execPdCtrlWrite (m : Master) (v : Nat) (s : State) : Host.Outcome State Fault Refusal := s.act fun s => s.access m pPower 0x08C v

/-- DOMAIN_ON (R639). A waking power domain reaches full operation and PD_ON is raised. -/
def execDomainOn (d : Nat) (s : State) : Host.Outcome State Fault Refusal := s.act fun s => s.domainOn d

/-- SET_MODE (R642). Command 0x01 on POWER changes the mode at c under the transitions of R643. -/
def execSetMode (m : Master) (a0 : Nat) (s : State) : Host.Outcome State Fault Refusal :=
  s.act fun s => s.cmdWith m pPower 1 [Word.ofNat a0]

/-- WDOG_KICK (R647). A write of 0xA5C3 to WDOG_KICK restarts the watchdog count. -/
def execWdogKick (m : Master) (v : Nat) (s : State) : Host.Outcome State Fault Refusal := s.act fun s => s.access m pPower 0x0A0 v

/-- WATCHDOG_TIMEOUT (R647). The watchdog count reaches TIMEOUT and a watchdog reset follows. -/
def execWatchdogTimeout (s : State) : Host.Outcome State Fault Refusal := s.restart fun s => s.watchdog

/-- POWER_DOWN_PG_FALL (R635). During a power-down sequence a rail's PG falls and the next EN in reverse order is driven low. -/
def execPowerDownPgFall (i : Nat) (s : State) : Host.Outcome State Fault Refusal := s.always fun s => s.pgFall i

/-- RAIL_SEQUENCE_DELAY (R633). The 1 ms sequencing delay after a PG rise, or after an EN fall in power-down, expires and the supervisor moves the next EN or releases the reset. -/
def execRailSequenceDelay (s : State) : Host.Outcome State Fault Refusal := s.always fun s => s.sequenceDelay

/-- OVER_VOLTAGE_RECOVERY (R629). After an over-voltage shutdown VIN falls below 60.0 V, which allows the supervisor to make a power-on again. -/
def execOverVoltageRecovery (s : State) : Host.Outcome State Fault Refusal := s.always fun s => s.vinRecover

end Sys2Proof.Machine
end

