-- ==== Sys2Proof/Machine/ExecRed.lean ====
section
/-!
DEFINITION. The messages of the Islos control channel and redundancy (chapters 13 and 15): the meaning of each command.
-/
namespace Sys2Proof.Machine

/-- FORWARD_WRITE (R459). A forwarded WRITE record is held and applied at its boundary. -/
def execForwardWrite (n b who addr : Nat) (words : List Word) (s : State) : Host.Outcome State Fault Refusal :=
  s.act fun s => s.message n fun s => s.recordRx n b (.write who addr words)

/-- FORWARD_WRITE_BYTES (R459). A forwarded partial-byte write record is held and applied at its boundary. -/
def execForwardWriteBytes (n b who addr mask : Nat) (v : Word) (s : State) : Host.Outcome State Fault Refusal :=
  s.act fun s => s.message n fun s => s.recordRx n b (.writeBytes who addr mask v)

/-- FORWARD_RAMP (R459). A forwarded ramp request is submitted for its boundary. -/
def execForwardRamp (n b bat : Nat) (lo : Word) (hi : Nat) (s : State) : Host.Outcome State Fault Refusal :=
  s.act fun s => s.message n fun s => s.recordRx n b (.ramp bat lo hi)

/-- FORWARD_TRIGGER (R460). A forwarded trigger is kept and runs as source 0x7 at its boundary. -/
def execForwardTrigger (n b cue standby : Nat) (s : State) : Host.Outcome State Fault Refusal :=
  s.act fun s => s.message n fun s => s.recordRx n b (.trigger cue standby)

/-- FORWARD_CANCEL (R459). A forwarded CANCEL removes a waiting trigger. -/
def execForwardCancel (n b cue : Nat) (s : State) : Host.Outcome State Fault Refusal :=
  s.act fun s => s.message n fun s => s.recordRx n b (.cancel cue)

/-- FORWARD_STANDBY (R459). A forwarded STANDBY value is applied on receipt. -/
def execForwardStandby (n v : Nat) (s : State) : Host.Outcome State Fault Refusal :=
  s.act fun s => s.message n fun s => s.recordRx n 0 (.standby v)

/-- FORWARD_COMMIT (R204). A forwarded commit makes the understudy commit its own staged image at c. -/
def execForwardCommit (n b id crc : Nat) (s : State) : Host.Outcome State Fault Refusal :=
  s.act fun s => s.message n fun s => s.recordRx n b (.commit id crc)

/-- FORWARD_PLANE_READY (R459). A forwarded plane-ready boundary marks the understudy's shadow ready there. -/
def execForwardPlaneReady (n b bat : Nat) (s : State) : Host.Outcome State Fault Refusal :=
  s.act fun s => s.message n fun s => s.recordRx n b (.planeReady bat)

/-- FORWARD_DSYNC (R459). A forwarded decimator SYNC clears the named groups at its instant. -/
def execForwardDsync (n mask t : Nat) (s : State) : Host.Outcome State Fault Refusal :=
  s.act fun s => s.message n fun s => s.recordRx n 0 (.dsync mask t)

/-- FORWARD_SELECTED (R459). A forwarded write to a select-reached register or MASK_COMMIT is applied to the entry it names. -/
def execForwardSelected (n b who addr sel : Nat) (v : Word) (s : State) : Host.Outcome State Fault Refusal :=
  s.act fun s => s.message n fun s => s.recordRx n b (.selected who addr sel v)

/-- ABDICATE (R467). An ABDICATE message from the principal makes the understudy take over at T. -/
def execAbdicate (n t _cause : Nat) (s : State) : Host.Outcome State Fault Refusal :=
  s.act fun s => s.message n fun s => s.abdicateMsg n t

/-- HELLO (R455). A HELLO is compared with the part's own and may raise STRAP_CLASH. -/
def execHello (n cfg primary rank version graphId : Nat) (s : State) : Host.Outcome State Fault Refusal :=
  s.act fun s => s.message n fun s => s.hello n cfg primary rank version graphId

/-- REQUEST (R684). A joiner's REQUEST makes the source fix the hold boundary h and send START. -/
def execRequest (n : Nat) (s : State) : Host.Outcome State Fault Refusal := s.act fun s => s.message n fun s => s.requestMsg n

/-- START (R477). A START with h moves the joiner into COPY. -/
def execStart (n h : Nat) (s : State) : Host.Outcome State Fault Refusal := s.act fun s => s.message n fun s => s.startMsg n h

/-- REGION (R478). A REGION of state captured in sample r is received for installation. -/
def execRegion (n r addr : Nat) (words : List Word) (s : State) : Host.Outcome State Fault Refusal :=
  s.act fun s => s.message n fun s => s.regionMsg n r addr words

/-- COPY_DONE (R477). COPY_DONE with every REGION installed moves the joiner into WARM. -/
def execCopyDone (n count : Nat) (s : State) : Host.Outcome State Fault Refusal := s.act fun s => s.message n fun s => s.copyDone n count

/-- JOINED (R480). A JOINED message gives the join boundary j, which the source records. -/
def execJoined (n j : Nat) (s : State) : Host.Outcome State Fault Refusal := s.act fun s => s.message n fun s => s.joinedMsg n j

/-- REFUSE (R477). A REFUSE from the source ends catch-up with FAILED. -/
def execRefuse (n reason : Nat) (s : State) : Host.Outcome State Fault Refusal := s.act fun s => s.message n fun s => s.refuseMsg n reason

/-- MIRROR_GO (R304). A mirrored GO is accepted, merged with a held run, or discarded. -/
def execMirrorGo (n cue b : Nat) (s : State) : Host.Outcome State Fault Refusal := s.act fun s => s.message n fun s => s.mirrorGo n cue b

/-- TABLEAU_MESSAGE (R317). A tableau message over Islos triggers a tableau at its datum, or is late. -/
def execTableauMessage (n t : Nat) (s : State) : Host.Outcome State Fault Refusal := s.act fun s => s.message n fun s => s.tabMessage t

/-- MAILBOX (R417). A MAILBOX message is delivered to the far end's management firmware. -/
def execMailbox (n : Nat) (body : List Byte) (s : State) : Host.Outcome State Fault Refusal :=
  s.act fun s => s.message n fun s => s.emit (.toFirmware n body)

/-- ROLE_CFG_WRITE (R452). A write of ROLE_CFG sets the configuration in BOOT or DARK. -/
def execRoleCfgWrite (m : Master) (v : Nat) (s : State) : Host.Outcome State Fault Refusal := s.act fun s => s.access m pRed 0x080 v

/-- ELECTION_TIMEOUT (R470). The start-up listening period ends and the part takes a role. -/
def execElectionTimeout (s : State) : Host.Outcome State Fault Refusal := s.act fun s => s.electionTimeout

/-- SD_PENDING_CLEAR (R465). A W1C write of SD_PENDING withdraws an abdication or allows rejoining. -/
def execSdPendingClear (m : Master) (v : Nat) (s : State) : Host.Outcome State Fault Refusal := s.act fun s => s.access m pRed 0x094 v

/-- HANDOVER (R466). Command 0x01 on REDUNDANCY abdicates to an eligible understudy. -/
def execHandover (m : Master) (s : State) : Host.Outcome State Fault Refusal := s.act fun s => s.cmdWith m pRed 1 []

/-- JOIN (R489). Command 0x02 on REDUNDANCY starts catch-up of an ISOLATED part. -/
def execJoin (m : Master) (s : State) : Host.Outcome State Fault Refusal := s.act fun s => s.cmdWith m pRed 2 []

/-- CATCH_WARM_END (R477). WARM elapses and catch-up enters MATCH. -/
def execCatchWarmEnd (s : State) : Host.Outcome State Fault Refusal := s.act fun s => s.warmEnd

/-- CATCH_MATCH_TIMEOUT (R477). 60 s of MATCH pass without MATCH_RUN agreements and catch-up fails. -/
def execCatchMatchTimeout (s : State) : Host.Outcome State Fault Refusal := s.act fun s => s.matchTimeout

end Sys2Proof.Machine
end

