-- ==== Sys2Proof/Machine/ExecReh.lean ====
section
/-!
DEFINITION. Rehearsal, health and the memory pool (chapters 16 and 17): the meaning of each command.
-/
namespace Sys2Proof.Machine

/-- LOAN_WRITE (R493). A write of LOAN offers banks for loan, or recalls banks whose bit is cleared. -/
def execLoanWrite (m : Master) (i v : Nat) (s : State) : Host.Outcome State Fault Refusal :=
  s.act fun s => s.access m pReh (0x090 + 4 * (i % 8)) v

/-- REH_CFG_WRITE (R509). A write of REH_CFG enables activities; clearing MARCH_EN recalls every bank on loan. -/
def execRehCfgWrite (m : Master) (v : Nat) (s : State) : Host.Outcome State Fault Refusal := s.act fun s => s.access m pReh 0x080 v

/-- BANK_BORROW (R493). An offered bank idle for RECALL_HOLD is borrowed for March testing. -/
def execBankBorrow (b t : Nat) (s : State) : Host.Outcome State Fault Refusal := s.act fun s => if b < 256 then s.bankBorrow b t else s

/-- MARCH_BLOCK_DONE (R494). The March test of one block completes and the block is restored, or a mismatch is judged. -/
def execMarchBlockDone (b : Nat) (bad : Bool) (s : State) : Host.Outcome State Fault Refusal := s.act fun s => s.marchBlock b bad

/-- BANK_RECALL (R495). An owner's access reaches a bank on loan and the loan is recalled. -/
def execBankRecall (b : Nat) (s : State) : Host.Outcome State Fault Refusal := s.act fun s => s.bankRecall b

/-- RECALL_COMPLETE (R495). The recall finishes its element and restore, and the stalled access proceeds. -/
def execRecallComplete (b t : Nat) (s : State) : Host.Outcome State Fault Refusal := s.act fun s => (s.recallDone b t).retryStalled

/-- SCRUB_READ (R498). The scrub reads a word in a free slot and corrects it. -/
def execScrubRead (mem addr page : Nat) (upset : List Nat) (words : Nat) (s : State) : Host.Outcome State Fault Refusal :=
  s.act fun s => s.scrubRead mem addr page upset words

/-- SCRUB_PERIOD_END (R498). A SCRUB_PERIOD ends with the pass incomplete and SCRUB_BEHIND is raised. -/
def execScrubPeriodEnd (s : State) : Host.Outcome State Fault Refusal := s.act fun s => s.scrubPeriodEnd

/-- SELFTEST_SEGMENT_DONE (R500). A self-test segment finishes and its signature is compared. -/
def execSelftestSegmentDone (k g : Nat) (ok : Bool) (s : State) : Host.Outcome State Fault Refusal :=
  s.act fun s => s.block .sp k fun s => s.segmentDone k g ok

/-- HEALTH_REPORT (R507). Every 10 ms of datum the health report is latched and optionally written. -/
def execHealthReport (n : Nat) (s : State) : Host.Outcome State Fault Refusal := s.act fun s => s.healthReport n

/-- REPORT_WRITE_COMPLETE (R507). The report write ends, with REPORT_WR_FAIL on an error. -/
def execReportWriteComplete (ext : Bool) (s : State) : Host.Outcome State Fault Refusal := s.act fun s => s.reportWritten ext

/-- CLEAR_FAIL (R510). Command 0x01 on REHEARSAL clears the fail maps and the POOL FAULT. -/
def execClearFail (m : Master) (s : State) : Host.Outcome State Fault Refusal := s.act fun s => s.cmdWith m pReh 1 []

/-- OWNER_WRITE (R521). A write of an owner register starts a handover of each changed bank port, or is refused. -/
def execOwnerWrite (m : Master) (off v : Nat) (s : State) : Host.Outcome State Fault Refusal := s.act fun s => s.access m pPool off v

/-- HANDOVER_COMPLETE (R520). The old owner's drain ends and the new owner takes the bank port. -/
def execHandoverComplete (bank : Nat) (portB : Bool) (s : State) : Host.Outcome State Fault Refusal :=
  s.act fun s => (s.handoverDone bank portB).retryStalled

/-- ECC_INJECT_WRITE (R533). A write of ECC_INJECT arms an error injection into the next pool write. -/
def execEccInjectWrite (m : Master) (v : Nat) (s : State) : Host.Outcome State Fault Refusal := s.act fun s => s.access m pPool 0x400 v

/-- ECC_LAST_HI_READ (R529). A read of ECC_LAST_HI releases the error latch. -/
def execEccLastHiRead (m : Master) (s : State) : Host.Outcome State Fault Refusal := s.act fun s => s.regRead m pPool 0x0A0

end Sys2Proof.Machine
end

