-- ==== Sys2Proof/Machine/ExecSp.lean ====
section
/-!
DEFINITION. The strip processors: the gather and the scatter, interrupts, and one command per slot instruction, which issues in a bundle with the other slots given in `o` (chapters 03 and 04): the meaning of each command.
-/
namespace Sys2Proof.Machine

/-- GATHER_WRITE (R93). The gather DMA writes the sample header or one gather entry into X memory. -/
def execGatherWrite (k : Nat) (s : State) : Host.Outcome State Fault Refusal := s.act fun s => s.block .sp k fun s => s.gatherWrite k

/-- SCATTER_WRITE (R95). After SDONE and every result in flight, the scatter DMA writes scatter entries to the exchange. -/
def execScatterWrite (k t : Nat) (s : State) : Host.Outcome State Fault Refusal := s.act fun s => s.block .sp k fun s => s.scatterDone k t

/-- FAR_COMPLETE (R96). A pool transfer started by FAR completes, or ends with an error and sets FAR_ERR. -/
def execFarComplete (k j : Nat) (s : State) : Host.Outcome State Fault Refusal := s.act fun s => s.block .sp k fun s => s.farComplete k j

/-- INTERRUPT_ENTRY (R86). A strip processor takes a pending fault, debug break or mailbox interrupt and enters its handler at 0x7F0. -/
def execInterruptEntry (k : Nat) (s : State) : Host.Outcome State Fault Refusal := s.act fun s => s.block .sp k fun s => s.spEntryNow k

/-- ILLEGAL_ENCODING (R112). A bundle with an illegal slot issues and raises the fault ILLEGAL without executing. -/
def execIllegalEncoding (k w : Nat) (s : State) : Host.Outcome State Fault Refusal :=
  s.act fun s => s.block .sp k fun s => s.issueIllegal k w

/-- NOP (R119). A slot does nothing. -/
def execNop (k : Nat) (inT : Bool) (pred : Nat) (o : Bundle) (s : State) : Host.Outcome State Fault Refusal :=
  s.act fun s => s.block .sp k fun s => s.issueBundle k (if inT then { o with t := { pred := pred, op := .nop } } else { o with a := { pred := pred, op := .nop } })

/-- MAC (R116). An M slot adds SA times SB to an accumulator. -/
def execMac (k : Nat) (second : Bool) (slot : MSlot) (o : Bundle) (s : State) : Host.Outcome State Fault Refusal :=
  s.act fun s => s.block .sp k fun s => s.issueBundle k (o.withM second { slot with op := .mac })

/-- MSU (R116). An M slot subtracts SA times SB from an accumulator. -/
def execMsu (k : Nat) (second : Bool) (slot : MSlot) (o : Bundle) (s : State) : Host.Outcome State Fault Refusal :=
  s.act fun s => s.block .sp k fun s => s.issueBundle k (o.withM second { slot with op := .msu })

/-- MPY (R116). An M slot writes SA times SB to an accumulator. -/
def execMpy (k : Nat) (second : Bool) (slot : MSlot) (o : Bundle) (s : State) : Host.Outcome State Fault Refusal :=
  s.act fun s => s.block .sp k fun s => s.issueBundle k (o.withM second { slot with op := .mpy })

/-- MPYN (R116). An M slot writes minus SA times SB to an accumulator. -/
def execMpyn (k : Nat) (second : Bool) (slot : MSlot) (o : Bundle) (s : State) : Host.Outcome State Fault Refusal :=
  s.act fun s => s.block .sp k fun s => s.issueBundle k (o.withM second { slot with op := .mpyn })

/-- LD (R117). An M slot loads a D register from X or Y memory with an optional post-modify. -/
def execLd (k : Nat) (second : Bool) (slot : MSlot) (o : Bundle) (s : State) : Host.Outcome State Fault Refusal :=
  s.act fun s => s.block .sp k fun s => s.issueBundle k (o.withM second slot)

/-- ADD (R119). A slot adds two D registers modulo 2^32. -/
def execAdd (k pred dd da db : Nat) (o : Bundle) (s : State) : Host.Outcome State Fault Refusal :=
  s.act fun s => s.block .sp k fun s => s.issueBundle k (o.withA pred (.add dd da db))

/-- SUB (R119). A slot subtracts two D registers modulo 2^32. -/
def execSub (k pred dd da db : Nat) (o : Bundle) (s : State) : Host.Outcome State Fault Refusal :=
  s.act fun s => s.block .sp k fun s => s.issueBundle k (o.withA pred (.sub dd da db))

/-- ADDS (R119). A slot adds two D registers with saturation. -/
def execAdds (k pred dd da db : Nat) (o : Bundle) (s : State) : Host.Outcome State Fault Refusal :=
  s.act fun s => s.block .sp k fun s => s.issueBundle k (o.withA pred (.adds dd da db))

/-- SUBS (R119). A slot subtracts two D registers with saturation. -/
def execSubs (k pred dd da db : Nat) (o : Bundle) (s : State) : Host.Outcome State Fault Refusal :=
  s.act fun s => s.block .sp k fun s => s.issueBundle k (o.withA pred (.subs dd da db))

/-- AND (R119). A slot forms the bitwise AND of two D registers. -/
def execAnd (k pred dd da db : Nat) (o : Bundle) (s : State) : Host.Outcome State Fault Refusal :=
  s.act fun s => s.block .sp k fun s => s.issueBundle k (o.withA pred (.and dd da db))

/-- OR (R119). A slot forms the bitwise OR of two D registers. -/
def execOr (k pred dd da db : Nat) (o : Bundle) (s : State) : Host.Outcome State Fault Refusal :=
  s.act fun s => s.block .sp k fun s => s.issueBundle k (o.withA pred (.or dd da db))

/-- XOR (R119). A slot forms the bitwise XOR of two D registers. -/
def execXor (k pred dd da db : Nat) (o : Bundle) (s : State) : Host.Outcome State Fault Refusal :=
  s.act fun s => s.block .sp k fun s => s.issueBundle k (o.withA pred (.xor dd da db))

/-- NOT (R119). A slot inverts a D register. -/
def execNot (k pred dd da : Nat) (o : Bundle) (s : State) : Host.Outcome State Fault Refusal :=
  s.act fun s => s.block .sp k fun s => s.issueBundle k (o.withA pred (.not dd da))

/-- NEG (R120). A slot negates a D register with saturation. -/
def execNeg (k pred dd da : Nat) (o : Bundle) (s : State) : Host.Outcome State Fault Refusal :=
  s.act fun s => s.block .sp k fun s => s.issueBundle k (o.withA pred (.neg dd da))

/-- ABS (R119). A slot takes the saturated absolute value of a D register. -/
def execAbs (k pred dd da : Nat) (o : Bundle) (s : State) : Host.Outcome State Fault Refusal :=
  s.act fun s => s.block .sp k fun s => s.issueBundle k (o.withA pred (.abs dd da))

/-- MIN (R119). A slot takes the signed smaller of two D registers. -/
def execMin (k pred dd da db : Nat) (o : Bundle) (s : State) : Host.Outcome State Fault Refusal :=
  s.act fun s => s.block .sp k fun s => s.issueBundle k (o.withA pred (.min dd da db))

/-- MAX (R119). A slot takes the signed larger of two D registers. -/
def execMax (k pred dd da db : Nat) (o : Bundle) (s : State) : Host.Outcome State Fault Refusal :=
  s.act fun s => s.block .sp k fun s => s.issueBundle k (o.withA pred (.max dd da db))

/-- MOV (R119). A slot copies one D register to another. -/
def execMov (k pred dd da : Nat) (o : Bundle) (s : State) : Host.Outcome State Fault Refusal :=
  s.act fun s => s.block .sp k fun s => s.issueBundle k (o.withA pred (.mov dd da))

/-- SHV (R119). A slot shifts a D register by a signed count held in a D register. -/
def execShv (k pred dd da db : Nat) (o : Bundle) (s : State) : Host.Outcome State Fault Refusal :=
  s.act fun s => s.block .sp k fun s => s.issueBundle k (o.withA pred (.shv dd da db))

/-- ADDI (R119). A slot adds a sign-extended immediate to a D register. -/
def execAddi (k pred dd da imm : Nat) (o : Bundle) (s : State) : Host.Outcome State Fault Refusal :=
  s.act fun s => s.block .sp k fun s => s.issueBundle k (o.withA pred (.addi dd da imm))

/-- SHLI (R119). A slot shifts a D register left by an immediate count. -/
def execShli (k pred dd da n : Nat) (o : Bundle) (s : State) : Host.Outcome State Fault Refusal :=
  s.act fun s => s.block .sp k fun s => s.issueBundle k (o.withA pred (.shli dd da n))

/-- SHRI (R119). A slot shifts a D register logically right by an immediate count. -/
def execShri (k pred dd da n : Nat) (o : Bundle) (s : State) : Host.Outcome State Fault Refusal :=
  s.act fun s => s.block .sp k fun s => s.issueBundle k (o.withA pred (.shri dd da n))

/-- SRAI (R120). A slot shifts a D register arithmetically right by an immediate count. -/
def execSrai (k pred dd da n : Nat) (o : Bundle) (s : State) : Host.Outcome State Fault Refusal :=
  s.act fun s => s.block .sp k fun s => s.issueBundle k (o.withA pred (.srai dd da n))

/-- SHLSI (R119). A slot shifts a D register left with saturation. -/
def execShlsi (k pred dd da n : Nat) (o : Bundle) (s : State) : Host.Outcome State Fault Refusal :=
  s.act fun s => s.block .sp k fun s => s.issueBundle k (o.withA pred (.shlsi dd da n))

/-- EXTR (R70). A slot extracts a rounded, saturated 32-bit value from an accumulator at a scale. -/
def execExtr (k pred aca dd s6 : Nat) (o : Bundle) (s : State) : Host.Outcome State Fault Refusal :=
  s.act fun s => s.block .sp k fun s => s.issueBundle k (o.withA pred (.extr aca dd s6))

/-- NORM (R71). A slot normalises an accumulator and writes the shift count to a D register. -/
def execNorm (k pred aca dd : Nat) (o : Bundle) (s : State) : Host.Outcome State Fault Refusal :=
  s.act fun s => s.block .sp k fun s => s.issueBundle k (o.withA pred (.norm aca dd))

/-- EXPA (R71). A slot counts the redundant sign bits of an accumulator. -/
def execExpa (k pred aca dd : Nat) (o : Bundle) (s : State) : Host.Outcome State Fault Refusal :=
  s.act fun s => s.block .sp k fun s => s.issueBundle k (o.withA pred (.expa aca dd))

/-- EXPD (R71). A slot counts the redundant sign bits of a D register. -/
def execExpd (k pred da dd : Nat) (o : Bundle) (s : State) : Host.Outcome State Fault Refusal :=
  s.act fun s => s.block .sp k fun s => s.issueBundle k (o.withA pred (.expd da dd))

/-- ACLR (R119). A slot clears an accumulator. -/
def execAclr (k pred acd : Nat) (o : Bundle) (s : State) : Host.Outcome State Fault Refusal :=
  s.act fun s => s.block .sp k fun s => s.issueBundle k (o.withA pred (.aclr acd))

/-- AMOV (R119). A slot copies one accumulator to another. -/
def execAmov (k pred acd aca : Nat) (o : Bundle) (s : State) : Host.Outcome State Fault Refusal :=
  s.act fun s => s.block .sp k fun s => s.issueBundle k (o.withA pred (.amov acd aca))

/-- AADD (R120). A slot adds two accumulators under SPMODE.ACS. -/
def execAadd (k pred acd aca : Nat) (o : Bundle) (s : State) : Host.Outcome State Fault Refusal :=
  s.act fun s => s.block .sp k fun s => s.issueBundle k (o.withA pred (.aadd acd aca))

/-- ASUB (R120). A slot subtracts two accumulators under SPMODE.ACS. -/
def execAsub (k pred acd aca : Nat) (o : Bundle) (s : State) : Host.Outcome State Fault Refusal :=
  s.act fun s => s.block .sp k fun s => s.issueBundle k (o.withA pred (.asub acd aca))

/-- ANEG (R120). A slot negates an accumulator. -/
def execAneg (k pred acd aca : Nat) (o : Bundle) (s : State) : Host.Outcome State Fault Refusal :=
  s.act fun s => s.block .sp k fun s => s.issueBundle k (o.withA pred (.aneg acd aca))

/-- ASHI (R120). A slot shifts an accumulator by an immediate signed scale. -/
def execAshi (k pred acd aca s6 : Nat) (o : Bundle) (s : State) : Host.Outcome State Fault Refusal :=
  s.act fun s => s.block .sp k fun s => s.issueBundle k (o.withA pred (.ashi acd aca s6))

/-- ASHD (R120). A slot shifts an accumulator by a signed count held in a D register. -/
def execAshd (k pred acd aca da : Nat) (o : Bundle) (s : State) : Host.Outcome State Fault Refusal :=
  s.act fun s => s.block .sp k fun s => s.issueBundle k (o.withA pred (.ashd acd aca da))

/-- DTOA (R120). A slot loads a D register into an accumulator at a scale. -/
def execDtoa (k pred acd da s6 : Nat) (o : Bundle) (s : State) : Host.Outcome State Fault Refusal :=
  s.act fun s => s.block .sp k fun s => s.issueBundle k (o.withA pred (.dtoa acd da s6))

/-- ARD (R121). A slot reads one part of an accumulator into a D register. -/
def execArd (k pred aca dd part : Nat) (o : Bundle) (s : State) : Host.Outcome State Fault Refusal :=
  s.act fun s => s.block .sp k fun s => s.issueBundle k (o.withA pred (.ard aca dd part))

/-- AWR (R121). A slot writes one part of an accumulator from a D register. -/
def execAwr (k pred acd da part : Nat) (o : Bundle) (s : State) : Host.Outcome State Fault Refusal :=
  s.act fun s => s.block .sp k fun s => s.issueBundle k (o.withA pred (.awr acd da part))

/-- CMPEQ (R119). A slot sets a flag when two D registers are equal. -/
def execCmpeq (k pred fk da db : Nat) (o : Bundle) (s : State) : Host.Outcome State Fault Refusal :=
  s.act fun s => s.block .sp k fun s => s.issueBundle k (o.withA pred (.cmpeq fk da db))

/-- CMPLT (R119). A slot sets a flag on a signed less-than. -/
def execCmplt (k pred fk da db : Nat) (o : Bundle) (s : State) : Host.Outcome State Fault Refusal :=
  s.act fun s => s.block .sp k fun s => s.issueBundle k (o.withA pred (.cmplt fk da db))

/-- CMPLE (R119). A slot sets a flag on a signed less-or-equal. -/
def execCmple (k pred fk da db : Nat) (o : Bundle) (s : State) : Host.Outcome State Fault Refusal :=
  s.act fun s => s.block .sp k fun s => s.issueBundle k (o.withA pred (.cmple fk da db))

/-- CMPLTU (R119). A slot sets a flag on an unsigned less-than. -/
def execCmpltu (k pred fk da db : Nat) (o : Bundle) (s : State) : Host.Outcome State Fault Refusal :=
  s.act fun s => s.block .sp k fun s => s.issueBundle k (o.withA pred (.cmpltu fk da db))

/-- CMPEQI (R119). A slot sets a flag when a D register equals an immediate. -/
def execCmpeqi (k pred fk da imm : Nat) (o : Bundle) (s : State) : Host.Outcome State Fault Refusal :=
  s.act fun s => s.block .sp k fun s => s.issueBundle k (o.withA pred (.cmpeqi fk da imm))

/-- CMPLTI (R119). A slot sets a flag when a D register is less than an immediate. -/
def execCmplti (k pred fk da imm : Nat) (o : Bundle) (s : State) : Host.Outcome State Fault Refusal :=
  s.act fun s => s.block .sp k fun s => s.issueBundle k (o.withA pred (.cmplti fk da imm))

/-- CMPGTI (R119). A slot sets a flag when a D register is greater than an immediate. -/
def execCmpgti (k pred fk da imm : Nat) (o : Bundle) (s : State) : Host.Outcome State Fault Refusal :=
  s.act fun s => s.block .sp k fun s => s.issueBundle k (o.withA pred (.cmpgti fk da imm))

/-- BTST (R119). A slot sets a flag from one bit of a D register. -/
def execBtst (k pred fk da n : Nat) (o : Bundle) (s : State) : Host.Outcome State Fault Refusal :=
  s.act fun s => s.block .sp k fun s => s.issueBundle k (o.withA pred (.btst fk da n))

/-- ATSTN (R119). A slot sets a flag when an accumulator is negative. -/
def execAtstn (k pred fk aca : Nat) (o : Bundle) (s : State) : Host.Outcome State Fault Refusal :=
  s.act fun s => s.block .sp k fun s => s.issueBundle k (o.withA pred (.atstn fk aca))

/-- ATSTZ (R119). A slot sets a flag when an accumulator is zero. -/
def execAtstz (k pred fk aca : Nat) (o : Bundle) (s : State) : Host.Outcome State Fault Refusal :=
  s.act fun s => s.block .sp k fun s => s.issueBundle k (o.withA pred (.atstz fk aca))

/-- FOP (R121). A slot combines two flags through a truth table. -/
def execFop (k pred fk fa fb tt : Nat) (o : Bundle) (s : State) : Host.Outcome State Fault Refusal :=
  s.act fun s => s.block .sp k fun s => s.issueBundle k (o.withA pred (.fop fk fa fb tt))

/-- LDC (R123). The T slot loads a D register from C memory. -/
def execLdc (k pred dr p am imm : Nat) (o : Bundle) (s : State) : Host.Outcome State Fault Refusal :=
  s.act fun s => s.block .sp k fun s => s.issueBundle k (o.withT pred (.ldc dr p am imm))

/-- STX (R123). The T slot stores a D register to X memory. -/
def execStx (k pred dr p am imm : Nat) (o : Bundle) (s : State) : Host.Outcome State Fault Refusal :=
  s.act fun s => s.block .sp k fun s => s.issueBundle k (o.withT pred (.stx dr p am imm))

/-- STY (R123). The T slot stores a D register to Y memory. -/
def execSty (k pred dr p am imm : Nat) (o : Bundle) (s : State) : Host.Outcome State Fault Refusal :=
  s.act fun s => s.block .sp k fun s => s.issueBundle k (o.withT pred (.sty dr p am imm))

/-- STC (R123). The T slot stores a D register to C memory. -/
def execStc (k pred dr p am imm : Nat) (o : Bundle) (s : State) : Host.Outcome State Fault Refusal :=
  s.act fun s => s.block .sp k fun s => s.issueBundle k (o.withT pred (.stc dr p am imm))

/-- MODP (R123). The T slot post-modifies a pointer only. -/
def execModp (k pred p am imm : Nat) (o : Bundle) (s : State) : Host.Outcome State Fault Refusal :=
  s.act fun s => s.block .sp k fun s => s.issueBundle k (o.withT pred (.modp p am imm))

/-- FAR (R96). The T slot starts a pool transfer from a descriptor in Y memory. -/
def execFar (k pred p am imm : Nat) (o : Bundle) (s : State) : Host.Outcome State Fault Refusal :=
  s.act fun s => s.block .sp k fun s => s.issueBundle k (o.withT pred (.far p am imm))

/-- MOVI (R123). The T slot loads a sign-extended 17-bit immediate into a D register. -/
def execMovi (k pred dd imm : Nat) (o : Bundle) (s : State) : Host.Outcome State Fault Refusal :=
  s.act fun s => s.block .sp k fun s => s.issueBundle k (o.withT pred (.movi dd imm))

/-- MOVHI (R123). The T slot loads the upper half of a D register. -/
def execMovhi (k pred dd imm : Nat) (o : Bundle) (s : State) : Host.Outcome State Fault Refusal :=
  s.act fun s => s.block .sp k fun s => s.issueBundle k (o.withT pred (.movhi dd imm))

/-- MOVS (R125). The T slot writes a special register from a D register. -/
def execMovs (k pred sreg d : Nat) (o : Bundle) (s : State) : Host.Outcome State Fault Refusal :=
  s.act fun s => s.block .sp k fun s => s.issueBundle k (o.withT pred (.movs sreg d))

/-- MOVR (R125). The T slot reads a special register into a D register. -/
def execMovr (k pred sreg d : Nat) (o : Bundle) (s : State) : Host.Outcome State Fault Refusal :=
  s.act fun s => s.block .sp k fun s => s.issueBundle k (o.withT pred (.movr sreg d))

/-- MOVSI (R125). The T slot writes a special register from an immediate. -/
def execMovsi (k pred sreg imm : Nat) (o : Bundle) (s : State) : Host.Outcome State Fault Refusal :=
  s.act fun s => s.block .sp k fun s => s.issueBundle k (o.withT pred (.movsi sreg imm))

/-- BR (R126). The T slot branches after one delay bundle. -/
def execBr (k pred target : Nat) (o : Bundle) (s : State) : Host.Outcome State Fault Refusal :=
  s.act fun s => s.block .sp k fun s => s.issueBundle k (o.withT pred (.br target))

/-- CALL (R83). The T slot pushes a return address and branches. -/
def execCall (k pred target : Nat) (o : Bundle) (s : State) : Host.Outcome State Fault Refusal :=
  s.act fun s => s.block .sp k fun s => s.issueBundle k (o.withT pred (.call target))

/-- RET (R83). The T slot pops the return stack and branches. -/
def execRet (k pred : Nat) (o : Bundle) (s : State) : Host.Outcome State Fault Refusal :=
  s.act fun s => s.block .sp k fun s => s.issueBundle k (o.withT pred .ret)

/-- LOOP (R79). The T slot takes a hardware loop level with an immediate count. -/
def execLoop (k pred : Nat) (rot : Bool) (stop count : Nat) (o : Bundle) (s : State) : Host.Outcome State Fault Refusal :=
  s.act fun s => s.block .sp k fun s => s.issueBundle k (o.withT pred (.loop rot stop count))

/-- LOOPD (R79). The T slot takes a hardware loop level with a count held in a D register. -/
def execLoopd (k pred : Nat) (rot : Bool) (stop d : Nat) (o : Bundle) (s : State) : Host.Outcome State Fault Refusal :=
  s.act fun s => s.block .sp k fun s => s.issueBundle k (o.withT pred (.loopd rot stop d))

/-- LEXIT (R82). The T slot ends the innermost loop and branches. -/
def execLexit (k pred target : Nat) (o : Bundle) (s : State) : Host.Outcome State Fault Refusal :=
  s.act fun s => s.block .sp k fun s => s.issueBundle k (o.withT pred (.lexit target))

/-- IRET (R88). The T slot returns from an interrupt handler. -/
def execIret (k pred : Nat) (o : Bundle) (s : State) : Host.Outcome State Fault Refusal :=
  s.act fun s => s.block .sp k fun s => s.issueBundle k (o.withT pred .iret)

/-- SDONE (R98). The T slot ends the sample's code. -/
def execSdone (k pred : Nat) (o : Bundle) (s : State) : Host.Outcome State Fault Refusal :=
  s.act fun s => s.block .sp k fun s => s.issueBundle k (o.withT pred .sdone)

/-- SWAIT (R93). The T slot stalls issue until the header and gather entries up to J have landed. -/
def execSwait (k pred j : Nat) (o : Bundle) (s : State) : Host.Outcome State Fault Refusal :=
  s.act fun s => s.block .sp k fun s => s.issueBundle k (o.withT pred (.swait j))

/-- FWAIT (R123). The T slot stalls issue until at most N pool transfers are outstanding. -/
def execFwait (k pred n : Nat) (o : Bundle) (s : State) : Host.Outcome State Fault Refusal :=
  s.act fun s => s.block .sp k fun s => s.issueBundle k (o.withT pred (.fwait n))

/-- MBRD (R91). The T slot reads MBOX_IN and clears the pending mailbox interrupt. -/
def execMbrd (k pred d : Nat) (o : Bundle) (s : State) : Host.Outcome State Fault Refusal :=
  s.act fun s => s.block .sp k fun s => s.issueBundle k (o.withT pred (.mbrd d))

/-- MBWR (R91). The T slot writes MBOX_OUT and raises MBOX_OUT. -/
def execMbwr (k pred d : Nat) (o : Bundle) (s : State) : Host.Outcome State Fault Refusal :=
  s.act fun s => s.block .sp k fun s => s.issueBundle k (o.withT pred (.mbwr d))

/-- MBOX_IN_WRITE (R91). A boundary-applied write of MBOX_IN makes a mailbox interrupt pending at its boundary. -/
def execMboxInWrite (m : Master) (k v : Nat) (s : State) : Host.Outcome State Fault Refusal := s.act fun s => s.access m (pSp k) 0x0A4 v

/-- BREAK_NOW (R105). A write of DBG_CTRL.BREAK_NOW raises a debug break. -/
def execBreakNow (m : Master) (k v : Nat) (s : State) : Host.Outcome State Fault Refusal :=
  s.act fun s => s.access m (pSp k) 0x400 (setBit v 1 true)

/-- BANK_CTRL_SWAP (R100). A write of BANK_CTRL.SWAP requests a program-bank swap at a boundary. -/
def execBankCtrlSwap (m : Master) (k : Nat) (s : State) : Host.Outcome State Fault Refusal :=
  s.act fun s => s.access m (pSp k) 0x080 0x10000

end Sys2Proof.Machine
end

