-- ==== Sys2Proof/Machine/ExecTime.lean ====
section
/-!
DEFINITION. The strobe and the commands of the levelling loop, of SYS and of the Grid (chapters 01, 02 and 18): the meaning of each command.
-/
namespace Sys2Proof.Machine

/-- SAMPLE_BOUNDARY (R277). The datum reaches n divided by the engine rate and the strobe of boundary n reaches every block. -/
def execSampleBoundary (pdm : List (Nat × List Bool)) (inDone outDone : Option Nat) (active : Nat) (s : State) : Host.Outcome State Fault Refusal :=
  s.act fun s => s.strobe pdm inDone outDone active

/-- LEVEL_WINDOW (R39). A 1 ms level window ends and the loop steps the VCORE code by at most one. -/
def execLevelWindow (s : State) : Host.Outcome State Fault Refusal := s.act fun s => s.levelWindow

/-- EMERG_SETTLE_END (R41). EMERG_SETTLE elapses after an emergency write and the loop returns from SETTLE to LEVEL. -/
def execEmergSettleEnd (s : State) : Host.Outcome State Fault Refusal := s.act fun s => s.settleEnd

/-- DOWNSTEP_BAR_END (R41). 64 ms after the last emergency raise, downward steps are allowed again. -/
def execDownstepBarEnd (s : State) : Host.Outcome State Fault Refusal := s.act fun s => s.downBarEnd

/-- AVS_FRAME_RESPONSE (R44). An AVSBus frame completes; an error is retried, and after four failures the loop enters FAULT. -/
def execAvsFrameResponse (ok : Bool) (v : Nat) (s : State) : Host.Outcome State Fault Refusal := s.act fun s => s.avsResponse ok v

/-- REG_ALERT (R45). The regulator signals an alert on LVL_ALERT and the engine reads and latches its status. -/
def execRegAlert (s : State) : Host.Outcome State Fault Refusal := s.act fun s => s.regAlert

/-- VCORE_READBACK (R46). Every 10 ms the engine reads back VCORE and the regulator current. -/
def execVcoreReadback (s : State) : Host.Outcome State Fault Refusal := s.act fun s => s.readBack

/-- LVL_CFG_WRITE (R54). A write of LVL_CFG sets PROJECT and FREEZE; FREEZE moves the loop to or from HOLD. -/
def execLvlCfgWrite (m : Master) (v : Nat) (s : State) : Host.Outcome State Fault Refusal := s.act fun s => s.access m pLevel 0x080 v

/-- VCORE_LIMITS_WRITE (R56). A write of VMAX or VMIN that passes the present code makes the loop command the new limit at once. -/
def execVcoreLimitsWrite (m : Master) (v : Nat) (s : State) : Host.Outcome State Fault Refusal := s.act fun s => s.access m pLevel 0x088 v

/-- VCORE_START_WRITE (R53). A new VCORE_START is commanded at once when the loop is in HOLD without FREEZE. -/
def execVcoreStartWrite (m : Master) (v : Nat) (s : State) : Host.Outcome State Fault Refusal := s.act fun s => s.access m pLevel 0x08C v

/-- ENGINE_RATE_WRITE (R27). A write that changes RATE discards the committed graph and the staged image and clears the exchange. -/
def execEngineRateWrite (m : Master) (v : Nat) (s : State) : Host.Outcome State Fault Refusal := s.act fun s => s.access m 0 0x088 v

/-- SAMPLE_INDEX_LO_READ (R25). A read of SAMPLE_INDEX_LO latches the high word into SAMPLE_INDEX_HI. -/
def execSampleIndexLoRead (m : Master) (s : State) : Host.Outcome State Fault Refusal := s.act fun s => s.regRead m 0 0x080

/-- GRID_WRITE (R562). A Grid write to memory, or to a register without a row of its own, is tested for protection, value and room and then applied, stored or refused. -/
def execGridWrite (m : Master) (id addr : Nat) (data : List (Byte × Bool)) (clash : List Nat) (ext : Bool) (s : State) : Host.Outcome State Fault Refusal :=
  s.act fun s => s.txWrite m id addr data clash ext

/-- GRID_READ (R539). A Grid read of memory returns its data or a failure response. -/
def execGridRead (m : Master) (id addr len : Nat) (ext : Option (List Byte)) (s : State) : Host.Outcome State Fault Refusal :=
  s.act fun s => s.txRead m id addr len ext

end Sys2Proof.Machine
end

