-- ==== Sys2Proof/Machine/Dispatch.lean ====
section
/-!
DEFINITION. One arm per command: a direct call of the command's meaning.
-/
namespace Sys2Proof.Machine

/-- The effect of a command on everything but the queue. -/
def exec (i : Instr) (s : State) : Host.Outcome State Fault Refusal :=
  match i with
  | .sampleBoundary pdm inDone outDone active => Sys2Proof.Machine.execSampleBoundary pdm inDone outDone active s
  | .levelWindow => Sys2Proof.Machine.execLevelWindow s
  | .emergSettleEnd => Sys2Proof.Machine.execEmergSettleEnd s
  | .downstepBarEnd => Sys2Proof.Machine.execDownstepBarEnd s
  | .avsFrameResponse ok v => Sys2Proof.Machine.execAvsFrameResponse ok v s
  | .regAlert => Sys2Proof.Machine.execRegAlert s
  | .vcoreReadback => Sys2Proof.Machine.execVcoreReadback s
  | .lvlCfgWrite m v => Sys2Proof.Machine.execLvlCfgWrite m v s
  | .vcoreLimitsWrite m v => Sys2Proof.Machine.execVcoreLimitsWrite m v s
  | .vcoreStartWrite m v => Sys2Proof.Machine.execVcoreStartWrite m v s
  | .engineRateWrite m v => Sys2Proof.Machine.execEngineRateWrite m v s
  | .sampleIndexLoRead m => Sys2Proof.Machine.execSampleIndexLoRead m s
  | .gridWrite m id addr data clash ext => Sys2Proof.Machine.execGridWrite m id addr data clash ext s
  | .gridRead m id addr len ext => Sys2Proof.Machine.execGridRead m id addr len ext s
  | .gatherWrite k => Sys2Proof.Machine.execGatherWrite k s
  | .scatterWrite k t => Sys2Proof.Machine.execScatterWrite k t s
  | .farComplete k j => Sys2Proof.Machine.execFarComplete k j s
  | .interruptEntry k => Sys2Proof.Machine.execInterruptEntry k s
  | .illegalEncoding k w => Sys2Proof.Machine.execIllegalEncoding k w s
  | .nop k inT pred o => Sys2Proof.Machine.execNop k inT pred o s
  | .mac k second slot o => Sys2Proof.Machine.execMac k second slot o s
  | .msu k second slot o => Sys2Proof.Machine.execMsu k second slot o s
  | .mpy k second slot o => Sys2Proof.Machine.execMpy k second slot o s
  | .mpyn k second slot o => Sys2Proof.Machine.execMpyn k second slot o s
  | .ld k second slot o => Sys2Proof.Machine.execLd k second slot o s
  | .add k pred dd da db o => Sys2Proof.Machine.execAdd k pred dd da db o s
  | .sub k pred dd da db o => Sys2Proof.Machine.execSub k pred dd da db o s
  | .adds k pred dd da db o => Sys2Proof.Machine.execAdds k pred dd da db o s
  | .subs k pred dd da db o => Sys2Proof.Machine.execSubs k pred dd da db o s
  | .and k pred dd da db o => Sys2Proof.Machine.execAnd k pred dd da db o s
  | .or k pred dd da db o => Sys2Proof.Machine.execOr k pred dd da db o s
  | .xor k pred dd da db o => Sys2Proof.Machine.execXor k pred dd da db o s
  | .not k pred dd da o => Sys2Proof.Machine.execNot k pred dd da o s
  | .neg k pred dd da o => Sys2Proof.Machine.execNeg k pred dd da o s
  | .abs k pred dd da o => Sys2Proof.Machine.execAbs k pred dd da o s
  | .min k pred dd da db o => Sys2Proof.Machine.execMin k pred dd da db o s
  | .max k pred dd da db o => Sys2Proof.Machine.execMax k pred dd da db o s
  | .mov k pred dd da o => Sys2Proof.Machine.execMov k pred dd da o s
  | .shv k pred dd da db o => Sys2Proof.Machine.execShv k pred dd da db o s
  | .addi k pred dd da imm o => Sys2Proof.Machine.execAddi k pred dd da imm o s
  | .shli k pred dd da n o => Sys2Proof.Machine.execShli k pred dd da n o s
  | .shri k pred dd da n o => Sys2Proof.Machine.execShri k pred dd da n o s
  | .srai k pred dd da n o => Sys2Proof.Machine.execSrai k pred dd da n o s
  | .shlsi k pred dd da n o => Sys2Proof.Machine.execShlsi k pred dd da n o s
  | .extr k pred aca dd s6 o => Sys2Proof.Machine.execExtr k pred aca dd s6 o s
  | .norm k pred aca dd o => Sys2Proof.Machine.execNorm k pred aca dd o s
  | .expa k pred aca dd o => Sys2Proof.Machine.execExpa k pred aca dd o s
  | .expd k pred da dd o => Sys2Proof.Machine.execExpd k pred da dd o s
  | .aclr k pred acd o => Sys2Proof.Machine.execAclr k pred acd o s
  | .amov k pred acd aca o => Sys2Proof.Machine.execAmov k pred acd aca o s
  | .aadd k pred acd aca o => Sys2Proof.Machine.execAadd k pred acd aca o s
  | .asub k pred acd aca o => Sys2Proof.Machine.execAsub k pred acd aca o s
  | .aneg k pred acd aca o => Sys2Proof.Machine.execAneg k pred acd aca o s
  | .ashi k pred acd aca s6 o => Sys2Proof.Machine.execAshi k pred acd aca s6 o s
  | .ashd k pred acd aca da o => Sys2Proof.Machine.execAshd k pred acd aca da o s
  | .dtoa k pred acd da s6 o => Sys2Proof.Machine.execDtoa k pred acd da s6 o s
  | .ard k pred aca dd part o => Sys2Proof.Machine.execArd k pred aca dd part o s
  | .awr k pred acd da part o => Sys2Proof.Machine.execAwr k pred acd da part o s
  | .cmpeq k pred fk da db o => Sys2Proof.Machine.execCmpeq k pred fk da db o s
  | .cmplt k pred fk da db o => Sys2Proof.Machine.execCmplt k pred fk da db o s
  | .cmple k pred fk da db o => Sys2Proof.Machine.execCmple k pred fk da db o s
  | .cmpltu k pred fk da db o => Sys2Proof.Machine.execCmpltu k pred fk da db o s
  | .cmpeqi k pred fk da imm o => Sys2Proof.Machine.execCmpeqi k pred fk da imm o s
  | .cmplti k pred fk da imm o => Sys2Proof.Machine.execCmplti k pred fk da imm o s
  | .cmpgti k pred fk da imm o => Sys2Proof.Machine.execCmpgti k pred fk da imm o s
  | .btst k pred fk da n o => Sys2Proof.Machine.execBtst k pred fk da n o s
  | .atstn k pred fk aca o => Sys2Proof.Machine.execAtstn k pred fk aca o s
  | .atstz k pred fk aca o => Sys2Proof.Machine.execAtstz k pred fk aca o s
  | .fop k pred fk fa fb tt o => Sys2Proof.Machine.execFop k pred fk fa fb tt o s
  | .ldc k pred dr p am imm o => Sys2Proof.Machine.execLdc k pred dr p am imm o s
  | .stx k pred dr p am imm o => Sys2Proof.Machine.execStx k pred dr p am imm o s
  | .sty k pred dr p am imm o => Sys2Proof.Machine.execSty k pred dr p am imm o s
  | .stc k pred dr p am imm o => Sys2Proof.Machine.execStc k pred dr p am imm o s
  | .modp k pred p am imm o => Sys2Proof.Machine.execModp k pred p am imm o s
  | .far k pred p am imm o => Sys2Proof.Machine.execFar k pred p am imm o s
  | .movi k pred dd imm o => Sys2Proof.Machine.execMovi k pred dd imm o s
  | .movhi k pred dd imm o => Sys2Proof.Machine.execMovhi k pred dd imm o s
  | .movs k pred sreg d o => Sys2Proof.Machine.execMovs k pred sreg d o s
  | .movr k pred sreg d o => Sys2Proof.Machine.execMovr k pred sreg d o s
  | .movsi k pred sreg imm o => Sys2Proof.Machine.execMovsi k pred sreg imm o s
  | .br k pred target o => Sys2Proof.Machine.execBr k pred target o s
  | .call k pred target o => Sys2Proof.Machine.execCall k pred target o s
  | .ret k pred o => Sys2Proof.Machine.execRet k pred o s
  | .loop k pred rot stop count o => Sys2Proof.Machine.execLoop k pred rot stop count o s
  | .loopd k pred rot stop d o => Sys2Proof.Machine.execLoopd k pred rot stop d o s
  | .lexit k pred target o => Sys2Proof.Machine.execLexit k pred target o s
  | .iret k pred o => Sys2Proof.Machine.execIret k pred o s
  | .sdone k pred o => Sys2Proof.Machine.execSdone k pred o s
  | .swait k pred j o => Sys2Proof.Machine.execSwait k pred j o s
  | .fwait k pred n o => Sys2Proof.Machine.execFwait k pred n o s
  | .mbrd k pred d o => Sys2Proof.Machine.execMbrd k pred d o s
  | .mbwr k pred d o => Sys2Proof.Machine.execMbwr k pred d o s
  | .mboxInWrite m k v => Sys2Proof.Machine.execMboxInWrite m k v s
  | .breakNow m k v => Sys2Proof.Machine.execBreakNow m k v s
  | .bankCtrlSwap m k => Sys2Proof.Machine.execBankCtrlSwap m k s
  | .battenSumWrite k t errs => Sys2Proof.Machine.execBattenSumWrite k t errs s
  | .rehCtrlWrite m k v => Sys2Proof.Machine.execRehCtrlWrite m k v s
  | .swap m k curve time => Sys2Proof.Machine.execSwap m k curve time s
  | .hold m k => Sys2Proof.Machine.execHold m k s
  | .release m k => Sys2Proof.Machine.execRelease m k s
  | .reverse m k => Sys2Proof.Machine.execReverse m k s
  | .cancelQueued m k => Sys2Proof.Machine.execCancelQueued m k s
  | .rampReqLoWrite m k v => Sys2Proof.Machine.execRampReqLoWrite m k v s
  | .rampReqHiWrite m k v => Sys2Proof.Machine.execRampReqHiWrite m k v s
  | .loadPlane m k a0 a1 => Sys2Proof.Machine.execLoadPlane m k a0 a1 s
  | .loadPlaneComplete k => Sys2Proof.Machine.execLoadPlaneComplete k s
  | .queuedCommandStart p => Sys2Proof.Machine.execQueuedCommandStart p s
  | .cmdUnknown m p code => Sys2Proof.Machine.execCmdUnknown m p code s
  | .loadGraph m a0 a1 => Sys2Proof.Machine.execLoadGraph m a0 a1 s
  | .graphCommit m a0 a1 a2 => Sys2Proof.Machine.execGraphCommit m a0 a1 a2 s
  | .discard m a0 => Sys2Proof.Machine.execDiscard m a0 s
  | .commitCopyDone => Sys2Proof.Machine.execCommitCopyDone s
  | .inRouteWrite m v => Sys2Proof.Machine.execInRouteWrite m v s
  | .outRouteWrite m v => Sys2Proof.Machine.execOutRouteWrite m v s
  | .toneCfgWrite m v => Sys2Proof.Machine.execToneCfgWrite m v s
  | .interpWrite m j v => Sys2Proof.Machine.execInterpWrite m j v s
  | .fastCfgWrite m v => Sys2Proof.Machine.execFastCfgWrite m v s
  | .ctrlEnableWrite m p en => Sys2Proof.Machine.execCtrlEnableWrite m p en s
  | .brCfgWrite m b v => Sys2Proof.Machine.execBrCfgWrite m b v s
  | .bridgeMapWrite m b out v => Sys2Proof.Machine.execBridgeMapWrite m b out v s
  | .bridgeEdgeGap b => Sys2Proof.Machine.execBridgeEdgeGap b s
  | .bridgeEdgesPresent b => Sys2Proof.Machine.execBridgeEdgesPresent b s
  | .bridgeWindow b r => Sys2Proof.Machine.execBridgeWindow b r s
  | .bridgeRatioUpdate b r inOff outOff => Sys2Proof.Machine.execBridgeRatioUpdate b r inOff outOff s
  | .bridgeFadeEnd b => Sys2Proof.Machine.execBridgeFadeEnd b s
  | .pllLock => Sys2Proof.Machine.execPllLock s
  | .refFault => Sys2Proof.Machine.execRefFault s
  | .refRecover => Sys2Proof.Machine.execRefRecover s
  | .nowFracRead m t => Sys2Proof.Machine.execNowFracRead m t s
  | .step m => Sys2Proof.Machine.execStep m s
  | .stepApply => Sys2Proof.Machine.execStepApply s
  | .slewPlanEnd => Sys2Proof.Machine.execSlewPlanEnd s
  | .holdTimeoutExpiry t => Sys2Proof.Machine.execHoldTimeoutExpiry t s
  | .datumCtrlWrite m v => Sys2Proof.Machine.execDatumCtrlWrite m v s
  | .servoOffsetInHiWrite m v => Sys2Proof.Machine.execServoOffsetInHiWrite m v s
  | .asymmetryWrite m p adj v => Sys2Proof.Machine.execAsymmetryWrite m p adj v s
  | .tpCtrlWrite m p v => Sys2Proof.Machine.execTpCtrlWrite m p v s
  | .syncRx p t msg => Sys2Proof.Machine.execSyncRx p t msg s
  | .followUpRx p msg => Sys2Proof.Machine.execFollowUpRx p msg s
  | .delayReqRx p t msg => Sys2Proof.Machine.execDelayReqRx p t msg s
  | .delayRespRx p msg => Sys2Proof.Machine.execDelayRespRx p msg s
  | .pdelayReqRx p t2 t3 msg => Sys2Proof.Machine.execPdelayReqRx p t2 t3 msg s
  | .pdelayRespRx p t msg => Sys2Proof.Machine.execPdelayRespRx p t msg s
  | .pdelayRespFollowUpRx p msg => Sys2Proof.Machine.execPdelayRespFollowUpRx p msg s
  | .ptpSyncSend p t => Sys2Proof.Machine.execPtpSyncSend p t s
  | .ptpDelayReqSend p t => Sys2Proof.Machine.execPtpDelayReqSend p t s
  | .ppsEdge t falling => Sys2Proof.Machine.execPpsEdge t falling s
  | .ppsLost => Sys2Proof.Machine.execPpsLost s
  | .clk10mGate t err => Sys2Proof.Machine.execClk10mGate t err s
  | .clk10mLost => Sys2Proof.Machine.execClk10mLost s
  | .ppsOutPulse => Sys2Proof.Machine.execPpsOutPulse s
  | .go m a0 => Sys2Proof.Machine.execGo m a0 s
  | .goAt m a0 a1 a2 => Sys2Proof.Machine.execGoAt m a0 a1 a2 s
  | .cancel m a0 => Sys2Proof.Machine.execCancel m a0 s
  | .cancelAll m => Sys2Proof.Machine.execCancelAll m s
  | .cueGoEdge t rising => Sys2Proof.Machine.execCueGoEdge t rising s
  | .standbyWrite m v => Sys2Proof.Machine.execStandbyWrite m v s
  | .actionGraphCommit => Sys2Proof.Machine.execActionGraphCommit s
  | .tableauInEdge t rising => Sys2Proof.Machine.execTableauInEdge t rising s
  | .trigger m a0 a1 a2 => Sys2Proof.Machine.execTrigger m a0 a1 a2 s
  | .tableauTimedCapture t => Sys2Proof.Machine.execTableauTimedCapture t s
  | .tableauExtDone => Sys2Proof.Machine.execTableauExtDone s
  | .tableauAck m => Sys2Proof.Machine.execTableauAck m s
  | .cgCfgWrite m g rate v => Sys2Proof.Machine.execCgCfgWrite m g rate v s
  | .mclkCfgWrite m n v => Sys2Proof.Machine.execMclkCfgWrite m n v s
  | .portCfgWrite m p v => Sys2Proof.Machine.execPortCfgWrite m p v s
  | .fsyncEdge p t bclks slots done => Sys2Proof.Machine.execFsyncEdge p t bclks slots done s
  | .frameWindowEnd p t bclks slots => Sys2Proof.Machine.execFrameWindowEnd p t bclks slots s
  | .clkLost g t => Sys2Proof.Machine.execClkLost g t s
  | .portRampEnd p tx t => Sys2Proof.Machine.execPortRampEnd p tx t s
  | .portFadeEnd p tx t => Sys2Proof.Machine.execPortFadeEnd p tx t s
  | .maskCommit m p => Sys2Proof.Machine.execMaskCommit m p s
  | .blkFracRead m p => Sys2Proof.Machine.execBlkFracRead m p s
  | .decConfigWrite m j v => Sys2Proof.Machine.execDecConfigWrite m j v s
  | .decGcWrite m j v => Sys2Proof.Machine.execDecGcWrite m j v s
  | .pdmClkCfgWrite m k v => Sys2Proof.Machine.execPdmClkCfgWrite m k v s
  | .sync m a0 a1 a2 => Sys2Proof.Machine.execSync m a0 a1 a2 s
  | .syncInstant t => Sys2Proof.Machine.execSyncInstant t s
  | .laneCfgWrite m n0 v => Sys2Proof.Machine.execLaneCfgWrite m n0 v s
  | .retrain m n0 => Sys2Proof.Machine.execRetrain m n0 s
  | .ts1Rx n0 peer ack => Sys2Proof.Machine.execTs1Rx n0 peer ack s
  | .ts2Rx n0 peer rate => Sys2Proof.Machine.execTs2Rx n0 peer rate s
  | .seekAttemptEnd n0 => Sys2Proof.Machine.execSeekAttemptEnd n0 s
  | .seekWaitEnd n0 => Sys2Proof.Machine.execSeekWaitEnd n0 s
  | .trainTimeout n0 => Sys2Proof.Machine.execTrainTimeout n0 s
  | .rateChangeTimeout n0 => Sys2Proof.Machine.execRateChangeTimeout n0 s
  | .deskewDone n lag => Sys2Proof.Machine.execDeskewDone n lag s
  | .losDetect n0 => Sys2Proof.Machine.execLosDetect n0 s
  | .losClear n0 => Sys2Proof.Machine.execLosClear n0 s
  | .lolDetect n0 errs => Sys2Proof.Machine.execLolDetect n0 errs s
  | .eiosRx n0 => Sys2Proof.Machine.execEiosRx n0 s
  | .idleExitDetect n0 => Sys2Proof.Machine.execIdleExitDetect n0 s
  | .idleTimeout n0 => Sys2Proof.Machine.execIdleTimeout n0 s
  | .ftbEnd n0 pairs => Sys2Proof.Machine.execFtbEnd n0 pairs s
  | .loopbackTestEnd n0 ok => Sys2Proof.Machine.execLoopbackTestEnd n0 ok s
  | .linkCfgWrite m n v => Sys2Proof.Machine.execLinkCfgWrite m n v s
  | .linkCtrlWrite m n v => Sys2Proof.Machine.execLinkCtrlWrite m n v s
  | .audioBlockSend n k => Sys2Proof.Machine.execAudioBlockSend n k s
  | .audioFrameRx n lanes g c b idx held silent hdr errs samples => Sys2Proof.Machine.execAudioFrameRx n lanes g c b idx held silent hdr errs samples s
  | .groupRampEnd n g => Sys2Proof.Machine.execGroupRampEnd n g s
  | .groupFadeEnd n g => Sys2Proof.Machine.execGroupFadeEnd n g s
  | .controlFrameRx n lanes seq ack ackOnly ok good => Sys2Proof.Machine.execControlFrameRx n lanes seq ack ackOnly ok good s
  | .ackOnlyTimer n => Sys2Proof.Machine.execAckOnlyTimer n s
  | .retxTimeout n => Sys2Proof.Machine.execRetxTimeout n s
  | .forwardWrite n b who addr words => Sys2Proof.Machine.execForwardWrite n b who addr words s
  | .forwardWriteBytes n b who addr mask v => Sys2Proof.Machine.execForwardWriteBytes n b who addr mask v s
  | .forwardRamp n b bat lo hi => Sys2Proof.Machine.execForwardRamp n b bat lo hi s
  | .forwardTrigger n b cue standby => Sys2Proof.Machine.execForwardTrigger n b cue standby s
  | .forwardCancel n b cue => Sys2Proof.Machine.execForwardCancel n b cue s
  | .forwardStandby n v => Sys2Proof.Machine.execForwardStandby n v s
  | .forwardCommit n b id crc => Sys2Proof.Machine.execForwardCommit n b id crc s
  | .forwardPlaneReady n b bat => Sys2Proof.Machine.execForwardPlaneReady n b bat s
  | .forwardDsync n mask t => Sys2Proof.Machine.execForwardDsync n mask t s
  | .forwardSelected n b who addr sel v => Sys2Proof.Machine.execForwardSelected n b who addr sel v s
  | .abdicate n t cause => Sys2Proof.Machine.execAbdicate n t cause s
  | .hello n cfg primary rank version graphId => Sys2Proof.Machine.execHello n cfg primary rank version graphId s
  | .request n => Sys2Proof.Machine.execRequest n s
  | .start n h => Sys2Proof.Machine.execStart n h s
  | .region n r addr words => Sys2Proof.Machine.execRegion n r addr words s
  | .copyDone n count => Sys2Proof.Machine.execCopyDone n count s
  | .joined n j => Sys2Proof.Machine.execJoined n j s
  | .refuse n reason => Sys2Proof.Machine.execRefuse n reason s
  | .mirrorGo n cue b => Sys2Proof.Machine.execMirrorGo n cue b s
  | .tableauMessage n t => Sys2Proof.Machine.execTableauMessage n t s
  | .mailbox n body => Sys2Proof.Machine.execMailbox n body s
  | .timeFrameSend n t => Sys2Proof.Machine.execTimeFrameSend n t s
  | .timeFrameRx n t dep ownDep ownArr => Sys2Proof.Machine.execTimeFrameRx n t dep ownDep ownArr s
  | .markerRx n t residual b => Sys2Proof.Machine.execMarkerRx n t residual b s
  | .heartbeatRx n lanes ok role ack idx health => Sys2Proof.Machine.execHeartbeatRx n lanes ok role ack idx health s
  | .hbTimeoutExpiry n => Sys2Proof.Machine.execHbTimeoutExpiry n s
  | .netLinkChange p sync up full speed => Sys2Proof.Machine.execNetLinkChange p sync up full speed s
  | .netFrameRx p frame => Sys2Proof.Machine.execNetFrameRx p frame s
  | .mgmtFrameSend p frame => Sys2Proof.Machine.execMgmtFrameSend p frame s
  | .streamAdd m a0 a1 => Sys2Proof.Machine.execStreamAdd m a0 a1 s
  | .streamRemove m a0 => Sys2Proof.Machine.execStreamRemove m a0 s
  | .talkerPacketSend c k => Sys2Proof.Machine.execTalkerPacketSend c k s
  | .listenerPacketRx p frame => Sys2Proof.Machine.execListenerPacketRx p frame s
  | .controlDatagramRx p frame => Sys2Proof.Machine.execControlDatagramRx p frame s
  | .cdgGo => Sys2Proof.Machine.execCdgGo s
  | .cdgGoAt => Sys2Proof.Machine.execCdgGoAt s
  | .cdgWrite => Sys2Proof.Machine.execCdgWrite s
  | .cdgRead => Sys2Proof.Machine.execCdgRead s
  | .cdgMailbox => Sys2Proof.Machine.execCdgMailbox s
  | .roleCfgWrite m v => Sys2Proof.Machine.execRoleCfgWrite m v s
  | .electionTimeout => Sys2Proof.Machine.execElectionTimeout s
  | .sdPendingClear m v => Sys2Proof.Machine.execSdPendingClear m v s
  | .handover m => Sys2Proof.Machine.execHandover m s
  | .join m => Sys2Proof.Machine.execJoin m s
  | .catchWarmEnd => Sys2Proof.Machine.execCatchWarmEnd s
  | .catchMatchTimeout => Sys2Proof.Machine.execCatchMatchTimeout s
  | .loanWrite m n0 v => Sys2Proof.Machine.execLoanWrite m n0 v s
  | .rehCfgWrite m v => Sys2Proof.Machine.execRehCfgWrite m v s
  | .bankBorrow b t => Sys2Proof.Machine.execBankBorrow b t s
  | .marchBlockDone b bad => Sys2Proof.Machine.execMarchBlockDone b bad s
  | .bankRecall b => Sys2Proof.Machine.execBankRecall b s
  | .recallComplete b t => Sys2Proof.Machine.execRecallComplete b t s
  | .scrubRead mem addr page upset words => Sys2Proof.Machine.execScrubRead mem addr page upset words s
  | .scrubPeriodEnd => Sys2Proof.Machine.execScrubPeriodEnd s
  | .selftestSegmentDone k g ok => Sys2Proof.Machine.execSelftestSegmentDone k g ok s
  | .healthReport n => Sys2Proof.Machine.execHealthReport n s
  | .reportWriteComplete ext => Sys2Proof.Machine.execReportWriteComplete ext s
  | .clearFail m => Sys2Proof.Machine.execClearFail m s
  | .ownerWrite m off v => Sys2Proof.Machine.execOwnerWrite m off v s
  | .handoverComplete bank portB => Sys2Proof.Machine.execHandoverComplete bank portB s
  | .eccInjectWrite m v => Sys2Proof.Machine.execEccInjectWrite m v s
  | .eccLastHiRead m => Sys2Proof.Machine.execEccLastHiRead m s
  | .gridLockSet m => Sys2Proof.Machine.execGridLockSet m s
  | .gridTimeout m id => Sys2Proof.Machine.execGridTimeout m id s
  | .masterReset m => Sys2Proof.Machine.execMasterReset m s
  | .lastErrLoRead m => Sys2Proof.Machine.execLastErrLoRead m s
  | .fuseRead first n => Sys2Proof.Machine.execFuseRead first n s
  | .keyStoreWrite slot wrapped => Sys2Proof.Machine.execKeyStoreWrite slot wrapped s
  | .levelDirectCommand code => Sys2Proof.Machine.execLevelDirectCommand code s
  | .softReset m p => Sys2Proof.Machine.execSoftReset m p s
  | .eventForceWrite m p v => Sys2Proof.Machine.execEventForceWrite m p v s
  | .ringTailWrite m v => Sys2Proof.Machine.execRingTailWrite m v s
  | .pcieConfigRequest cfg => Sys2Proof.Machine.execPcieConfigRequest cfg s
  | .pcieInboundRequest bar0 id a wr len => Sys2Proof.Machine.execPcieInboundRequest bar0 id a wr len s
  | .pcieLinkUp speed width => Sys2Proof.Machine.execPcieLinkUp speed width s
  | .pcieLinkDown => Sys2Proof.Machine.execPcieLinkDown s
  | .restoreFactory m a0 => Sys2Proof.Machine.execRestoreFactory m a0 s
  | .fwLoad m a0 a1 a2 => Sys2Proof.Machine.execFwLoad m a0 a1 a2 s
  | .fwRestart m a0 => Sys2Proof.Machine.execFwRestart m a0 s
  | .fwReady m => Sys2Proof.Machine.execFwReady m s
  | .fwRestartTimeout => Sys2Proof.Machine.execFwRestartTimeout s
  | .calSaveUser m => Sys2Proof.Machine.execCalSaveUser m s
  | .calSaveFactory m => Sys2Proof.Machine.execCalSaveFactory m s
  | .benchCoreStart crc => Sys2Proof.Machine.execBenchCoreStart crc s
  | .benchPeriodEnd lv overload fault sealLow => Sys2Proof.Machine.execBenchPeriodEnd lv overload fault sealLow s
  | .benchMinuteEnd laeq => Sys2Proof.Machine.execBenchMinuteEnd laeq s
  | .benchIntegrityCheck crc => Sys2Proof.Machine.execBenchIntegrityCheck crc s
  | .benchRecord t err => Sys2Proof.Machine.execBenchRecord t err s
  | .benchSilent => Sys2Proof.Machine.execBenchSilent s
  | .rec0Read m => Sys2Proof.Machine.execRec0Read m s
  | .readLog m a0 a1 => Sys2Proof.Machine.execReadLog m a0 a1 s
  | .readId m => Sys2Proof.Machine.execReadId m s
  | .calChallenge m => Sys2Proof.Machine.execCalChallenge m s
  | .calEnter m => Sys2Proof.Machine.execCalEnter m s
  | .calMeasure m a0 => Sys2Proof.Machine.execCalMeasure m a0 s
  | .calMeasureComplete level tone => Sys2Proof.Machine.execCalMeasureComplete level tone s
  | .calSettings m a0 a1 a2 => Sys2Proof.Machine.execCalSettings m a0 a1 a2 s
  | .calSetRtc m a0 => Sys2Proof.Machine.execCalSetRtc m a0 s
  | .calCommit m => Sys2Proof.Machine.execCalCommit m s
  | .calExit m => Sys2Proof.Machine.execCalExit m s
  | .calAutoExit sealN => Sys2Proof.Machine.execCalAutoExit sealN s
  | .nonceExpiry => Sys2Proof.Machine.execNonceExpiry s
  | .calLockoutEnd => Sys2Proof.Machine.execCalLockoutEnd s
  | .uartId => Sys2Proof.Machine.execUartId s
  | .uartNow => Sys2Proof.Machine.execUartNow s
  | .uartLog n0 n => Sys2Proof.Machine.execUartLog n0 n s
  | .uartErr => Sys2Proof.Machine.execUartErr s
  | .govCtrlWrite m v => Sys2Proof.Machine.execGovCtrlWrite m v s
  | .vinRise => Sys2Proof.Machine.execVinRise s
  | .vinFall => Sys2Proof.Machine.execVinFall s
  | .vinOvervoltage => Sys2Proof.Machine.execVinOvervoltage s
  | .keepAliveLoss => Sys2Proof.Machine.execKeepAliveLoss s
  | .pgRise n0 => Sys2Proof.Machine.execPgRise n0 s
  | .pgTimeout n0 => Sys2Proof.Machine.execPgTimeout n0 s
  | .pgDrop n0 => Sys2Proof.Machine.execPgDrop n0 s
  | .vauxOverload => Sys2Proof.Machine.execVauxOverload s
  | .thermalShutdown => Sys2Proof.Machine.execThermalShutdown s
  | .railRetry => Sys2Proof.Machine.execRailRetry s
  | .rtcWake => Sys2Proof.Machine.execRtcWake s
  | .resetNAssert => Sys2Proof.Machine.execResetNAssert s
  | .resetNRelease => Sys2Proof.Machine.execResetNRelease s
  | .bootRomStart primary cfg bootsel answered version => Sys2Proof.Machine.execBootRomStart primary cfg bootsel answered version s
  | .tempSample t => Sys2Proof.Machine.execTempSample t s
  | .vinMeasure mv => Sys2Proof.Machine.execVinMeasure mv s
  | .pdCtrlWrite m v => Sys2Proof.Machine.execPdCtrlWrite m v s
  | .domainOn d => Sys2Proof.Machine.execDomainOn d s
  | .setMode m a0 => Sys2Proof.Machine.execSetMode m a0 s
  | .wdogKick m v => Sys2Proof.Machine.execWdogKick m v s
  | .watchdogTimeout => Sys2Proof.Machine.execWatchdogTimeout s
  | .idleExitRequest n => Sys2Proof.Machine.execIdleExitRequest n s
  | .powerDownPgFall n0 => Sys2Proof.Machine.execPowerDownPgFall n0 s
  | .railSequenceDelay => Sys2Proof.Machine.execRailSequenceDelay s
  | .overVoltageRecovery => Sys2Proof.Machine.execOverVoltageRecovery s
  | .sgmiiSpeedChange p speed => Sys2Proof.Machine.execSgmiiSpeedChange p speed s

end Sys2Proof.Machine
end

