-- ==== Sys2Proof/Safety.lean ====
section
/-!
DEFINITION. What claims are stated in: the ends of a command, the conditions under which a block acts, and the results of a strip processor.
-/
namespace Sys2Proof.Machine

/-! ### The end of a command -/

/-- Command `c` at state `s` answers a next state whose part satisfies `P`, and leaves the queue as it is. -/
def Done (c : Instr) (s : State) (P : Stage → Prop) : Prop :=
  ∃ t : State, exec c s = .next t ∧ t.pending = s.pending ∧ P t.stage

/-- The Stage die runs and block `i` of kind `k` exists and has power (R628, R638, R645). -/
def Live (s : State) (k : PageKind) (i : Nat) : Prop :=
  s.stage.dieUp = true ∧ pageOf (k.page i) = some (k, i) ∧ s.stage.powered (k.page i) = true

/-- The commands of the supervisor and of the sealed measuring core, which lie outside the Stage die (R604, R628). -/
def outsideDie : Instr → Bool
  | .benchCoreStart _ => true
  | .benchPeriodEnd _ _ _ _ => true
  | .benchMinuteEnd _ => true
  | .benchIntegrityCheck _ => true
  | .calMeasureComplete _ _ => true
  | .calAutoExit _ => true
  | .nonceExpiry => true
  | .calLockoutEnd => true
  | .uartId => true
  | .uartNow => true
  | .uartLog _ _ => true
  | .uartErr => true
  | .vinRise => true
  | .vinFall => true
  | .vinOvervoltage => true
  | .keepAliveLoss => true
  | .pgRise _ => true
  | .pgTimeout _ => true
  | .pgDrop _ => true
  | .vauxOverload => true
  | .thermalShutdown => true
  | .railRetry => true
  | .rtcWake => true
  | .resetNAssert => true
  | .resetNRelease => true
  | .powerDownPgFall _ => true
  | .railSequenceDelay => true
  | .overVoltageRecovery => true
  | _ => false

/-! ### Interrupts -/

/-- While the Stage die runs, a vector is marked as sent only while it is pending, and every pending vector that is deliverable is marked (R576). -/
def VectorsSent (s : Stage) : Prop :=
  s.dieUp = true → ∀ v, v < 32 → (bit s.vecSent v = true → bit s.vecPending v = true)
    ∧ (bit s.vecPending v = true → s.deliverable v = true → bit s.vecSent v = true)

/-! ### Strip processors -/

/-- SP `k` as the bundle about to issue sees it: every result due by now has landed (R76). -/
def State.atIssue (s : State) (k : Nat) : SpSt := (s.stage.sp k).landNow

/-- Bundle `b` executes on SP `k`: the processor may issue, no interrupt is due, the bundle raises no fault and does not stall (R86, R93, R112). -/
def Issues (s : State) (k : Nat) (b : Bundle) : Prop :=
  Live s .sp k ∧ (s.stage.sp k).active = true ∧ (s.stage.sp k).entryDue = false
    ∧ (s.atIssue k).bundleFault (s.atIssue k).pc b = none ∧ (s.atIssue k).stalls b = false

/-- Results stay in flight after bundle `b`: it is no SDONE and no delay bundle of an IRET, after which every result lands (R88, R89, R128). -/
def Flows (s : State) (k : Nat) (b : Bundle) : Prop :=
  ((s.atIssue k).holds b.t.pred && b.isDone) = false ∧ (s.atIssue k).delay ≠ some .iret

/-- The bundle issued at `s` on SP `k` has sent a result of slot rank `rank` to `dest`, visible `lat` bundles later (R76). -/
def Sends (s : State) (k lat rank : Nat) (dest : Dest) (val : Int) (t : Stage) : Prop :=
  ({ due := (s.stage.sp k).iss + lat, rank := rank, iss := (s.stage.sp k).iss, dest := dest, val := val } : Land) ∈ (t.sp k).pend

/-- The same, to the D register that `n` names at issue (R67). -/
def SendsD (s : State) (k lat rank n : Nat) (v : Word) (t : Stage) : Prop :=
  Sends s k lat rank (.d ((s.atIssue k).phys n)) v.toNat t

/-- Bundle `b` executes with the slot of predicate `pred` acting, and its results stay in flight. -/
def Runs (s : State) (k : Nat) (b : Bundle) (pred : Nat) : Prop :=
  Issues s k b ∧ Flows s k b ∧ (s.atIssue k).holds pred = true

/-- `z` is a `w`-bit signed number. -/
def InRange (w : Nat) (z : Int) : Prop := -(2 ^ (w - 1) : Int) ≤ z ∧ z < 2 ^ (w - 1)

/-- A 32-bit saturating result of the A slot in Dn, with SV set when saturation changes the value `z` (R120). -/
def SendsSat (s : State) (k n : Nat) (z : Int) (t : Stage) : Prop :=
  SendsD s k 1 2 n (Word.ofInt (max (-(2 ^ 31)) (min (2 ^ 31 - 1) z))) t
    ∧ (¬ InRange 32 z → bit ((t.sp k).sreg rSPSTAT) fSV = true)

/-- An accumulator result `z` under SPMODE.ACS: exact in range; else the nearer extreme with AV, or modulo 2^72 with AV as it was (R69, R120). -/
def SendsAcc (s : State) (k lat rank c : Nat) (z : Int) (t : Stage) : Prop :=
  ∃ v : Int, Sends s k lat rank (.ac c) v t
    ∧ (InRange 72 z → v = z)
    ∧ (¬ InRange 72 z → (s.atIssue k).acs = true →
        v = (if z < 0 then -(2 ^ 71) else 2 ^ 71 - 1) ∧ bit ((t.sp k).sreg rSPSTAT) fAV = true)
    ∧ ((s.atIssue k).acs = false →
        InRange 72 v ∧ (v - z) % 2 ^ 72 = 0 ∧ bit ((t.sp k).sreg rSPSTAT) fAV = bit ((s.atIssue k).sreg rSPSTAT) fAV)

/-- A flag result of the A slot in Fk. -/
def SendsF (s : State) (k f : Nat) (b : Bool) (t : Stage) : Prop := Sends s k 1 2 (.flag f) (if b then 1 else 0) t

/-- Pointer `i` after a post-modify by `stride`: modulo 2^16 with L = 0, else inside its buffer (R73, R74). -/
def SpSt.stepped (sp : SpSt) (i : Nat) (stride : Int) : Int :=
  if sp.l i = 0 then ((sp.p i : Int) + stride) % 65536
  else ((sp.b i : Int) + ((sp.p i : Int) - sp.b i + stride) % sp.l i) % 65536

/-- The 16-bit word address of a TM access (R124). -/
def SpSt.tmAddr (sp : SpSt) (p am imm : Nat) : Nat := if am = 3 then (sp.stepped p (sext 11 imm)).toNat else sp.p p

/-- The pointer update of a TM access (R124). -/
def SendsPtr (s : State) (k p am imm : Nat) (t : Stage) : Prop :=
  (am = 1 → Sends s k 1 3 (.sr p) ((s.atIssue k).stepped p ((s.atIssue k).n p)) t)
    ∧ (am = 2 → Sends s k 1 3 (.sr p) ((s.atIssue k).stepped p (sext 11 imm)) t)

/-- The strip processor and the bundle that a slot command issues; other commands issue none. -/
def slotBundle : Instr → Option (Nat × Bundle)
  | .nop k inT pred o => some (k, (if inT then { o with t := { pred := pred, op := .nop } } else { o with a := { pred := pred, op := .nop } }))
  | .mac k second slot o => some (k, (o.withM second { slot with op := .mac }))
  | .msu k second slot o => some (k, (o.withM second { slot with op := .msu }))
  | .mpy k second slot o => some (k, (o.withM second { slot with op := .mpy }))
  | .mpyn k second slot o => some (k, (o.withM second { slot with op := .mpyn }))
  | .ld k second slot o => some (k, (o.withM second slot))
  | .add k pred dd da db o => some (k, (o.withA pred (.add dd da db)))
  | .sub k pred dd da db o => some (k, (o.withA pred (.sub dd da db)))
  | .adds k pred dd da db o => some (k, (o.withA pred (.adds dd da db)))
  | .subs k pred dd da db o => some (k, (o.withA pred (.subs dd da db)))
  | .and k pred dd da db o => some (k, (o.withA pred (.and dd da db)))
  | .or k pred dd da db o => some (k, (o.withA pred (.or dd da db)))
  | .xor k pred dd da db o => some (k, (o.withA pred (.xor dd da db)))
  | .not k pred dd da o => some (k, (o.withA pred (.not dd da)))
  | .neg k pred dd da o => some (k, (o.withA pred (.neg dd da)))
  | .abs k pred dd da o => some (k, (o.withA pred (.abs dd da)))
  | .min k pred dd da db o => some (k, (o.withA pred (.min dd da db)))
  | .max k pred dd da db o => some (k, (o.withA pred (.max dd da db)))
  | .mov k pred dd da o => some (k, (o.withA pred (.mov dd da)))
  | .shv k pred dd da db o => some (k, (o.withA pred (.shv dd da db)))
  | .addi k pred dd da imm o => some (k, (o.withA pred (.addi dd da imm)))
  | .shli k pred dd da n o => some (k, (o.withA pred (.shli dd da n)))
  | .shri k pred dd da n o => some (k, (o.withA pred (.shri dd da n)))
  | .srai k pred dd da n o => some (k, (o.withA pred (.srai dd da n)))
  | .shlsi k pred dd da n o => some (k, (o.withA pred (.shlsi dd da n)))
  | .extr k pred aca dd s6 o => some (k, (o.withA pred (.extr aca dd s6)))
  | .norm k pred aca dd o => some (k, (o.withA pred (.norm aca dd)))
  | .expa k pred aca dd o => some (k, (o.withA pred (.expa aca dd)))
  | .expd k pred da dd o => some (k, (o.withA pred (.expd da dd)))
  | .aclr k pred acd o => some (k, (o.withA pred (.aclr acd)))
  | .amov k pred acd aca o => some (k, (o.withA pred (.amov acd aca)))
  | .aadd k pred acd aca o => some (k, (o.withA pred (.aadd acd aca)))
  | .asub k pred acd aca o => some (k, (o.withA pred (.asub acd aca)))
  | .aneg k pred acd aca o => some (k, (o.withA pred (.aneg acd aca)))
  | .ashi k pred acd aca s6 o => some (k, (o.withA pred (.ashi acd aca s6)))
  | .ashd k pred acd aca da o => some (k, (o.withA pred (.ashd acd aca da)))
  | .dtoa k pred acd da s6 o => some (k, (o.withA pred (.dtoa acd da s6)))
  | .ard k pred aca dd part o => some (k, (o.withA pred (.ard aca dd part)))
  | .awr k pred acd da part o => some (k, (o.withA pred (.awr acd da part)))
  | .cmpeq k pred fk da db o => some (k, (o.withA pred (.cmpeq fk da db)))
  | .cmplt k pred fk da db o => some (k, (o.withA pred (.cmplt fk da db)))
  | .cmple k pred fk da db o => some (k, (o.withA pred (.cmple fk da db)))
  | .cmpltu k pred fk da db o => some (k, (o.withA pred (.cmpltu fk da db)))
  | .cmpeqi k pred fk da imm o => some (k, (o.withA pred (.cmpeqi fk da imm)))
  | .cmplti k pred fk da imm o => some (k, (o.withA pred (.cmplti fk da imm)))
  | .cmpgti k pred fk da imm o => some (k, (o.withA pred (.cmpgti fk da imm)))
  | .btst k pred fk da n o => some (k, (o.withA pred (.btst fk da n)))
  | .atstn k pred fk aca o => some (k, (o.withA pred (.atstn fk aca)))
  | .atstz k pred fk aca o => some (k, (o.withA pred (.atstz fk aca)))
  | .fop k pred fk fa fb tt o => some (k, (o.withA pred (.fop fk fa fb tt)))
  | .ldc k pred dr p am imm o => some (k, (o.withT pred (.ldc dr p am imm)))
  | .stx k pred dr p am imm o => some (k, (o.withT pred (.stx dr p am imm)))
  | .sty k pred dr p am imm o => some (k, (o.withT pred (.sty dr p am imm)))
  | .stc k pred dr p am imm o => some (k, (o.withT pred (.stc dr p am imm)))
  | .modp k pred p am imm o => some (k, (o.withT pred (.modp p am imm)))
  | .far k pred p am imm o => some (k, (o.withT pred (.far p am imm)))
  | .movi k pred dd imm o => some (k, (o.withT pred (.movi dd imm)))
  | .movhi k pred dd imm o => some (k, (o.withT pred (.movhi dd imm)))
  | .movs k pred sreg d o => some (k, (o.withT pred (.movs sreg d)))
  | .movr k pred sreg d o => some (k, (o.withT pred (.movr sreg d)))
  | .movsi k pred sreg imm o => some (k, (o.withT pred (.movsi sreg imm)))
  | .br k pred target o => some (k, (o.withT pred (.br target)))
  | .call k pred target o => some (k, (o.withT pred (.call target)))
  | .ret k pred o => some (k, (o.withT pred .ret))
  | .loop k pred rot stop count o => some (k, (o.withT pred (.loop rot stop count)))
  | .loopd k pred rot stop d o => some (k, (o.withT pred (.loopd rot stop d)))
  | .lexit k pred target o => some (k, (o.withT pred (.lexit target)))
  | .iret k pred o => some (k, (o.withT pred .iret))
  | .sdone k pred o => some (k, (o.withT pred .sdone))
  | .swait k pred j o => some (k, (o.withT pred (.swait j)))
  | .fwait k pred n o => some (k, (o.withT pred (.fwait n)))
  | .mbrd k pred d o => some (k, (o.withT pred (.mbrd d)))
  | .mbwr k pred d o => some (k, (o.withT pred (.mbwr d)))
  | _ => none

/-! ### Accesses -/

/-- The row that a page's table gives register `off`. -/
def rowOf (k : PageKind) (i off : Nat) : RegDef := (regDef k i off).getD { off := off, rst := 0 }

/-- A written word with its reserved bits dropped (R8). -/
def RegDef.masked (d : RegDef) (n : Nat) : Nat := Nat.land (n % 2 ^ 32) (Nat.lor d.rw (Nat.lor d.w1c d.wo))

/-- What a write of `n` brings to register `off` of a page. -/
def regWord (k : PageKind) (i off n : Nat) : Nat := (rowOf k i off).masked n

/-- A write of `n` by `m` to register `off` of a live page is not boundary-applied and passes every test (R562, R563). -/
def Passes (s : State) (m : Master) (k : PageKind) (i off n : Nat) : Prop :=
  Live s k i ∧ (regDef k i off).isSome = true ∧ s.stage.regVerdict m.cls k i (rowOf k i off) (regWord k i off n) = .go
    ∧ s.stage.boundarySel k i off (regWord k i off n) = none

/-- What such a write leaves: OKAY, with the written bits set, the W1C bits cleared and the others kept (R7, R8). -/
def Written (s : State) (k : PageKind) (i off n : Nat) (t : Stage) : Prop :=
  t.bus.resp = .okay ∧ t.regN (k.page i) off = (rowOf k i off).merge (s.stage.regN (k.page i) off) (regWord k i off n)

/-- A write of `n` is boundary-applied with selection `x`, passes every test and finds room (R22, R23, R461). -/
def Places (s : State) (m : Master) (k : PageKind) (i off n x : Nat) : Prop :=
  Live s k i ∧ (regDef k i off).isSome = true ∧ s.stage.regVerdict m.cls k i (rowOf k i off) (regWord k i off n) = .go
    ∧ s.stage.boundarySel k i off (regWord k i off n) = some x ∧ s.stage.ownBarred m.cls = false
    ∧ s.stage.tagTooFar m.cls = false ∧ s.stage.txn = none ∧ s.stage.places < 4096

/-- What such a write leaves: OKAY, and the change waits at the end of the places for the boundary of R22. -/
def Placed (s : State) (m : Master) (k : PageKind) (i off n x : Nat) (t : Stage) : Prop :=
  t.bus.resp = .okay ∧ ∃ w : WWrite, t.waiting = s.stage.waiting ++ [w] ∧ w.due = (s.stage.dueFor m.cls).1 ∧ w.cls = m.cls ∧ w.place = true
    ∧ w.kind = .reg (k.page i * 4096 + off) x (Word.ofNat (regWord k i off n))

/-- Event `b` of page `p` is set. -/
def Raises (p b : Nat) (t : Stage) : Prop := t.flag p 0x014 b = true

/-! ### Commands of a page -/

/-- A command written on page `p` starts at once: the page has power, runs nothing that keeps it, and holds no record back (R566, R571, R589). -/
def Ready (s : State) (p : Nat) : Prop :=
  s.stage.dieUp = true ∧ (pageOf p).isSome = true ∧ s.stage.powered p = true ∧ s.stage.queue p = [] ∧ s.stage.mayStart p = true
    ∧ s.stage.cmdFree p = true

/-- The arguments of a command written (R566). -/
def Stage.withArgs (s : Stage) (m : Master) (p : Nat) (a : List Word) : Stage :=
  ((upTo a.length).zip a).foldl (fun s e => s.setArg p m e.1 e.2) s

/-- The state in which such a command starts: its arguments written, its handle given, the write answered OKAY, and nothing queued. -/
def Stage.issued (s : Stage) (m : Master) (p code : Nat) (a : List Word) : Stage := ((s.withArgs m p a).cmdWrite m p code).popCmd p

/-- The command as its page holds it. -/
def Stage.issuedCmd (s : Stage) (m : Master) (p code : Nat) (a : List Word) : Cmd :=
  let s := s.withArgs m p a
  { seq := s.nextSeq p, cls := m.cls, idx := m.idx, code := code, a0 := s.arg p m 0, a1 := s.arg p m 1, a2 := s.arg p m 2 }

/-- A completion record can enter the ring at once (R571), over words that hold no error. -/
def RingFree (s : Stage) : Prop := s.ringCount < 1024 ∧ s.recStore = [] ∧ s.ecc = []

/-- The record of command `c` of page `p` stands at what was HEAD of `x`, and HEAD has moved on by one (R569, R570). -/
def Recorded (x : Stage) (p : Nat) (c : Cmd) (status : Nat) (result : Word) (t : Stage) : Prop :=
  t.rd32 (ringBase + 32 * (x.fld 0 0x0C0 10 0 % 1024)) = Word.ofNat (handleOf p c.seq)
    ∧ t.rd32 (ringBase + 32 * (x.fld 0 0x0C0 10 0 % 1024) + 4) = Word.ofNat (c.cls % 256 * 256 + status)
    ∧ t.rd32 (ringBase + 32 * (x.fld 0 0x0C0 10 0 % 1024) + 8) = result
    ∧ t.regN 0 0x0C0 = (x.fld 0 0x0C0 10 0 + 1) % 2048

/-- The codes that the commands of a page have. -/
def commandCodes (k : PageKind) (i : Nat) : Nat :=
  match k with
  | .sys => 5 | .bat => 1 | .net => if i = 0 then 2 else 0 | .datum => 1 | .prompt => 4 | .tableau => 1 | .decim => 1 | .redundancy => 2
  | .rehearsal => 1 | .bench => 9 | .power => 1 | .graph => 3 | _ => 0

/-! ### Units -/

/-- Port `p` has a link and acts (R431). -/
def LiveNet (s : State) (p : Nat) : Prop := Live s .net p ∧ s.stage.netLink p = true

/-- A network port takes a PTP message (R264). -/
def TakesPtp (s : State) (p : Nat) (m : PtpMsg) : Prop :=
  LiveNet s p ∧ s.stage.tpEn (pNet p) = true ∧ s.stage.ptpMatch (pNet p) m = true

/-- The part takes messages of the control channel of link `n` (R416). -/
def LiveCtl (s : State) (n : Nat) : Prop := Live s .link n ∧ s.stage.ctrlOk n = true

/-- Lane `i` acts. -/
def LiveLane (s : State) (i : Nat) : Prop :=
  s.stage.dieUp = true ∧ i < 24 ∧ s.stage.powered (lanePage i) = true

/-- A frame as it leaves a port: padded to 60 bytes, with its FCS (R433). -/
def onWire (f : List Byte) : List Byte :=
  let f := f ++ (upTo (60 - f.length)).map fun _ => 0#8
  f ++ fcs f

/-- Datagram `m` has been answered with `status` and `v` under its key slot (R446). -/
def Answers (s : Stage) (m : CdgMsg) (status v : Nat) (t : Stage) : Prop :=
  Tab.get 0 t.net.cdgReply m.slot = Tab.get 0 s.net.cdgReply m.slot + 1
    ∧ (t.netLink m.port = true → ∃ d, Out.net m.port 1 (onWire (t.udpFrame m.port 1 m.vid m.mac m.ip t.cdgPort m.udp d)) ∈ t.outs
        ∧ be d 5 1 = m.slot % 256 ∧ be d 30 1 = 0x81 ∧ be d 32 8 = m.seq % 2 ^ 64 ∧ be d 40 1 = status ∧ be d 44 4 = v % 2 ^ 32)

/-- A trigger of source `src` that names cue `q` is placed in this mode (R294 to R300, R305). -/
def TakesCue (s : Stage) (src q : Nat) : Prop :=
  trigMode s.mode src = .take ∧ s.cueOk q = true ∧ (s.prompt.trigs.filter fun t => timedSrc t.src == timedSrc src).length < 64

/-- A write of `d` from Grid address `g` on lies in one beat of the management memory that masters may write, which holds no error (R545, R547). -/
def PlainBeat (s : Stage) (g len : Nat) : Prop :=
  oneBeat g len = true ∧ 0x10000000 ≤ g ∧ g + len ≤ 0x100F8000 ∧ s.ecc = []

/-- The enabled bytes of `d` stand from `g` on, and every other byte is as before. -/
def Stores (s : Stage) (g : Nat) (d : List (Byte × Bool)) (t : Stage) : Prop :=
  (∀ i b, d[i]? = some (b, true) → t.rd8 (g + i) = b)
    ∧ ∀ a, (a < g ∨ ∀ b, d[a - g]? ≠ some (b, true)) → t.rd8 a = s.rd8 a

/-- Word `w` is read in this sample on BAT `k`: its source counts and some gain of it is not zero (R140). -/
def Stage.wordUsed (s : Stage) (k w : Nat) : Bool :=
  (s.srcNoSkip w || !s.srcSilent w) && (upTo 8).any (s.gainOn k (s.bat k) w)

/-- The sum of destination `d` over all 2048 sources in ascending order, held within 72 bits at each step (R132). -/
def Stage.sumOver (s : Stage) (k d : Nat) : Int :=
  let b := s.bat k
  (upTo 2048).foldl (fun z w =>
    if s.wordUsed k w then satI 72 (z + (s.exchRead (s.srcSlot w)).toInt * s.liveGain k b (s.alpha k b.xfCurve b.xfK b.xfN) w d) else z) 0

/-! ### Resets of the Stage die -/

/-- Of `s`, only what lies outside the Stage die is left, and the supervisor and the sealed core are as in `t` (R645). -/
def DieReset (s t : Stage) : Prop := t = { bench := t.bench, sup := t.sup, flash := s.flash, outs := s.outs, fresh := s.fresh }

/-- A power-on sequence has begun with cause `c` (R633): EN_0 is high, V_AUX and the sealed core are on, and the Stage die is in reset. -/
def PowersOn (s : Stage) (c : Nat) (t : Stage) : Prop :=
  DieReset s t ∧ t.bench = { s.bench with on := true } ∧ t.sup.state = .waitPg 0 ∧ t.sup.en = 1 ∧ t.sup.pg = 0 ∧ t.sup.vaux = true ∧ t.sup.cause = c
    ∧ t.sup.retry = false ∧ t.sup.faults = s.sup.faults

/-- The rails stand off, and VIN lets the supervisor make a power-on (R629). -/
def MayPower (s : Stage) : Prop := s.railsOff = true ∧ s.sup.vinOk = true ∧ s.sup.ovp = false ∧ s.sup.keep = true

/-- A rail fault of rail `rail` with cause `code` has been taken (R634): the die is in reset, EN_5 is low, and after the third no retry follows. -/
def RailFault (s : Stage) (rail code : Nat) (t : Stage) : Prop :=
  DieReset s t ∧ t.bench = s.bench ∧ t.sup.state = .down 5 ∧ bit t.sup.en 5 = false ∧ t.sup.faults = s.sup.faults + 1 ∧ t.sup.rail = rail
    ∧ t.sup.fault = code ∧ t.sup.target = .watch ∧ (t.sup.retry = true ↔ s.sup.faults < 2)

/-- The reset of the Stage die has been released with cause `c` (R643, R645, R659): the mode is BOOT, every register reads its reset value, memory is
zero, and RESET_CAUSE names the cause and the last fault. -/
def Released (s : Stage) (c : Nat) (t : Stage) : Prop :=
  t.sup.state = .up ∧ t.sup.faults = 0 ∧ t.sup.resetCause = min 3 s.sup.faults * 2 ^ 16 + s.sup.rail * 2 ^ 8 + s.sup.fault * 2 ^ 4 + c
    ∧ t.mode = mBoot ∧ t.grid.lock = false ∧ (∀ p off, t.reg p off = regReset (p * 4096 + off)) ∧ (∀ a, t.rd8 a = 0#8) ∧ t.flash = s.flash
    ∧ t.bench = s.bench

/-- The next step of a power-down after rail `i` (R635): the next EN falls, or with rail 0 the part is in OFF or WATCH with V_AUX off. -/
def NextDown (s : Stage) (i : Nat) (t : Stage) : Prop :=
  (0 < i → t.sup.state = .down (i - 1) ∧ bit t.sup.en (i - 1) = false ∧ t.sup.vaux = s.sup.vaux)
    ∧ (i = 0 → t.sup.en = 0 ∧ t.sup.vaux = false ∧ (s.sup.target = .off → t.sup.state = .off ∧ t.bench.on = false)
      ∧ (s.sup.target ≠ .off → t.sup.state = .watch ∧ t.bench = s.bench))

/-! ### Frames -/

/-- The parts of the Stage die beside its registers, its vectors and what has left it. -/
inductive Part where
  | cmds | ring | waiting | mem | ecc | bus | free | host | grid | level | datum | tports | exch | blocks | sps | graph | bats | ports | decs | patch | lanes | links | red | bridges | net | pool | reh | prompt | tab | bench | mail | flash | sup | mode
deriving DecidableEq, Repr

/-- A part is the same in both states. -/
def Part.same (s t : Stage) : Part → Prop
  | .cmds => t.cmdq = s.cmdq ∧ t.seqs = s.seqs ∧ t.args = s.args ∧ t.running = s.running
  | .ring => t.recStore = s.recStore ∧ t.recHeld = s.recHeld
  | .waiting => t.waiting = s.waiting ∧ t.order = s.order
  | .mem => t.mem = s.mem
  | .ecc => t.ecc = s.ecc
  | .bus => t.bus = s.bus
  | .free => t.fresh = s.fresh
  | .host => t.host = s.host ∧ t.routes = s.routes
  | .grid => t.grid = s.grid
  | .level => t.level = s.level
  | .datum => t.datum = s.datum
  | .tports => t.tports = s.tports
  | .exch => t.exch = s.exch
  | .blocks => t.blocks = s.blocks
  | .sps => t.sps = s.sps
  | .graph => t.graph = s.graph
  | .bats => t.bats = s.bats
  | .ports => t.ports = s.ports ∧ t.groups = s.groups
  | .decs => t.decs = s.decs ∧ t.syncs = s.syncs
  | .patch => t.patch = s.patch
  | .lanes => t.lanes = s.lanes
  | .links => t.links = s.links
  | .red => t.red = s.red
  | .bridges => t.bridges = s.bridges
  | .net => t.net = s.net
  | .pool => t.pool = s.pool
  | .reh => t.reh = s.reh
  | .prompt => t.prompt = s.prompt
  | .tab => t.tab = s.tab
  | .bench => t.bench = s.bench
  | .mail => t.mail = s.mail ∧ t.fwVersion = s.fwVersion
  | .flash => t.flash = s.flash
  | .sup => t.sup = s.sup
  | .mode => t.modeReq = s.modeReq ∧ t.lockDue = s.lockDue ∧ t.txn = s.txn

/-- Between `s` and `t` nothing has changed but registers of the pages named, the parts named, and events, which are only set. -/
def Keeps (pages : List Nat) (parts : List Part) (s t : Stage) : Prop :=
  (∀ p off, p ∉ pages → off < 4096 → off ≠ 0x014 → t.reg p off = s.reg p off)
    ∧ (∀ p b, s.flag p 0x014 b = true → t.flag p 0x014 b = true)
    ∧ ∀ x : Part, x ∉ parts → x.same s t

/-- Every command of a list changes at most what is named. -/
def Frame (cs : List Instr) (pages : List Nat) (parts : List Part) : Prop :=
  ∀ c ∈ cs, ∀ s t : State, exec c s = .next t → t.pending = s.pending ∧ Keeps pages parts s.stage t.stage

end Sys2Proof.Machine
end

