-- ==== Sys2Proof/Certificates/Slice0/Obligations.lean ====
section
/-!
DEFINITION. The statements for the provers.
-/
open Sys2Proof Sys2Proof.Machine

/-- Wherever the instruction executes with a true predicate and its results stay in flight, ADD, SUB, AND, OR, XOR, NOT, MIN, MAX, MOV, ADDI, SHLI, SHRI, SRAI and ARD end in a next state with exactly the D result of the opcode table on its way, visible in the next bundle (R119, R118, R121). -/
def Obligations.ModularResults : Prop :=
  ∀ (s : State) (k pred dd da db n aca : Nat) (o : Bundle),
    (Runs s k (o.withA pred (.add dd da db)) pred →
      Done (.add k pred dd da db o) s (SendsD s k 1 2 dd ((s.atIssue k).dReg da + (s.atIssue k).dReg db))) ∧
    (Runs s k (o.withA pred (.sub dd da db)) pred →
      Done (.sub k pred dd da db o) s (SendsD s k 1 2 dd ((s.atIssue k).dReg da - (s.atIssue k).dReg db))) ∧
    (Runs s k (o.withA pred (.and dd da db)) pred →
      Done (.and k pred dd da db o) s (SendsD s k 1 2 dd ((s.atIssue k).dReg da &&& (s.atIssue k).dReg db))) ∧
    (Runs s k (o.withA pred (.or dd da db)) pred →
      Done (.or k pred dd da db o) s (SendsD s k 1 2 dd ((s.atIssue k).dReg da ||| (s.atIssue k).dReg db))) ∧
    (Runs s k (o.withA pred (.xor dd da db)) pred →
      Done (.xor k pred dd da db o) s (SendsD s k 1 2 dd ((s.atIssue k).dReg da ^^^ (s.atIssue k).dReg db))) ∧
    (Runs s k (o.withA pred (.not dd da)) pred →
      Done (.not k pred dd da o) s (SendsD s k 1 2 dd (~~~ (s.atIssue k).dReg da))) ∧
    (Runs s k (o.withA pred (.min dd da db)) pred →
      Done (.min k pred dd da db o) s (SendsD s k 1 2 dd
        (if ((s.atIssue k).dReg da).slt ((s.atIssue k).dReg db) then (s.atIssue k).dReg da else (s.atIssue k).dReg db))) ∧
    (Runs s k (o.withA pred (.max dd da db)) pred →
      Done (.max k pred dd da db o) s (SendsD s k 1 2 dd
        (if ((s.atIssue k).dReg da).slt ((s.atIssue k).dReg db) then (s.atIssue k).dReg db else (s.atIssue k).dReg da))) ∧
    (Runs s k (o.withA pred (.mov dd da)) pred →
      Done (.mov k pred dd da o) s (SendsD s k 1 2 dd ((s.atIssue k).dReg da))) ∧
    (Runs s k (o.withA pred (.addi dd da n)) pred →
      Done (.addi k pred dd da n o) s (SendsD s k 1 2 dd ((s.atIssue k).dReg da + (BitVec.ofNat 12 n).signExtend 32))) ∧
    (Runs s k (o.withA pred (.shli dd da n)) pred →
      Done (.shli k pred dd da n o) s (SendsD s k 1 2 dd ((s.atIssue k).dReg da <<< n))) ∧
    (Runs s k (o.withA pred (.shri dd da n)) pred →
      Done (.shri k pred dd da n o) s (SendsD s k 1 2 dd ((s.atIssue k).dReg da >>> n))) ∧
    (Runs s k (o.withA pred (.srai dd da n)) pred →
      Done (.srai k pred dd da n o) s (SendsD s k 1 2 dd (((s.atIssue k).dReg da).sshiftRight n))) ∧
    (Runs s k (o.withA pred (.ard aca dd n)) pred →
      Done (.ard k pred aca dd n o) s (SendsD s k 1 2 dd
        (if n = 2 then (BitVec.ofNat 8 (bits (toBits 72 ((s.atIssue k).acc aca)) 71 64)).signExtend 32
         else Word.ofNat (bits (toBits 72 ((s.atIssue k).acc aca)) (32 * n + 31) (32 * n)))))

/-- EXPA, EXPD and NORM end in a next state with the EXP count in their D register, NORM with the accumulator shifted left by it. The count is at most 71 for an accumulator and 31 for a D register; that many bits below the sign bit equal it, and where the count stops short of that the next bit differs. Zero and minus one give 71 and 31 (R71). -/
def Obligations.ExpAndNorm : Prop :=
  (∀ (s : State) (k pred dd da aca : Nat) (o : Bundle),
    (Runs s k (o.withA pred (.expa aca dd)) pred →
      Done (.expa k pred aca dd o) s (SendsD s k 1 2 dd (Word.ofNat (expOf 72 ((s.atIssue k).acc aca))))) ∧
    (Runs s k (o.withA pred (.expd da dd)) pred →
      Done (.expd k pred da dd o) s (SendsD s k 1 2 dd (Word.ofNat (expOf 32 ((s.atIssue k).dInt da))))) ∧
    (Runs s k (o.withA pred (.norm aca dd)) pred →
      Done (.norm k pred aca dd o) s (fun t =>
        Sends s k 1 2 (.ac aca) ((s.atIssue k).acc aca * 2 ^ expOf 72 ((s.atIssue k).acc aca)) t
          ∧ SendsD s k 1 2 dd (Word.ofNat (expOf 72 ((s.atIssue k).acc aca))) t))) ∧
  (∀ (w : Nat) (z : Int), (w = 72 ∨ w = 32) → InRange w z →
    expOf w z ≤ w - 1
      ∧ (∀ i, i < expOf w z → bit (toBits w z) (w - 2 - i) = bit (toBits w z) (w - 1))
      ∧ (expOf w z < w - 1 → bit (toBits w z) (w - 2 - expOf w z) ≠ bit (toBits w z) (w - 1))
      ∧ InRange w (z * 2 ^ expOf w z)) ∧
  expOf 72 0 = 71 ∧ expOf 32 0 = 31 ∧ expOf 72 (-1) = 71 ∧ expOf 32 (-1) = 31

/-- ADDS, SUBS, NEG, ABS, SHV, SHLSI and EXTR end in a next state with the saturated value of their exact result on its way, and SPSTAT.SV set where saturation changed it. EXTR takes the accumulator times 2^s over 2^32, rounded to the nearest integer with ties to even under RND = 1 and toward minus infinity under RND = 0 (R119, R120, R70). -/
def Obligations.SaturatingResults : Prop :=
  ∀ (s : State) (k pred dd da db n aca s6 : Nat) (o : Bundle),
    (Runs s k (o.withA pred (.adds dd da db)) pred →
      Done (.adds k pred dd da db o) s (SendsSat s k dd ((s.atIssue k).dInt da + (s.atIssue k).dInt db))) ∧
    (Runs s k (o.withA pred (.subs dd da db)) pred →
      Done (.subs k pred dd da db o) s (SendsSat s k dd ((s.atIssue k).dInt da - (s.atIssue k).dInt db))) ∧
    (Runs s k (o.withA pred (.neg dd da)) pred → Done (.neg k pred dd da o) s (SendsSat s k dd (-(s.atIssue k).dInt da))) ∧
    (Runs s k (o.withA pred (.abs dd da)) pred → Done (.abs k pred dd da o) s (SendsSat s k dd |(s.atIssue k).dInt da|)) ∧
    (Runs s k (o.withA pred (.shv dd da db)) pred →
      (∀ c : Nat, (s.atIssue k).dInt db = c →
        Done (.shv k pred dd da db o) s (SendsSat s k dd ((s.atIssue k).dInt da * 2 ^ min c 31))) ∧
      (∀ c : Nat, (s.atIssue k).dInt db = -(c : Int) →
        Done (.shv k pred dd da db o) s (SendsSat s k dd ((s.atIssue k).dInt da / 2 ^ min c 32)))) ∧
    (Runs s k (o.withA pred (.shlsi dd da n)) pred →
      Done (.shlsi k pred dd da n o) s (SendsSat s k dd ((s.atIssue k).dInt da * 2 ^ n))) ∧
    (Runs s k (o.withA pred (.extr aca dd s6)) pred →
      ∃ z : Int, Done (.extr k pred aca dd s6 o) s (SendsSat s k dd z)
        ∧ ((s.atIssue k).rnd = false → z = (s.atIssue k).acc aca * 2 ^ (sext 6 s6 + 32).toNat / 2 ^ 64)
        ∧ ((s.atIssue k).rnd = true →
            2 * |(s.atIssue k).acc aca * 2 ^ (sext 6 s6 + 32).toNat - z * 2 ^ 64| ≤ 2 ^ 64
            ∧ (2 * |(s.atIssue k).acc aca * 2 ^ (sext 6 s6 + 32).toNat - z * 2 ^ 64| = 2 ^ 64 → z % 2 = 0)))

/-- ACLR, AMOV, AADD, ASUB, ANEG, ASHI, ASHD, DTOA and AWR end in a next state with their accumulator result on its way, exact where it fits 72 bits, else by SPMODE.ACS; AWR replaces one part and keeps the others (R119, R120, R121, R69). -/
def Obligations.AccumulatorResults : Prop :=
  ∀ (s : State) (k pred acd aca da s6 part : Nat) (o : Bundle),
    (Runs s k (o.withA pred (.aclr acd)) pred → Done (.aclr k pred acd o) s (SendsAcc s k 1 2 acd 0)) ∧
    (Runs s k (o.withA pred (.amov acd aca)) pred → Done (.amov k pred acd aca o) s (SendsAcc s k 1 2 acd ((s.atIssue k).acc aca))) ∧
    (Runs s k (o.withA pred (.aadd acd aca)) pred →
      Done (.aadd k pred acd aca o) s (SendsAcc s k 1 2 acd ((s.atIssue k).acc acd + (s.atIssue k).acc aca))) ∧
    (Runs s k (o.withA pred (.asub acd aca)) pred →
      Done (.asub k pred acd aca o) s (SendsAcc s k 1 2 acd ((s.atIssue k).acc acd - (s.atIssue k).acc aca))) ∧
    (Runs s k (o.withA pred (.aneg acd aca)) pred → Done (.aneg k pred acd aca o) s (SendsAcc s k 1 2 acd (-(s.atIssue k).acc aca))) ∧
    (Runs s k (o.withA pred (.ashi acd aca s6)) pred →
      Done (.ashi k pred acd aca s6 o) s (SendsAcc s k 1 2 acd
        (if 0 ≤ sext 6 s6 then (s.atIssue k).acc aca * 2 ^ (sext 6 s6).toNat else (s.atIssue k).acc aca / 2 ^ (-sext 6 s6).toNat))) ∧
    (Runs s k (o.withA pred (.ashd acd aca da)) pred →
      (∀ c : Nat, (s.atIssue k).dInt da = c →
        Done (.ashd k pred acd aca da o) s (SendsAcc s k 1 2 acd ((s.atIssue k).acc aca * 2 ^ min c 71))) ∧
      (∀ c : Nat, (s.atIssue k).dInt da = -(c : Int) →
        Done (.ashd k pred acd aca da o) s (SendsAcc s k 1 2 acd ((s.atIssue k).acc aca / 2 ^ min c 72)))) ∧
    (Runs s k (o.withA pred (.dtoa acd da s6)) pred →
      Done (.dtoa k pred acd da s6 o) s (SendsAcc s k 1 2 acd ((s.atIssue k).dInt da * 2 ^ (32 + sext 6 s6).toNat))) ∧
    (Runs s k (o.withA pred (.awr acd da part)) pred →
      ∃ v : Int, Done (.awr k pred acd da part o) s (Sends s k 1 2 (.ac acd) v) ∧ InRange 72 v
        ∧ toBits 72 v = setBits (toBits 72 ((s.atIssue k).acc acd)) (if part = 2 then 71 else 32 * part + 31) (32 * part)
            ((s.atIssue k).dReg da).toNat)

/-- CMPEQ, CMPLT, CMPLE, CMPLTU, CMPEQI, CMPLTI, CMPGTI, BTST, ATSTN, ATSTZ and FOP end in a next state with the flag of the opcode table on its way, visible in the next bundle. Immediates are sign-extended from 12 bits (R119, R118). -/
def Obligations.FlagResults : Prop :=
  ∀ (s : State) (k pred fk da db imm n aca fa fb tt : Nat) (o : Bundle),
    (Runs s k (o.withA pred (.cmpeq fk da db)) pred →
      Done (.cmpeq k pred fk da db o) s (SendsF s k fk ((s.atIssue k).dReg da == (s.atIssue k).dReg db))) ∧
    (Runs s k (o.withA pred (.cmplt fk da db)) pred →
      Done (.cmplt k pred fk da db o) s (SendsF s k fk (((s.atIssue k).dReg da).slt ((s.atIssue k).dReg db)))) ∧
    (Runs s k (o.withA pred (.cmple fk da db)) pred →
      Done (.cmple k pred fk da db o) s (SendsF s k fk (((s.atIssue k).dReg da).sle ((s.atIssue k).dReg db)))) ∧
    (Runs s k (o.withA pred (.cmpltu fk da db)) pred →
      Done (.cmpltu k pred fk da db o) s (SendsF s k fk (((s.atIssue k).dReg da).ult ((s.atIssue k).dReg db)))) ∧
    (Runs s k (o.withA pred (.cmpeqi fk da imm)) pred →
      Done (.cmpeqi k pred fk da imm o) s (SendsF s k fk ((s.atIssue k).dReg da == (BitVec.ofNat 12 imm).signExtend 32))) ∧
    (Runs s k (o.withA pred (.cmplti fk da imm)) pred →
      Done (.cmplti k pred fk da imm o) s (SendsF s k fk (((s.atIssue k).dReg da).slt ((BitVec.ofNat 12 imm).signExtend 32)))) ∧
    (Runs s k (o.withA pred (.cmpgti fk da imm)) pred →
      Done (.cmpgti k pred fk da imm o) s (SendsF s k fk (((BitVec.ofNat 12 imm).signExtend 32).slt ((s.atIssue k).dReg da)))) ∧
    (Runs s k (o.withA pred (.btst fk da n)) pred →
      Done (.btst k pred fk da n o) s (SendsF s k fk (((s.atIssue k).dReg da).getLsbD n))) ∧
    (Runs s k (o.withA pred (.atstn fk aca)) pred →
      Done (.atstn k pred fk aca o) s (SendsF s k fk (decide ((s.atIssue k).acc aca < 0)))) ∧
    (Runs s k (o.withA pred (.atstz fk aca)) pred →
      Done (.atstz k pred fk aca o) s (SendsF s k fk (decide ((s.atIssue k).acc aca = 0)))) ∧
    (Runs s k (o.withA pred (.fop fk fa fb tt)) pred →
      Done (.fop k pred fk fa fb tt o) s
        (SendsF s k fk (bit tt (2 * ((s.atIssue k).fl fa).toNat + ((s.atIssue k).fl fb).toNat))))

/-- MAC, MSU, MPY, MPYN and LD in either M slot end in a next state with their accumulator result or loaded word on its way, visible two bundles later, and a post-modify visible in the next bundle. A MAC or MSU adds to what the bundle before's multiply sends to its accumulator, or else to the accumulator (R68). -/
def Obligations.MultiplySlots : Prop :=
  (∀ (s : State) (k : Nat) (second : Bool) (m : MSlot) (o : Bundle) (p : Int) (r : Nat),
    p = (s.atIssue k).dInt m.sa * (s.atIssue k).dInt m.sb * (if m.fs then 2 else 1) → r = (if second then 1 else 0) →
    (Runs s k (o.withM second { m with op := .mac }) m.pred →
      Done (.mac k second m o) s (SendsAcc s k 2 r m.acc ((s.atIssue k).macView m.acc + p))) ∧
    (Runs s k (o.withM second { m with op := .msu }) m.pred →
      Done (.msu k second m o) s (SendsAcc s k 2 r m.acc ((s.atIssue k).macView m.acc - p))) ∧
    (Runs s k (o.withM second { m with op := .mpy }) m.pred → Done (.mpy k second m o) s (Sends s k 2 r (.ac m.acc) p)) ∧
    (Runs s k (o.withM second { m with op := .mpyn }) m.pred → Done (.mpyn k second m o) s (Sends s k 2 r (.ac m.acc) (-p))) ∧
    (Runs s k (o.withM second m) m.pred → m.lm ≠ 0 →
      Done (.ld k second m o) s (fun t =>
        SendsD s k 2 r m.ld (s.stage.rd32 (wordAddr k (if second then .y else .x) ((s.atIssue k).p m.lp))) t
          ∧ (m.lm = 2 → Sends s k 1 r (.sr m.lp) ((s.atIssue k).stepped m.lp ((s.atIssue k).n m.lp)) t)
          ∧ (m.lm = 3 → Sends s k 1 r (.sr m.lp) ((s.atIssue k).stepped m.lp 1) t)))) ∧
  (∀ (sp : SpSt) (c : Nat),
    ((∀ e ∈ sp.pend, ¬ (e.dest = .ac c ∧ e.rank < 2 ∧ e.iss + 1 = sp.iss)) → sp.macView c = sp.acc c) ∧
    (∀ l ∈ sp.pend, l.dest = .ac c → l.rank < 2 → l.iss + 1 = sp.iss →
      (∀ e ∈ sp.pend, e.dest = .ac c → e.rank < 2 → e.iss + 1 = sp.iss → e = l ∨ e.rank < l.rank) → sp.macView c = l.val))

/-- STX, STY and STC end in a next state in which the addressed word of X, Y or C memory reads the D register, unless that word is uncorrectable, which no partial write mends. LDC sends the addressed word of C memory, visible two bundles later. LDC, STX, STY, STC, MODP and FAR update their pointer as their mode says, visible in the next bundle, and a FAR with a legal descriptor adds its transfer to those outstanding (R123, R124, R72, R526). -/
def Obligations.StoresAndPointers : Prop :=
  ∀ (s : State) (k pred dr p am imm a : Nat) (o : Bundle), a = (s.atIssue k).tmAddr p am imm →
    (Runs s k (o.withT pred (.stx dr p am imm)) pred →
      Done (.stx k pred dr p am imm o) s (fun t => SendsPtr s k p am imm t ∧
        (s.stage.lost (wordAddr k .x a) = false → t.rd32 (wordAddr k .x a) = (s.atIssue k).dReg dr))) ∧
    (Runs s k (o.withT pred (.sty dr p am imm)) pred →
      Done (.sty k pred dr p am imm o) s (fun t => SendsPtr s k p am imm t ∧
        (s.stage.lost (wordAddr k .y a) = false → t.rd32 (wordAddr k .y a) = (s.atIssue k).dReg dr))) ∧
    (Runs s k (o.withT pred (.stc dr p am imm)) pred →
      Done (.stc k pred dr p am imm o) s (fun t => SendsPtr s k p am imm t ∧
        (s.stage.lost (wordAddr k .c a) = false → t.rd32 (wordAddr k .c a) = (s.atIssue k).dReg dr))) ∧
    (Runs s k (o.withT pred (.ldc dr p am imm)) pred →
      Done (.ldc k pred dr p am imm o) s (fun t => SendsPtr s k p am imm t
        ∧ SendsD s k 2 3 dr (s.stage.rd32 (wordAddr k .c a)) t)) ∧
    (Runs s k (o.withT pred (.modp p am imm)) pred → Done (.modp k pred p am imm o) s (SendsPtr s k p am imm)) ∧
    (Runs s k (o.withT pred (.far p am imm)) pred →
      Done (.far k pred p am imm o) s (fun t => SendsPtr s k p am imm t
        ∧ (∀ f, s.stage.farDesc k a = some f → (t.sp k).far = (s.atIssue k).far ++ [f])
        ∧ (s.stage.farDesc k a = none → (t.sp k).far = (s.atIssue k).far ∧ bit ((t.sp k).sreg rSPSTAT) fFAR = true)))

/-- MOVI, MOVHI, MOVR and MBRD send their D result, visible in the next bundle; MOVS and MOVSI send the bits a special register holds, visible two bundles later, FLAGS flag by flag; MBRD clears the pending mailbox interrupt, and MBWR sets MBOX_OUT and raises its event (R123, R125, R91). -/
def Obligations.Moves : Prop :=
  ∀ (s : State) (k pred d sreg imm : Nat) (o : Bundle),
    (Runs s k (o.withT pred (.movi d imm)) pred →
      Done (.movi k pred d imm o) s (SendsD s k 1 3 d ((BitVec.ofNat 17 imm).signExtend 32))) ∧
    (Runs s k (o.withT pred (.movhi d imm)) pred →
      Done (.movhi k pred d imm o) s (SendsD s k 1 3 d (BitVec.ofNat 16 imm ++ ((s.atIssue k).dReg d).setWidth 16))) ∧
    (Runs s k (o.withT pred (.movr sreg d)) pred →
      Done (.movr k pred sreg d o) s (SendsD s k 1 3 d
        (if 0x10 ≤ sreg ∧ sreg < 0x20 then (BitVec.ofNat 18 ((s.atIssue k).sreg sreg)).signExtend 32
         else Word.ofNat ((s.atIssue k).sreg sreg)))) ∧
    (Runs s k (o.withT pred (.movs sreg d)) pred → sreg ≠ rFLAGS →
      Done (.movs k pred sreg d o) s (Sends s k 2 3 (.sr sreg) (Nat.land ((s.atIssue k).dReg d).toNat (srMask sreg)))) ∧
    (Runs s k (o.withT pred (.movs rFLAGS d)) pred →
      Done (.movs k pred rFLAGS d o) s (fun t => ∀ i, i < 4 →
        Sends s k 2 3 (.flag i) (if ((s.atIssue k).dReg d).getLsbD i then 1 else 0) t)) ∧
    (Runs s k (o.withT pred (.movsi sreg imm)) pred → sreg ≠ rFLAGS →
      Done (.movsi k pred sreg imm o) s (Sends s k 2 3 (.sr sreg)
        (if 0x10 ≤ sreg ∧ sreg < 0x20 then ((BitVec.ofNat 15 imm).signExtend 18).toNat else Nat.land imm (srMask sreg)))) ∧
    (Runs s k (o.withT pred (.movsi rFLAGS imm)) pred →
      Done (.movsi k pred rFLAGS imm o) s (fun t => ∀ i, i < 4 → Sends s k 2 3 (.flag i) (if bit imm i then 1 else 0) t)) ∧
    (Runs s k (o.withT pred (.mbrd d)) pred →
      Done (.mbrd k pred d o) s (fun t => SendsD s k 1 3 d (s.stage.reg (pSp k) 0x0A4) t ∧ (t.sp k).mbox = false)) ∧
    (Runs s k (o.withT pred (.mbwr d)) pred →
      Done (.mbwr k pred d o) s (fun t => t.reg (pSp k) 0x0A8 = (s.atIssue k).dReg d ∧ t.flag (pSp k) 0x014 2 = true))

/-- D0 to D15 name themselves; Dn from D16 to D31 names 16 + ((n - 16 - RRB) mod 16), so that what one iteration calls D16 the next calls D17. A result in flight to a D register keeps the register resolved at issue whatever RRB becomes, and lands there (R67). -/
def Obligations.NamesRotate : Prop :=
  (∀ (sp : SpSt) (n : Nat), n < 16 → sp.phys n = n) ∧
  (∀ (sp : SpSt) (n : Nat), 16 ≤ n → n < 32 → (sp.phys n : Int) = 16 + ((n : Int) - 16 - sp.rrb) % 16) ∧
  (∀ (sp tp : SpSt) (n : Nat), 16 ≤ n → n < 31 → tp.rrb = (sp.rrb + 1) % 16 → tp.phys (n + 1) = sp.phys n) ∧
  (∀ (sp : SpSt) (l : Land) (i rr : Nat), l ∈ sp.pend → l.dest = .d i → (∀ m ∈ sp.pend, m.meets l = true → m = l) →
    Tab.get 0#32 ((sp.setSreg rRRB rr).landAt l.due).d i = Word.ofInt l.val)

/-- Where a result of one landing beats every other that lands with it in the same D register or accumulator, by its slot and then by its issue, the register takes it; where any other met it, SPSTAT.WR_CONF is set. Flags follow the same rule (R78). -/
def Obligations.ResultsMeet : Prop :=
  (∀ (sp : SpSt) (l : Land), l ∈ sp.pend → (∀ m ∈ sp.pend, m.meets l = true → m = l ∨ l.beats m = true) →
    (∀ i, l.dest = .d i → Tab.get 0#32 (sp.landAt l.due).d i = Word.ofInt l.val) ∧
    (∀ i, l.dest = .ac i → Tab.get 0 (sp.landAt l.due).ac i = l.val) ∧
    (∀ i, i < 4 → l.dest = .flag i → (∀ m ∈ sp.pend, m.due = l.due → m.dest ≠ .sr rFLAGS) →
      (sp.landAt l.due).fl i = (l.val != 0)) ∧
    (∀ m ∈ sp.pend, m.meets l = true → l.beats m = true → (∀ x ∈ sp.pend, x.due = l.due → x.dest ≠ .sr rSPSTAT) →
      bit ((sp.landAt l.due).sreg rSPSTAT) fCONF = true)) ∧
  (∀ a b : Land, a.beats b = true ↔ b.rank < a.rank ∨ (a.rank = b.rank ∧ b.iss < a.iss))

/-- BR, CALL, RET, LEXIT, LOOP, LOOPD and IRET end in a next state in which what follows their delay bundle is decided: BR, CALL and LEXIT their target, RET the popped address, IRET the saved one. CALL pushes the address of the bundle after its delay bundle, RET pops, LEXIT ends the innermost active level. After BR, CALL, RET and IRET the bundle in sequence follows as the delay bundle. The delay bundle of a jump is followed by its target, that of an IRET by IPC, with the flags of ISTAT and outside the handler (R123, R126, R76, R82, R83, R88). -/
def Obligations.BranchesAndCalls : Prop :=
  (∀ (s : State) (k pred tg : Nat) (o : Bundle),
    (Runs s k (o.withT pred (.br tg)) pred →
      Done (.br k pred tg o) s (fun t => (t.sp k).delay = some (.jump tg)
        ∧ ((s.atIssue k).pc < 0x7FF → (t.sp k).pc = (s.atIssue k).pc + 1))) ∧
    (Runs s k (o.withT pred (.call tg)) pred →
      Done (.call k pred tg o) s (fun t => (t.sp k).delay = some (.jump tg)
        ∧ (t.sp k).rstack = (s.atIssue k).rstack ++ [(s.atIssue k).pc + 2]
        ∧ ((s.atIssue k).pc < 0x7FF → (t.sp k).pc = (s.atIssue k).pc + 1))) ∧
    (∀ (l : List Nat) (a : Nat), (s.atIssue k).rstack = l ++ [a] → Runs s k (o.withT pred .ret) pred →
      Done (.ret k pred o) s (fun t => (t.sp k).delay = some (.jump a) ∧ (t.sp k).rstack = l
        ∧ ((s.atIssue k).pc < 0x7FF → (t.sp k).pc = (s.atIssue k).pc + 1))) ∧
    (∀ (v : Nat) (l : List Nat), (s.atIssue k).levels = v :: l → Runs s k (o.withT pred (.lexit tg)) pred →
      Done (.lexit k pred tg o) s (fun t => (t.sp k).delay = some (.jump tg) ∧ (t.sp k).lc v = 0)) ∧
    (Runs s k (o.withT pred .iret) pred →
      Done (.iret k pred o) s (fun t => (t.sp k).delay = some .iret
        ∧ ((s.atIssue k).pc < 0x7FF → (t.sp k).pc = (s.atIssue k).pc + 1)))) ∧
  (∀ (c : Instr) (s : State) (k : Nat) (b : Bundle), slotBundle c = some (k, b) → Issues s k b →
    ((s.atIssue k).holds b.t.pred && b.isDone) = false →
    (∀ tg, tg < 0x800 → (s.atIssue k).delay = some (.jump tg) →
      Done c s (fun t => (t.sp k).pc = tg ∧ (t.sp k).delay = none)) ∧
    ((s.atIssue k).delay = some .iret →
      Done c s (fun t => (t.sp k).inHandler = false ∧ (t.sp k).delay = none ∧ (t.sp k).pc = (t.sp k).sreg rIPC
        ∧ (t.sp k).sreg rFLAGS = bits ((t.sp k).sreg rISTAT) 3 0 ∧ bits ((t.sp k).sreg rISTAT) 14 13 = 0)))

/-- With level 0 free LOOP and LOOPD take it, else level 1: LC takes the count (for LOOPD the low 16 bits of its D register), LS.START the address after the delay bundle, LE.END and LE.ROT the end address and the rotate choice. Execution goes on after the delay bundle at the body, or with a count of 0 at END + 1. With neither level free the fault LOOP_NEST is raised (R79). -/
def Obligations.LoopsTakeALevel : Prop :=
  (∀ (s : State) (k pred stop d count v : Nat) (rot : Bool) (o : Bundle), v = (if (s.atIssue k).lc 0 = 0 then 0 else 1) →
    (Runs s k (o.withT pred (.loop rot stop count)) pred →
      Done (.loop k pred rot stop count o) s (fun t => (t.sp k).lc v = count ∧ (t.sp k).start v = (s.atIssue k).pc + 2
        ∧ (t.sp k).stop v = stop ∧ (t.sp k).rot v = rot
        ∧ (t.sp k).delay = some (.jump (if count = 0 then stop + 1 else (s.atIssue k).pc + 2)))) ∧
    (Runs s k (o.withT pred (.loopd rot stop d)) pred →
      Done (.loopd k pred rot stop d o) s (fun t => (t.sp k).lc v = ((s.atIssue k).dReg d).toNat % 65536
        ∧ (t.sp k).start v = (s.atIssue k).pc + 2 ∧ (t.sp k).stop v = stop ∧ (t.sp k).rot v = rot
        ∧ (t.sp k).delay = some (.jump (if ((s.atIssue k).dReg d).toNat % 65536 = 0 then stop + 1 else (s.atIssue k).pc + 2))))) ∧
  (∀ (sp : SpSt) (pc : Nat) (b : Bundle), (∃ rot stop count, b.t.op = .loop rot stop count) ∨ (∃ rot stop d, b.t.op = .loopd rot stop d) →
    b.legal = true → sp.delay = none → b.t.op.endBelow pc = false → (∀ v ∈ sp.levels, sp.stop v ≠ pc) →
    sp.holds b.t.pred = true → sp.lc 0 ≠ 0 → sp.lc 1 ≠ 0 → sp.bundleFault pc b = some cLOOP_NEST)

/-- When the bundle at END of the innermost active level executes and is no delay bundle and holds no SDONE, LC counts down, a rotating loop advances RRB by one modulo 16, and START follows while LC is not zero. Where no active level ends there, the bundle in sequence follows (R80). -/
def Obligations.IterationsEnd : Prop :=
  ∀ (c : Instr) (s : State) (k : Nat) (b : Bundle), slotBundle c = some (k, b) → Issues s k b →
    ((s.atIssue k).holds b.t.pred && b.isDone) = false → b.t.op.isControl = false → (s.atIssue k).delay = none →
    (∀ (v : Nat) (l : List Nat), (s.atIssue k).levels = v :: l → (s.atIssue k).pc = (s.atIssue k).stop v → 1 < (s.atIssue k).lc v →
      Done c s (fun t => (t.sp k).lc v + 1 = (s.atIssue k).lc v ∧ (t.sp k).pc = (s.atIssue k).start v
        ∧ (t.sp k).rrb = (if (s.atIssue k).rot v then ((s.atIssue k).rrb + 1) % 16 else (s.atIssue k).rrb))) ∧
    ((∀ v ∈ (s.atIssue k).levels, (s.atIssue k).pc ≠ (s.atIssue k).stop v) → (s.atIssue k).pc < 0x7FF →
      Done c s (fun t => (t.sp k).pc = (s.atIssue k).pc + 1 ∧ (t.sp k).lc 0 = (s.atIssue k).lc 0 ∧ (t.sp k).lc 1 = (s.atIssue k).lc 1))

/-- SDONE ends the sample's code: the processor drains, or stays waiting where a handler entered while it waited; it leaves a handler and issues no delay bundle. SWAIT and FWAIT count one bundle when their condition holds; otherwise they stall and leave the processor as it is. A bundle of four NOPs sends nothing, changes no register and counts one bundle (R98, R89, R93, R119, R123). -/
def Obligations.EndsAndWaits : Prop :=
  ∀ (s : State) (k pred j n : Nat) (o : Bundle),
    (Issues s k (o.withT pred .sdone) → (s.atIssue k).holds pred = true →
      Done (.sdone k pred o) s (fun t => (t.sp k).run = (if (s.stage.sp k).run = .done then .done else .draining)
        ∧ (t.sp k).inHandler = false ∧ (t.sp k).delay = none)) ∧
    (Runs s k (o.withT pred (.swait j)) pred → (s.atIssue k).landed j = true →
      Done (.swait k pred j o) s (fun t => (t.sp k).iss = (s.stage.sp k).iss + 1 ∧ (t.sp k).delay = none)) ∧
    (Runs s k (o.withT pred (.fwait n)) pred → (s.atIssue k).far.length ≤ n →
      Done (.fwait k pred n o) s (fun t => (t.sp k).iss = (s.stage.sp k).iss + 1 ∧ (t.sp k).delay = none)) ∧
    (∀ c, (c = .swait k pred j o ∧ (s.atIssue k).landed j = false ∧ (s.atIssue k).bundleFault (s.atIssue k).pc (o.withT pred (.swait j)) = none) ∨
        (c = .fwait k pred n o ∧ n < (s.atIssue k).far.length ∧ (s.atIssue k).bundleFault (s.atIssue k).pc (o.withT pred (.fwait n)) = none) →
      (s.atIssue k).holds pred = true → Done c s (fun t => t.sp k = s.stage.sp k ∧ t.mem = s.stage.mem)) ∧
    (∀ inT : Bool, Runs s k (if inT then { ({} : Bundle) with t := { pred := pred, op := .nop } } else { ({} : Bundle) with a := { pred := pred, op := .nop } }) pred →
      Done (.nop k inT pred {}) s (fun t => (t.sp k).iss = (s.stage.sp k).iss + 1 ∧ (t.sp k).pend = (s.atIssue k).pend
        ∧ (t.sp k).d = (s.atIssue k).d ∧ (t.sp k).ac = (s.atIssue k).ac ∧ t.mem = s.stage.mem))

/-- An A slot whose predicate is false has the effect of a NOP there, whatever its operation; so has a T slot, but that LDC and STC still count the C-bus penalty of R62; an M slot whose predicate is false neither multiplies nor loads (R114). -/
def Obligations.FalsePredicates : Prop :=
  ∀ (s : State) (k pred : Nat) (o : Bundle), Live s .sp k → (s.atIssue k).holds pred = false →
    (∀ op : AOp, Issues s k (o.withA pred op) →
      (s.act fun t => t.block .sp k fun t => t.issueBundle k (o.withA pred op)) = exec (.nop k false pred o) s) ∧
    (∀ op : TOp, Issues s k (o.withT pred op) → (∀ dr p am imm, op ≠ .ldc dr p am imm ∧ op ≠ .stc dr p am imm) →
      (s.act fun t => t.block .sp k fun t => t.issueBundle k (o.withT pred op)) = exec (.nop k true pred o) s) ∧
    (∀ (op : TOp) (dr p am imm : Nat), Issues s k (o.withT pred op) → (op = .ldc dr p am imm ∨ op = .stc dr p am imm) →
      ∃ t u : State, (s.act fun t => t.block .sp k fun t => t.issueBundle k (o.withT pred op)) = .next t
        ∧ exec (.nop k true pred o) s = .next u ∧ t.stage.mem = u.stage.mem
        ∧ ({ t.stage.sp k with e := 0 } : SpSt) = { u.stage.sp k with e := 0 }
        ∧ (t.stage.sp k).e = (u.stage.sp k).e + (if (s.atIssue k).served (s.atIssue k).pc then 0 else 1)) ∧
    (∀ (second : Bool) (m : MSlot), m.pred = pred → Issues s k (o.withM second m) →
      (s.act fun t => t.block .sp k fun t => t.issueBundle k (o.withM second m))
        = s.act fun t => t.block .sp k fun t => t.issueBundle k (o.withM second { pred := pred }))

/-- Every slot command of SP k leaves every other strip processor as it was; it leaves every byte of memory but those of the words its bundle stores, at the addresses that runSlots gives; it leaves every register but MBOX_OUT, DBG_PC, the EVENT registers, the error registers of the pool and RED_STAT and SD_PENDING; and it leaves the exchange, the datum, the battens, the ports, the links and the waiting writes (R76, R111, R66, R526). -/
def Obligations.IssueFrame : Prop :=
  ∀ (c : Instr) (s t : State) (k : Nat) (b : Bundle), slotBundle c = some (k, b) → exec c s = .next t →
    (∀ j, j ≠ k → t.stage.sp j = s.stage.sp j) ∧
    (∀ a, (∀ e ∈ (runSlots s.stage k (s.atIssue k) b).stores, a < e.1 ∨ e.1 + 4 ≤ a) → t.stage.rd8 a = s.stage.rd8 a) ∧
    (∀ p off, off < 4096 → off ≠ 0x014 → (p ≠ pSp k ∨ (off ≠ 0x0A8 ∧ off ≠ 0x408)) → p ≠ pPool → (p ≠ 0x2A0 ∨ (off ≠ 0x084 ∧ off ≠ 0x094)) →
      t.stage.reg p off = s.stage.reg p off) ∧
    t.stage.exch = s.stage.exch ∧ t.stage.datum = s.stage.datum ∧ t.stage.bats = s.stage.bats ∧ t.stage.ports = s.stage.ports ∧
    t.stage.links = s.stage.links ∧ t.stage.waiting = s.stage.waiting ∧ t.stage.graph = s.stage.graph ∧ t.stage.level = s.stage.level

/-- A bundle that faults does not execute: no memory changes and the fault waits with the address of the bundle. A word with an illegal slot faults with ILLEGAL. A CALL on a full return stack is RS_OVER, a RET on an empty one RS_UNDER, an IRET outside a handler IRET_OUT, and a branch, CALL, RET, LOOP or IRET at the end address of an active level LOOP_END (R81, R83, R86, R112). -/
def Obligations.BundleFaults : Prop :=
  (∀ (c : Instr) (s : State) (k f : Nat) (b : Bundle), slotBundle c = some (k, b) → Live s .sp k → (s.stage.sp k).active = true →
    (s.stage.sp k).entryDue = false → (s.atIssue k).bundleFault (s.atIssue k).pc b = some f →
    Done c s (fun t => (t.sp k).flt = some (f, (s.stage.sp k).pc) ∧ t.mem = s.stage.mem)) ∧
  (∀ (s : State) (k w : Nat), Live s .sp k → (s.stage.sp k).active = true → (s.stage.sp k).entryDue = false → decodeBundle w = none →
    Done (.illegalEncoding k w) s (fun t => (t.sp k).flt = some (cILLEGAL, (s.stage.sp k).pc) ∧ t.mem = s.stage.mem)) ∧
  (∀ (sp : SpSt) (pc : Nat) (b : Bundle), b.legal = true → sp.delay = none → b.t.op.endBelow pc = false →
    (b.t.op.endBarred = true → ∀ v ∈ sp.levels, sp.stop v = pc → sp.bundleFault pc b = some cLOOP_END) ∧
    ((∀ v ∈ sp.levels, sp.stop v ≠ pc) → sp.holds b.t.pred = true →
      (∀ tg, b.t.op = .call tg → 4 ≤ sp.rstack.length → sp.bundleFault pc b = some cRS_OVER) ∧
      (b.t.op = .ret → sp.rstack = [] → sp.bundleFault pc b = some cRS_UNDER) ∧
      (b.t.op = .iret → sp.inHandler = false → sp.bundleFault pc b = some cIRET_OUT)))

/-- INTERRUPT_ENTRY with a fault due outside a handler saves in IPC the address of the fault, in ISTAT the flags, the cause, the return-stack depth and the active levels, enters the handler at 0x7F0 and counts 2 handshakes; a debug break does the same with cause 2 and a mailbox interrupt with cause 1, with IPC the bundle that would have issued next. A pending result has landed first. Inside a handler a fault halts the processor (R84, R86, R99, R101, R108, R128). -/
def Obligations.InterruptEntries : Prop :=
  ∀ (s : State) (k cause addr : Nat) (x : SpSt), Live s .sp k → x = (s.stage.sp k).landAll → cause < 16 → addr < 2048 → x.rstack.length ≤ 4 →
    let entered := fun (cause ipc : Nat) (t : Stage) =>
      (t.sp k).inHandler = true ∧ (t.sp k).pc = 0x7F0 ∧ (t.sp k).sreg rIPC = ipc ∧ bits ((t.sp k).sreg rISTAT) 3 0 = x.sreg rFLAGS
        ∧ bits ((t.sp k).sreg rISTAT) 7 4 = cause ∧ bits ((t.sp k).sreg rISTAT) 12 10 = x.rstack.length
        ∧ bit ((t.sp k).sreg rISTAT) 13 = (x.lc 0 != 0) ∧ bit ((t.sp k).sreg rISTAT) 14 = (x.lc 1 != 0)
        ∧ (t.sp k).e = (s.stage.sp k).e + 2
    ((s.stage.sp k).flt = some (cause, addr) → (s.stage.sp k).inHandler = false →
      Done (.interruptEntry k) s (fun t => entered cause addr t ∧ t.flag (pSp k) 0x014 4 = true ∧ t.regN (pSp k) 0x0AC = addr * 2 ^ 16 + cause)) ∧
    ((s.stage.sp k).flt = none → (s.stage.sp k).breakDue = true → (s.stage.sp k).run = .running → (s.stage.sp k).pc < 2048 →
      Done (.interruptEntry k) s (fun t => entered 2 (s.stage.sp k).pc t ∧ (t.sp k).brk = false)) ∧
    ((s.stage.sp k).flt = none → (s.stage.sp k).breakDue = false → (s.stage.sp k).mboxDue = true → (s.stage.sp k).run = .running → (s.stage.sp k).pc < 2048 →
      Done (.interruptEntry k) s (entered 1 (s.stage.sp k).pc)) ∧
    ((s.stage.sp k).flt = some (cause, addr) → (s.stage.sp k).inHandler = true →
      Done (.interruptEntry k) s (fun t => (t.sp k).run = .halted ∧ t.flag (pSp k) 0x014 4 = true ∧ t.flag (pSp k) 0x014 5 = true))

/-- For every command and state, a step of the state with that command at the front of its queue is the command's effect on the state with the queue's rest; a word of the table spells no command, since the table gives no row bits, and placing one leaves the state as it is. The queue is the model's own (assumption log entry 2) (18_grid.md, 19_control_model.md). -/
def Obligations.StepRunsFront : Prop :=
  (∀ (c : Instr) (s : State), step { s with pending := c :: s.pending } = exec c s) ∧
  (∀ (s : State) (n w : Nat), Sys2Proof.decodeTableWord n w = none ∧ s.withFetchWord n w = s)

/-- Every command at every state answers a next state and leaves the queue as it is; no command faults or is refused (R562, R539, R645). -/
def Obligations.EveryCommandAnswers : Prop := ∀ (c : Instr) (s : State), Done c s (fun _ => True)

/-- While the Stage die is in reset or without power, every command but those of the supervisor and of the sealed measuring core leaves the part exactly as it is, and a step on an empty queue does too (R628, R645). -/
def Obligations.DieHeld : Prop :=
  (∀ (c : Instr) (s : State), s.stage.dieUp = false → outsideDie c = false → exec c s = .next s) ∧
  (∀ s : State, s.stage.dieUp = false → s.pending = [] → step s = .next s)

/-- Whole machine: whatever command a step runs, on every state with a running Stage die, each page other than SYS whose FAULT or DEGRADED goes from 0 to 1 in the step has its EVENT.HEALTH set after it, and so has SYS when DEGRADED of SYS.HEALTH goes from 0 to 1 (log entry 98). The one command left out is the watchdog's reset, which resets every EVENT register (R574, R504, R505, R506). -/
def Obligations.HealthRises : Prop :=
  ∀ s t : State, s.stage.dieUp = true → t.stage.dieUp = true → s.pending.head? ≠ some .watchdogTimeout → step s = .next t →
    (∀ (p : Nat) (k : PageKind) (i b : Nat), pageOf p = some (k, i) → b < 2 → bit (s.stage.healthAt p) b = false → bit (t.stage.healthAt p) b = true →
      t.stage.flag p 0x014 29 = true) ∧
    (s.stage.anyDegraded = false → t.stage.anyDegraded = true → t.stage.flag 0 0x014 29 = true)

/-- Invariant of every step: while the Stage die runs, a vector is marked as having sent its message only while it is pending, and every pending vector that is deliverable is marked. From every state that has it, whatever command a step runs, the next state has it; so a vector that becomes pending or deliverable has sent its message by the end of that step (R575, R576). -/
def Obligations.VectorsKept : Prop := ∀ s t : State, VectorsSent s.stage → step s = .next t → VectorsSent t.stage

/-- At the end of a command the vectors follow the requests: a pending, deliverable vector not marked as sent sends one message with the address and data of its table entry, and one that is marked sends none; the mark falls when the vector is no longer pending. A vector is deliverable while MSI-X is enabled, the function and its entry are unmasked and Bus Master Enable is set, and the PBA shows the pending vectors that are not (R576). -/
def Obligations.VectorMessages : Prop :=
  (∀ (s : Stage) (v : Nat), v < 32 → bit s.vecPending v = true → s.deliverable v = true → bit s.vecSent v = false →
    Out.msix (s.reg64 0x300 (0x200 + 16 * v)) (s.regN 0x300 (0x208 + 16 * v)) ∈ s.vectors.outs ∧ bit s.vectors.vecSent v = true) ∧
  (∀ (s : Stage) (v : Nat), v < 32 → bit s.vecPending v = false → bit s.vectors.vecSent v = false) ∧
  (∀ s : Stage, (∀ v, v < 32 → bit s.vecPending v = true → s.deliverable v = true → bit s.vecSent v = true) → s.vectors.outs = s.outs) ∧
  (∀ (s : Stage) (v : Nat), s.deliverable v = (s.host.msixEn && !s.host.funcMask && s.host.bme && !s.flag 0x300 (0x20C + 16 * v) 0)) ∧
  (∀ (s : Stage) (v : Nat), v < 32 → bit s.pba v = (bit s.vecPending v && !s.deliverable v))

/-- At reset the Stage die runs in BOOT with no command waiting, every byte of memory reads zero, the engine rate is 48 kHz with an apply delay of 1, every EVENT and EVENT_EN register is zero, every strip processor has its D registers, accumulators and special registers at zero but SPMODE at 3, no interrupt vector is marked, and every register table and memory stand in their canonical form (R641, R515, R66, R556, R591, R21). -/
def Obligations.ResetState : Prop :=
  State.reset.pending = [] ∧ State.reset.stage.dieUp = true ∧ State.reset.stage.mode = mBoot ∧
  (∀ a, State.reset.stage.rd8 a = 0#8) ∧ State.reset.stage.fs = 48000 ∧ State.reset.stage.applyDelay = 1 ∧
  (∀ p, p ∈ allPages → State.reset.stage.regN p 0x014 = 0 ∧ State.reset.stage.regN p 0x018 = 0) ∧
  (∀ k n, (State.reset.stage.sp k).dReg n = 0#32 ∧ (State.reset.stage.sp k).acc n = 0) ∧
  (∀ k c, c ≠ rSPMODE → (State.reset.stage.sp k).sreg c = 0) ∧ (∀ k, (State.reset.stage.sp k).sreg rSPMODE = 3) ∧
  VectorsSent State.reset.stage ∧ Tab.wf regReset State.reset.stage.regs = true ∧ Memory.wf State.reset.stage.mem = true

/-- Writing bytes, words and lists of bytes and zeroing a range keep the canonical form of memory. A byte written reads back unless its 256-bit word is uncorrectable, which reads zero and takes no partial write; every other byte reads as before; a 32-bit word written little-endian reads back whole. Two states whose canonical memories read alike at every address have equal memories (R545, R526, R528). -/
def Obligations.MemoryKeepsForm : Prop :=
  (∀ (s : Stage) (a : Nat) (b : Byte), Memory.wf s.mem = true → Memory.wf (s.wr8 a b).mem = true) ∧
  (∀ (s : Stage) (a : Nat) (l : List Byte), Memory.wf s.mem = true → Memory.wf (s.wrBytes a l).mem = true) ∧
  (∀ (s : Stage) (l : List (Nat × Byte)), Memory.wf s.mem = true → Memory.wf (s.wrCells l).mem = true) ∧
  (∀ (s : Stage) (a n : Nat), Memory.wf s.mem = true → Memory.wf (s.zeroMem a n).mem = true) ∧
  (∀ (s : Stage) (a : Nat) (b : Byte), (s.wr8 a b).rd8 a = if s.lost a then 0#8 else b) ∧
  (∀ (s : Stage) (a x : Nat) (b : Byte), x ≠ a → (s.wr8 a b).rd8 x = s.rd8 x) ∧
  (∀ (s : Stage) (a : Nat) (v : Word), a % 4 = 0 → s.lost a = false → (s.wr32 a v).rd32 a = v) ∧
  (∀ (s : Stage) (a x : Nat) (v : Word), (x < a ∨ a + 4 ≤ x) → (s.wr32 a v).rd8 x = s.rd8 x) ∧
  (∀ m n : Tab Byte, Memory.wf m = true → Memory.wf n = true → (∀ a, Tab.get 0#8 m a = Tab.get 0#8 n a) → m = n)

/-- For every bundle whose four slots are legal, with every operand at every value its encoding admits, decoding its 128-bit word gives exactly that bundle; and every 128-bit word that decodes to a bundle is that bundle's word, so that no two words stand for one bundle (R110, R112, R115, R118, R122). -/
def Obligations.BundleRoundTrip : Prop :=
  (∀ b : Bundle, b.legal = true → encodeBundle b < 2 ^ 128 ∧ decodeBundle (encodeBundle b) = some b) ∧
  (∀ (w : Nat) (b : Bundle), w < 2 ^ 128 → decodeBundle w = some b → b.legal = true ∧ encodeBundle b = w)

/-- The worked bundle of chapter 04, LD D10, (P1)+N with MPY AC0, D1, D10, EXTR D8, AC0, +1 and LDC D3, (P0)+1, is the word 0x0046_1001_0800_0201_0701_5000_0000_042A. The all-zero word is four NOPs. A multiply operation of 0b101, a predicate of 0b0001, an A opcode 0x0F and a T opcode 0x07 are illegal (R110, R115, R117, R119, R123). -/
def Obligations.SampleBundles : Prop :=
  decodeBundle 0x004610010800020107015000_0000042A = some
    { m1 := { lm := 2, lp := 1, ld := 10 }, m2 := { op := .mpy, fs := true, sa := 1, sb := 10 },
      a := { op := .extr 0 8 1 }, t := { op := .ldc 3 0 2 1 } } ∧
  decodeBundle 0 = some {} ∧
  decodeBundle 0x0A000000 = none ∧ decodeBundle 0x10000000 = none ∧ decodeBundle (0x03C00000 * 2 ^ 64) = none ∧
  decodeBundle (0x01C00000 * 2 ^ 96) = none

/-- GATHER_WRITE with the header due writes the sample index in the first two header words and the skipped samples in the third; else it copies the next gather entry's exchange slot into its X word and goes on to the next entry. SCATTER_WRITE of a draining processor with no pool transfer outstanding reaches the done point: the processor waits, its block is no longer busy, and EXEC_COUNT is the executed work. FAR_COMPLETE of a transfer that no lock, port or loan holds back takes it off those outstanding (R93, R94, R95, R96, R98). -/
def Obligations.SampleDma : Prop :=
  ∀ (s : State) (k : Nat), Live s .sp k →
    ((s.stage.sp k).hdrDue = true → s.stage.ecc = [] → ∀ base n, base = s.stage.fld (pSp k) 0x090 14 0 → base ≤ 24565 → (s.stage.sp k).last = some n →
      Done (.gatherWrite k) s (fun t => t.rd32 (wordAddr k .x base) = Word.ofNat n ∧ t.rd32 (wordAddr k .x (base + 1)) = Word.ofNat (n / 2 ^ 32)
        ∧ t.rd32 (wordAddr k .x (base + 2)) = Word.ofNat (s.stage.sp k).skipped ∧ (t.sp k).hdrDue = false)) ∧
    ((s.stage.sp k).hdrDue = false → (s.stage.sp k).gNext < (s.stage.sp k).gLen → s.stage.ecc = [] →
      ∀ e, e = s.stage.rd32 (gatherAddr k (s.stage.spBank k) (s.stage.sp k).gNext) →
      Done (.gatherWrite k) s (fun t => t.rd32 (wordAddr k .x (entryWord e)) = s.stage.exchRead (entrySlot e)
        ∧ (t.sp k).gNext = (s.stage.sp k).gNext + 1)) ∧
    (∀ m : Nat, (s.stage.sp k).run = .draining → (s.stage.sp k).far = [] → s.stage.graph.leaving = [] →
      Done (.scatterWrite k m) s (fun t => (t.sp k).run = .done ∧ (t.blk k).busy = false
        ∧ t.regN (pSp k) 0x098 = min (s.stage.sp k).e 0xFFFF)) ∧
    (∀ (j : Nat) (f : Far), (s.stage.sp k).far[j]? = some f → s.stage.farHeld { cls := 7, idx := k } f = false →
      (∀ x : Stage × Bool, (burstsOf f.addr (4 * f.len)).foldl (Stage.farBurst k { cls := 7, idx := k } f) (some (s.stage, true)) = some x →
        Done (.farComplete k j) s (fun t => (t.sp k).far = (x.1.sp k).far.eraseIdx j ∧ (x.2 = false → bit ((t.sp k).sreg rSPSTAT) fFAR = true))))

/-- A level window publishes its minimum and starts afresh; in LEVEL it steps VCORE up by one below the hysteresis band and down by one above it unless downward steps are barred, sends the new code last, raises CEILING at VMAX and FLOOR at VMIN, and steps nothing inside the band; in FAULT it sends the last code again. When EMERG_SETTLE ends, SETTLE gives way to the resting state of the mode, or to an emergency raise when the slack is still low. 64 ms after the last raise downward steps are no longer barred. A readback queues its two reads, or is deferred while an emergency write or its settling is in progress. None of them changes more than the LEVEL page and the loop (R38, R39, R40, R41, R44, R46, R47, R53). -/
def Obligations.LevelSteps : Prop :=
  (∀ s : State, s.stage.dieUp = true →
    Done .levelWindow s (fun t => t.level.winMin = none) ∧
    (∀ p ns, s.stage.level.winMin = some (p, ns) → Done .levelWindow s (fun t => t.regN pLevel 0x09C = slackWord p ns)) ∧
    (∀ p ns tg h : Int, s.stage.level.winMin = some (p, ns) → s.stage.level.loop = .level →
      tg = s.stage.fld pLevel 0x084 9 0 → h = s.stage.fld pLevel 0x084 25 16 →
      (p < tg - h → s.stage.vcoreNow < s.stage.vmax → Done .levelWindow s (fun t => t.vcoreNow = s.stage.vcoreNow + 1
        ∧ t.level.frames = s.stage.level.frames ++ [.voltageWrite (s.stage.vcoreNow + 1) false])) ∧
      (p < tg - h → s.stage.vmax ≤ s.stage.vcoreNow → Done .levelWindow s (fun t => t.vcoreNow = s.stage.vcoreNow ∧ Raises pLevel 1 t)) ∧
      (tg + h < p → s.stage.vmin < s.stage.vcoreNow → s.stage.level.downBar = false →
        Done .levelWindow s (fun t => t.vcoreNow = s.stage.vcoreNow - 1
          ∧ t.level.frames = s.stage.level.frames ++ [.voltageWrite (s.stage.vcoreNow - 1) false])) ∧
      (tg + h < p → s.stage.vmin < s.stage.vcoreNow → s.stage.level.downBar = true →
        Done .levelWindow s (fun t => t.vcoreNow = s.stage.vcoreNow ∧ t.level.frames = s.stage.level.frames)) ∧
      (tg + h < p → s.stage.vcoreNow ≤ s.stage.vmin → Done .levelWindow s (fun t => t.vcoreNow = s.stage.vcoreNow ∧ Raises pLevel 5 t)) ∧
      (tg - h ≤ p → p ≤ tg + h → Done .levelWindow s (fun t => t.vcoreNow = s.stage.vcoreNow ∧ t.level.frames = s.stage.level.frames))) ∧
    (s.stage.level.loop = .fault → Done .levelWindow s (fun t => t.vcoreNow = s.stage.vcoreNow
      ∧ t.level.frames = s.stage.level.frames ++ [.voltageWrite s.stage.vcoreNow false])) ∧
    (s.stage.level.loop = .settle → (s.stage.level.low && isLevelling s.stage.mode) = false →
      Done .emergSettleEnd s (fun t => t.level.loop = s.stage.resting ∧ t.vcoreNow = s.stage.vcoreNow ∧ t.level.readDeferred = false)) ∧
    (s.stage.level.loop = .settle → s.stage.level.low = true → isLevelling s.stage.mode = true → s.stage.vcoreNow < s.stage.vmax →
      Done .emergSettleEnd s (fun t => t.level.loop = .emergency ∧ t.vcoreNow = min (s.stage.vcoreNow + 10) s.stage.vmax
        ∧ t.level.downBar = true ∧ Raises pLevel 0 t ∧ t.regN pLevel 0x0A4 = min 0xFFFFFFFF (s.stage.regN pLevel 0x0A4 + 1))) ∧
    (s.stage.level.loop = .settle → s.stage.level.low = true → isLevelling s.stage.mode = true → s.stage.vmax ≤ s.stage.vcoreNow →
      Done .emergSettleEnd s (fun t => t.level.loop = .settle ∧ t.vcoreNow = s.stage.vcoreNow ∧ Raises pLevel 0 t ∧ Raises pLevel 1 t)) ∧
    (s.stage.level.loop ≠ .settle → Done .emergSettleEnd s (fun t => t.level = s.stage.level)) ∧
    Done .downstepBarEnd s (fun t => t.level = { s.stage.level with downBar := false }) ∧
    (s.stage.level.loop ≠ .emergency → s.stage.level.loop ≠ .settle →
      Done .vcoreReadback s (fun t => t.level.frames = s.stage.level.frames ++ [.voltageRead, .currentRead])) ∧
    (s.stage.level.loop = .emergency ∨ s.stage.level.loop = .settle →
      Done .vcoreReadback s (fun t => t.level.readDeferred = true ∧ t.level.frames = s.stage.level.frames))) ∧
  (∀ ok v, Frame [.levelWindow, .emergSettleEnd, .downstepBarEnd, .vcoreReadback, .regAlert, .avsFrameResponse ok v] [pLevel] [.level])

/-- The response of the frame on the bus takes it off the queue and puts the next one on the bus: reads store their value in VCORE_READ, IOUT_READ and REG_STATUS, the last with REG_ALERT, and the emergency write's success moves EMERGENCY to SETTLE, and any success moves FAULT to the resting state. A failed frame is sent again three times; the fourth failure raises REG_FAULT and enters FAULT. An alert on an idle bus sends a status read and changes nothing in the loop. The Voltage command value of code 57 is 723 mV (R40, R41, R42, R43, R44, R45, R46, R47). -/
def Obligations.RegulatorBus : Prop :=
  codeToMv 57 = 723 ∧
  ∀ s : State, s.stage.dieUp = true →
    (∀ (f : AvsCmd) (l : List AvsCmd), s.stage.level.frames = f :: l →
      (∀ v, Done (.avsFrameResponse true v) s (fun t => t.level.frames = l ∧ t.level.attempts = 0
        ∧ (f = .voltageRead → t.fld pLevel 0x0B0 15 0 = v % 65536) ∧ (f = .currentRead → t.fld pLevel 0x0B4 15 0 = v % 65536)
        ∧ (f = .statusRead → t.fld pLevel 0x0B8 15 0 = v % 65536 ∧ Raises pLevel 3 t))) ∧
      (∀ v c, f = .voltageWrite c true → s.stage.level.loop = .emergency → Done (.avsFrameResponse true v) s (fun t => t.level.loop = .settle)) ∧
      (∀ v, s.stage.level.loop = .fault → Done (.avsFrameResponse true v) s (fun t => t.level.loop = s.stage.resting)) ∧
      (∀ v, s.stage.level.loop ≠ .emergency → s.stage.level.loop ≠ .fault →
        Done (.avsFrameResponse true v) s (fun t => t.level.loop = s.stage.level.loop)) ∧
      (∀ v, s.stage.level.attempts < 3 → Done (.avsFrameResponse false v) s (fun t => t.level.frames = f :: l
        ∧ t.level.attempts = s.stage.level.attempts + 1 ∧ t.level.loop = s.stage.level.loop)) ∧
      (∀ v, 3 ≤ s.stage.level.attempts → Done (.avsFrameResponse false v) s (fun t => t.level.frames = l ∧ t.level.attempts = 0
        ∧ t.level.loop = .fault ∧ Raises pLevel 4 t)) ∧
      Done .regAlert s (fun t => t.level = s.stage.level)) ∧
    (s.stage.level.frames = [] → Done .regAlert s (fun t => t.level.frames = [.statusRead] ∧ t.level.loop = s.stage.level.loop
      ∧ Out.avs (s.stage.fld pLevel 0x0AC 11 8) .statusRead 0 ∈ t.outs)) ∧
    (∀ ok v, s.stage.level.frames = [] → Done (.avsFrameResponse ok v) s (fun t => t.level = s.stage.level))

/-- A write of LVL_CFG, VCORE_LIMITS or VCORE_START that passes the tests of R562 sets the register. FREEZE moves LEVEL to HOLD, and clearing it in a levelling mode moves HOLD to LEVEL. Limits that the present code lies beyond bring it to the limit at once, and a new VCORE_START is commanded at once in HOLD without FREEZE, held within the limits (R47, R53, R54, R56, R562, R563). -/
def Obligations.LevelRegisters : Prop :=
  (∀ (s : State) (m : Master) (v : Nat),
    (Passes s m .level 0 0x080 v → Done (.lvlCfgWrite m v) s (fun t => Written s .level 0 0x080 v t
      ∧ (s.stage.level.loop = .level → t.level.loop = if t.frozen then .hold else .level)
      ∧ (s.stage.level.loop = .hold → t.level.loop = if !t.frozen && isLevelling s.stage.mode then .level else .hold)
      ∧ (s.stage.level.loop ≠ .level → s.stage.level.loop ≠ .hold → t.level.loop = s.stage.level.loop) ∧ t.vcoreNow = s.stage.vcoreNow)) ∧
    (Passes s m .level 0 0x088 v → Done (.vcoreLimitsWrite m v) s (fun t => Written s .level 0 0x088 v t
      ∧ t.vcoreNow = (if t.vmax < s.stage.vcoreNow then t.vmax else if s.stage.vcoreNow < t.vmin then t.vmin else s.stage.vcoreNow))) ∧
    (Passes s m .level 0 0x08C v → Done (.vcoreStartWrite m v) s (fun t => Written s .level 0 0x08C v t
      ∧ t.vcoreNow = (if s.stage.level.loop = .hold ∧ s.stage.frozen = false then t.startCode else s.stage.vcoreNow)))) ∧
  (∀ m v, Frame [.lvlCfgWrite m v, .vcoreLimitsWrite m v, .vcoreStartWrite m v] [0, pLevel] [.level, .bus])

/-- Before the raw counter runs there is no strobe; a part in its reset state but for a running datum goes on to the next boundary with the strobe, the raw count then at or past that boundary's instant. A write of ENGINE_RATE that changes the rate discards graph and staged image and takes the sample index afresh; one that keeps it keeps them. A read of SAMPLE_INDEX_LO returns the low word and latches the high one, NOW_FRAC latches datum and raw count, LAST_ERR_LO both halves of the last error (R25, R27, R250, R277, R552, R256). -/
def Obligations.SampleStrobe : Prop :=
  (∀ (s : State) pdm a b x, s.stage.datum.started = false → Done (.sampleBoundary pdm a b x) s (fun t => Keeps [] [] s.stage t)) ∧
  (∀ (d : DatumSt) (l : List Instr), d.started = true → d.stepReady = [] →
    Done (.sampleBoundary [] none none 0) { stage := { datum := d }, pending := l } (fun t => t.datum.index = d.index + 1
      ∧ t.datum.raw = max d.raw (({ datum := d } : Stage).strobeRaw (d.index + 1)))) ∧
  (∀ (s : State) (m : Master) (v : Nat), Passes s m .sys 0 0x088 v →
    (bits v 2 0 ≠ s.stage.rateCode → Done (.engineRateWrite m v) s (fun t => t.bus.resp = .okay ∧ t.rateCode = bits v 2 0 ∧ t.graphId = 0
      ∧ t.graph.staged = none ∧ t.graph.map = [] ∧ t.datum.index = if s.stage.datum.started then indexAt s.stage.now t.fs else 0)) ∧
    (bits v 2 0 = s.stage.rateCode → Done (.engineRateWrite m v) s (fun t => t.bus.resp = .okay ∧ Keeps [0] [.bus] s.stage t))) ∧
  (∀ (s : State) (m : Master), Live s .sys 0 →
    Done (.sampleIndexLoRead m) s (fun t => t.bus.resp = .okay ∧ t.bus.data = leBytes 4 (s.stage.datum.index % 2 ^ 32)
      ∧ t.regN 0 0x084 = s.stage.datum.index / 2 ^ 32 % 2 ^ 32 ∧ Keeps [0] [.bus] s.stage t)) ∧
  (∀ (s : State) (m : Master) (r : Nat), Live s .datum 0 →
    Done (.nowFracRead m r) s (fun t => t.bus.resp = .okay ∧ t.datum.raw = max s.stage.datum.raw r ∧ t.datum.nowRaw = t.datum.raw
      ∧ t.datum.nowDatum = t.now ∧ Keeps [] [.bus, .datum] s.stage t)) ∧
  (∀ (s : State) (m : Master), Live s .grid 0 →
    Done (.lastErrLoRead m) s (fun t => t.bus.resp = .okay ∧ t.bus.data = leBytes 4 (s.stage.grid.lastErr.1 % 2 ^ 32)
      ∧ t.regN 1 0x0B4 = s.stage.grid.lastErr.1 % 2 ^ 32 ∧ t.regN 1 0x0B8 = s.stage.grid.lastErr.2 % 2 ^ 32 ∧ Keeps [1] [.bus] s.stage t))

/-- The lanes visit only the words that memory lists; up to 96 kHz their results are those of the plain definition of R132 and R140 over all 2048 sources in ascending order: each destination adds the product of source and live gain to a 72-bit accumulator that saturates, a word is skipped when its source is silent or all its gains are zero in every plane the lanes read, and the work count is the number of words read (R130, R132, R133, R139, R140, R141, R207). -/
def Obligations.LaneSums : Prop :=
  ∀ (s : Stage) (k : Nat), s.highRate = false →
    (∀ d, d < 8 → (s.batLanes k).acc.getD d 0 = s.sumOver k d) ∧ (s.batLanes k).words = ((upTo 2048).filter (s.wordUsed k)).length

/-- When the lanes of a batten that works on a sample finish, with lanes that show no fault, each bus slot receives the lane's 72-bit result rounded to 32 bits, half to even, and saturated; the block reaches its done point with its work count, and SAT_COUNT counts once when a sum saturated. A batten that works on none changes nothing but the raw count. A write of REH_CTRL that passes the tests sets the register (R31, R129, R132, R133, R158, R161, R163, R166). -/
def Obligations.BattenSums : Prop :=
  (∀ (s : State) (k t : Nat), Live s .bat k → s.stage.ecc = [] → s.stage.highRate = false → (s.stage.blk (64 + k)).busy = true → s.stage.exch.nxt = [] →
    ∀ r, r = (s.stage.bat k).held.getD ((s.stage.batLanes k).acc, (s.stage.batLanes k).av, (s.stage.batLanes k).words) →
    Done (.battenSumWrite k t []) s (fun x =>
      (∀ d, d < 8 → Tab.find x.exch.nxt (0x1800 + 8 * k + d) = some { rank := rankBat k, v := Word.ofInt (max (-(2 ^ 31)) (min (2 ^ 31 - 1)
        (roundHalfEven (max (-(2 ^ 71)) (min (2 ^ 71 - 1) (r.1.getD d 0))) (2 ^ 27)))) })
      ∧ (x.blk (64 + k)).busy = false ∧ (x.blk (64 + k)).done = some (max s.stage.datum.raw t) ∧ (x.blk (64 + k)).exec = r.2.2
      ∧ x.reg (pBat k) 0x0A8 = Word.ofNat r.2.2 ∧ (x.bat k).held = none
      ∧ ((∃ d, d < 8 ∧ ¬ InRange 32 (roundHalfEven (max (-(2 ^ 71)) (min (2 ^ 71 - 1) (r.1.getD d 0))) (2 ^ 27))) →
          Raises (pBat k) 6 x ∧ x.regN (pBat k) 0x0AC = min 0xFFFFFFFF (s.stage.regN (pBat k) 0x0AC + 1)))) ∧
  (∀ (s : State) (k t : Nat) (e : List (Nat × Int)), Live s .bat k → (s.stage.blk (64 + k)).busy = false →
    Done (.battenSumWrite k t e) s (fun x => Keeps [] [.datum] s.stage x)) ∧
  (∀ (s : State) (m : Master) (k v : Nat), Passes s m .bat k 0x0B4 v → Done (.rehCtrlWrite m k v) s (fun t => Written s .bat k 0x0B4 v t)) ∧
  (∀ k t e, Frame [.battenSumWrite k t e] (if k < 64 then [0, pPool, 0x2A0, pBat k] else []) [.exch, .blocks, .bats, .datum, .red, .ecc, .pool, .reh])

/-- SWAP, HOLD, RELEASE, REVERSE and CANCEL_QUEUED are boundary-applied: written with legal fields by a master that may write, each takes a place among the waiting writes for the boundary of R22. RAMP_REQ_LO is kept for each master. RAMP_REQ_HI with legal fields enters the batten's queue with that master's target gain, or with 64 requests there is refused and counted (R22, R23, R145, R147, R150, R151, R152, R168, R170, R461). -/
def Obligations.CrossfadeRequests : Prop :=
  (∀ (s : State) (m : Master) (k curve time : Nat),
    (Places s m .bat k 0x084 (xfReq 1 curve time) 0 → Done (.swap m k curve time) s (Placed s m .bat k 0x084 (xfReq 1 curve time) 0)) ∧
    (Places s m .bat k 0x084 (xfReq 2 0 0) 0 → Done (.hold m k) s (Placed s m .bat k 0x084 (xfReq 2 0 0) 0)) ∧
    (Places s m .bat k 0x084 (xfReq 3 0 0) 0 → Done (.release m k) s (Placed s m .bat k 0x084 (xfReq 3 0 0) 0)) ∧
    (Places s m .bat k 0x084 (xfReq 4 0 0) 0 → Done (.reverse m k) s (Placed s m .bat k 0x084 (xfReq 4 0 0) 0)) ∧
    (Places s m .bat k 0x084 (xfReq 5 0 0) 0 → Done (.cancelQueued m k) s (Placed s m .bat k 0x084 (xfReq 5 0 0) 0))) ∧
  (∀ (s : State) (m : Master) (k v : Nat), Live s .bat k →
    Done (.rampReqLoWrite m k v) s (fun t => t.bus.resp = .okay ∧ t.arg (pBat k) m 4 = Word.ofNat v ∧ Keeps [] [.cmds, .bus] s.stage t) ∧
    (¬ (heldMode s.stage.mode = true ∧ m.cls < 2) → rampLegal s.stage.highRate (v % 2 ^ 32) = true → s.stage.tagTooFar m.cls = false →
      ((s.stage.bat k).queue.length < 64 → Done (.rampReqHiWrite m k v) s (fun t => t.bus.resp = .okay
        ∧ (t.bat k).queue = (s.stage.bat k).queue ++ [{ due := (s.stage.dueFor m.cls).1, ord := s.stage.order, lo := s.stage.arg (pBat k) m 4, hi := v % 2 ^ 32, deferred := false }])) ∧
      (64 ≤ (s.stage.bat k).queue.length → Done (.rampReqHiWrite m k v) s (fun t => t.bus.resp = .refused ∧ t.bat k = s.stage.bat k
        ∧ Raises (pBat k) 1 t ∧ t.regN (pBat k) 0x09C = min 0xFFFFFFFF (s.stage.regN (pBat k) 0x09C + 1)))) ∧
    (heldMode s.stage.mode = true → m.cls < 2 → Done (.rampReqHiWrite m k v) s (fun t => t.bus.resp = .denied ∧ Keeps [] [.bus] s.stage t))) ∧
  (∀ (a b : Word), xfMix a b 0 = a.toInt ∧ xfMix a b 32768 = b.toInt) ∧
  (∀ (a b : Word) (x : Int), 0 ≤ x → x ≤ 32768 → min a.toInt b.toInt ≤ xfMix a b x ∧ xfMix a b x ≤ max a.toInt b.toInt) ∧
  (∀ (s : Stage) (k kk n : Nat), 0 ≤ s.alpha k 0 kk n ∧ s.alpha k 0 kk n ≤ 32768)

/-- LOAD_PLANE on a batten that runs no crossfade, with no image staged into it and a source of a multiple of 32, starts the load: the shadow plane is not ready; else it completes with REFUSED. The load's end copies 64 KiB from a readable source in management memory into the shadow plane, completes with DONE and makes the plane ready at m + D; a source that no window permits ends it with FAILED. Without a load in progress it changes nothing (R138, R188, R543, R569). -/
def Obligations.PlaneLoads : Prop :=
  (∀ (s : State) (m : Master) (k a0 a1 : Nat) (c : Cmd), Ready s (pBat k) → k < 64 → c = s.stage.issuedCmd m (pBat k) 1 [Word.ofNat a0, Word.ofNat a1] →
    (((s.stage.bat k).fading = false ∧ s.stage.batStaged k = false ∧ a0 % 32 = 0) →
      Done (.loadPlane m k a0 a1) s (fun t => (t.bat k).loading = true ∧ (t.bat k).ready = false ∧ t.runningCmd (pBat k) = some c)) ∧
    (¬ ((s.stage.bat k).fading = false ∧ s.stage.batStaged k = false ∧ a0 % 32 = 0) → RingFree s.stage →
      Done (.loadPlane m k a0 a1) s (fun t => Recorded s.stage (pBat k) c stRefused 0#32 t ∧ t.bat k = s.stage.bat k))) ∧
  (∀ (s : State) (k : Nat) (c : Cmd), Live s .bat k → s.stage.runningCmd (pBat k) = some c → (s.stage.bat k).loading = true → RingFree s.stage →
    (∀ g, 0x10000000 ≤ g → g + 65536 ≤ 0x10100000 →
      (∀ i, i < 2048 → s.stage.winMap 0 (c.a0.toNat + c.a1.toNat % 16 * 2 ^ 32 + 32 * i) 32 false = some (g + 32 * i)) →
      Done (.loadPlaneComplete k) s (fun t => (∀ i, i < 65536 → t.rd8 (planeAddr k (1 - (s.stage.bat k).live) + i) = s.stage.rd8 (g + i))
        ∧ (t.bat k).loading = false ∧ (t.bat k).readyAt = some s.stage.dueNow ∧ t.runningCmd (pBat k) = none
        ∧ Recorded s.stage (pBat k) c stDone 0#32 t)) ∧
    ((∀ i, i < 2048 → s.stage.winMap 0 (c.a0.toNat + c.a1.toNat % 16 * 2 ^ 32 + 32 * i) 32 false = none) →
      Done (.loadPlaneComplete k) s (fun t => (t.bat k).loading = false ∧ t.runningCmd (pBat k) = none ∧ Recorded s.stage (pBat k) c stFailed 0#32 t))) ∧
  (∀ (s : State) (k : Nat), s.stage.dieUp = true → s.stage.runningCmd (pBat k) = none → Done (.loadPlaneComplete k) s (fun t => Keeps [] [] s.stage t))

/-- A command with a code that its page does not accept completes with REFUSED once it starts. Written behind others it joins the page's queue with the next sequence number, which CMD_HANDLE shows with the page; written behind eight it is refused with CMD_FULL and a zero handle; during a hot restart it is refused and changes nothing. A block takes the next command from its queue when it may start one, and leaves the queue alone when it may not (R565, R566, R567, R568, R569, R571, R589). -/
def Obligations.CommandQueues : Prop :=
  ∀ (s : State) (m : Master) (p n code : Nat) (k : PageKind) (i : Nat), code = n % 256 → pageOf p = some (k, i) →
    (Ready s p → RingFree s.stage → (code = 0 ∨ commandCodes k i < code) →
      Done (.cmdUnknown m p n) s (fun t => t.bus.resp = .okay ∧ t.queue p = []
        ∧ Recorded s.stage p (s.stage.issuedCmd m p code []) stRefused 0#32 t)) ∧
    (s.stage.dieUp = true → s.stage.powered p = true → k ≠ .graph → s.stage.restarting = false → s.stage.queue p ≠ [] → (s.stage.queue p).length < 8 →
      Done (.cmdUnknown m p n) s (fun t => t.bus.resp = .okay ∧ t.queue p = s.stage.queue p ++ [s.stage.issuedCmd m p code []]
        ∧ t.arg p m 3 = Word.ofNat (handleOf p (s.stage.nextSeq p)) ∧ Keeps [] [.cmds, .bus] s.stage t)) ∧
    (s.stage.dieUp = true → s.stage.powered p = true → k ≠ .graph → s.stage.restarting = false → 8 ≤ (s.stage.queue p).length →
      Done (.cmdUnknown m p n) s (fun t => t.bus.resp = .refused ∧ t.queue p = s.stage.queue p ∧ t.arg p m 3 = 0#32 ∧ Raises p 30 t)) ∧
    (s.stage.dieUp = true → s.stage.powered p = true → s.stage.restarting = true →
      Done (.cmdUnknown m p n) s (fun t => t.bus.resp = .refused ∧ Keeps [] [.bus] s.stage t)) ∧
    (s.stage.dieUp = true → s.stage.powered p = false → Done (.cmdUnknown m p n) s (fun t => t.bus.resp = .fault ∧ Keeps [] [.bus] s.stage t)) ∧
    (∀ (c : Cmd) (l : List Cmd), s.stage.dieUp = true → s.stage.powered p = true → s.stage.queue p = c :: l →
      ((s.stage.mayStart p && s.stage.cmdFree p) = true → RingFree s.stage → (c.code = 0 ∨ commandCodes k i < c.code) →
        Done (.queuedCommandStart p) s (fun t => t.queue p = l ∧ Recorded s.stage p c stRefused 0#32 t)) ∧
      ((s.stage.mayStart p && s.stage.cmdFree p) = false → Done (.queuedCommandStart p) s (fun t => Keeps [] [] s.stage t)))

/-- GO and GO_AT in a mode that takes triggers, for a cue that the book holds and with room, place a trigger with the command's handle for the later of its due boundary and the earliest one; a late GO_AT under the dropping rule is dropped with EXPIRED and counted. Where the mode refuses them they complete with REFUSED and reason MODE and GO is counted; GO for the standby takes the standby cue and moves the standby on, and GO_AT with an illegal nanosecond field is refused for its range. An edge of CUE_GO with the chosen sense outside the lockout places the standby with a handle of its own, and one inside it is counted only. A STANDBY write that passes the tests sets the register (R294, R295, R296, R297, R298, R299, R302, R304, R305, R320). -/
def Obligations.CueTriggers : Prop :=
  (∀ r e, Frame [.cueGoEdge r e] [0, pPrompt, 0x260] [.prompt, .datum, .cmds, .ring, .mem, .links]) ∧
  ∀ (s : State) (m : Master),
    (∀ (a0 : Nat) (c : Cmd) (q : Nat), Ready s pPrompt → c = s.stage.issuedCmd m pPrompt 1 [Word.ofNat a0] →
      (bit a0 31 = false → q = bits a0 11 0 → TakesCue s.stage 0 q →
        Done (.go m a0) s (fun t => t.prompt.trigs = s.stage.prompt.trigs ++
          [{ seq := c.seq, cls := c.cls, cue := q, src := 0, t := none, m := s.stage.datum.index, b0 := s.stage.dueBoundary q (.datum s.stage.now),
             b := max (s.stage.dueBoundary q (.datum s.stage.now)) (s.stage.earliest s.stage.datum.index q 0), late := false }])) ∧
      (bit a0 31 = true → s.stage.flag pPrompt 0x084 31 = true → q = s.stage.fld pPrompt 0x084 11 0 → TakesCue s.stage 0 q →
        Done (.go m a0) s (fun t => (∃ tr ∈ t.prompt.trigs, tr.seq = c.seq ∧ tr.cue = q) ∧ t.prompt.trigs.length = s.stage.prompt.trigs.length + 1
          ∧ (bit (s.stage.bookWord (0x24 + 8 * q)) 31 = true → t.regN pPrompt 0x084 = 2 ^ 31 + bits (s.stage.bookWord (0x24 + 8 * q)) 11 0)
          ∧ (bit (s.stage.bookWord (0x24 + 8 * q)) 31 = false → t.flag pPrompt 0x084 31 = false ∧ Raises pPrompt 5 t))) ∧
      (trigMode s.stage.mode 0 = .refuse → RingFree s.stage →
        Done (.go m a0) s (fun t => t.prompt.trigs = s.stage.prompt.trigs ∧ t.regN pPrompt 0x0AC = min 0xFFFFFFFF (s.stage.regN pPrompt 0x0AC + 1)
          ∧ Recorded s.stage pPrompt c stRefused (runResult (if bit a0 31 then 0 else bits a0 11 0) 0 9) t))) ∧
    (∀ (a0 a1 a2 : Nat) (c : Cmd) (q d : Nat), Ready s pPrompt → c = s.stage.issuedCmd m pPrompt 2 [Word.ofNat a0, Word.ofNat a1, Word.ofNat a2] →
      d = s.stage.datumArg (a1 % 2 ^ 32) (a2 % 2 ^ 32) →
      (1000000000 ≤ bits a2 29 0 → RingFree s.stage →
        Done (.goAt m a0 a1 a2) s (fun t => t.prompt.trigs = s.stage.prompt.trigs
          ∧ Recorded s.stage pPrompt c stRefused (runResult (if bit a0 31 then 0 else bits a0 11 0) 1 11) t)) ∧
      (bits a2 29 0 < 1000000000 → bit a0 31 = false → q = bits a0 11 0 → TakesCue s.stage 1 q →
        ((s.stage.now ≤ d + s.stage.cuePre q ∨ s.stage.flag pPrompt 0x080 0 = false) →
          Done (.goAt m a0 a1 a2) s (fun t => t.prompt.trigs = s.stage.prompt.trigs ++
            [{ seq := c.seq, cls := c.cls, cue := q, src := 1, t := some d, m := s.stage.datum.index, b0 := s.stage.dueBoundary q (.datum d),
               b := max (s.stage.dueBoundary q (.datum d)) (s.stage.earliest s.stage.datum.index q 1),
               late := decide (d + s.stage.cuePre q < s.stage.now) }])) ∧
        (d + s.stage.cuePre q < s.stage.now → s.stage.flag pPrompt 0x080 0 = true → RingFree s.stage →
          Done (.goAt m a0 a1 a2) s (fun t => t.prompt.trigs = s.stage.prompt.trigs ∧ Raises pPrompt 2 t
            ∧ t.regN pPrompt 0x0A8 = min 0xFFFFFFFF (s.stage.regN pPrompt 0x0A8 + 1)
            ∧ Recorded s.stage pPrompt c stExpired (runResult q 1 (max (s.stage.dueBoundary q (.datum d)) (s.stage.earliest s.stage.datum.index q 1)
                - s.stage.dueBoundary q (.datum d))) t)))) ∧
    (∀ (r : Nat) (rising : Bool), s.stage.dieUp = true →
      ((s.stage.flag pPrompt 0x080 2 = false ∨ rising = s.stage.flag pPrompt 0x080 3) →
        Done (.cueGoEdge r rising) s (fun t => t.prompt = s.stage.prompt ∧ t.datum.raw = max s.stage.datum.raw r)) ∧
      (s.stage.flag pPrompt 0x080 2 = true → rising ≠ s.stage.flag pPrompt 0x080 3 →
        (∀ l, s.stage.prompt.pinLast = some l → r < l + s.stage.fld pPrompt 0x088 9 0 * 1000000 * unit →
          Done (.cueGoEdge r rising) s (fun t => t.prompt = s.stage.prompt ∧ t.regN pPrompt 0x0AC = min 0xFFFFFFFF (s.stage.regN pPrompt 0x0AC + 1))) ∧
        (s.stage.prompt.pinLast = none → ∀ q, s.stage.flag pPrompt 0x084 31 = true → q = s.stage.fld pPrompt 0x084 11 0 → TakesCue s.stage 2 q →
          Done (.cueGoEdge r rising) s (fun t => t.prompt.pinLast = some r ∧ t.prompt.trigs.length = s.stage.prompt.trigs.length + 1
            ∧ ∃ tr ∈ t.prompt.trigs, tr.seq = s.stage.nextSeq pPrompt ∧ tr.cls = 0xFF ∧ tr.cue = q ∧ tr.src = 2)))) ∧
    (∀ v, Passes s m .prompt 0 0x084 v → Done (.standbyWrite m v) s (fun t => Written s .prompt 0 0x084 v t))

/-- CANCEL of a waiting trigger whose boundary is far enough away removes it; of one that is too near, or of none, it completes with REFUSED and reason TOO_LATE, and of a handle that is no trigger's with reason RANGE. CANCEL_ALL removes every trigger that can be removed and keeps the others. Both are refused in the modes of R305. The GRAPH_COMMIT action of a trigger that falls to be issued is issued once, with its outcome kept for the run; in a mode that runs no cues nothing is issued (R293, R303, R305, R320). -/
def Obligations.CueRemoval : Prop :=
  (∀ (s : State) (m : Master) (h : Nat) (c : Cmd), Ready s pPrompt → c = s.stage.issuedCmd m pPrompt 3 [Word.ofNat h] → h < 2 ^ 32 →
    (cancelBarred s.stage.mode = false → h / 65536 = pPrompt → h % 65536 ≠ 0 → ∀ tr, (s.stage.prompt.trigs.find? fun t => t.seq == h % 65536) = some tr →
      (s.stage.datum.index + s.stage.applyDelay + 1 ≤ tr.b →
        Done (.cancel m h) s (fun t => t.prompt.trigs = s.stage.prompt.trigs.filter (· ≠ tr))) ∧
      (tr.b < s.stage.datum.index + s.stage.applyDelay + 1 → RingFree s.stage →
        Done (.cancel m h) s (fun t => t.prompt = s.stage.prompt ∧ Recorded s.stage pPrompt c stRefused 10#32 t))) ∧
    (cancelBarred s.stage.mode = false → h / 65536 = pPrompt → h % 65536 ≠ 0 → (∀ tr ∈ s.stage.prompt.trigs, tr.seq ≠ h % 65536) → RingFree s.stage →
      Done (.cancel m h) s (fun t => t.prompt = s.stage.prompt ∧ Recorded s.stage pPrompt c stRefused 10#32 t)) ∧
    (cancelBarred s.stage.mode = false → (h / 65536 ≠ pPrompt ∨ h % 65536 = 0) → RingFree s.stage →
      Done (.cancel m h) s (fun t => t.prompt = s.stage.prompt ∧ Recorded s.stage pPrompt c stRefused 11#32 t)) ∧
    (cancelBarred s.stage.mode = true → RingFree s.stage →
      Done (.cancel m h) s (fun t => t.prompt = s.stage.prompt ∧ Recorded s.stage pPrompt c stRefused 9#32 t))) ∧
  (∀ (s : State) (m : Master), Ready s pPrompt →
    (cancelBarred s.stage.mode = false → Done (.cancelAll m) s (fun t => t.prompt.trigs =
      s.stage.prompt.trigs.filter fun tr => decide (tr.b < s.stage.datum.index + s.stage.applyDelay + 1))) ∧
    (cancelBarred s.stage.mode = true → RingFree s.stage → ∀ c, c = s.stage.issuedCmd m pPrompt 4 [] →
      Done (.cancelAll m) s (fun t => t.prompt = s.stage.prompt ∧ Recorded s.stage pPrompt c stRefused 9#32 t))) ∧
  (∀ s : State, s.stage.dieUp = true →
    (runsCues s.stage.mode = false → Done .actionGraphCommit s (fun t => Keeps [] [] s.stage t)) ∧
    (∀ (tr : Trig) (j : Nat), runsCues s.stage.mode = true → s.stage.prompt.trigs = [tr] → tr.src ≠ 7 → tr.m ≤ s.stage.datum.index →
      tr.b ≤ s.stage.datum.index + s.stage.applyDelay → s.stage.cueOk tr.cue = true → tr.issued = [] →
      ((upTo (s.stage.cueActions tr.cue)).filter fun x => s.stage.actType tr.cue x == actGraphCommit) = [j] → s.stage.graph.staged = none →
      Done .actionGraphCommit s (fun t => t.prompt.trigs =
        [{ tr with issued := [(j, if s.stage.graph.commit.isSome then rsRefused else rsNoGraph)] }])))

/-- A trigger merges with a capture of less than 1 µs before, is dropped under KEEP while one is unread, and else captures: TABLEAU_ID counts up, TAB_STAT shows UNREAD with the source and the capture event is raised. An edge of TABLEAU_IN of the chosen sense, the TRIGGER command and the datum of a timed trigger each do this; a timed TRIGGER waits, a second one is refused, and one for a datum that has passed completes with EXPIRED. The extended copy's end fills the tableau memory and raises its event, and a write of ACK clears UNREAD (R308, R309, R310, R311, R314, R316, R323, R324). -/
def Obligations.Tableaux : Prop :=
  (∀ r e, Frame [.tableauInEdge r e] [pTab] [.tab, .datum, .free]) ∧ (∀ r, Frame [.tableauTimedCapture r] [0, pTab] [.tab, .datum, .free, .ring, .mem]) ∧
  Frame [.tableauExtDone] [pTab] [.tab, .mem, .ecc] ∧
  ∀ (s : State), s.stage.dieUp = true → s.stage.powered pTab = true →
    (∀ (r : Nat) (rising : Bool), 
      ((s.stage.flag pTab 0x080 0 = false ∨ rising = s.stage.flag pTab 0x080 1) →
        Done (.tableauInEdge r rising) s (fun t => t.tab = s.stage.tab ∧ t.datum.raw = max s.stage.datum.raw r)) ∧
      (s.stage.flag pTab 0x080 0 = true → rising ≠ s.stage.flag pTab 0x080 1 →
        ((s.stage.tick r).tabOut = .captured → Done (.tableauInEdge r rising) s (fun t =>
          Tab.get 0 t.tab.ids pTab = (Tab.get 0 s.stage.tab.ids pTab + 1) % 2 ^ 32 ∧ t.tab.last = some (max s.stage.datum.raw r)
          ∧ t.flag pTab 0x084 0 = true ∧ t.fld pTab 0x084 7 4 = 1 ∧ t.reg64 pTab 0x098 = s.stage.datum.index % 2 ^ 64 ∧ Raises pTab 0 t)) ∧
        ((s.stage.tick r).tabOut ≠ .captured → Done (.tableauInEdge r rising) s (fun t => t.tab = s.stage.tab
          ∧ t.regN pTab 0x0A4 = min 0xFFFFFFFF (s.stage.regN pTab 0x0A4 + 1) ∧ ((s.stage.tick r).tabOut = .kept → Raises pTab 3 t))))) ∧
    (∀ (m : Master) (a0 a1 a2 : Nat) (c : Cmd), Ready s pTab → c = s.stage.issuedCmd m pTab 1 [Word.ofNat a0, Word.ofNat a1, Word.ofNat a2] → RingFree s.stage →
      (bit a0 0 = false → (∀ n, n < 4 → s.stage.flag pTab 0x080 (8 + n) = false) →
        (s.stage.tabOut = .captured → Done (.trigger m a0 a1 a2) s (fun t =>
          Tab.get 0 t.tab.ids pTab = (Tab.get 0 s.stage.tab.ids pTab + 1) % 2 ^ 32 ∧ t.flag pTab 0x084 0 = true ∧ t.fld pTab 0x084 7 4 = 2
          ∧ Recorded s.stage pTab c stDone (Word.ofNat (Tab.get 0 s.stage.tab.ids pTab + 1)) t)) ∧
        (s.stage.tabOut = .merged → Done (.trigger m a0 a1 a2) s (fun t => t.tab = s.stage.tab
          ∧ Recorded s.stage pTab c stDone (Word.ofNat (Tab.get 0 s.stage.tab.ids pTab)) t)) ∧
        (s.stage.tabOut = .kept → Done (.trigger m a0 a1 a2) s (fun t => t.tab = s.stage.tab ∧ Recorded s.stage pTab c stRefused 0#32 t))) ∧
      (bit a0 0 = true → ((s.stage.tab.timed.isSome = true ∨ 1000000000 ≤ bits a2 29 0) → Done (.trigger m a0 a1 a2) s (fun t => t.tab = s.stage.tab
          ∧ Recorded s.stage pTab c stRefused 0#32 t)) ∧
        (s.stage.tab.timed = none → bits a2 29 0 < 1000000000 → ∀ d, d = s.stage.datumArg (a1 % 2 ^ 32) (a2 % 2 ^ 32) →
          (d < s.stage.now → Done (.trigger m a0 a1 a2) s (fun t => t.tab = s.stage.tab ∧ Recorded s.stage pTab c stExpired 0#32 t)) ∧
          (s.stage.now ≤ d → Done (.trigger m a0 a1 a2) s (fun t => t.tab = { s.stage.tab with timed := some (d, c) }))))) ∧
    (∀ (r d : Nat) (c : Cmd), s.stage.tab.timed = some (d, c) → 
      (d ≤ (s.stage.tick r).now → (s.stage.tick r).tabOut = .captured → s.stage.tab.msgs = [] → RingFree s.stage →
        Done (.tableauTimedCapture r) s (fun t => t.tab.timed = none ∧ Tab.get 0 t.tab.ids pTab = (Tab.get 0 s.stage.tab.ids pTab + 1) % 2 ^ 32
          ∧ Recorded s.stage pTab c stDone (Word.ofNat (Tab.get 0 s.stage.tab.ids pTab + 1)) t)) ∧
      ((s.stage.tick r).now < d → s.stage.tab.msgs = [] → Done (.tableauTimedCapture r) s (fun t => t.tab = s.stage.tab))) ∧
    (∀ (id : Nat) (w : Tab Word), s.stage.tab.ext = some (id, w) → Tab.wf (fun _ => 0#32) w = true →
      Done .tableauExtDone s (fun t => t.tab = { s.stage.tab with ext := none } ∧ t.regN pTab 0x0AC = id % 2 ^ 32 ∧ Raises pTab 1 t
        ∧ (∀ i, i < 0x10000 → t.rd32 (tabMem + 4 * i) = Tab.get 0#32 w i))) ∧
    (s.stage.tab.ext = none → Done .tableauExtDone s (fun t => Keeps [] [] s.stage t)) ∧
    (∀ m : Master, Passes s m .tableau 0 0x0A0 1 → Done (.tableauAck m) s (fun t => t.bus.resp = .okay ∧ t.flag pTab 0x084 0 = false ∧ t.tab = s.stage.tab))

/-- The sealed core runs without the Stage die. Its start and an RTC minute each add one 16-byte entry to the log, of which 256 are erased when 65,280 are held; the hourly check marks a changed firmware; each measuring period sends a record of 16 words that begins with SEQ and the RTC second and ends with their CRC, and counts SEQ, the period and, after the tenth, the RTC. A record that arrives sound is latched, counted and makes the mailbox live; one whose CRC fails is counted and dropped; silence ends LIVE. A read of REC_0 latches the rest. The UART's four lines are answered while the core runs, and the nonce, the lockout and calibration end as their events say. GOV_CTRL takes a legal write (R600, R606, R607, R608, R609, R610, R612, R618, R622, R623). -/
def Obligations.SealedCore : Prop :=
  ∀ s : State,
    (∀ crc, Done (.benchCoreStart crc) s (fun t => t.bench.on = true ∧ t.bench.fwCrc = crc % 2 ^ 32 ∧ t.bench.vals = s.stage.bench.vals
      ∧ t.bench.sealCount = s.stage.bench.sealCount ∧ t.bench.calib = none ∧ t.bench.nonce = none
      ∧ ∃ e, e.length = 16 ∧ e.drop 14 = leBytes 2 (crc16 (e.take 14)) ∧ (e.drop 8).take 4 = leBytes 4 crc
        ∧ t.bench.log = (if 65280 ≤ s.stage.bench.log.length then s.stage.bench.log.drop 256 else s.stage.bench.log) ++ [e])) ∧
    (∀ l, s.stage.bench.on = true → Done (.benchMinuteEnd l) s (fun t => t.bench.mPeak = none ∧ t.bench.mFlags = 0 ∧ t.bench.mPart = false
      ∧ ∃ e, e.length = 16 ∧ e.take 4 = leBytes 4 (s.stage.sup.rtc / 60)
        ∧ t.bench.log = (if 65280 ≤ s.stage.bench.log.length then s.stage.bench.log.drop 256 else s.stage.bench.log) ++ [e])) ∧
    (∀ crc, Done (.benchIntegrityCheck crc) s (fun t => t.bench =
      if s.stage.bench.on = true ∧ crc % 2 ^ 32 ≠ s.stage.bench.fwCrc then { s.stage.bench with bad := true } else s.stage.bench)) ∧
    (∀ lv o f sl, s.stage.bench.on = true → Done (.benchPeriodEnd lv o f sl) s (fun t =>
      t.bench.seq = (s.stage.bench.seq + 1) % 2 ^ 32 ∧ t.bench.period = (s.stage.bench.period + 1) % 10 ∧ t.bench.sealLow = sl ∧ t.bench.next = none
      ∧ (s.stage.bench.next = none → t.bench.vals = s.stage.bench.vals
          ∧ t.sup.rtc = if s.stage.bench.period = 9 then (s.stage.sup.rtc + 1) % 2 ^ 32 else s.stage.sup.rtc)
      ∧ (∀ v r, s.stage.bench.next = some (v, some r) → t.bench.vals = v ∧ t.sup.rtc = r)
      ∧ ∃ w, w.length = 16 ∧ t.bench.sent = s.stage.bench.sent ++ [w] ∧ w.getD 0 0 = s.stage.bench.seq
        ∧ w.getD 15 0 = crc32c ((w.take 15).flatMap (leBytes 4)))) ∧
    (∀ lv o f sl l, s.stage.bench.on = false → Done (.benchPeriodEnd lv o f sl) s (fun t => t.bench = s.stage.bench)
      ∧ Done (.benchMinuteEnd l) s (fun t => t.bench = s.stage.bench)) ∧
    (∀ (r : Nat) (w : List Nat) (rest : List (List Nat)), s.stage.dieUp = true → s.stage.bench.sent = w :: rest → s.stage.sup.state = .up →
      w.length = 16 → (∀ x ∈ w, x < 2 ^ 32) →
      (crc32c ((w.take 15).flatMap (leBytes 4)) = w.getD 15 0 → Done (.benchRecord r []) s (fun t => t.bench.sent = rest
        ∧ t.flag pBench 0x080 31 = true ∧ Raises pBench 0 t ∧ t.regN pBench 0x0C0 = w.getD 0 0 ∧ t.mail.lastSeq = some (w.getD 0 0)
        ∧ t.regN pBench 0x084 = min 0xFFFFFFFF (s.stage.regN pBench 0x084 + 1))) ∧
      (crc32c ((w.take 15).flatMap (leBytes 4)) ≠ w.getD 15 0 → Done (.benchRecord r []) s (fun t => t.bench.sent = rest ∧ t.mail = s.stage.mail
        ∧ Raises pBench 2 t ∧ t.regN pBench 0x08C = min 0xFFFFFFFF (s.stage.regN pBench 0x08C + 1) ∧ t.regN pBench 0x0C0 = s.stage.regN pBench 0x0C0))) ∧
    (s.stage.dieUp = true → s.stage.flag pBench 0x080 31 = true → Done .benchSilent s (fun t => t.flag pBench 0x080 31 = false ∧ Raises pBench 3 t)) ∧
    (∀ m : Master, Live s .bench 0 → Done (.rec0Read m) s (fun t => t.bus.resp = .okay ∧ t.bus.data = leBytes 4 (s.stage.regN pBench 0x0C0)
      ∧ t.mail.view = (upTo 4).map (fun i => s.stage.regN pBench (0x090 + 4 * i)) ++ (upTo 15).map fun i => s.stage.regN pBench (0x0C4 + 4 * i))) ∧
    (s.stage.bench.on = true → Done .uartId s (fun t => Out.uartId s.stage.bench.fwCrc s.stage.bench.sealCount s.stage.bench.log.length ∈ t.outs) ∧
      Done .uartNow s (fun t => Out.uartNow s.stage.sup.rtc s.stage.bench.levels ∈ t.outs) ∧
      (∀ i n, 1 ≤ n → n ≤ 65280 → Done (.uartLog i n) s (fun t => Out.uartLog ((s.stage.bench.log.drop i).take n) ∈ t.outs)) ∧
      (∀ i n, (n = 0 ∨ 65280 < n) → Done (.uartLog i n) s (fun t => Out.uartErr ∈ t.outs)) ∧ Done .uartErr s (fun t => Out.uartErr ∈ t.outs)) ∧
    Done .nonceExpiry s (fun t => t.bench = { s.stage.bench with nonce := none }) ∧
    Done .calLockoutEnd s (fun t => t.bench = { s.stage.bench with lockout := false }) ∧
    (∀ b, Done (.calAutoExit b) s (fun t => t.bench = { s.stage.bench with calib := none, sealLow := s.stage.bench.sealLow && !b })) ∧
    (∀ (m : Master) v, Passes s m .bench 0 0x100 v → Done (.govCtrlWrite m v) s (fun t => Written s .bench 0 0x100 v t)) ∧
    (∀ crc l lv o f sl b i n, Frame [.benchCoreStart crc, .benchMinuteEnd l, .benchIntegrityCheck crc, .benchPeriodEnd lv o f sl, .calAutoExit b,
      .nonceExpiry, .calLockoutEnd, .uartId, .uartNow, .uartLog i n, .uartErr] [] [.bench, .sup])

/-- READ_LOG and READ_ID fill their buffers over the Catwalk path that CAT_PERM governs. The commands of calibration are refused outside SERVICE, without the path, with the seal open, and but for the first two outside calibration, with the reasons of R613 in that order. CAL_CHALLENGE draws a nonce unless locked out; CAL_ENTER with the right tag counts the seal and opens a pending copy, and with a wrong one is refused and locks out at the third; CAL_MEASURE runs until its end, which sets FS_SPL of the channel or fails for the tone or the level; CAL_SETTINGS and CAL_SET_RTC change the pending copy; CAL_COMMIT hands it over with a log entry when the flash reads back; CAL_EXIT drops it (R565, R611, R613, R614, R615, R616, R617, R618, R625). -/
def Obligations.SealedCommands : Prop :=
  ∀ (s : State) (m : Master) (a0 a1 a2 : Nat), Ready s pBench → RingFree s.stage → ∀ ic, (ic = fun code args => s.stage.issuedCmd m pBench code args) →
    (s.stage.catOk 1 = true →
      (a0 < 65280 → 1 ≤ a1 → a1 ≤ 32 → ∀ l, l = (s.stage.bench.log.drop a0).take a1 → Done (.readLog m a0 a1) s (fun t =>
        (∀ j, j < 4 * l.length → t.regN pBench (0x200 + 4 * j) = ofLeBytes ((l.flatten.drop (4 * j)).take 4))
        ∧ Recorded s.stage pBench (ic 1 [Word.ofNat a0, Word.ofNat a1]) stDone (Word.ofNat (s.stage.bench.log.length * 65536 + l.length)) t)) ∧
      Done (.readId m) s (fun t => (∀ j, j < 32 → t.regN pBench (0x180 + 4 * j) = ofLeBytes ((s.stage.idBytes.drop (4 * j)).take 4))
        ∧ Recorded s.stage pBench (ic 2 []) stDone 0#32 t)) ∧
    (∀ e ∈ [(Instr.calChallenge m, ic 3 []), (.calEnter m, ic 4 []), (.calMeasure m a0, ic 5 [Word.ofNat a0]),
        (.calSettings m a0 a1 a2, ic 6 [Word.ofNat a0, Word.ofNat a1, Word.ofNat a2]), (.calSetRtc m a0, ic 7 [Word.ofNat a0]), (.calCommit m, ic 8 []),
        (.calExit m, ic 9 [])],
      (s.stage.mode ≠ mService → Done e.1 s (fun t => t.bench = s.stage.bench ∧ Recorded s.stage pBench e.2 stRefused (reason 1) t)) ∧
      (s.stage.mode = mService → s.stage.catOk 1 = false →
        Done e.1 s (fun t => t.bench = s.stage.bench ∧ Raises 1 4 t ∧ Recorded s.stage pBench e.2 stRefused (reason 2) t)) ∧
      (s.stage.mode = mService → s.stage.catOk 1 = true → s.stage.bench.sealLow = false →
        Done e.1 s (fun t => t.bench = s.stage.bench ∧ Recorded s.stage pBench e.2 stRefused (reason 3) t)) ∧
      (s.stage.mode = mService → s.stage.catOk 1 = true → s.stage.bench.sealLow = true → s.stage.bench.calib = none → 5 ≤ e.2.code →
        Done e.1 s (fun t => t.bench = s.stage.bench ∧ Recorded s.stage pBench e.2 stRefused (reason 7) t))) ∧
    (s.stage.mode = mService → s.stage.catOk 1 = true → s.stage.bench.sealLow = true →
      (s.stage.bench.lockout = false → Done (.calChallenge m) s (fun t => t.bench.nonce = some (Config.nonce s.stage.fresh).toNat
        ∧ Recorded s.stage pBench (ic 3 []) stDone 0#32 t)) ∧
      (s.stage.bench.lockout = true → Done (.calChallenge m) s (fun t => t.bench = s.stage.bench ∧ Recorded s.stage pBench (ic 3 []) stRefused (reason 5) t)) ∧
      (s.stage.bench.sealCount = 0xFFFFFF → Done (.calEnter m) s (fun t => t.bench = s.stage.bench ∧ Recorded s.stage pBench (ic 4 []) stRefused (reason 6) t)) ∧
      (s.stage.bench.sealCount ≠ 0xFFFFFF → ∀ tag, tag = (upTo 4).flatMap (fun i => leBytes 4 (s.stage.regN pBench (0x0A8 + 4 * i))) →
        (∀ n, s.stage.bench.nonce = some n → authTag n s.stage.bench.sealCount = tag → Done (.calEnter m) s (fun t =>
          t.bench.calib = some (s.stage.bench.vals, none) ∧ t.bench.sealCount = s.stage.bench.sealCount + 1 ∧ t.bench.nonce = none
          ∧ t.bench.refused = 0 ∧ Recorded s.stage pBench (ic 4 []) stDone (Word.ofNat (s.stage.bench.sealCount + 1)) t)) ∧
        ((∀ n, s.stage.bench.nonce = some n → authTag n s.stage.bench.sealCount ≠ tag) → Done (.calEnter m) s (fun t =>
          t.bench.calib = s.stage.bench.calib ∧ t.bench.nonce = none ∧ t.bench.refused = (s.stage.bench.refused + 1) % 3
          ∧ t.bench.lockout = (s.stage.bench.lockout || s.stage.bench.refused == 2) ∧ Recorded s.stage pBench (ic 4 []) stRefused (reason 4) t))) ∧
      (∀ p, s.stage.bench.calib = some p →
        Done (.calMeasure m a0) s (fun t => t.runningCmd pBench = some (ic 5 [Word.ofNat a0]) ∧ t.bench = s.stage.bench) ∧
        (bits a1 4 3 ≠ 3 → bits a1 2 1 ≠ 3 → 1 ≤ bits a2 11 0 → bits a2 11 0 ≤ 3600 → Done (.calSettings m a0 a1 a2) s (fun t =>
          t.bench.calib = some ({ p.1.setChan (bits a0 1 0) (fun x => { x with src := bits a1 7 5, freq := bits a1 4 3, time := bits a1 2 1 }) with
            intLen := bits a2 11 0 }, p.2)
          ∧ Recorded s.stage pBench (ic 6 [Word.ofNat a0, Word.ofNat a1, Word.ofNat a2]) stDone 0#32 t)) ∧
        (bits a1 4 3 = 3 ∨ bits a1 2 1 = 3 ∨ bits a2 11 0 < 1 ∨ 3600 < bits a2 11 0 → Done (.calSettings m a0 a1 a2) s (fun t => t.bench = s.stage.bench
          ∧ Recorded s.stage pBench (ic 6 [Word.ofNat a0, Word.ofNat a1, Word.ofNat a2]) stRefused 0#32 t)) ∧
        Done (.calSetRtc m a0) s (fun t => t.bench.calib = some (p.1, some (a0 % 2 ^ 32)) ∧ Recorded s.stage pBench (ic 7 [Word.ofNat a0]) stDone 0#32 t) ∧
        (Config.flashOk s.stage.fresh = true → Done (.calCommit m) s (fun t => t.bench.next = some p ∧ t.bench.calib = some (p.1, none)
          ∧ t.bench.log.length = (if 65280 ≤ s.stage.bench.log.length then s.stage.bench.log.length - 256 else s.stage.bench.log.length) + 1
          ∧ Recorded s.stage pBench (ic 8 []) stDone 0#32 t)) ∧
        (Config.flashOk s.stage.fresh = false → Done (.calCommit m) s (fun t => t.bench = s.stage.bench
          ∧ Recorded s.stage pBench (ic 8 []) stFailed (reason 0xA) t)) ∧
        Done (.calExit m) s (fun t => t.bench.calib = none ∧ Recorded s.stage pBench (ic 9 []) stDone 0#32 t))) ∧
    (∀ (level spl cal : Int) (c : Cmd) (x : State) (p : Sealed × Option Nat), x = { s with stage := s.stage.setRunning pBench (some c) } →
      s.stage.mode = mService → s.stage.catOk 1 = true → s.stage.bench.sealLow = true → s.stage.bench.calib = some p →
      spl = 10 * (s.stage.bench.vals.chans.getD (bits c.a0.toNat 1 0) {}).fsSpl → cal = (if bit c.a0.toNat 8 then 114000 else 94000) →
      Done (.calMeasureComplete level false) x (fun t => t.bench = s.stage.bench ∧ t.runningCmd pBench = none
        ∧ Recorded s.stage pBench c stFailed (reason 9) t) ∧
      (3000 < (level + spl - cal).natAbs → Done (.calMeasureComplete level true) x (fun t => t.bench = s.stage.bench ∧ t.runningCmd pBench = none
        ∧ Recorded s.stage pBench c stFailed (reason 8) t)) ∧
      ((level + spl - cal).natAbs ≤ 3000 → Done (.calMeasureComplete level true) x (fun t => t.runningCmd pBench = none
        ∧ t.bench.calib = some (p.1.setChan (bits c.a0.toNat 1 0) (fun y => { y with fsSpl := toBits 16 (roundHalfUp (cal - level) 10) }), p.2)
        ∧ Recorded s.stage pBench c stDone (Word.ofNat (toBits 16 (roundHalfUp (cal - level) 10))) t)))

/-- Writes of BANK_CTRL.SWAP, MBOX_IN, IN_ROUTE, OUT_ROUTE, TONE_CFG, the interpolator registers, the bridge maps, MASK_COMMIT and the decimator registers that pass their tests and find room each take a place for the boundary of R22, with the selection in effect as they were written. At a boundary a waiting write of memory that is due, for a block that has power and is not late, takes effect and its place is free; one that is not due goes on waiting (R20, R22, R23, R24, R100, R101, R224, R228, R235, R338, R366, R369). -/
def Obligations.WritesWait : Prop :=
  (∀ (s : State) (m : Master) (k v x : Nat),
    (Places s m .sp k 0x080 0x10000 x → Done (.bankCtrlSwap m k) s (Placed s m .sp k 0x080 0x10000 x)) ∧
    (Places s m .sp k 0x0A4 v x → Done (.mboxInWrite m k v) s (Placed s m .sp k 0x0A4 v x)) ∧
    (Places s m .patch 0 0x08C v x → Done (.inRouteWrite m v) s (Placed s m .patch 0 0x08C v x)) ∧
    (Places s m .patch 0 0x094 v x → Done (.outRouteWrite m v) s (Placed s m .patch 0 0x094 v x)) ∧
    (Places s m .patch 0 0x09C v x → Done (.toneCfgWrite m v) s (Placed s m .patch 0 0x09C v x)) ∧
    (∀ j, Places s m .patch 0 (0x0A4 + 4 * (j % 3)) v x → Done (.interpWrite m j v) s (Placed s m .patch 0 (0x0A4 + 4 * (j % 3)) v x)) ∧
    (∀ out : Bool, Places s m .bridge k (if out then 0x0A4 else 0x09C) v x →
      Done (.bridgeMapWrite m k out v) s (Placed s m .bridge k (if out then 0x0A4 else 0x09C) v x)) ∧
    (Places s m .port k 0x090 1 x → Done (.maskCommit m k) s (Placed s m .port k 0x090 1 x)) ∧
    (∀ j, Places s m .decim 0 (if j % 4 = 3 then 0x0A0 else 0x084 + 4 * (j % 4)) v x →
      Done (.decConfigWrite m j v) s (Placed s m .decim 0 (if j % 4 = 3 then 0x0A0 else 0x084 + 4 * (j % 4)) v x)) ∧
    (∀ j, Places s m .decim 0 (0x090 + 4 * (j % 4)) v x → Done (.decGcWrite m j v) s (Placed s m .decim 0 (0x090 + 4 * (j % 4)) v x))) ∧
  (∀ (s : Stage) (b a : Nat) (v : Byte) (w : WWrite), s.waiting = [w] → w.kind = .mem [(a, v)] →
    (w.due ≤ b → s.heldBack w.kind = false → s.reaches w.kind = true → s.lost a = false → (s.applyDue b).waiting = [] ∧ (s.applyDue b).rd8 a = v) ∧
    (b < w.due → s.applyDue b = s))

/-- A write of FAST_CFG that passes the tests sets the register; BREAK_NOW raises a debug break of its strip processor; a write of BR_CFG returns the bridge to NO_CLOCK, from LOCKED by way of a fade-out. A write of CTRL sets ENABLE on PORT, BRIDGE and NET pages and leaves it as it is on the others (R7, R8, R105, R230, R246, R559, R562, R563). -/
def Obligations.PlainWrites : Prop :=
  ∀ (s : State) (m : Master),
    (∀ v, Passes s m .patch 0 0x084 v → Done (.fastCfgWrite m v) s (fun t => Written s .patch 0 0x084 v t)) ∧
    (∀ k v, Passes s m .sp k 0x400 (setBit v 1 true) → Done (.breakNow m k v) s (fun t => t.bus.resp = .okay ∧ (t.sp k).brk = true
      ∧ t.flag (pSp k) 0x400 0 = bit v 0)) ∧
    (∀ b v, Passes s m .bridge b 0x080 v →
      (s.stage.brState b ≠ 2 → Done (.brCfgWrite m b v) s (fun t => Written s .bridge b 0x080 v t ∧ t.brState b = 0 ∧ (t.bridge b).window = none)) ∧
      (s.stage.brState b = 2 → (s.stage.bridge b).leaving = false → Done (.brCfgWrite m b v) s (fun t => Written s .bridge b 0x080 v t
        ∧ t.brState b = 2 ∧ (t.bridge b).fade = some { down := true, j := 0, n := t.brN b } ∧ (t.bridge b).after = 0)) ∧
      (s.stage.brState b = 2 → (s.stage.bridge b).leaving = true → Done (.brCfgWrite m b v) s (fun t => Written s .bridge b 0x080 v t
        ∧ (t.bridge b).after = 0 ∧ (t.bridge b).fade = (s.stage.bridge b).fade))) ∧
    (∀ (p : Nat) (k : PageKind) (i : Nat) (en : Bool), s.stage.dieUp = true → pageOf p = some (k, i) → s.stage.powered p = true →
      Done (.ctrlEnableWrite m p en) s (fun t => t.bus.resp = .okay
        ∧ t.flag p 0x00C 0 = if enableRW k then en else s.stage.flag p 0x00C 0)) ∧
    (∀ (p : Nat) (en : Bool), s.stage.dieUp = true → s.stage.powered p = false → Done (.ctrlEnableWrite m p en) s (fun t => t.bus.resp = .fault ∧ Keeps [] [.bus] s.stage t))

/-- A gap of edges returns a bridge to NO_CLOCK, from LOCKED by way of a fade-out with UNLOCK_COUNT and its event; edges present take an enabled bridge of a foreign group from NO_CLOCK to ACQUIRE. A window in ACQUIRE locks with a rate that agrees with the one before within 10 ppm, remembers it else, and out of range enters RANGE; in LOCKED a rate off by more than 1000 ppm fades out to ACQUIRE; in RANGE one in range returns to ACQUIRE. The 1 ms update of a locked bridge writes RATIO; a fade that has reached its end leaves for the state that follows it (R235, R236, R237, R240, R246). -/
def Obligations.Bridges : Prop :=
  (∀ (s : State) (b : Nat), Live s .bridge b →
    (s.stage.brState b ≠ 2 → Done (.bridgeEdgeGap b) s (fun t => t.brState b = 0 ∧ t.regN (pBridge b) 0x088 = 0 ∧ (t.bridge b).window = none)) ∧
    (s.stage.brState b = 2 → (s.stage.bridge b).leaving = false → Done (.bridgeEdgeGap b) s (fun t => t.brState b = 2
      ∧ (t.bridge b).fade = some { down := true, j := 0, n := s.stage.brN b } ∧ (t.bridge b).after = 0 ∧ Raises (pBridge b) 1 t
      ∧ t.regN (pBridge b) 0x0A8 = min 0xFFFFFFFF (s.stage.regN (pBridge b) 0x0A8 + 1))) ∧
    (s.stage.brState b = 2 → (s.stage.bridge b).leaving = true → Done (.bridgeEdgeGap b) s (fun t => t.bridge b = { s.stage.bridge b with after := 0 })) ∧
    ((s.stage.brOn b && s.stage.brForeign b) = true → s.stage.brState b = 0 → Done (.bridgeEdgesPresent b) s (fun t => t.brState b = 1)) ∧
    (((s.stage.brOn b && s.stage.brForeign b) = false ∨ s.stage.brState b ≠ 0) → Done (.bridgeEdgesPresent b) s (fun t => Keeps [] [] s.stage t)) ∧
    (∀ r, 
      (s.stage.brState b = 0 → Done (.bridgeWindow b r) s (fun t => Keeps [] [] s.stage t)) ∧
      (s.stage.brState b = 1 → brInRange r = false → Done (.bridgeWindow b r) s (fun t => t.brState b = 3 ∧ Raises (pBridge b) 3 t)) ∧
      (s.stage.brState b = 1 → brInRange r = true → (s.stage.bridge b).window = none →
        Done (.bridgeWindow b r) s (fun t => t.brState b = 1 ∧ (t.bridge b).window = some r)) ∧
      (∀ w, s.stage.brState b = 1 → brInRange r = true → (s.stage.bridge b).window = some w →
        (((r : Int) - w).natAbs * 1000000 ≤ 10 * w → Done (.bridgeWindow b r) s (fun t => t.brState b = 2 ∧ (t.bridge b).ratio = r
          ∧ (t.bridge b).fade = some { down := false, j := 0, n := s.stage.brN b } ∧ Raises (pBridge b) 0 t)) ∧
        (10 * w < ((r : Int) - w).natAbs * 1000000 → Done (.bridgeWindow b r) s (fun t => t.brState b = 1 ∧ (t.bridge b).window = some r))) ∧
      (s.stage.brState b = 2 → (s.stage.bridge b).leaving = false → 1000 * (s.stage.bridge b).ratio < ((r : Int) - (s.stage.bridge b).ratio).natAbs * 1000000 →
        Done (.bridgeWindow b r) s (fun t => (t.bridge b).after = 1 ∧ (t.bridge b).fade = some { down := true, j := 0, n := s.stage.brN b } ∧ Raises (pBridge b) 2 t)) ∧
      (s.stage.brState b = 2 → (s.stage.bridge b).leaving = false → ((r : Int) - (s.stage.bridge b).ratio).natAbs * 1000000 ≤ 1000 * (s.stage.bridge b).ratio →
        Done (.bridgeWindow b r) s (fun t => t.brState b = 2 ∧ t.bridge b = s.stage.bridge b ∧ t.regN (pBridge b) 0x08C = (2 * r + 1000) / 2000 % 2 ^ 18)) ∧
      (s.stage.brState b = 3 → Done (.bridgeWindow b r) s (fun t => t.brState b = if brInRange r then 1 else 3)) ∧
      (∀ i o : Int, s.stage.brState b = 2 → (s.stage.bridge b).leaving = false → r ≠ 0 → Done (.bridgeRatioUpdate b r i o) s (fun t =>
        t.regN (pBridge b) 0x088 = (2 * r * 2 ^ 28 + s.stage.fs * 1000) / (2 * s.stage.fs * 1000) % 2 ^ 32 ∧ (t.bridge b).ratio = r)) ∧
      (∀ i o : Int, (s.stage.brState b ≠ 2 ∨ (s.stage.bridge b).leaving = true ∨ r = 0) → Done (.bridgeRatioUpdate b r i o) s (fun t => Keeps [] [] s.stage t))) ∧
    (∀ h, (s.stage.bridge b).fade = some h → h.n ≤ h.j →
      (h.down = true → Done (.bridgeFadeEnd b) s (fun t => (t.bridge b).fade = none ∧ t.brState b = (s.stage.bridge b).after % 4)) ∧
      (h.down = false → Done (.bridgeFadeEnd b) s (fun t => t.bridge b = { s.stage.bridge b with fade := none } ∧ t.brState b = s.stage.brState b))) ∧
    ((∀ h, (s.stage.bridge b).fade = some h → h.j < h.n) → Done (.bridgeFadeEnd b) s (fun t => Keeps [] [] s.stage t))) ∧
  (∀ b r i o, Frame [.bridgeEdgeGap b, .bridgeEdgesPresent b, .bridgeWindow b r, .bridgeRatioUpdate b r i o, .bridgeFadeEnd b] [pBridge b] [.bridges])

/-- LOAD_GRAPH of an image that passes every check stages it under the command's handle and raises STAGED; one that fails a check leaves nothing staged; a source that is no multiple of 32 is refused. GRAPH_COMMIT of the staged handle in a mode that commits begins a commit with the boundary that its tag names, or m + D without a tag or with one that has passed, which is counted; the swap follows after the dip, the restart after the gap and the end after the second dip; a tag beyond 65,535 samples is refused, and so is a commit of another handle. DISCARD releases the staged image of its handle. When the copies of a swapped commit are made the commit has copied; when one cannot be read the graph is BROKEN. The clause on GRAPH_COMMIT is for images without a REG_IMAGE (R185, R186, R187, R188, R191, R196, R201, R202, R203, R213). -/
def Obligations.GraphCommands : Prop :=
  (∀ (s : State) (m : Master) (a0 a1 : Nat) (c : Cmd) (x : Stage), Ready s pGraph → c = s.stage.issuedCmd m pGraph 1 [Word.ofNat a0, Word.ofNat a1] →
    x = s.stage.issued m pGraph 1 [Word.ofNat a0, Word.ofNat a1] →
    (a0 % 32 ≠ 0 → RingFree s.stage → Done (.loadGraph m a0 a1) s (fun t => t.graph = s.stage.graph ∧ Recorded s.stage pGraph c stRefused 0#32 t)) ∧
    (∀ a y z, a0 % 32 = 0 → x.unstage.loaderFind (a0 % 2 ^ 32 + a1 % 16 * 2 ^ 32) = (some a, y) → z = y.wakeFor a → z.ecc = [] →
      (z.imageFail a = none → Done (.loadGraph m a0 a1) s (fun t => t.graph.staged = some
        { handle := handleOf pGraph c.seq, addr := a, size := z.imgW a 8, id := z.rdN (a + 0x18) 8, crc := z.imgW a 0x28, gap := z.gapOf a,
          live := z.liveEdit a } ∧ Raises pGraph 0 t)) ∧
      ((z.imageFail a).isSome = true → Done (.loadGraph m a0 a1) s (fun t => t.graph.staged = none ∧ t.graph.stagedBats = [] ∧ t.graph.stagedSps = [])))) ∧
  (∀ (s : State) (m : Master) (a0 a1 a2 tag : Nat) (g : Staged) (c : Cmd), Ready s pGraph →
    c = s.stage.issuedCmd m pGraph 2 [Word.ofNat a0, Word.ofNat a1, Word.ofNat a2] → tag = a1 % 2 ^ 32 + 2 ^ 32 * (a2 % 2 ^ 32) →
    s.stage.graph.staged = some g → commitMode s.stage.mode = true →
    (g.handle = a0 % 2 ^ 32 → tag ≤ s.stage.datum.index + 65535 → (∀ x ∈ s.stage.sects g.addr, x.typ ≠ tRegImage) →
      Done (.graphCommit m a0 a1 a2) s (fun t => ∃ k, t.graph.commit = some k ∧ k.c = max tag s.stage.dueNow ∧ k.cmd = some c ∧ k.img = g
        ∧ t.runningCmd pGraph = some c ∧ k.s = k.c + k.n ∧ k.r = k.s + g.gap ∧ k.r ≤ k.u ∧ k.done = k.u + k.n ∧ (s.stage.mode = mDark → k.s = k.c)
        ∧ (0 < tag → tag < s.stage.dueNow → t.regN 0 0x0B0 = min 0xFFFFFFFF (s.stage.regN 0 0x0B0 + 1) ∧ Raises 0 4 t))) ∧
    ((g.handle ≠ a0 % 2 ^ 32 ∨ s.stage.datum.index + 65535 < tag) → RingFree s.stage →
      Done (.graphCommit m a0 a1 a2) s (fun t => t.graph = s.stage.graph ∧ Recorded s.stage pGraph c stRefused 0#32 t))) ∧
  (∀ (s : State) (m : Master) (a0 : Nat) (c : Cmd), Ready s pGraph → c = s.stage.issuedCmd m pGraph 3 [Word.ofNat a0] →
    (∀ g, s.stage.graph.staged = some g → g.handle = a0 % 2 ^ 32 → Done (.discard m a0) s (fun t => t.graph.staged = none ∧ t.graph.stagedBats = []
      ∧ t.graph.stagedSps = [] ∧ t.graph.store = [])) ∧
    ((∀ g, s.stage.graph.staged = some g → g.handle ≠ a0 % 2 ^ 32) → RingFree s.stage →
      Done (.discard m a0) s (fun t => t.graph = s.stage.graph ∧ Recorded s.stage pGraph c stRefused 0#32 t))) ∧
  (∀ s : State, s.stage.dieUp = true →
    (s.stage.graph.commit = none → Done .commitCopyDone s (fun t => Keeps [] [] s.stage t)) ∧
    (∀ k, s.stage.graph.commit = some k →
      (k.swapped = false ∨ k.copied = true → Done .commitCopyDone s (fun t => Keeps [] [] s.stage t)) ∧
      (k.swapped = true → k.copied = false → ∀ l, l = (s.stage.sects k.img.addr).filter (Sys2Proof.Machine.copied k.replaced) →
        (l = [] → k.dark = false → Done .commitCopyDone s (fun t => t.graph.commit = some { k with copied := true })) ∧
        ((∃ x ∈ l, s.stage.imgHeld (k.img.addr + x.off) x.len = false) →
          Done .commitCopyDone s (fun t => t.graph.commit = none ∧ t.graph.broken = true ∧ Raises pGraph 4 t)))))

/-- The first lock of the PLL starts the raw counter at zero and later ones leave it; a fault of REFCLK_IN is raised and its end relocks. A hold timeout switches to the other source when that one delivers, and else takes ACQUIRE and LOCKED to HOLDOVER with RATE at I. The end of a slew plan returns RATE to I without moving the datum. A step in a mode that makes steps moves OFFSET, takes the index afresh and lets waiting writes fall due at the next boundary; STEP is refused in the other modes. A PPS edge of the chosen polarity that does not come early is published and makes PPS_OK; a gate of CLK10M_IN publishes its error and moves I in FREE and HOLDOVER; their losses are raised. A write of DATUM_CTRL returns the servo to FREE with I unchanged, and an offset written by firmware for source 4 takes FREE to ACQUIRE (R250, R251, R254, R257, R258, R259, R260, R261, R262, R263, R274, R275). -/
def Obligations.DatumEvents : Prop :=
  (∀ s : State, s.stage.dieUp = true →
    (s.stage.datum.everLocked = false → Done .pllLock s (fun t => t.datum = { s.stage.datum with pll := true, everLocked := true, raw := 0, started := true })) ∧
    (s.stage.datum.everLocked = true → Done .pllLock s (fun t => t.datum = { s.stage.datum with pll := true })) ∧
    Done .refFault s (fun t => t.datum = { s.stage.datum with pll := false } ∧ Raises pDatum 9 t) ∧
    Done .refRecover s (fun t => t.datum = { s.stage.datum with pll := s.stage.datum.pll || s.stage.datum.everLocked }) ∧
    (∀ r, s.stage.srcAlt = 0 →
      (s.stage.datum.servo = .acquire ∨ s.stage.datum.servo = .locked ∨ (s.stage.datum.servo = .slew ∧ s.stage.datum.planEnd = none) →
        Done (.holdTimeoutExpiry r) s (fun t => t.datum.servo = .holdover ∧ t.datum.rate = s.stage.datum.integ ∧ t.datum.integ = s.stage.datum.integ
          ∧ t.now = (s.stage.tick r).now ∧ Raises pDatum 7 t ∧ t.regN pDatum 0x10C = min 0xFFFFFFFF (s.stage.regN pDatum 0x10C + 1))) ∧
      (s.stage.datum.servo = .free ∨ s.stage.datum.servo = .holdover → Done (.holdTimeoutExpiry r) s (fun t => t.datum = (s.stage.tick r).datum)) ∧
      (∀ e, s.stage.datum.servo = .slew → s.stage.datum.planEnd = some e →
        Done (.holdTimeoutExpiry r) s (fun t => t.datum = { (s.stage.tick r).datum with holdPending := true }))) ∧
    (∀ r last start, s.stage.datum.srcNow = s.stage.src → s.stage.srcAlt ≠ 0 → s.stage.srcAlt ≠ s.stage.src →
      Tab.find s.stage.datum.lastOff s.stage.srcAlt = some (last, start) → max s.stage.datum.raw r - last ≤ s.stage.holdTimeout →
      Done (.holdTimeoutExpiry r) s (fun t => t.datum = { (s.stage.tick r).datum with srcNow := s.stage.srcAlt, switched := true } ∧ Raises pDatum 8 t)) ∧
    (∀ e, s.stage.datum.planEnd = some e → Done .slewPlanEnd s (fun t => t.datum.raw = max s.stage.datum.raw e ∧ t.datum.rate = s.stage.datum.integ
      ∧ t.now = (s.stage.tick e).now ∧ t.datum.planEnd = none ∧ Raises pDatum 0 t
      ∧ t.datum.servo = if s.stage.datum.holdPending then .holdover else s.stage.datum.servo)) ∧
    (s.stage.datum.planEnd = none → Done .slewPlanEnd s (fun t => Keeps [] [] s.stage t)) ∧
    (s.stage.datum.stepReady = [] → Done .stepApply s (fun t => Keeps [] [] s.stage t)) ∧
    (∀ a : Int, a ≠ 0 → stepMode s.stage.mode = true → s.stage.datum.stepReady = [{ amount := a, cmd := none }] →
      Done .stepApply s (fun t => t.datum.offset = s.stage.datum.offset + a * 2 ^ 48 ∧ t.datum.index = indexAt t.now t.fs ∧ t.datum.stepReady = []
        ∧ (∀ w ∈ t.waiting, w.due = t.datum.index + 1) ∧ Raises pDatum 3 t ∧ t.regN pDatum 0x104 = min 0xFFFFFFFF (s.stage.regN pDatum 0x104 + 1))) ∧
    (∀ r f, (f ≠ s.stage.flag pDatum 0x0F0 0 ∨ ∃ l, s.stage.datum.ppsLast = some l ∧ (max s.stage.datum.raw r : Nat) - l < 58982400000000) →
      Done (.ppsEdge r f) s (fun t => t.datum = (s.stage.tick r).datum)) ∧
    (∀ r f, f = s.stage.flag pDatum 0x0F0 0 → s.stage.datum.ppsLast = none → Done (.ppsEdge r f) s (fun t => t.datum.ppsOk = true
      ∧ t.datum.ppsLast = some (max s.stage.datum.raw r : Nat) ∧ t.datum.raw = max s.stage.datum.raw r)) ∧
    (s.stage.datum.ppsOk = true → Done .ppsLost s (fun t => t.datum = { s.stage.datum with ppsOk := false } ∧ Raises pDatum 10 t)) ∧
    (s.stage.datum.ppsOk = false → Done .ppsLost s (fun t => Keeps [] [] s.stage t)) ∧
    (∀ r (err : Int), s.stage.flag pDatum 0x080 16 = true → (s.stage.datum.servo = .free ∨ s.stage.datum.servo = .holdover) →
      Done (.clk10mGate r err) s (fun t => t.datum.clk10mOk = true ∧ t.now = (s.stage.tick r).now ∧ t.datum.rate = t.datum.integ
        ∧ t.datum.integ = max (-ppmLimit) (min ppmLimit (Int.tdiv (s.stage.datum.integ * 2 ^ s.stage.fld pDatum 0x0B4 12 8 - err) (2 ^ s.stage.fld pDatum 0x0B4 12 8)))
        ∧ t.regN pDatum 0x100 = toBits 32 (max (-2147483647) (min 2147483647 err)))) ∧
    (∀ r err, s.stage.flag pDatum 0x080 16 = false → Done (.clk10mGate r err) s (fun t => t.datum = (s.stage.tick r).datum)) ∧
    (s.stage.flag pDatum 0x080 16 = true → Done .clk10mLost s (fun t => t.datum = { s.stage.datum with clk10mOk := false } ∧ Raises pDatum 11 t)) ∧
    (s.stage.flag pDatum 0x080 16 = false → Done .clk10mLost s (fun t => Keeps [] [] s.stage t)) ∧
    (s.stage.flag pDatum 0x0F0 31 = true → (s.stage.datum.servo = .locked ∨ s.stage.flag pDatum 0x0F0 30 = true) →
      Done .ppsOutPulse s (fun t => Out.ppsOut (s.stage.fld pDatum 0x0F0 23 16) ∈ t.outs))) ∧
  (∀ (s : State) (m : Master),
    (Ready s pDatum → ∀ c, c = s.stage.issuedCmd m pDatum 1 [] →
      (stepMode s.stage.mode = true → Done (.step m) s (fun t => t.datum = { s.stage.datum with stepReq := s.stage.datum.stepReq
        ++ [{ amount := sext 64 (s.stage.reg64 pDatum 0x0E4) * unitsPerSec + sext 32 (s.stage.regN pDatum 0x0EC) * unit, cmd := some c }] })) ∧
      (stepMode s.stage.mode = false → RingFree s.stage → Done (.step m) s (fun t => t.datum = s.stage.datum ∧ Recorded s.stage pDatum c stRefused 0#32 t))) ∧
    (∀ v, Passes s m .datum 0 0x080 v → Done (.datumCtrlWrite m v) s (fun t => Written s .datum 0 0x080 v t ∧ t.datum.servo = .free
      ∧ t.datum.integ = s.stage.datum.integ ∧ t.datum.rate = s.stage.datum.integ ∧ t.datum.srcNow = t.src ∧ t.datum.planEnd = none ∧ t.now = s.stage.now)) ∧
    (∀ v (th : Int), Passes s m .datum 0 0x0E0 v → s.stage.datum.srcNow = 4 → s.stage.datum.servo = .free → s.stage.datum.asym = false →
      s.stage.datum.switched = false → th = sext 64 (s.stage.regN pDatum 0x0DC + regWord .datum 0 0x0E0 v * 2 ^ 32) → (th.natAbs : Int) ≤ s.stage.stepThr →
      Done (.servoOffsetInHiWrite m v) s (fun t => t.bus.resp = .okay ∧ t.datum.servo = .acquire ∧ t.reg64 pDatum 0x0D4 = toBits 64 th
        ∧ t.datum.inBand = if (th.natAbs : Int) ≤ s.stage.lockThr then 1 else 0))) ∧
  (∀ r f err, Frame [.pllLock, .refRecover, .holdTimeoutExpiry r, .slewPlanEnd, .ppsEdge r f, .ppsLost, .clk10mGate r err, .clk10mLost, .ppsOutPulse]
    [pDatum] [.datum]) ∧ Frame [.refFault] [0x2A0] [.datum, .red]

/-- A port with a link that is enabled takes messages of its domain and profile and counts the others as discarded. In SLAVE a one-step Sync gives an offset from its own origin and a two-step one waits for the Follow_Up of its sequence number; a Delay_Resp and the answers to a Pdelay_Req of its sequence number complete a measurement of the mean path delay, the first of which is taken as it is. In MASTER a Delay_Req is answered with its receive stamp and a Sync leaves with the next sequence number, with a Follow_Up after it when two-step; a Pdelay_Req is answered in every state (R264, R265, R266, R267, R268, R270). -/
def Obligations.PtpMessages : Prop :=
  ∀ (s : State) (n p : Nat) (m : PtpMsg), p = pNet n →
    (LiveNet s n → s.stage.tpEn p = true → s.stage.ptpMatch p m = false → ∀ r r',
      ∀ c ∈ [Instr.syncRx n r m, .followUpRx n m, .delayReqRx n r m, .delayRespRx n m, .pdelayReqRx n r r' m, .pdelayRespRx n r m, .pdelayRespFollowUpRx n m],
        Done c s (fun t => t.fld p 0x31C 15 0 = min 0xFFFF (s.stage.fld p 0x31C 15 0 + 1) ∧ t.tp p = s.stage.tp p ∧ t.datum = s.stage.datum)) ∧
    (TakesPtp s n m → ∀ r,
      (s.stage.tpState p = tpSlave →
        (m.twoStep = true → Done (.syncRx n r m) s (fun t => (t.tp p).sync = some (m.seq, s.stage.rxStamp p r, m.corr))) ∧
        (m.twoStep = false → Done (.syncRx n r m) s (fun t => (t.tp p).last = some (s.stage.origin m, s.stage.rxStamp p r, m.corr)
          ∧ (t.tp p).sync = none ∧ t.regN p 0x314 = toBits 32 (max (-2147483647) (min 2147483647 (Int.fdiv (s.stage.rxStamp p r - s.stage.origin m - m.corr
              - (s.stage.tp p).dbar.getD 0 - s.stage.asymmetry p) 256))))) ∧
        (∀ t2 c, (s.stage.tp p).sync = some (m.seq, t2, c) → Done (.followUpRx n m) s (fun t => (t.tp p).last = some (s.stage.origin m, t2, c + m.corr)
          ∧ (t.tp p).sync = none ∧ t.regN p 0x314 = toBits 32 (max (-2147483647) (min 2147483647 (Int.fdiv (t2 - s.stage.origin m - (c + m.corr)
              - (s.stage.tp p).dbar.getD 0 - s.stage.asymmetry p) 256))))) ∧
        ((∀ q t2 c, (s.stage.tp p).sync = some (q, t2, c) → q ≠ m.seq) → Done (.followUpRx n m) s (fun t => Keeps [] [] s.stage t)) ∧
        (∀ t3 t1 t2 c, (s.stage.tp p).req = some (m.seq, t3) → (s.stage.tp p).last = some (t1, t2, c) → s.stage.tpProfile p = 0 →
          (s.stage.tp p).dbar = none → Done (.delayRespRx n m) s (fun t => (t.tp p).req = none
            ∧ (t.tp p).dbar = some (Int.fdiv ((t2 - t1 - c) + (s.stage.origin m - t3 - m.corr)) 2))) ∧
        (∀ t1, (s.stage.tp p).req = some (m.seq, t1) → m.twoStep = false → (s.stage.tp p).dbar = none →
          Done (.pdelayRespRx n r m) s (fun t => (t.tp p).req = none ∧ (t.tp p).dbar = some (Int.fdiv (s.stage.rxStamp p r - t1 - m.corr) 2))) ∧
        (∀ t1 t2 t4 c, (s.stage.tp p).req = some (m.seq, t1) → (s.stage.tp p).presp = some (m.seq, t2, t4, c) → (s.stage.tp p).dbar = none →
          Done (.pdelayRespFollowUpRx n m) s (fun t => (t.tp p).req = none ∧ (t.tp p).presp = none
            ∧ (t.tp p).dbar = some (Int.fdiv ((t4 - t1) - (s.stage.origin m - t2) - c - m.corr) 2)))) ∧
      (s.stage.tpState p ≠ tpSlave → Done (.syncRx n r m) s (fun t => Keeps [] [] s.stage t) ∧ Done (.followUpRx n m) s (fun t => Keeps [] [] s.stage t)) ∧
      (∀ t1, (s.stage.tp p).req = some (m.seq, t1) → m.twoStep = true →
        Done (.pdelayRespRx n r m) s (fun t => (t.tp p).presp = some (m.seq, s.stage.origin m, s.stage.rxStamp p r, m.corr))) ∧
      (s.stage.tpState p = tpMaster → s.stage.tpProfile p = 0 → Done (.delayReqRx n r m) s (fun t => ∃ x, Out.ptp p .delayResp x ∈ t.outs ∧ x.seq = m.seq
        ∧ x.sec = (s.stage.rxStamp p r).toNat / unitsPerSec % 2 ^ 48 ∧ x.ns = (s.stage.rxStamp p r).toNat / unit % 1000000000
        ∧ x.corr = m.corr - ((s.stage.rxStamp p r).toNat % unit : Nat))) ∧
      (∀ r', s.stage.tpOneStep p = true → Done (.pdelayReqRx n r r' m) s (fun t => Out.ptp p .pdelayResp
        { m with corr := m.corr + (s.stage.txStamp p r' - s.stage.rxStamp p r), sec := 0, ns := 0, twoStep := false } ∈ t.outs)) ∧
      (∀ r', s.stage.tpOneStep p = false → Done (.pdelayReqRx n r r' m) s (fun t => ∃ x y, Out.ptp p .pdelayResp x ∈ t.outs ∧ Out.ptp p .pdelayRespFollowUp y ∈ t.outs
        ∧ x.seq = m.seq ∧ x.twoStep = true ∧ y.seq = m.seq))) ∧
    (LiveNet s n → s.stage.tpEn p = true → ∀ r,
      (s.stage.tpState p = tpMaster → Done (.ptpSyncSend n r) s (fun t => (t.tp p).seqSync = ((s.stage.tp p).seqSync + 1) % 65536
        ∧ (∃ x, Out.ptp p .sync x ∈ t.outs ∧ x.seq = (t.tp p).seqSync ∧ x.twoStep = !s.stage.tpOneStep p)
        ∧ (s.stage.tpOneStep p = false → ∃ x, Out.ptp p .followUp x ∈ t.outs ∧ x.seq = (t.tp p).seqSync))) ∧
      (s.stage.tpState p ≠ tpMaster → Done (.ptpSyncSend n r) s (fun t => Keeps [] [] s.stage t)) ∧
      (s.stage.tpState p = tpSlave → Done (.ptpDelayReqSend n r) s (fun t => (t.tp p).req = some (((s.stage.tp p).seqReq + 1) % 65536, s.stage.txStamp p r)
        ∧ (t.tp p).presp = none ∧ ∃ x, Out.ptp p (if s.stage.tpProfile p = 0 then .delayReq else .pdelayReq) x ∈ t.outs ∧ x.seq = (t.tp p).seqReq))) ∧
    (∀ r r', n < 8 → Frame [.syncRx n r m, .followUpRx n m, .delayReqRx n r m, .delayRespRx n m, .pdelayReqRx n r r' m, .pdelayRespRx n r m,
      .pdelayRespFollowUpRx n m, .ptpSyncSend n r, .ptpDelayReqSend n r] [p, pDatum] [.tports, .datum])

/-- A write of TP_CTRL sets the register; a state other than SLAVE clears the guards, and entering SLAVE starts a new filter. A write of ASYMMETRY or TP_LAT_ADJ sets the register and marks the servo's source. A time frame leaves an enabled link with its departure and the last frame's two instants, and one received is remembered for the next (R269, R270, R272, R273, R287, R288, R418). -/
def Obligations.TimePorts : Prop :=
  (∀ (s : State) (m : Master) (k : PageKind) (i v : Nat), k = .net ∨ k = .link →
    (Passes s m k i 0x300 v → Done (.tpCtrlWrite m (k.page i) v) s (fun t => Written s k i 0x300 v t
      ∧ (t.tpState (k.page i) ≠ tpSlave → t.tp (k.page i) = { s.stage.tp (k.page i) with held := [], jumps := 0 })
      ∧ (t.tpState (k.page i) = tpSlave → s.stage.tpState (k.page i) ≠ tpSlave → (t.tp (k.page i)).dbar = none ∧ (t.tp (k.page i)).held = [])
      ∧ (t.tpState (k.page i) = tpSlave → s.stage.tpState (k.page i) = tpSlave → t.tp (k.page i) = s.stage.tp (k.page i)))) ∧
    (∀ adj : Bool, Passes s m k i (if adj then 0x30C else 0x308) v → Done (.asymmetryWrite m (k.page i) adj v) s (fun t =>
      Written s k i (if adj then 0x30C else 0x308) v t ∧ t.datum = { s.stage.datum with asym := s.stage.datum.asym || s.stage.tpInUse (k.page i) }))) ∧
  (∀ (s : State) (n r : Nat), Live s .link n → s.stage.tpEn (pLink n) = true →
    Done (.timeFrameSend n r) s (fun t => Out.timeFrame (pLink n) (s.stage.txStamp (pLink n) r) (((s.stage.tp (pLink n)).peer.getD (0, 0)).1)
      (((s.stage.tp (pLink n)).peer.getD (0, 0)).2) ∈ t.outs ∧ (t.tp (pLink n)).req = some (0, s.stage.txStamp (pLink n) r)) ∧
    (∀ dep od oa : Int, Done (.timeFrameRx n r dep od oa) s (fun t => (t.tp (pLink n)).peer = some (dep, s.stage.rxStamp (pLink n) r)
      ∧ (s.stage.tpState (pLink n) ≠ tpSlave → t.datum = s.stage.datum)
      ∧ (s.stage.tpState (pLink n) = tpSlave → od ≠ 0 → (s.stage.tp (pLink n)).dbar = none →
          (t.tp (pLink n)).dbar = some (Int.fdiv ((s.stage.rxStamp (pLink n) r - dep) + (oa - od)) 2))))) ∧
  (∀ n r dep od oa, n < 4 → Frame [.timeFrameSend n r, .timeFrameRx n r dep od oa] [pLink n, pDatum] [.tports, .datum])

/-- A write of CG_CFG or CG_RATE starts its group afresh; a write of MCLK_CFG and of PDM_CLK_CFG lets the clock run as its EN asks, within its limit; a write of PORT_CFG turns off a direction that is not to run. A leading edge in the window of the next frame is that frame's; on a port that does not run it changes nothing. When the window of the next frame ends without an edge the port has lost its alignment. A slave group without an edge for four frame periods loses CLK_OK. A direction whose ramp-in has come to its end runs, and one whose fade has acquires anew. A read of BLK_FRAC latches the block set. SYNC joins the waiting changes, or waits for its datum, is EXPIRED when that has passed, and is refused beyond sixteen; when the datum comes it waits no more (R328, R330, R332, R333, R340, R343, R345, R346, R362, R368, R373). -/
def Obligations.PortsAndDecimators : Prop :=
  (∀ (s : State) (m : Master) (p v : Nat),
    (∀ rate : Bool, Passes s m .port p (if rate then 0x0C4 else 0x0C0) v → Done (.cgCfgWrite m p rate v) s (fun t =>
      Written s .port p (if rate then 0x0C4 else 0x0C0) v t ∧ t.cg p = {})) ∧
    (Passes s m .port p 0x0CC v → Done (.mclkCfgWrite m p v) s (fun t => t.bus.resp = .okay ∧ t.flag (pPort p) 0x0CC 31 = bit v 31
      ∧ (t.flag (pPort p) 0x0CC 30 = true ↔ bit v 31 = true ∧ ∃ f, t.mclkFreq p = some f ∧ f ≤ 49152000)
      ∧ (bit v 31 = true → t.flag (pPort p) 0x0CC 30 = false → Raises (pPort p) 9 t))) ∧
    (Passes s m .port p 0x080 v → Done (.portCfgWrite m p v) s (fun t => Written s .port p 0x080 v t
      ∧ ∀ tx : Bool, t.dirWanted p tx = false → t.dir p tx = {})) ∧
    (∀ k, k < 4 → Passes s m .decim 0 (0x0B0 + 4 * k) v → Done (.pdmClkCfgWrite m k v) s (fun t => t.bus.resp = .okay
      ∧ t.flag pDecim (0x0B0 + 4 * k) 31 = bit v 31 ∧ t.pdmRun k = bit v 31)) ∧
    (Live s .port p → Done (.blkFracRead m p) s (fun t => t.bus.resp = .okay ∧ (t.port p).blkLatch = (s.stage.port p).blkAt
      ∧ Keeps [] [.bus, .ports] s.stage t))) ∧
  (∀ (s : State) (p r bclks : Nat) (slots : List Nat), Live s .port p →
    (∀ done e, s.stage.portDomain p ≠ 2 → s.stage.portOn p = true → (s.stage.port p).barred = false → (s.stage.port p).edge = some e →
      ((cgMaster (s.stage.cgCfg (s.stage.portGroup p)) = true ∧ s.stage.cgDrives (s.stage.portGroup p) = true)
        ∨ (cgMaster (s.stage.cgCfg (s.stage.portGroup p)) = false ∧ (s.stage.port p).learning = false)) →
      (∀ f w o, s.stage.frameNear p (s.stage.psi p) ((s.stage.tick r).datum.at r) = (f, w, o) →
        (f = e + 1 → w = true → Done (.fsyncEdge p r bclks slots done) s (fun t => (t.port p).edge = some (e + 1)
          ∧ (t.cg (s.stage.portGroup p)).last = some ((s.stage.tick r).datum.at r).toNat)) ∧
        ((w = false ∨ f ≤ e) → Done (.fsyncEdge p r bclks slots done) s (fun t => (t.port p).edge = none)))) ∧
    (s.stage.portDomain p ≠ 2 → (s.stage.portOn p = false ∨ (s.stage.port p).barred = true) →
      Done (.fsyncEdge p r bclks slots none) s (fun t => t.datum = (s.stage.tick r).datum ∧ t.ports = s.stage.ports ∧ Keeps [] [.datum, .ports] s.stage t)) ∧
    ((s.stage.port p).edge = none → Done (.frameWindowEnd p r bclks slots) s (fun t => t.datum = (s.stage.tick r).datum ∧ Keeps [] [.datum] s.stage t)) ∧
    (∀ e, (s.stage.port p).edge = some e →
      (256 * (s.stage.portM p : Int) * (s.stage.tick r).datum.at r * s.stage.fs - s.stage.psi p * s.stage.portM p * unitsPerSec
          - 256 * (e + 1) * unitsPerSec ≤ 96 * unitsPerSec →
        Done (.frameWindowEnd p r bclks slots) s (fun t => t.ports = s.stage.ports)) ∧
      (96 * unitsPerSec < 256 * (s.stage.portM p : Int) * (s.stage.tick r).datum.at r * s.stage.fs - s.stage.psi p * s.stage.portM p * unitsPerSec
          - 256 * (e + 1) * unitsPerSec →
        Done (.frameWindowEnd p r bclks slots) s (fun t => (t.port p).edge = none))) ∧
    (∀ d, cgMaster (s.stage.cgCfg p) = false → (s.stage.cg p).last = some d →
      d * s.stage.cgFrameRate (s.stage.cgCfg p) (s.stage.fld (pPort p) 0x0C4 17 0) + 4 * unitsPerSec
        ≤ (s.stage.tick r).now * s.stage.cgFrameRate (s.stage.cgCfg p) (s.stage.fld (pPort p) 0x0C4 17 0) →
      Done (.clkLost p r) s (fun t => (t.cg p).last = none ∧ Raises (pPort p) 7 t ∧ ∀ q, q < 32 → s.stage.portGroup q = p → (t.port q).edge = none)) ∧
    ((cgMaster (s.stage.cgCfg p) = true ∨ (s.stage.cg p).last = none) →
      Done (.clkLost p r) s (fun t => t.datum = (s.stage.tick r).datum ∧ Keeps [] [.datum] s.stage t)) ∧
    (∀ (tx : Bool) f0 n, (s.stage.dir p tx).st = 2 → (s.stage.dir p tx).live = some (f0, n) →
      ((s.stage.tick r).dirReached p tx (f0 + n) r = true → Done (.portRampEnd p tx r) s (fun t => t.dir p tx = { s.stage.dir p tx with st := 3 })) ∧
      ((s.stage.tick r).dirReached p tx (f0 + n) r = false → Done (.portRampEnd p tx r) s (fun t => t.dir p tx = s.stage.dir p tx))) ∧
    (∀ (tx : Bool) f st n, (s.stage.dir p tx).fade = some (f, st, n) →
      ((s.stage.tick r).dirReached p tx (f + (n + 1 - st)) r = true → Done (.portFadeEnd p tx r) s (fun t => t.dir p tx = { st := 1 }
        ∧ (cgMaster (s.stage.cgCfg (s.stage.portGroup p)) = false → (t.port p).learning = true ∧ (t.port p).phases = []))) ∧
      ((s.stage.tick r).dirReached p tx (f + (n + 1 - st)) r = false → Done (.portFadeEnd p tx r) s (fun t => t.dir p tx = s.stage.dir p tx)))) ∧
  (∀ (s : State) (m : Master) (a0 a1 a2 at0 : Nat) (c : Cmd), Ready s pDecim → RingFree s.stage →
    c = s.stage.issuedCmd m pDecim 1 [Word.ofNat a0, Word.ofNat a1, Word.ofNat a2] → at0 = s.stage.datumOf (a1 % 2 ^ 32) (a2 % 2 ^ 30) →
    (bit a0 31 = false → s.stage.places < 4096 → Done (.sync m a0 a1 a2) s (fun t => ∃ o, t.waiting = s.stage.waiting
      ++ [{ due := s.stage.dueNow, cls := m.cls, kind := .sync (a0 % 65536) (some c), ord := o }])) ∧
    (bit a0 31 = true → bits a2 29 0 < 1000000000 → at0 < s.stage.now → Done (.sync m a0 a1 a2) s (fun t => t.syncs = s.stage.syncs ∧ Recorded s.stage pDecim c stExpired 0#32 t)) ∧
    (bit a0 31 = true → bits a2 29 0 < 1000000000 → s.stage.now ≤ at0 → s.stage.timedSyncs < 16 → Done (.sync m a0 a1 a2) s (fun t =>
      t.syncs = s.stage.syncs ++ [{ mask := a0 % 65536, datum := at0, cmd := some c }])) ∧
    (bit a0 31 = true → (1000000000 ≤ bits a2 29 0 ∨ (s.stage.now ≤ at0 ∧ 16 ≤ s.stage.timedSyncs)) → Done (.sync m a0 a1 a2) s (fun t =>
      t.syncs = s.stage.syncs ∧ Recorded s.stage pDecim c stRefused 0#32 t))) ∧
  (∀ (s : State) (r : Nat), s.stage.dieUp = true → Done (.syncInstant r) s (fun t => t.datum = (s.stage.tick r).datum
    ∧ (∀ x ∈ t.syncs, x.fired = false → (s.stage.tick r).now < x.datum) ∧ (s.stage.decs = [] → t.decs = [] ∧ ∀ x ∈ t.syncs, x ∈ s.stage.syncs))) ∧
  (∀ p r bclks slots done tx, p < 32 → Frame [.fsyncEdge p r bclks slots done] [pPort p] [.datum, .free, .blocks, .ports, .patch] ∧
    Frame [.frameWindowEnd p r bclks slots, .portRampEnd p tx r, .portFadeEnd p tx r] [pPort p] [.datum, .ports]) ∧
  (∀ p r, Frame [.clkLost p r] ((upTo 32).map pPort) [.datum, .ports]) ∧
  (∀ r, Frame [.syncInstant r] [0, pDecim] [.datum, .decs, .ring, .mem])

/-- A write of LANE_CFG enables a lane into SEEK and disables it to OFF; RETRAIN sends a lane that is not OFF to SEEK with no rate struck. Eight TS1 take SEEK to LOCK, eight with ACK take LOCK to AGREE and two in a row take the later states back to LOCK; eight TS2 of one permitted rate in AGREE change to it. Attempts in SEEK end and begin anew and the tenth is reported. A lack of progress leads back to SEEK, and a receiver that does not align strikes the rate and returns to LOCK. At the end of deskew a lane within the tolerance is UP and another returns to SEEK. LOS and LOL outside OFF and SEEK lead to SEEK with their events. The idle ordered set, the exit from idle, its timeout and the end of a fast training burst act as their states say; a loopback test that fails twice marks its lane (R388, R389, R390, R391, R392, R393, R394, R395, R396, R398, R399, R501). -/
def Obligations.Lanes : Prop :=
  (∀ (s : State) (m : Master) (i v : Nat) (k : PageKind) (j : Nat), LiveLane s i → (k, j) = (if i < 16 then (.lanes, 0) else (.net, i - 16)) →
    (Passes s m k j (laneBase i) v → Done (.laneCfgWrite m i v) s (fun t => Written s k j (laneBase i) v t
      ∧ (s.stage.laneEn i = false → bit v 31 = true → t.laneState i = lnSeek ∧ (t.lane i).trying = decide (i < 16))
      ∧ (s.stage.laneEn i = true → bit v 31 = false → t.laneState i = lnOff ∧ t.lane i = {})
      ∧ (s.stage.laneEn i = bit v 31 → t.laneState i = s.stage.laneState i ∧ t.lane i = s.stage.lane i))) ∧
    (Passes s m k j (laneBase i + 0x0C) 1 → Done (.retrain m i) s (fun t => t.bus.resp = .okay ∧ t.laneStat i 20 16 = 0
      ∧ t.laneState i = if s.stage.laneState i = lnOff then lnOff else lnSeek))) ∧
  (∀ (s : State) (i peer : Nat) (ack : Bool), LiveLane s i →
    (s.stage.laneState i = lnOff ∨ 16 ≤ i → ∀ rate, Done (.ts1Rx i peer ack) s (fun t => t.lanes = s.stage.lanes ∧ t.laneState i = s.stage.laneState i) ∧
      Done (.ts2Rx i peer rate) s (fun t => t.lanes = s.stage.lanes ∧ t.laneState i = s.stage.laneState i)) ∧
    (i < 16 →
      (s.stage.laneState i = lnSeek → (s.stage.lane i).ts1 < 7 → Done (.ts1Rx i peer ack) s (fun t => t.laneState i = lnSeek
        ∧ (t.lane i).ts1 = (s.stage.lane i).ts1 + 1 ∧ (t.lane i).ts2 = 0)) ∧
      (s.stage.laneState i = lnSeek → 7 ≤ (s.stage.lane i).ts1 → Done (.ts1Rx i peer ack) s (fun t => t.laneState i = lnLock
        ∧ t.lane i = { ts1 := 8 } ∧ t.laneRate i = 0 ∧ t.laneStat i 15 8 = 0)) ∧
      (s.stage.laneState i = lnLock → ack = true → 7 ≤ (s.stage.lane i).ack → Done (.ts1Rx i peer ack) s (fun t => t.laneState i = lnAgree ∧ t.lane i = {})) ∧
      (s.stage.laneState i = lnLock → ack = false → Done (.ts1Rx i peer ack) s (fun t => t.laneState i = lnLock ∧ (t.lane i).ack = 0)) ∧
      (lnAgree ≤ s.stage.laneState i → 1 ≤ (s.stage.lane i).ts1 → Done (.ts1Rx i peer ack) s (fun t => t.laneState i = lnLock ∧ t.lane i = {} ∧ t.laneRate i = 0)) ∧
      (∀ rate, s.stage.laneState i = lnAgree → (s.stage.lane i).changing = false →
        (bit (s.stage.laneCfg i 28 24) rate = false ∨ bit (s.stage.laneStat i 20 16) rate = true →
          Done (.ts2Rx i peer rate) s (fun t => t.laneState i = lnAgree ∧ (t.lane i).ts2 = 0)) ∧
        (bit (s.stage.laneCfg i 28 24) rate = true → bit (s.stage.laneStat i 20 16) rate = false →
          ((s.stage.lane i).rate ≠ rate → Done (.ts2Rx i peer rate) s (fun t => t.laneState i = lnAgree ∧ (t.lane i).ts2 = 1 ∧ (t.lane i).rate = rate)) ∧
          ((s.stage.lane i).rate = rate → (s.stage.lane i).ts2 < 7 → Done (.ts2Rx i peer rate) s (fun t => t.laneState i = lnAgree
            ∧ (t.lane i).ts2 = (s.stage.lane i).ts2 + 1)) ∧
          ((s.stage.lane i).rate = rate → 7 ≤ (s.stage.lane i).ts2 → rate ≠ 0 → Done (.ts2Rx i peer rate) s (fun t => t.laneState i = lnAgree
            ∧ (t.lane i).changing = true ∧ t.laneRate i = rate)) ∧
          ((s.stage.lane i).rate = rate → 7 ≤ (s.stage.lane i).ts2 → rate = 0 → Done (.ts2Rx i peer rate) s (fun t => t.laneRate i = 0
            ∧ t.laneState i = if s.stage.linkWidth (i / 4) = 1 ∨ s.stage.inBond i = false then lnUp else lnDeskew)))) ∧
      (s.stage.laneState i = lnSeek → (s.stage.lane i).trying = true → Done (.seekAttemptEnd i) s (fun t => t.laneState i = lnSeek ∧ (t.lane i).trying = false
        ∧ (s.stage.laneStat i 15 8 = 10 → t.laneStat i 29 29 = 1 ∧ Raises 0x260 4 t))) ∧
      (s.stage.laneState i = lnSeek → (s.stage.lane i).trying = false → Done (.seekWaitEnd i) s (fun t => (t.lane i).trying = true
        ∧ t.laneStat i 15 8 = min 255 (s.stage.laneStat i 15 8 + 1)))) ∧
    (s.stage.laneState i = lnLock ∨ (s.stage.laneState i = lnAgree ∧ (s.stage.lane i).changing = false) →
      Done (.trainTimeout i) s (fun t => t.laneState i = lnSeek)) ∧
    (s.stage.laneState i ≠ lnLock → s.stage.laneState i ≠ lnAgree → Done (.trainTimeout i) s (fun t => t.lanes = s.stage.lanes ∧ t.laneState i = s.stage.laneState i)
      ∧ Done (.rateChangeTimeout i) s (fun t => t.lanes = s.stage.lanes ∧ t.laneState i = s.stage.laneState i)) ∧
    (s.stage.laneState i = lnAgree → (s.stage.lane i).changing = true → Done (.rateChangeTimeout i) s (fun t => t.laneState i = lnLock ∧ t.laneRate i = 0
      ∧ (s.stage.laneRate i < 5 → bit (t.laneStat i 20 16) (s.stage.laneRate i) = true))) ∧
    (∀ errs, s.stage.laneState i = lnOff → Done (.losDetect i) s (fun t => t.lanes = s.stage.lanes) ∧ Done (.lolDetect i errs) s (fun t => t.lanes = s.stage.lanes)) ∧
    (s.stage.laneState i ≠ lnOff → (s.stage.laneStat i 28 28 = 0 ∨ (s.stage.lane i).exiting = true) →
      Done (.losDetect i) s (fun t => t.laneState i = lnSeek ∧ t.laneStat i 31 31 = 1 ∧ (s.stage.laneState i ≠ lnSeek → Raises (lanePage i) 2 t))) ∧
    (s.stage.laneStat i 28 28 = 1 → (s.stage.lane i).exiting = false → Done (.losDetect i) s (fun t => t.lanes = s.stage.lanes)) ∧
    Done (.losClear i) s (fun t => t.laneStat i 31 31 = 0 ∧ t.lanes = s.stage.lanes) ∧
    (∀ errs, s.stage.laneState i ≠ lnOff → Done (.lolDetect i errs) s (fun t => t.laneState i = lnSeek ∧ t.laneStat i 30 30 = 1
      ∧ (s.stage.laneState i ≠ lnSeek → Raises (lanePage i) 3 t))) ∧
    (i < 16 → s.stage.laneState i = lnUp → Done (.eiosRx i) s (fun t => t.laneStat i 28 28 = 1 ∧ t.laneState i = lnUp)) ∧
    (s.stage.laneStat i 28 28 = 1 → Done (.idleExitDetect i) s (fun t => t.lane i = { s.stage.lane i with exiting := true })) ∧
    (s.stage.laneStat i 28 28 = 0 → Done (.idleExitDetect i) s (fun t => t.lanes = s.stage.lanes) ∧ Done (.idleTimeout i) s (fun t => t.lanes = s.stage.lanes)) ∧
    (s.stage.laneStat i 28 28 = 1 → (s.stage.lane i).exiting = false → s.stage.laneState i ≠ lnOff →
      Done (.idleTimeout i) s (fun t => t.laneState i = lnSeek ∧ t.laneStat i 31 31 = 1)) ∧
    (∀ pairs,
      (s.stage.laneState i = lnAgree → (s.stage.lane i).changing = true → 16 ≤ pairs → Done (.ftbEnd i pairs) s (fun t =>
        t.laneState i = if s.stage.linkWidth (i / 4) = 1 ∨ s.stage.inBond i = false then lnUp else lnDeskew)) ∧
      (s.stage.laneState i = lnAgree → (s.stage.lane i).changing = true → pairs < 16 → Done (.ftbEnd i pairs) s (fun t => t.lanes = s.stage.lanes)) ∧
      (s.stage.laneState i = lnUp → s.stage.laneStat i 28 28 = 1 → (s.stage.lane i).exiting = true →
        (16 ≤ pairs → Done (.ftbEnd i pairs) s (fun t => t.laneState i = lnUp ∧ t.laneStat i 28 28 = 0 ∧ (t.lane i).exiting = false)) ∧
        (pairs < 16 → Done (.ftbEnd i pairs) s (fun t => t.laneState i = lnSeek ∧ t.laneStat i 30 30 = 1)))) ∧
    (s.stage.rehOn 3 = true → s.stage.laneEn i = false →
      (i ∉ s.stage.reh.laneRerun → Done (.loopbackTestEnd i false) s (fun t => t.reh.laneRerun = s.stage.reh.laneRerun ++ [i]
        ∧ t.flag pReh 0x0D8 i = s.stage.flag pReh 0x0D8 i)) ∧
      (i ∈ s.stage.reh.laneRerun → Done (.loopbackTestEnd i false) s (fun t => i ∉ t.reh.laneRerun ∧ t.flag pReh 0x0D8 i = true ∧ Raises pReh 2 t)) ∧
      Done (.loopbackTestEnd i true) s (fun t => i ∉ t.reh.laneRerun ∧ i ∈ t.reh.laneOnce ∧ t.flag pReh 0x0D8 i = s.stage.flag pReh 0x0D8 i))) ∧
  (∀ (s : State) (n r : Nat) (lag : List Nat), Live s .link n →
    (∀ i, i / 4 = n → s.stage.laneState i = lnDeskew → s.stage.inBond i = true → s.stage.laneRate i = r) →
    ∀ i, i / 4 = n → s.stage.laneState i = lnDeskew → s.stage.inBond i = true →
      (lag.getD (i % 4) 0 * symbolTenths r ≤ 400 → Done (.deskewDone n lag) s (fun t => t.laneState i = lnUp ∧ Raises 0x260 0 t)) ∧
      (400 < lag.getD (i % 4) 0 * symbolTenths r → Done (.deskewDone n lag) s (fun t => t.laneState i = lnSeek ∧ t.laneStat i 0 0 = 1 ∧ Raises 0x260 5 t))) ∧
  (∀ i peer ack rate errs pairs n lag, i < 24 → Frame [.ts1Rx i peer ack, .ts2Rx i peer rate, .seekAttemptEnd i, .seekWaitEnd i, .trainTimeout i, .rateChangeTimeout i,
    .losDetect i, .losClear i, .lolDetect i errs, .eiosRx i, .idleExitDetect i, .idleTimeout i, .ftbEnd i pairs, .deskewDone n lag]
    ([0x260, 0x270, 0x271, 0x272, 0x273, 0x2A0] ++ (if i < 16 then [] else [lanePage i])) [.lanes, .links, .red, .net, .reh, .waiting])

/-- A write of LINK_CFG or LINK_CTRL sets the register and LINK_STAT follows the lanes that the link may use; a link that is disabled is OFF and holds no group. A link that is up sends the audio frames of a block whose samples have been handed on, and takes a sound frame in time: its samples wait for their presentation; a late one, one with a bad header and one that does not fit the map are counted or raised. A group whose ramp is over runs and one whose fade is over acquires. The expected control frame moves the expected number on and owes an acknowledgement, other frames do not; an acknowledgement frees what it covers; a timeout sends what is outstanding again, and beyond the limit the channel fails. A marker publishes the skew of its boundary, a heartbeat the peer's role, health and index; silence clears HB_OK; a transmitter asked for the exit from idle leaves idle (R273, R405, R407, R411, R412, R413, R416, R419, R420, R422, R424, R425). -/
def Obligations.Links : Prop :=
  (∀ (s : State) (m : Master) (n v : Nat),
    (Passes s m .link n 0x080 v → Done (.linkCfgWrite m n v) s (fun t => Written s .link n 0x080 v t
      ∧ (bit v 31 = false → t.linkState n = 0 ∧ (s.stage.linkEn n = true → (t.link n).groups = [] ∧ (t.link n).rx = []))
      ∧ (bit v 31 = true → t.linkState n = if popCount 4 (t.txSet n) = 0 then 1 else if popCount 4 (t.txSet n) < t.linkWidth n then 2 else 3))) ∧
    (Passes s m .link n 0x090 v → Done (.linkCtrlWrite m n v) s (fun t => Written s .link n 0x090 v t
      ∧ (∀ k, k < 4 → bit v k = true → bit (t.txSet n) k = false) ∧ (s.stage.linkEn n = true → t.fld (pLink n) 0x084 31 28 = t.txSet n)))) ∧
  (∀ (s : State) (n : Nat), Live s .link n →
    (∀ k, 2 ≤ s.stage.linkState n → k % s.stage.blockOf n = 0 → (∀ j, j < s.stage.blockOf n → (s.stage.handedAt (k + j)).isSome = true) →
      s.stage.flag (pLink n) 0x084 19 = false → ∀ g, g < groupsOf (s.stage.txCount n) → Done (.audioBlockSend n k) s (fun t =>
        ∃ silent held vals, Out.audio n g (k % 2 ^ 32) silent held vals ∈ t.outs ∧ vals.length = if silent then 0 else s.stage.blockOf n)) ∧
    (∀ k, (s.stage.linkState n < 2 ∨ k % s.stage.blockOf n ≠ 0) → Done (.audioBlockSend n k) s (fun t => Keeps [] [] s.stage t)) ∧
    (∀ lanes g c b idx held silent hdr errs samples k, k = nearestMod (2 ^ 32) s.stage.datum.index idx →
      (s.stage.linkState n < 2 → Done (.audioFrameRx n lanes g c b idx held silent hdr errs samples) s (fun t => Keeps [] [] s.stage t)) ∧
      (2 ≤ s.stage.linkState n →
        (hdr = false → Done (.audioFrameRx n lanes g c b idx held silent hdr errs samples) s (fun t => (t.link n).rx = (s.stage.link n).rx
          ∧ t.regN (pLink n) 0x0C4 = min 0xFFFFFFFF (s.stage.regN (pLink n) 0x0C4 + 1))) ∧
        (hdr = true → (groupsOf (s.stage.rxCount n) ≤ g ∨ c ≠ groupSize (s.stage.rxCount n) g) →
          Done (.audioFrameRx n lanes g c b idx held silent hdr errs samples) s (fun t => (t.link n).rx = (s.stage.link n).rx ∧ Raises (pLink n) 10 t)) ∧
        (hdr = true → g < groupsOf (s.stage.rxCount n) → c = groupSize (s.stage.rxCount n) g →
          (k + s.stage.rxOffset n ≤ s.stage.datum.index ∨ s.stage.datum.index + 128 < k →
            Done (.audioFrameRx n lanes g c b idx held silent hdr errs samples) s (fun t => (t.link n).rx = (s.stage.link n).rx
              ∧ t.regN (pLink n) 0x0C0 = min 0xFFFFFFFF (s.stage.regN (pLink n) 0x0C0 + 1))) ∧
          (s.stage.datum.index < k + s.stage.rxOffset n → k ≤ s.stage.datum.index + 128 →
            Done (.audioFrameRx n lanes g c b idx held silent hdr errs samples) s (fun t =>
              ∀ j, j < (if silent then b else samples.length) → ∃ e ∈ (t.link n).rx, e.k = k + j ∧ e.g = g ∧ e.held = held
                ∧ e.vals = if silent then (upTo c).map (fun _ => 0#32) else samples.getD j []))))) ∧
    (∀ g gr, g < 64 → gr = Tab.get {} (s.stage.link n).groups g →
      (gr.st = 2 → gr.nf ≤ gr.j → Done (.groupRampEnd n g) s (fun t => Tab.get {} (t.link n).groups g = { gr with st := 3, miss := 0 }
        ∧ t.flag (pLink n) (0x0B0 + 4 * (g / 32)) (g % 32) = true)) ∧
      ((gr.st ≠ 2 ∨ gr.j < gr.nf) → Done (.groupRampEnd n g) s (fun t => Keeps [] [] s.stage t)) ∧
      (gr.st = 4 → gr.nf ≤ gr.j → Done (.groupFadeEnd n g) s (fun t => Tab.get {} (t.link n).groups g = { st := 1 }
        ∧ t.flag (pLink n) (0x0B0 + 4 * (g / 32)) (g % 32) = false)) ∧
      ((gr.st ≠ 4 ∨ gr.j < gr.nf) → Done (.groupFadeEnd n g) s (fun t => Keeps [] [] s.stage t))) ∧
    (∀ lanes seq ack ackOnly ok good x, x = s.stage.linkCols n lanes →
      (s.stage.ctrlOk n = false → Done (.controlFrameRx n lanes seq ack ackOnly ok good) s (fun t => Keeps [] [] s.stage t)) ∧
      (s.stage.ctrlOk n = true →
        (ok = false → Done (.controlFrameRx n lanes seq ack ackOnly ok good) s (fun t => (t.link n).ctl = (x.link n).ctl
          ∧ t.regN (pLink n) 0x0C8 = min 0xFFFFFFFF (s.stage.regN (pLink n) 0x0C8 + 1))) ∧
        (ok = true → (ackOnly = true ∨ seq ≠ (x.link n).ctl.expect) → Done (.controlFrameRx n lanes seq ack ackOnly ok good) s (fun t =>
          (t.link n).ctl.expect = (x.link n).ctl.expect)) ∧
        (ok = true → ackOnly = false → seq = (x.link n).ctl.expect → Done (.controlFrameRx n lanes seq ack ackOnly ok good) s (fun t =>
          (t.link n).ctl.expect = (seq + 1) % 256 ∧ (t.link n).ctl.ackDue = true ∧ (good = false → Raises (pLink n) 9 t))) ∧
        (∀ q m l, ok = true → (x.link n).ctl.queue = [] → (x.link n).ctl.out = (q, m) :: l → 1 ≤ (ack + 256 - q) % 256 → (ack + 256 - q) % 256 ≤ l.length + 1 →
          Done (.controlFrameRx n lanes seq ack ackOnly ok good) s (fun t => (t.link n).ctl.out = ((q, m) :: l).drop ((ack + 256 - q) % 256)
            ∧ (t.link n).ctl.timeouts = 0)))) ∧
    (s.stage.ctrlOk n = true → (s.stage.link n).ctl.ackDue = true → Done (.ackOnlyTimer n) s (fun t => (t.link n).ctl.ackDue = false
      ∧ Out.ackOnly n (s.stage.link n).ctl.expect ∈ t.outs)) ∧
    ((s.stage.ctrlOk n = false ∨ (s.stage.link n).ctl.ackDue = false) → Done (.ackOnlyTimer n) s (fun t => Keeps [] [] s.stage t)) ∧
    ((s.stage.link n).ctl.out = [] → Done (.retxTimeout n) s (fun t => Keeps [] [] s.stage t)) ∧
    ((s.stage.link n).ctl.out ≠ [] →
      ((s.stage.link n).ctl.timeouts + 1 < s.stage.fld (pLink n) 0x094 31 24 → Done (.retxTimeout n) s (fun t =>
        (t.link n).ctl.timeouts = (s.stage.link n).ctl.timeouts + 1 ∧ (t.link n).ctl.out = (s.stage.link n).ctl.out
        ∧ ∀ e ∈ (s.stage.link n).ctl.out, Out.ctl n e.1 (s.stage.link n).ctl.expect e.2 ∈ t.outs)) ∧
      (s.stage.fld (pLink n) 0x094 31 24 ≤ (s.stage.link n).ctl.timeouts + 1 → Done (.retxTimeout n) s (fun t => Raises (pLink n) 8 t
        ∧ t.ctrlOk n = false ∧ (t.link n).ctl = {} ∧ ∀ k, k < s.stage.linkWidth n → t.laneState (4 * n + k) = lnOff ∨ t.laneState (4 * n + k) = lnSeek))) ∧
    (∀ r residual b, Done (.markerRx n r residual b) s (fun t => t.datum = (s.stage.tick r).datum ∧ t.regN (pLink n) 0x318 = toBits 32 (max (-2147483647) (min 2147483647
      (Int.fdiv ((s.stage.tick r).rxStamp (pLink n) r - (residual : Int) * 4096 - (s.stage.tp (pLink n)).dbar.getD 0 - s.stage.asymmetry (pLink n)
        - boundaryDatum b s.stage.fs) 256))))) ∧
    (∀ lanes ok role ack idx health, 2 ≤ s.stage.linkState n →
      (ok = true → Done (.heartbeatRx n lanes ok role ack idx health) s (fun t => t.hbOk n = true ∧ t.regN (pLink n) 0x09C = 256 + role % 256
        ∧ t.regN (pLink n) 0x0A0 = health % 2 ^ 32 ∧ t.reg64 (pLink n) 0x0A4 = idx % 2 ^ 64
        ∧ (s.stage.hbOk n = false → s.stage.flag (pLink n) 0x09C 8 = true → Raises (pLink n) 7 t))) ∧
      (ok = false → Done (.heartbeatRx n lanes ok role ack idx health) s (fun t => t.regN (pLink n) 0x0C8 = min 0xFFFFFFFF (s.stage.regN (pLink n) 0x0C8 + 1)))) ∧
    (s.stage.hbOk n = true → Done (.hbTimeoutExpiry n) s (fun t => t.hbOk n = false ∧ Raises (pLink n) 6 t ∧ Keeps [pLink n] [] s.stage t)) ∧
    (s.stage.hbOk n = false → Done (.hbTimeoutExpiry n) s (fun t => Keeps [] [] s.stage t)) ∧
    Done (.idleExitRequest n) s (fun t => (∀ k, k < 4 → t.laneStat (4 * n + k) 27 27 = 0) ∧ Keeps [0x260] [] s.stage t)) ∧
  (∀ n k lanes g c b idx held silent hdr errs samples seq ack ackOnly ok good r residual role health, n < 4 →
    Frame [.audioBlockSend n k, .groupRampEnd n g, .groupFadeEnd n g, .ackOnlyTimer n] [pLink n, 0x260] [.links] ∧
    Frame [.audioFrameRx n lanes g c b idx held silent hdr errs samples, .controlFrameRx n lanes seq ack ackOnly ok good, .markerRx n r residual b,
      .heartbeatRx n lanes ok role ack idx health, .retxTimeout n] [pLink n, 0x260, 0x2A0] [.links, .lanes, .red, .reh, .datum])

/-- A part that takes records on a link keeps a record for its boundary: writes, ramps, planes and selected writes join the waiting changes, a trigger the triggers as source 7 with its boundary, a commit the commits; a STANDBY value is taken at once, a SYNC waits for its instant, and a CANCEL removes what it names. One whose boundary has come loses step, and one from before the hold boundary is let go. A part that takes no records ignores them all. A mirrored GO is ignored, merged or placed; a tableau message waits for its datum or is late; a MAILBOX message goes to the firmware (R204, R304, R317, R417, R459, R460, R461, R462, R477, R478). -/
def Obligations.ForwardedRecords : Prop :=
  (∀ (s : State) (n b who a mask v k cue sel id crc dt : Nat) (lo w : Word) (ws : List Word), LiveCtl s n →
    (s.stage.takesRecords n = false →
      ∀ c ∈ [Instr.forwardWrite n b who a ws, .forwardWriteBytes n b who a mask w, .forwardRamp n b k lo v, .forwardTrigger n b cue v, .forwardCancel n b cue,
        .forwardStandby n v, .forwardCommit n b id crc, .forwardPlaneReady n b k, .forwardDsync n mask dt, .forwardSelected n b who a sel w],
      Done c s (fun t => Keeps [] [] s.stage t)) ∧
    (s.stage.takesRecords n = true →
      (b < s.stage.holdAt →
        ∀ c ∈ [Instr.forwardWrite n b who a ws, .forwardWriteBytes n b who a mask w, .forwardRamp n b k lo v, .forwardTrigger n b cue v,
          .forwardCommit n b id crc, .forwardPlaneReady n b k, .forwardSelected n b who a sel w], Done c s (fun t => Keeps [] [] s.stage t)) ∧
      (s.stage.holdAt ≤ b → b ≤ s.stage.datum.index →
        ∀ c ∈ [Instr.forwardWrite n b who a ws, .forwardWriteBytes n b who a mask w, .forwardRamp n b k lo v, .forwardTrigger n b cue v,
          .forwardCommit n b id crc, .forwardPlaneReady n b k, .forwardSelected n b who a sel w],
        Done c s (fun t => t.red = { s.stage.red with lost := true } ∧ Keeps [] [.red] s.stage t)) ∧
      (s.stage.holdAt ≤ b → s.stage.datum.index < b →
        (regionOf a 4 = .regs → Done (.forwardWrite n b who a ws) s (fun t => t.waiting.length = s.stage.waiting.length + ws.length
          ∧ t.waiting.take s.stage.waiting.length = s.stage.waiting
          ∧ ∀ j x, ws[j]? = some x → ∃ e ∈ t.waiting, e.due = b ∧ e.cls = 1 - who ∧ e.fwd = true ∧ e.kind = .reg (a + 4 * j) (s.stage.recSel (a + 4 * j)) x)) ∧
        (regionOf a 4 ≠ .regs → Done (.forwardWrite n b who a ws) s (fun t => t.waiting = s.stage.waiting ++
          [{ due := b, cls := 1 - who, kind := .mem (wordCells a ws), ord := s.stage.order, place := false, fwd := true }])) ∧
        Done (.forwardWriteBytes n b who a mask w) s (fun t => ∃ cells, t.waiting = s.stage.waiting ++
          [{ due := b, cls := 1 - who, kind := .mem cells, ord := s.stage.order, place := false, fwd := true }]
          ∧ ∀ j, j < 4 → ((∃ x, (a + j, x) ∈ cells) ↔ bit mask j = true) ∧ ∀ x, (a + j, x) ∈ cells → x = (leBytes 4 w.toNat).getD j 0#8) ∧
        Done (.forwardRamp n b k lo v) s (fun t => t.waiting = s.stage.waiting ++
          [{ due := b, cls := 0, kind := .ramp k lo v, ord := s.stage.order, place := false, fwd := true }]) ∧
        Done (.forwardPlaneReady n b k) s (fun t => t.waiting = s.stage.waiting ++
          [{ due := b, cls := 0, kind := .ready k, ord := s.stage.order, place := false, fwd := true }]) ∧
        Done (.forwardSelected n b who a sel w) s (fun t => t.waiting = s.stage.waiting ++
          [{ due := b, cls := 1 - who, kind := .reg a sel w, ord := s.stage.order, place := false, fwd := true }]) ∧
        (TakesCue s.stage 7 cue → Done (.forwardTrigger n b cue v) s (fun t => t.prompt.trigs = s.stage.prompt.trigs ++
            [{ seq := s.stage.nextSeq pPrompt, cls := 0xFF, cue := cue, src := 7, t := none, m := s.stage.datum.index, b0 := b, b := b, late := false }]
          ∧ t.regN 0x290 0x084 = bits v 11 0 + if bit v 15 then 2 ^ 31 else 0)) ∧
        (s.stage.graph.staged = none → Done (.forwardCommit n b id crc) s (fun t => t.graph = { s.stage.graph with fwd := s.stage.graph.fwd ++ [(b, id, crc)] }))) ∧
      (∀ tr, (s.stage.prompt.trigs.find? fun t => t.cue == cue && t.b == b) = some tr →
        Done (.forwardCancel n b cue) s (fun t => t.prompt.trigs = s.stage.prompt.trigs.filter (· ≠ tr))) ∧
      ((∀ tr ∈ s.stage.prompt.trigs, ¬ (tr.cue = cue ∧ tr.b = b)) → Done (.forwardCancel n b cue) s (fun t => t.prompt = s.stage.prompt)) ∧
      Done (.forwardStandby n v) s (fun t => t.regN 0x290 0x084 = bits v 11 0 + if bit v 15 then 2 ^ 31 else 0) ∧
      (boundaryDatum s.stage.holdAt s.stage.fs ≤ dt →
        (dt < s.stage.now → Done (.forwardDsync n mask dt) s (fun t => t.red.lost = true ∧ t.syncs = s.stage.syncs)) ∧
        (s.stage.now ≤ dt → Done (.forwardDsync n mask dt) s (fun t => t.syncs = s.stage.syncs ++ [{ mask := mask, datum := dt, cmd := none }]))))) ∧
  (∀ (s : State) (n cue b dt : Nat) (body : List Byte), LiveCtl s n →
    (((n = 0 ∧ (s.stage.mode = mPrincipal ∨ s.stage.mode = mUnderstudy)) ∨ s.stage.flag pPrompt 0x080 6 = false) →
      Done (.mirrorGo n cue b) s (fun t => Keeps [] [] s.stage t)) ∧
    (¬ (n = 0 ∧ (s.stage.mode = mPrincipal ∨ s.stage.mode = mUnderstudy)) → s.stage.flag pPrompt 0x080 6 = true → trigMode s.stage.mode 5 = .take →
      (∀ tr, (s.stage.prompt.trigs.find? fun t => t.cue == cue && s.stage.mergeNear t.b b) = some tr → Done (.mirrorGo n cue b) s (fun t =>
        t.prompt.trigs = (s.stage.prompt.trigs.map fun x => if x = tr then { tr with b := max (s.stage.datum.index + 1) (min b tr.b) } else x) ∧ Raises pPrompt 4 t)) ∧
      ((∀ tr ∈ s.stage.prompt.trigs, ¬ (tr.cue = cue ∧ s.stage.mergeNear tr.b b = true)) →
        ((∃ r ∈ s.stage.prompt.ran, r.1 = cue ∧ s.stage.mergeNear r.2 b = true) → Done (.mirrorGo n cue b) s (fun t => t.prompt = s.stage.prompt ∧ Raises pPrompt 4 t)) ∧
        ((∀ r ∈ s.stage.prompt.ran, ¬ (r.1 = cue ∧ s.stage.mergeNear r.2 b = true)) → TakesCue s.stage 5 cue → s.stage.datum.index < b →
          Done (.mirrorGo n cue b) s (fun t => t.prompt.trigs = s.stage.prompt.trigs ++
            [{ seq := s.stage.nextSeq pPrompt, cls := 0xFF, cue := cue, src := 5, t := none, m := s.stage.datum.index, b0 := b,
               b := max b (s.stage.earliest s.stage.datum.index cue 5), late := false }])))) ∧
    (s.stage.flag pTab 0x080 5 = false → Done (.tableauMessage n dt) s (fun t => Keeps [] [] s.stage t)) ∧
    (s.stage.flag pTab 0x080 5 = true →
      (dt < s.stage.now → Done (.tableauMessage n dt) s (fun t => t.tab = s.stage.tab ∧ Raises pTab 4 t
        ∧ t.regN pTab 0x0A4 = min 0xFFFFFFFF (s.stage.regN pTab 0x0A4 + 1))) ∧
      (s.stage.now ≤ dt → Done (.tableauMessage n dt) s (fun t => t.tab = { s.stage.tab with msgs := s.stage.tab.msgs ++ [dt] }))) ∧
    Done (.mailbox n body) s (fun t => Out.toFirmware n body ∈ t.outs ∧ Keeps [] [] s.stage t)) ∧
  (∀ n b who a mask v k cue sel dt lo w ws body,
    Frame [.forwardWrite n b who a ws, .forwardWriteBytes n b who a mask w, .forwardRamp n b k lo v, .forwardPlaneReady n b k, .forwardSelected n b who a sel w]
      [] [.waiting, .red] ∧ Frame [.forwardStandby n v] [0x290] [.red] ∧ Frame [.forwardDsync n mask dt] [] [.decs, .red] ∧
    Frame [.forwardTrigger n b cue v, .forwardCancel n b cue, .mirrorGo n cue b] [0, pPrompt, 0x260] [.cmds, .ring, .mem, .links, .prompt, .red] ∧
    Frame [.tableauMessage n dt] [pTab] [.tab] ∧ Frame [.mailbox n body] [] [])

/-- A write of ROLE_CFG sets the configuration and its rank; a write of SD_PENDING clears its bits. HELLO of a member is remembered and a difference raises STRAP_CLASH; ABDICATE gives the boundary at which this part takes over; JOINED is recorded. A REQUEST to a part that can be the source makes it the source with its hold boundary, or is refused with the reason that comes first. START, REFUSE, REGION and COPY_DONE move the catch-up of the joiner on that link; the end of WARM begins MATCH and its timeout fails. The end of the listening period gives the part its role. HANDOVER of an eligible pair abdicates and JOIN of an isolated part starts catch-up; otherwise they are refused (R452, R455, R465, R466, R467, R470, R475, R477, R478, R480, R489, R684). -/
def Obligations.GroupRoles : Prop :=
  (∀ (s : State) (m : Master) (v : Nat),
    (Passes s m .redundancy 0 0x080 v → Done (.roleCfgWrite m v) s (fun t => t.bus.resp = .okay ∧ t.regN pRed 0x080
      = setBits ((rowOf .redundancy 0 0x080).merge (s.stage.regN pRed 0x080) (regWord .redundancy 0 0x080 v)) 5 4 (rankOf v))) ∧
    (Passes s m .redundancy 0 0x094 v → Done (.sdPendingClear m v) s (fun t => Written s .redundancy 0 0x094 v t)) ∧
    (Ready s pRed → ∀ c, c = s.stage.issuedCmd m pRed 1 [] →
      (s.stage.eligible = true → s.stage.red.abdicating = none → Done (.handover m) s (fun t => t.red.handover = some c ∧ t.runningCmd pRed = some c
        ∧ t.fld pRed 0x084 3 0 = 9 ∧ Raises pRed 8 t)) ∧
      ((s.stage.eligible = false ∨ s.stage.red.abdicating ≠ none) → RingFree s.stage →
        Done (.handover m) s (fun t => t.red = s.stage.red ∧ Recorded s.stage pRed c stRefused 0#32 t))) ∧
    (Ready s pRed → ∀ c, c = s.stage.issuedCmd m pRed 2 [] →
      (s.stage.mode = mIsolated → s.stage.joinLink.isSome = true → s.stage.red.abdicating = none → Done (.join m) s (fun t =>
        t.red = { s.stage.red with election := 0, enterAt := some (s.stage.datum.index + 1, mCatchUp) } ∧ t.runningCmd pRed = some c)) ∧
      ((s.stage.mode ≠ mIsolated ∨ s.stage.joinLink = none ∨ s.stage.red.abdicating ≠ none) → RingFree s.stage →
        Done (.join m) s (fun t => t.red = s.stage.red ∧ Recorded s.stage pRed c stRefused 0#32 t)))) ∧
  (∀ (s : State) (n : Nat), LiveCtl s n →
    (s.stage.memberLink n = true →
      (∀ dt cause, Done (.abdicate n dt cause) s (fun t => Tab.get none t.red.peerT n = some dt)) ∧
      (∀ cfg primary rank version graph bad, bad = (cfg ≠ s.stage.roleCfg ∨ version ≠ s.stage.version
          ∨ (s.stage.paired = true ∧ ((primary = 1) ↔ s.stage.isPrimary = true)) ∨ (s.stage.paired = false ∧ rank = s.stage.rank)) →
        Done (.hello n cfg primary rank version graph) s (fun t => Tab.get none t.red.hellos n = some (version, graph)
          ∧ (n ∈ t.red.clash ↔ bad) ∧ (bad → Raises pRed 15 t))) ∧
      (∀ j, Done (.joined n j) s (fun t => Tab.get 0 t.red.joined n = j ∧ Tab.get none t.red.peerT n = none ∧ t.reg64 pRed 0x0A4 = j % 2 ^ 64))) ∧
    (s.stage.memberLink n = false → ∀ dt cause cfg primary rank version graph j,
      ∀ c ∈ [Instr.abdicate n dt cause, .hello n cfg primary rank version graph, .joined n j, .request n], Done c s (fun t => Keeps [] [] s.stage t)) ∧
    (s.stage.memberLink n = true → (s.stage.mode = mPrincipal ∨ s.stage.mode = mTriangulate) → ∀ g v, 
      g = ((Tab.get none s.stage.red.hellos n).map (·.2)).getD s.stage.graphId → v = ((Tab.get none s.stage.red.hellos n).map (·.1)).getD s.stage.version →
      (g = s.stage.graphId → v = s.stage.version → (∀ c, s.stage.red.source = some c → c.link = n) → s.stage.red.abdicating = none →
        Done (.request n) s (fun t => t.red.source = some { link := n, h := s.stage.dueNow } ∧ Tab.get 0 t.red.joined n = 0
          ∧ (.start s.stage.dueNow ∈ (t.link n).ctl.queue ∨ ∃ q, (q, .start s.stage.dueNow) ∈ (t.link n).ctl.out))) ∧
      (∀ x, x = (if g ≠ s.stage.graphId then 1 else if v ≠ s.stage.version then 2 else 3) →
        (x = 3 → (∃ c, s.stage.red.source = some c ∧ c.link ≠ n) ∨ s.stage.red.abdicating ≠ none) →
        Done (.request n) s (fun t => t.red = s.stage.red ∧ (.refuse x ∈ (t.link n).ctl.queue ∨ ∃ q, (q, .refuse x) ∈ (t.link n).ctl.out)))) ∧
    (∀ c, s.stage.red.catchup = some c → c.link = n →
      (c.phase = 1 →
        (∀ h, (Tab.get none s.stage.red.hellos n = none ∨ Tab.get none s.stage.red.hellos n = some (s.stage.version, s.stage.graphId)) →
          Done (.start n h) s (fun t => t.red = { s.stage.red with catchup := some { c with phase := 2, h := h }, held := [] })) ∧
        (∀ h v g, Tab.get none s.stage.red.hellos n = some (v, g) →
          (v ≠ s.stage.version → Done (.start n h) s (fun t => t.red.catchup = some { c with phase := 5, got := 2 })) ∧
          (v = s.stage.version → g ≠ s.stage.graphId → Done (.start n h) s (fun t => t.red.catchup = some { c with phase := 5, got := 1 }))) ∧
        (∀ r, Done (.refuse n r) s (fun t => t.red.catchup = some { c with phase := 5, got := if r = 1 then 1 else if r = 2 then 2 else 6 }))) ∧
      (c.phase ≠ 1 → ∀ h r, Done (.start n h) s (fun t => Keeps [] [] s.stage t) ∧ Done (.refuse n r) s (fun t => Keeps [] [] s.stage t)) ∧
      (∀ r a ws count,
        (c.phase = 2 → Done (.region n r a ws) s (fun t => t.red.catchup = some { c with wait := c.wait ++ [{ r := r, addr := a, words := ws }] })
          ∧ Done (.copyDone n count) s (fun t => t.red.catchup = some { c with expect := some count })) ∧
        (c.phase ≠ 2 → Done (.region n r a ws) s (fun t => Keeps [] [] s.stage t) ∧ Done (.copyDone n count) s (fun t => Keeps [] [] s.stage t))))) ∧
  (∀ s : State, s.stage.dieUp = true →
    (∀ c, s.stage.red.catchup = some c →
      (c.phase = 3 → Done .catchWarmEnd s (fun t => t.red.catchup = some { c with phase := 4, agree := 0 } ∧ t.red.diverge = 0)) ∧
      (c.phase ≠ 3 → Done .catchWarmEnd s (fun t => Keeps [] [] s.stage t)) ∧
      (c.phase = 4 → c.join = none → Done .catchMatchTimeout s (fun t => t.red.catchup = some { c with phase := 5, got := 5 })) ∧
      ((c.phase ≠ 4 ∨ c.join ≠ none) → Done .catchMatchTimeout s (fun t => Keeps [] [] s.stage t))) ∧
    (s.stage.red.election = 0 → Done .electionTimeout s (fun t => Keeps [] [] s.stage t)) ∧
    (s.stage.red.election ≠ 0 →
      (s.stage.triangulated = true → Done .electionTimeout s (fun t => t.red.election = 0 ∧ t.red.enterAt = some (s.stage.datum.index + 1,
        if (upTo 2).any fun n => s.stage.hbOk n && s.stage.peerRole n == mTriangulate then mCatchUp else mTriangulate))) ∧
      (s.stage.triangulated = false →
        ((s.stage.hbOk 0 = true ∧ s.stage.peerRole 0 = mPrincipal) ∨ s.stage.peerActive 0 = true → Done .electionTimeout s (fun t => t.red.election = 0
          ∧ t.red.enterAt = some (s.stage.datum.index + 1, if s.stage.ctrlOk 0 then mCatchUp else mIsolated))) ∧
        (¬ (s.stage.hbOk 0 = true ∧ s.stage.peerRole 0 = mPrincipal) → s.stage.peerActive 0 = false →
          (s.stage.isPrimary = true ∨ s.stage.red.election = 2 → Done .electionTimeout s (fun t => t.red.election = 0
            ∧ t.red.enterAt = some (s.stage.datum.index + 1, mPrincipal))) ∧
          (s.stage.isPrimary = false → s.stage.red.election ≠ 2 → Done .electionTimeout s (fun t => t.red.election = 2 ∧ t.red.enterAt = s.stage.red.enterAt)))))) ∧
  (∀ n dt cause cfg primary rank version graph j r a ws count h, Frame [.abdicate n dt cause, .hello n cfg primary rank version graph, .joined n j,
    .start n h, .refuse n r, .region n r a ws, .copyDone n count, .catchWarmEnd, .catchMatchTimeout, .electionTimeout] [pRed] [.red] ∧
    Frame [.request n] [0x260] [.links, .red])

/-- The result of synchronisation and negotiation puts an enabled lane in UP or SEEK, and the link and its speed follow the mode; a change of the SGMII speed is taken on a link. A received frame is counted and sorted; a frame of firmware leaves padded with its FCS. STREAM_ADD reads its descriptor, makes its checks in their order and adds a talker, charged to its ports, or a listener; STREAM_REMOVE ends one. A talker that may send sends each packet on its ports with a link; a listener takes a sound packet in time and counts any other as discarded (R384, R431, R432, R433, R436, R437, R438, R439, R440, R441, R442, R444). -/
def Obligations.NetworkPorts : Prop :=
  (∀ (s : State) (p : Nat), Live s .net p →
    (∀ sync up full speed,
      (s.stage.laneState (16 + p) = lnOff → Done (.netLinkChange p sync up full speed) s (fun t => Keeps [] [] s.stage t)) ∧
      (s.stage.laneState (16 + p) ≠ lnOff →
        (sync = true → Done (.netLinkChange p sync up full speed) s (fun t => t.laneState (16 + p) = lnUp ∧ t.laneStat (16 + p) 30 30 = 0
          ∧ (t.netLink p = true ↔ s.stage.netOn p = true ∧ s.stage.netModeOk p = true
              ∧ (s.stage.netMode p = 1 ∨ (s.stage.netMode p = 0 ∧ s.stage.flag (pNet p) 0x080 31 = false) ∨ (up = true ∧ full = true))))) ∧
        (sync = false → Done (.netLinkChange p sync up full speed) s (fun t => t.laneState (16 + p) = lnSeek ∧ t.netLink p = false
          ∧ (s.stage.netLink p = true → Raises (pNet p) 6 t))))) ∧
    (∀ speed,
      (s.stage.netLink p = true → s.stage.netMode p = 2 → 1 ≤ speed → speed ≤ 3 → Done (.sgmiiSpeedChange p speed) s (fun t =>
        t.fld (pNet p) 0x084 2 0 = speed ∧ t.netLink p = true ∧ (t.netNeg p).speed = speed)) ∧
      ((s.stage.netLink p = false ∨ s.stage.netMode p ≠ 2 ∨ speed = 0 ∨ 3 < speed) → Done (.sgmiiSpeedChange p speed) s (fun t => Keeps [] [] s.stage t)))) ∧
  (∀ (s : State) (p : Nat) (f : List Byte), LiveNet s p →
    Done (.netFrameRx p f) s (fun t => t.regN (pNet p) 0x0B0 = min 0xFFFFFFFF (s.stage.regN (pNet p) 0x0B0 + 1)
      ∧ (s.stage.fate p f = .firmware → Out.netToFirmware p f ∈ t.outs)
      ∧ (∀ b, s.stage.fate p f = .discard b → t.regN (pNet p) 0x0B8 = min 0xFFFFFFFF (s.stage.regN (pNet p) 0x0B8 + 1)
          ∧ (b = true → t.regN (pNet p) 0x0BC = min 0xFFFFFFFF (s.stage.regN (pNet p) 0x0BC + 1)))) ∧
    (f.length ≤ 1518 → Done (.mgmtFrameSend p f) s (fun t => Out.net p 0 (onWire (s.stage.classMark p 0 f)) ∈ t.outs
      ∧ t.regN (pNet p) 0x0B4 = min 0xFFFFFFFF (s.stage.regN (pNet p) 0x0B4 + 1))) ∧
    (1518 < f.length → Done (.mgmtFrameSend p f) s (fun t => Keeps [] [] s.stage t)) ∧
    (s.stage.fate p f ≠ .listener → Done (.listenerPacketRx p f) s (fun t => Keeps [] [] s.stage t)) ∧
    (∀ u c l k, s.stage.fate p f = .listener → parseUdp (f.take (f.length - 4)) = some u → s.stage.listenerOf p u = some (c, l) →
      k = nearestMod (2 ^ 32) s.stage.datum.index ((be u.data 4 4 + 2 ^ 32 - dsc l.words 9 31 0) % 2 ^ 32) →
      ((rtpSound l.words u = false ∨ k + dscPlayout l.words ≤ s.stage.datum.index ∨ s.stage.datum.index + 4096 < k) → Done (.listenerPacketRx p f) s (fun t =>
        ∃ l', t.listener c = some l' ∧ l'.discard = satInc 0xFFFFFFFF l.discard ∧ l'.held = l.held ∧ l'.pkts = l.pkts)) ∧
      (rtpSound l.words u = true → s.stage.datum.index < k + dscPlayout l.words → k ≤ s.stage.datum.index + 4096 →
        (dscDup l.words = false ∨ ∀ h ∈ l.held, ¬ (h.seq = be u.data 2 2 ∧ h.ts = be u.data 4 4)) → Done (.listenerPacketRx p f) s (fun t =>
          ∃ l', t.listener c = some l' ∧ l'.pkts = satInc 0xFFFFFFFF l.pkts ∧ l'.discard = l.discard
            ∧ l'.held = { k := k, seq := be u.data 2 2, ts := be u.data 4 4, rows := rtpRows l.words (rtpData u) } :: l.held)) ∧
      (rtpSound l.words u = true → s.stage.datum.index < k + dscPlayout l.words → k ≤ s.stage.datum.index + 4096 → dscDup l.words = true →
        (∃ h ∈ l.held, h.seq = be u.data 2 2 ∧ h.ts = be u.data 4 4) → Done (.listenerPacketRx p f) s (fun t =>
          ∃ l', t.listener c = some l' ∧ l'.pkts = l.pkts ∧ l'.discard = l.discard ∧ l'.held = l.held)))) ∧
  (∀ (s : State) (c k : Nat), Live s .net 0 →
    (∀ w, s.stage.talker c = some w → s.stage.talkerMay w k = true →
      Done (.talkerPacketSend c k) s (fun t => (∀ p ∈ dscPorts w.words, s.stage.netLink p = true → c ∉ Tab.get [] s.stage.net.shed p →
        Out.net p 2 (onWire (s.stage.udpFrame p 2 (dsc w.words 6 27 16) (dscMac w.words) (dsc w.words 2 31 0) (dsc w.words 4 15 0) (dsc w.words 4 31 16)
          (rtpHeader w.words k ++ s.stage.rtpPayload w.words k))) ∈ t.outs
        ∧ t.talker c = some { w with pkts := satInc 0xFFFFFFFF w.pkts }))) ∧
    ((∀ w, s.stage.talker c = some w → s.stage.talkerMay w k = false) → Done (.talkerPacketSend c k) s (fun t => Keeps [] [] s.stage t))) ∧
  (∀ (s : State) (m : Master) (a0 a1 src : Nat) (c : Cmd) (x : Stage), Ready s (pNet 0) → RingFree s.stage → x = s.stage.issued m (pNet 0) 1 [Word.ofNat a0, Word.ofNat a1] →
    c = s.stage.issuedCmd m (pNet 0) 1 [Word.ofNat a0, Word.ofNat a1] → src = a0 % 2 ^ 32 + a1 % 16 * 2 ^ 32 →
    (a0 % 32 ≠ 0 → Done (.streamAdd m a0 a1) s (fun t => t.net = s.stage.net ∧ Recorded s.stage (pNet 0) c stRefused 0#32 t)) ∧
    (a0 % 32 = 0 → ∀ d0 d1 y z d talk free, x.engineBeat { cls := 4, idx := 0 } src 32 = (y, some d0) → y.engineBeat { cls := 4, idx := 0 } (src + 32) 32 = (z, some d1) →
      z.ecc = [] → d = (upTo 16).map (fun i => ofLeBytes (((d0 ++ d1).drop (4 * i)).take 4)) → talk = dscTalker d → free = s.stage.freeContexts talk →
      (∀ bad : Option (Nat × Nat), bad = (if free = [] then some (stNoContext, 0) else if dscCount d = 0 ∨ 64 < dscCount d then some (stRefused, 8)
          else if dscFormat d = false then some (stFailed, 2) else if dscRate d ≠ s.stage.rateCode then some (stFailed, 3)
          else if 1440 < dscS d * dscCount d * dscBytes d then some (stFailed, 4) else if s.stage.dscRangeBad d then some (stFailed, 6)
          else if s.stage.dscTwice d then some (stFailed, 7) else if s.stage.dscWide d then some (stFailed, 5) else none) →
        (∀ e, bad = some e → Done (.streamAdd m a0 a1) s (fun t => t.net = s.stage.net ∧ Recorded s.stage (pNet 0) c e.1 (Word.ofNat (e.2 * 2 ^ 24)) t)) ∧
        (bad = none → Done (.streamAdd m a0 a1) s (fun t => ∃ i ∈ free, Recorded s.stage (pNet 0) c stDone (Word.ofNat ((if talk then 256 else 0) + i)) t
          ∧ (talk = true → t.talker i = some { words := d, start := s.stage.dueNow } ∧ t.net.listeners = s.stage.net.listeners
              ∧ ∀ p ∈ dscPorts d, t.tc2 p = s.stage.tc2 p + dscBand d)
          ∧ (talk = false → t.listener i = some { words := d } ∧ t.net.talkers = s.stage.net.talkers)))))) ∧
  (∀ (s : State) (m : Master) (a0 : Nat) (c : Cmd), Ready s (pNet 0) → RingFree s.stage → c = s.stage.issuedCmd m (pNet 0) 2 [Word.ofNat a0] →
    (bit a0 8 = true →
      (∀ w, s.stage.talker (a0 % 256) = some w → Done (.streamRemove m a0) s (fun t => t.talker (a0 % 256) = none ∧ t.net.listeners = s.stage.net.listeners
        ∧ (∀ p ∈ dscPorts w.words, t.tc2 p = s.stage.tc2 p - dscBand w.words) ∧ Recorded s.stage (pNet 0) c stDone 0#32 t)) ∧
      (s.stage.talker (a0 % 256) = none → Done (.streamRemove m a0) s (fun t => t.net = s.stage.net ∧ Recorded s.stage (pNet 0) c stRefused 0#32 t))) ∧
    (bit a0 8 = false →
      (∀ w, s.stage.listener (a0 % 256) = some w → Done (.streamRemove m a0) s (fun t => t.listener (a0 % 256) = none ∧ t.net.talkers = s.stage.net.talkers
        ∧ Recorded s.stage (pNet 0) c stDone 0#32 t)) ∧
      (s.stage.listener (a0 % 256) = none → Done (.streamRemove m a0) s (fun t => t.net = s.stage.net ∧ Recorded s.stage (pNet 0) c stRefused 0#32 t)))) ∧
  (∀ p sync up full speed f c k, p < 8 → Frame [.netLinkChange p sync up full speed, .sgmiiSpeedChange p speed] [pNet p] [.net, .reh] ∧
    Frame [.netFrameRx p f, .mgmtFrameSend p f] [pNet p] [] ∧ Frame [.listenerPacketRx p f] [] [.net] ∧ Frame [.talkerPacketSend c k] ((upTo 9).map pNet) [.net])

/-- A datagram on a port with a link is checked while the channel is enabled: the first check it fails is counted, latched and raised, with no reply; one that passes counts and moves the slot's sequence number on, and its message waits, unless its code or its right calls for a reply at once. GO and GO_AT trigger their cue as sources 3 and 4 and answer with the handle, or with the reason for a refusal. WRITE answers as the Grid does, and writes a register that a management write may write, but for guarded ones and the expert area, which are denied. READ answers with the value. MAILBOX goes to the firmware, but not during a hot restart. A message that is not of a command's kind is left alone (R295, R432, R443, R444, R445, R446, R447). -/
def Obligations.ControlDatagrams : Prop :=
  (∀ (s : State) (p : Nat) (f : List Byte), LiveNet s p →
    ((s.stage.fate p f ≠ .cdg ∨ s.stage.flag (pNet 0) 0x11C 31 = false) → Done (.controlDatagramRx p f) s (fun t => Keeps [] [] s.stage t)) ∧
    (∀ u, s.stage.fate p f = .cdg → s.stage.flag (pNet 0) 0x11C 31 = true → parseUdp (f.take (f.length - 4)) = some u →
      (∀ n, s.stage.cdgCheck u.data = some n → Done (.controlDatagramRx p f) s (fun t => t.net = s.stage.net ∧ t.regN (pNet 0) 0x148 = n ∧ Raises (pNet 0) 9 t
        ∧ t.regN (pNet 0) 0x144 = min 0xFFFFFFFF (s.stage.regN (pNet 0) 0x144 + 1))) ∧
      (s.stage.cdgCheck u.data = none → ∀ m : CdgMsg, m =
        { port := p, mac := u.smac, vid := u.vid, ip := u.sip, udp := u.sport, slot := be u.data 5 1,
          seq := be u.data 8 8, code := be u.data 30 1, body := (u.data.drop 32).take (be u.data 6 2) } →
        Done (.controlDatagramRx p f) s (fun t => Tab.get 0 t.net.cdgSeq m.slot = m.seq ∧ t.regN (pNet 0) 0x140 = min 0xFFFFFFFF (s.stage.regN (pNet 0) 0x140 + 1)
          ∧ (∀ r, cdgRight m.code = some r → bit (s.stage.cdgRights m.slot) r = true → t.net.cdg = s.stage.net.cdg ++ [m])
          ∧ (∀ r, cdgRight m.code = some r → bit (s.stage.cdgRights m.slot) r = false → t.net.cdg = s.stage.net.cdg ∧ Answers s.stage m cdgDenied 0 t)
          ∧ (cdgRight m.code = none → t.net.cdg = s.stage.net.cdg ∧ Answers s.stage m cdgRefused 0 t))))) ∧
  (∀ s : State, Live s .net 0 → (∀ e ∈ [(Instr.cdgGo, 1), (.cdgGoAt, 2), (.cdgWrite, 3), (.cdgRead, 4), (.cdgMailbox, 5)],
    (∀ m l, s.stage.net.cdg = m :: l → m.code ≠ e.2) → Done e.1 s (fun t => Keeps [] [] s.stage t))) ∧
  (∀ (s : State) (m : CdgMsg) (l : List CdgMsg), Live s .net 0 → s.stage.net.cdg = m :: l →
    (∀ e ∈ [(Instr.cdgGo, 1, 4), (.cdgGoAt, 2, 18)], m.code = e.2.1 →
      (m.body.length ≠ e.2.2 → Done e.1 s (fun t => t.net.cdg = l ∧ t.prompt = s.stage.prompt ∧ Answers s.stage m cdgRefused 0 t)) ∧
      (m.body.length = e.2.2 → (m.code = 2 → be m.body 12 4 < 1000000000) →
        (s.stage.flag pPrompt 0x080 5 = false → Done e.1 s (fun t => t.net.cdg = l ∧ t.prompt = s.stage.prompt ∧ Answers s.stage m cdgRefused 9 t)) ∧
        (s.stage.flag pPrompt 0x080 5 = true → ∀ q, bit (be m.body 0 4) 31 = false → q = bits (be m.body 0 4) 11 0 → TakesCue s.stage (m.code + 2) q →
          (m.code = 2 → s.stage.now ≤ timeOf m.body 4 + s.stage.cuePre q) →
          Done e.1 s (fun t => t.net.cdg = l ∧ (∃ tr ∈ t.prompt.trigs, tr.seq = s.stage.nextSeq pPrompt ∧ tr.cue = q ∧ tr.src = m.code + 2)
            ∧ Answers s.stage m cdgAccepted (handleOf pPrompt (s.stage.nextSeq pPrompt)) t)))) ∧
    (m.code = 2 → m.body.length = 18 → 1000000000 ≤ be m.body 12 4 → Done .cdgGoAt s (fun t => t.net.cdg = l ∧ Answers s.stage m cdgRefused 11 t)) ∧
    (m.code = 3 → ∀ (k : PageKind) (i p off v : Nat), p = be m.body 0 2 → off = be m.body 2 2 → v = be m.body 4 4 → p = k.page i →
      ((m.body.length ≠ 8 ∨ s.stage.restarting = true) → Done .cdgWrite s (fun t => t.net.cdg = l ∧ Answers s.stage m cdgRefused 0 t)) ∧
      (m.body.length = 8 → s.stage.restarting = false → (0x400 ≤ off ∨ (pageOf p = some (k, i) ∧ (regDef k i off).isSome = true ∧ 2 ≤ (rowOf k i off).prot)) →
        Done .cdgWrite s (fun t => t.net.cdg = l ∧ Answers s.stage m cdgDenied 0 t)) ∧
      (m.body.length = 8 → s.stage.restarting = false → 0x080 ≤ off → off < 0x400 → (rowOf k i off).prot < 2 → k ≠ .pool → ¬ (k = .net ∧ off = 0x0B4) → ¬ (k = .bat ∧ (off = 0x090 ∨ off = 0x094)) →
        (∀ (x : Stage) old w, x.written k i off old w = x) → Passes s mgmt k i off v → s.stage.winMap 0 (p * 4096 + off) 4 true = some (p * 4096 + off) →
        Done .cdgWrite s (fun t => t.net.cdg = l ∧ t.bus = s.stage.bus ∧ Answers s.stage m cdgAccepted 0 t
          ∧ t.regN p off = (rowOf k i off).merge (s.stage.regN p off) (regWord k i off v)))) ∧
    (m.code = 4 → ∀ (x : Stage) (off : Nat), off = be m.body 2 2 →
      x = ({ s.stage with net := { s.stage.net with cdg := l } }).gridReadCore mgmt 0 (be m.body 0 2 * 4096 + off) 4 none →
      ((m.body.length ≠ 4 ∨ 0x1000 ≤ off ∨ s.stage.restarting = true) → Done .cdgRead s (fun t => t.net.cdg = l ∧ Answers s.stage m cdgRefused 0 t)) ∧
      (m.body.length = 4 → off < 0x1000 → s.stage.restarting = false → Done .cdgRead s (fun t => t.net.cdg = l ∧ t.bus = s.stage.bus
        ∧ (x.bus.resp = .okay → Answers s.stage m cdgAccepted (ofLeBytes x.bus.data) t) ∧ (x.bus.resp = .denied → Answers s.stage m cdgDenied 0 t)
        ∧ (x.bus.resp ≠ .okay → x.bus.resp ≠ .denied → Answers s.stage m cdgRefused 0 t)))) ∧
    (m.code = 5 →
      (m.body = [] ∨ s.stage.restarting = true → Done .cdgMailbox s (fun t => t.net.cdg = l ∧ Answers s.stage m cdgRefused 0 t)) ∧
      (m.body ≠ [] → s.stage.restarting = false → Done .cdgMailbox s (fun t => t.net.cdg = l ∧ Out.cdgToFirmware m.slot m.body ∈ t.outs
        ∧ Answers s.stage m cdgAccepted 0 t)))) ∧
  (∀ p f, p < 8 → Frame [.controlDatagramRx p f] ((upTo 8).map pNet) [.net]) ∧
  (∀ (s t : State) (m : CdgMsg) (l : List CdgMsg), s.stage.net.cdg = m :: l → m.port < 8 →
    (exec .cdgMailbox s = .next t → Keeps ((upTo 8).map pNet) [.net] s.stage t.stage) ∧
    (∀ c ∈ [Instr.cdgGo, .cdgGoAt], exec c s = .next t → Keeps ([0, pPrompt, 0x260] ++ (upTo 8).map pNet) [.cmds, .ring, .mem, .links, .prompt, .net] s.stage t.stage))

/-- LOAN and REH_CFG take what is written, and what is taken back recalls its loans. A bank that is offered, sound, idle and not handed over is borrowed and goes on where it left off. A block that passes leads to the next, and after the last the other background; one that fails is tested again and a second failure fails the bank. An owner's access recalls a loan, whose end keeps the place. The scrub moves on, corrects a single error and counts an uncorrectable one; a period without a whole pass is reported. A self-test segment passes, is run again or fails its processor. The report of an instant is latched with its number and CRC, and written when enabled; CLEAR_FAIL clears the maps and answers how many bits. An owner register starts the handovers of the ports that change, or is refused while one of them is being handed over; at the drain's end the new owner has the port. ECC_INJECT takes a legal value and a read of ECC_LAST_HI releases the latch (R493, R494, R495, R497, R498, R500, R507, R509, R510, R520, R521, R529). -/
def Obligations.RehearsalAndPool : Prop :=
  (∀ (s : State) (m : Master) (i v off : Nat),
    (off = 0x090 + 4 * (i % 8) → Passes s m .rehearsal 0 off v → Done (.loanWrite m i v) s (fun t => Written s .rehearsal 0 off v t
      ∧ ∀ k l, k < 32 → s.stage.loanOffered (32 * (i % 8) + k) = true → t.loanOffered (32 * (i % 8) + k) = false →
          s.stage.loan (32 * (i % 8) + k) = some l → t.loan (32 * (i % 8) + k) = some { l with recalled := true })) ∧
    (Passes s m .rehearsal 0 0x080 v → Done (.rehCfgWrite m v) s (fun t => Written s .rehearsal 0 0x080 v t
      ∧ (bit v 0 = false → ∀ b l, s.stage.loan b = some l → t.loan b = some { l with recalled := true })
      ∧ (bit v 0 = true → t.reh.loans = s.stage.reh.loans))) ∧
    (0x100 ≤ off → off < 0x300 → Passes s m .pool 0 off v →
      ((∀ f ∈ s.stage.ownerChanges off (regWord .pool 0 off v), s.stage.handingTo f.1 f.2.1 = none) → Done (.ownerWrite m off v) s (fun t =>
        t.bus.resp = .okay ∧ t.pool.pend = s.stage.pool.pend ++ s.stage.ownerChanges off (regWord .pool 0 off v)
        ∧ ∀ b p, t.bankOwner b p = s.stage.bankOwner b p)) ∧
      ((∃ f ∈ s.stage.ownerChanges off (regWord .pool 0 off v), s.stage.handingTo f.1 f.2.1 ≠ none) → Done (.ownerWrite m off v) s (fun t =>
        t.bus.resp = .refused ∧ Keeps [] [.bus] s.stage t))) ∧
    (Passes s m .pool 0 0x400 v → Done (.eccInjectWrite m v) s (fun t => Written s .pool 0 0x400 v t)) ∧
    (Live s .pool 0 → Done (.eccLastHiRead m) s (fun t => t.bus.resp = .okay ∧ t.bus.data = leBytes 4 (s.stage.regN pPool 0x0A0)
      ∧ t.pool = { s.stage.pool with latched := false } ∧ Keeps [] [.bus, .pool] s.stage t)) ∧
    (Ready s pReh → RingFree s.stage → Done (.clearFail m) s (fun t => Recorded s.stage pReh (s.stage.issuedCmd m pReh 1 []) stDone
        (Word.ofNat (s.stage.bankFails + popCount 32 (s.stage.regN pReh 0x0D0) + popCount 32 (s.stage.regN pReh 0x0D4) + popCount 32 (s.stage.regN pReh 0x0D8))) t
      ∧ t.bankFails = 0 ∧ t.regN pReh 0x0D0 = 0 ∧ t.regN pReh 0x0D4 = 0 ∧ t.regN pReh 0x0D8 = 0 ∧ t.reh.poolUe = false))) ∧
  (∀ (s : State) (b r : Nat), s.stage.dieUp = true →
    (b < 256 → s.stage.rehOn 0 = true → s.stage.loanOffered b = true → s.stage.bankFailed b = false → s.stage.loan b = none →
      (s.stage.bankOwner b false = 0x45 ∨ Tab.get 0 s.stage.reh.lastUse b + s.stage.fld pReh 0x088 9 0 * 1000000 * unit ≤ r) →
      s.stage.handingTo b false = none → s.stage.handingTo b true = none → s.stage.fld 0x2D0 0x090 8 8 = 1 → s.stage.flag 0x2D0 0x090 28 = false →
      Done (.bankBorrow b r) s (fun t => t.loan b = some (Tab.get {} s.stage.reh.resume b) ∧ b ∈ t.reh.borrowed ∧ t.datum = (s.stage.tick r).datum)) ∧
    ((256 ≤ b ∨ s.stage.rehOn 0 = false ∨ s.stage.loanOffered b = false ∨ s.stage.bankFailed b = true ∨ s.stage.loan b ≠ none) →
      Done (.bankBorrow b r) s (fun t => t.reh = s.stage.reh)) ∧
    (∀ bad, s.stage.loan b = none → Done (.marchBlockDone b bad) s (fun t => Keeps [] [] s.stage t)) ∧
    (∀ l, s.stage.loan b = some l →
      (∀ bad, l.recalled = true → Done (.marchBlockDone b bad) s (fun t => Keeps [] [] s.stage t)) ∧
      (l.recalled = false → s.stage.ecc = [] →
        (l.suspect = false → Done (.marchBlockDone b true) s (fun t => t.loan b = some { l with suspect := true })) ∧
        (l.suspect = true → Done (.marchBlockDone b true) s (fun t => t.loan b = none ∧ t.bankFailed b = true ∧ Raises pReh 0 t)) ∧
        (l.block < 63 → Done (.marchBlockDone b false) s (fun t => t.loan b = some { l with block := l.block + 1, suspect := false }
          ∧ (l.suspect = true → Raises pReh 3 t ∧ t.regN pReh 0x0E8 = min 0xFFFFFFFF (s.stage.regN pReh 0x0E8 + 1)))) ∧
        (63 ≤ l.block → Done (.marchBlockDone b false) s (fun t => t.loan b = some { block := 0, bg := !l.bg }
          ∧ bit (Tab.get 0 t.reh.marched b) (if l.bg then 1 else 0) = true))) ∧
      (s.stage.awaited b ≠ [] → Done (.bankRecall b) s (fun t => t.loan b = some { l with recalled := true })) ∧
      (l.recalled = true → s.stage.ecc = [] → s.stage.grid.stalled = [] → Done (.recallComplete b r) s (fun t => t.loan b = none
        ∧ Tab.get {} t.reh.resume b = { block := l.block, bg := l.bg } ∧ t.regN pReh 0x0E0 = min 0xFFFFFFFF (s.stage.regN pReh 0x0E0 + 1)))) ∧
    ((s.stage.awaited b = [] ∨ s.stage.loan b = none) → Done (.bankRecall b) s (fun t => Keeps [] [] s.stage t)) ∧
    (s.stage.grid.stalled = [] → (∀ l, s.stage.loan b = some l → l.recalled = false) → Done (.recallComplete b r) s (fun t => Keeps [] [.datum] s.stage t)) ∧
    (∀ (p : Bool), b < 256 → s.stage.grid.stalled = [] →
      (∀ new, s.stage.handingTo b p = some new → new < 256 → s.stage.loan b = none → Done (.handoverComplete b p) s (fun t => t.bankOwner b p = new
        ∧ t.handingTo b p = none ∧ Raises pPool 2 t ∧ t.regN pPool 0x080 = min 0xFFFFFFFF (s.stage.regN pPool 0x080 + 1))) ∧
      ((s.stage.handingTo b p = none ∨ s.stage.loan b ≠ none) → Done (.handoverComplete b p) s (fun t => Keeps [] [] s.stage t)))) ∧
  (∀ s : State, s.stage.dieUp = true →
    (∀ mem addr page upset words,
      (s.stage.rehOn 1 = false → Done (.scrubRead mem addr page upset words) s (fun t => Keeps [] [] s.stage t)) ∧
      (s.stage.rehOn 1 = true →
        Done (.scrubRead mem addr page upset words) s (fun t => (s.stage.reh.scrubPos + words < 2097152 → t.reh.scrubPos = s.stage.reh.scrubPos + words)
          ∧ (2097152 ≤ s.stage.reh.scrubPos + words → t.reh.scrubPos = 0 ∧ t.reh.scrubOnce = true)) ∧
        (mem = 0 → s.stage.flips addr = 0 → ∀ u, upset = [u] → Done (.scrubRead mem addr page upset words) s (fun t => t.flips addr = 0
          ∧ t.regN pPool 0x094 = min 0xFFFFFFFF (s.stage.regN pPool 0x094 + 1) ∧ t.regN pPool 0x098 = s.stage.regN pPool 0x098)) ∧
        (mem = 0 → s.stage.flips addr = 0 → ∀ u w, upset = [u, w] → u % 266 ≠ w % 266 → Done (.scrubRead mem addr page upset words) s (fun t => t.lost addr = true
          ∧ t.regN pPool 0x098 = min 0xFFFFFFFF (s.stage.regN pPool 0x098 + 1) ∧ t.regN pPool 0x094 = s.stage.regN pPool 0x094)) ∧
        (mem ≠ 0 → 2 ≤ upset.length → Done (.scrubRead mem addr page upset words) s (fun t =>
          t.regN pPool 0x098 = min 0xFFFFFFFF (s.stage.regN pPool 0x098 + 1))))) ∧
    (s.stage.rehOn 1 = true → Done .scrubPeriodEnd s (fun t => t.reh.scrubPeriod = false ∧ (s.stage.reh.scrubPeriod = false → Raises pReh 4 t))) ∧
    (s.stage.rehOn 1 = false → Done .scrubPeriodEnd s (fun t => Keeps [] [] s.stage t)) ∧
    (∀ k g, Live s .sp k → g < 64 → s.stage.segmentMay k = true →
      ((k, g) ∉ s.stage.reh.rerun → Done (.selftestSegmentDone k g false) s (fun t => t.reh.rerun = s.stage.reh.rerun ++ [(k, g)])) ∧
      ((k, g) ∈ s.stage.reh.rerun → Done (.selftestSegmentDone k g false) s (fun t => (k, g) ∉ t.reh.rerun ∧ t.flag pReh (0x0D0 + 4 * (k / 32)) (k % 32) = true
        ∧ Raises pReh 1 t)) ∧
      Done (.selftestSegmentDone k g true) s (fun t => (k, g) ∉ t.reh.rerun ∧ bit (Tab.get 0 t.reh.segs k) g = true
        ∧ ((k, g) ∈ s.stage.reh.rerun → Raises pReh 3 t))) ∧
    (∀ n, rehMode s.stage.mode = false → Done (.healthReport n) s (fun t => Keeps [] [] s.stage t)) ∧
    (∀ n ws, rehMode s.stage.mode = true → ws = s.stage.reportWords ((s.stage.regN pReh 0x0F4 + 1) % 2 ^ 32) (n * 10000000 * unit) →
      Done (.healthReport n) s (fun t => t.regN pReh 0x0F4 = (s.stage.regN pReh 0x0F4 + 1) % 2 ^ 32 ∧ t.regN pReh 0x100 = t.regN pReh 0x0F4
        ∧ t.regN pReh 0x104 = n * 10000000 % 1000000000 ∧ t.regN pReh 0x13C = crc32c (ws.flatMap (leBytes 4)) ∧ Raises pReh 6 t
        ∧ (s.stage.flag pReh 0x080 4 = true → ∃ a d, t.reh.report = some (a, d) ∧ a = s.stage.regN pReh 0x0EC + s.stage.fld pReh 0x0F0 3 0 * 2 ^ 32
            ∧ d = (ws ++ [t.regN pReh 0x13C]).flatMap (leBytes 4))
        ∧ (s.stage.flag pReh 0x080 4 = false → t.reh.report = s.stage.reh.report))) ∧
    (∀ ext, s.stage.reh.report = none → Done (.reportWriteComplete ext) s (fun t => Keeps [] [] s.stage t)) ∧
    (∀ ext a d, s.stage.reh.report = some (a, d) → burstOk a d.length = true →
      (∀ g, s.stage.winMap 3 a d.length true = some g → 0x10000000 ≤ g → g + d.length ≤ 0x100F8000 → s.stage.ecc = [] →
        Done (.reportWriteComplete ext) s (fun t => t.reh.report = none ∧ Stores s.stage g (d.map fun x => (x, true)) t
          ∧ t.flag pReh 0x014 7 = s.stage.flag pReh 0x014 7)) ∧
      (s.stage.winMap 3 a d.length true = none → Done (.reportWriteComplete ext) s (fun t => t.reh.report = none ∧ Raises pReh 7 t ∧ Raises 1 0 t)))) ∧
  (∀ b r bad mem addr page upset words k g ok n i, Frame [.bankBorrow b r] [] [.datum, .reh] ∧ Frame [.bankRecall b] [] [.reh] ∧
    Frame [.healthReport n] [pReh] [.reh] ∧ Frame [.marchBlockDone b bad, .scrubRead mem addr page upset words, .scrubPeriodEnd, .selftestSegmentDone k g ok]
      [pReh, pPool, 0x2A0] [.exch, .bats, .red, .ecc, .pool, .reh] ∧
    (i < 24 → Frame [.loopbackTestEnd i ok] [pReh, 0x260, 0x270, 0x271, 0x272, 0x273, 0x2A0, lanePage i] [.bats, .links, .red, .net, .reh]))

/-- A transaction that breaks a burst rule gets FAULT and one that no window permits DENIED, each counted and raised; else a beat of management memory is stored or read, and an aligned word of the Gallery writes or reads its register. One that waits completes with FAULT at its timeout or with ABORTED at its master's reset. A request to a BAR before GRID_LOCK or outside is no request; else it is answered as its transaction ends. A Catwalk path that is not usable is refused and raised. A soft reset clears EVENT and keeps EVENT_EN; EVENT_FORCE sets events; RING_TAIL lets a waiting record enter. RESTORE_FACTORY copies the areas; CAL_SAVE_USER writes the user record in any mode and CAL_SAVE_FACTORY the factory record in SERVICE alone; FW_LOAD makes its checks in order and writes the other slot; FW_RESTART, FW_READY and the fallback set the running slot and end the command (R537, R540, R541, R551, R550, R560, R573, R570, R581, R587, R588, R589). -/
def Obligations.GridHostAndSystem : Prop :=
  (∀ (s : State) (m : Master) (id a : Nat) (d : List (Byte × Bool)) (clash : List Nat) (ext : Bool), s.stage.dieUp = true → s.stage.masterHolds m id = false →
    (burstOk a d.length = false → Done (.gridWrite m id a d clash ext) s (fun t => t.bus.resp = .fault ∧ Raises 1 1 t ∧ t.mem = s.stage.mem
      ∧ t.regN 1 0x0A8 = min 0xFFFFFFFF (s.stage.regN 1 0x0A8 + 1))) ∧
    (burstOk a d.length = true → s.stage.winMap m.cls a d.length true = none → Done (.gridWrite m id a d clash ext) s (fun t => t.bus.resp = .denied ∧ Raises 1 0 t
      ∧ t.mem = s.stage.mem ∧ t.regN 1 0x0A4 = min 0xFFFFFFFF (s.stage.regN 1 0x0A4 + 1) ∧ t.grid.lastErr.1 = a % 2 ^ 32)) ∧
    (∀ g, s.stage.winMap m.cls a d.length true = some g → PlainBeat s.stage g d.length →
      Done (.gridWrite m id a d clash ext) s (fun t => t.bus.resp = .okay ∧ Stores s.stage g d t)) ∧
    (∀ k i v, Live s k i → s.stage.winMap m.cls a 4 true = some (k.page i * 4096 + 0x018) → d = (leBytes 4 v).map (fun x => (x, true)) →
      Done (.gridWrite m id a d clash ext) s (fun t => t.bus.resp = .okay ∧ t.regN (k.page i) 0x018 = Nat.land v (eventMask k i)))) ∧
  (∀ (s : State) (m : Master) (id a len : Nat) (ext : Option (List Byte)), s.stage.dieUp = true → s.stage.masterHolds m id = false →
    (burstOk a len = false → Done (.gridRead m id a len ext) s (fun t => t.bus.resp = .fault ∧ Raises 1 1 t
      ∧ t.regN 1 0x0A8 = min 0xFFFFFFFF (s.stage.regN 1 0x0A8 + 1))) ∧
    (burstOk a len = true → s.stage.winMap m.cls a len false = none → Done (.gridRead m id a len ext) s (fun t => t.bus.resp = .denied ∧ Raises 1 0 t
      ∧ t.bus.data = List.replicate len 0#8 ∧ t.regN 1 0x0A4 = min 0xFFFFFFFF (s.stage.regN 1 0x0A4 + 1))) ∧
    (∀ g, s.stage.winMap m.cls a len false = some g → PlainBeat s.stage g len →
      Done (.gridRead m id a len ext) s (fun t => t.bus.resp = .okay ∧ t.bus.data = s.stage.rdBytes g len)) ∧
    (∀ k i, Live s k i → len = 4 → s.stage.winMap m.cls a 4 false = some (k.page i * 4096 + 0x018) → (regDef k i 0x018).isSome = true →
      Done (.gridRead m id a len ext) s (fun t => t.bus.resp = .okay ∧ t.bus.data = leBytes 4 (s.stage.regN (k.page i) 0x018)))) ∧
  (∀ (s : State) (m : Master) (id : Nat), s.stage.dieUp = true →
    ((∀ x ∈ s.stage.grid.stalled, ¬ (x.master = m ∧ x.id = id)) → Done (.gridTimeout m id) s (fun t => Keeps [] [] s.stage t)) ∧
    (∀ x, s.stage.grid.stalled = [x] → x.master = m → x.id = id → Done (.gridTimeout m id) s (fun t => t.grid.stalled = [] ∧ Raises 1 3 t
      ∧ t.regN 1 0x0AC = min 0xFFFFFFFF (s.stage.regN 1 0x0AC + 1) ∧ t.mem = s.stage.mem
      ∧ (x.pcie = false → Out.late m id .fault [] ∈ t.outs) ∧ (x.pcie = true → x.wr = none → Out.pcieCpl 4 [] ∈ t.outs))) ∧
    (∀ h n, h = s.stage.grid.stalled.filter (fun x => x.master.cls == m.cls && x.master.idx == m.idx) →
      n = h.length + (if m.cls = 7 then (s.stage.sp m.idx).far.length else 0) →
      (n = 0 → Done (.masterReset m) s (fun t => Keeps [] [] s.stage t)) ∧
      (n ≠ 0 → Done (.masterReset m) s (fun t => t.grid.stalled = s.stage.grid.stalled.filter (fun x => !(x.master.cls == m.cls && x.master.idx == m.idx))
        ∧ (∀ x ∈ h, Out.late x.master x.id .aborted [] ∈ t.outs) ∧ (m.cls = 7 → (t.sp m.idx).far = []) ∧ Raises 1 2 t
        ∧ t.regN 1 0x0B0 = min 0xFFFFFFFF (s.stage.regN 1 0x0B0 + n)))) ∧
    (Passes s m .grid 0 0x080 1 → s.stage.grid.stalled = [] → Done (.gridLockSet m) s (fun t => t.bus.resp = .okay ∧ t.grid.lock = true ∧ t.lockDue = true
      ∧ t.regN 1 0x080 = 1 ∧ t.grid.wins = s.stage.grid.wins)) ∧
    (∀ first n,
      (s.stage.catOk 0 = true → Done (.fuseRead first n) s (fun t => Keeps [] [] s.stage t
        ∧ Out.fuse ((List.range n).map fun i => (Config.fuseWord (first + i)).toNat) ∈ t.outs)) ∧
      (s.stage.catOk 0 = false → Done (.fuseRead first n) s (fun t => Raises 1 4 t ∧ Out.catRefused ∈ t.outs))) ∧
    (∀ slot w,
      (s.stage.grid.lock = true → Done (.keyStoreWrite slot w) s (fun t => Raises 1 4 t ∧ Out.catRefused ∈ t.outs ∧ t.net = s.stage.net)) ∧
      (s.stage.grid.lock = false → slot < 8 → Done (.keyStoreWrite slot w) s (fun t =>
        (∀ k, keyUnwrap ((List.range 32).map Config.kek) w = some k → Tab.get [] t.net.keys slot = k ∧ t.flag (pNet 0) (0x120 + 4 * slot) 31 = true)
          ∧ (keyUnwrap ((List.range 32).map Config.kek) w = none → Keeps [] [] s.stage t))) ∧
      (s.stage.grid.lock = false → 8 ≤ slot → Done (.keyStoreWrite slot w) s (fun t => Keeps [] [] s.stage t))) ∧
    (∀ code ok, (ok = true ↔ s.stage.catOk 2 = true ∧ ((s.stage.mode = mBoot ∧ s.stage.vmin ≤ code ∧ code ≤ s.stage.vmax) ∨ (s.stage.mode = mService ∧ code ≤ 96))) →
      (ok = true → Done (.levelDirectCommand code) s (fun t => t.vcoreNow = code ∧ t.level.frames = s.stage.level.frames ++ [.voltageWrite code false])) ∧
      (ok = false → Done (.levelDirectCommand code) s (fun t => Raises 1 4 t ∧ Out.catRefused ∈ t.outs ∧ t.vcoreNow = s.stage.vcoreNow ∧ t.level = s.stage.level)))) ∧
  (∀ (s : State) (m : Master) (k : PageKind) (i p v : Nat), p = k.page i → Live s k i →
    (k ≠ .sys → Done (.softReset m p) s (fun t => t.bus.resp = .okay ∧ t.queue p = [] ∧ (∀ b, b ≠ 29 → t.flag p 0x014 b = false)
      ∧ t.reg p 0x018 = s.stage.reg p 0x018 ∧ t.grid.lock = s.stage.grid.lock)) ∧
    Done (.eventForceWrite m p v) s (fun t => t.bus.resp = .okay
      ∧ ∀ b, b ≠ 29 → t.flag p 0x014 b = (s.stage.flag p 0x014 b || (bit v b && bit (eventMask k i) b)))) ∧
  (∀ (s : State) (m : Master) (v : Nat), Passes s m .sys 0 0x0C4 v →
    (s.stage.recStore = [] → Done (.ringTailWrite m v) s (fun t => Written s .sys 0 0x0C4 v t ∧ t.regN 0 0x0C0 = s.stage.regN 0 0x0C0 ∧ t.mem = s.stage.mem)) ∧
    (∀ r, s.stage.recStore = [r] → s.stage.recHeld = [] → s.stage.ecc = [] → (s.stage.fld 0 0x0C0 10 0 + 2048 - v % 2048) % 2048 < 1024 →
      Done (.ringTailWrite m v) s (fun t => Written s .sys 0 0x0C4 v t ∧ t.recStore = [] ∧ t.regN 0 0x0C0 = (s.stage.fld 0 0x0C0 10 0 + 1) % 2048
        ∧ t.rd32 (ringBase + 32 * (s.stage.fld 0 0x0C0 10 0 % 1024)) = Word.ofNat r.handle))) ∧
  (∀ s : State, s.stage.dieUp = true →
    (∀ cfg, (s.stage.host.linkUp = false → Done (.pcieConfigRequest cfg) s (fun t => Keeps [] [] s.stage t)) ∧
      (s.stage.host.linkUp = true → s.stage.grid.lock = false → Done (.pcieConfigRequest cfg) s (fun t => Keeps [] [] s.stage t ∧ Out.pcieCpl 2 [] ∈ t.outs)) ∧
      (s.stage.host.linkUp = true → s.stage.grid.lock = true → Done (.pcieConfigRequest cfg) s (fun t => Out.pcieCpl 0 [] ∈ t.outs
        ∧ (∀ e, cfg = some e → t.host = { s.stage.host with bme := e.1, msixEn := e.2.1, funcMask := e.2.2 }) ∧ (cfg = none → t.host = s.stage.host)))) ∧
    (∀ speed width,
      (s.stage.host.linkUp = true → Done (.pcieLinkUp speed width) s (fun t => Keeps [] [] s.stage t)) ∧
      (s.stage.host.linkUp = false → Done (.pcieLinkUp speed width) s (fun t => t.host.linkUp = true ∧ t.host.speed = speed % 4 ∧ t.host.width = width % 8
        ∧ Raises 0x300 0 t))) ∧
    (s.stage.host.linkUp = false → Done .pcieLinkDown s (fun t => Keeps [] [] s.stage t)) ∧
    (s.stage.host.linkUp = true → Done .pcieLinkDown s (fun t => t.host = {} ∧ Raises 0x300 1 t
      ∧ ∀ x ∈ t.grid.stalled, ¬ (x.master.cls = 1 ∧ x.master.idx = 0))) ∧
    (∀ (bar0 : Bool) (id a : Nat) (wr : Option (List (Byte × Bool))) (len n size : Nat), n = (match wr with | some d => d.length | none => len) →
      size = (if bar0 then 24 else s.stage.fld 0x300 0x080 5 0) →
      ((s.stage.host.linkUp = false ∨ s.stage.grid.lock = false ∨ size = 0 ∨ 2 ^ size < a + n) → Done (.pcieInboundRequest bar0 id a wr len) s (fun t =>
        Keeps [] [] s.stage t ∧ (wr = none → Out.pcieCpl 1 [] ∈ t.outs))) ∧
      (s.stage.host.linkUp = true → s.stage.grid.lock = true → size ≠ 0 → a + n ≤ 2 ^ size →
        (burstOk a n = true → s.stage.barMap bar0 a n wr.isSome = none → Done (.pcieInboundRequest bar0 id a wr len) s (fun t => Raises 1 0 t
          ∧ t.regN 1 0x0A4 = min 0xFFFFFFFF (s.stage.regN 1 0x0A4 + 1) ∧ (wr = none → Out.pcieCpl 4 [] ∈ t.outs)
          ∧ (wr ≠ none → Raises 0x300 2 t ∧ t.regN 0x300 0x098 = min 0xFFFFFFFF (s.stage.regN 0x300 0x098 + 1)))) ∧
        (s.stage.masterHolds hostMaster id = false → burstOk a n = true → ∀ g, s.stage.barMap bar0 a n wr.isSome = some g → PlainBeat s.stage g n →
          (∀ d, wr = some d → Done (.pcieInboundRequest bar0 id a wr len) s (fun t => Stores s.stage g d t ∧ t.regN 0x300 0x098 = s.stage.regN 0x300 0x098)) ∧
          (wr = none → Done (.pcieInboundRequest bar0 id a wr len) s (fun t => Out.pcieCpl 0 (s.stage.rdBytes g n) ∈ t.outs))) ∧
        (s.stage.masterHolds hostMaster id = false → burstOk a 4 = true → n = 4 → ∀ k i v, Live s k i →
          s.stage.barMap bar0 a 4 true = some (k.page i * 4096 + 0x018) → wr = some ((leBytes 4 v).map fun x => (x, true)) →
          Done (.pcieInboundRequest bar0 id a wr len) s (fun t => t.regN (k.page i) 0x018 = Nat.land v (eventMask k i)))))) ∧
  (∀ (s : State) (m : Master) (a0 a1 a2 : Nat), Ready s 0 → RingFree s.stage →
    (∀ c l, c = s.stage.issuedCmd m 0 1 [Word.ofNat a0] → l = (if a0 % 4096 = 0 then calPages else calPages.filter (· == a0 % 4096)) →
      (l = [] → Done (.restoreFactory m a0) s (fun t => Recorded s.stage 0 c stRefused 0#32 t)) ∧
      (l ≠ [] → Done (.restoreFactory m a0) s (fun t => Recorded s.stage 0 c stDone (Word.ofNat l.length) t
        ∧ ∀ p ∈ l, ∀ j, j < 32 → t.reg p (0xF00 + 4 * j) = s.stage.reg p (0xF80 + 4 * j)))) ∧
    (∀ f : Bool, ∀ c, c = s.stage.issuedCmd m 0 (if f then 5 else 4) [] →
      (f = true → s.stage.mode ≠ mService → Done (.calSaveFactory m) s (fun t => t.flash = s.stage.flash ∧ Recorded s.stage 0 c stRefused 0#32 t)) ∧
      ((f = true → s.stage.mode = mService) → Done (if f then .calSaveFactory m else .calSaveUser m) s (fun t =>
        (Config.flashOk s.stage.fresh = true → Recorded s.stage 0 c stDone 0#32 t
          ∧ ∀ j, j < 4096 → some (t.flash8 ((if f then 0x1000 else 0x2000) + j)) = (s.stage.calRecordBytes f)[j]?) ∧
        (Config.flashOk s.stage.fresh = false → Recorded s.stage 0 c stFailed (Word.ofNat (4 * 2 ^ 24)) t)))) ∧
    (∀ c src len, c = s.stage.issuedCmd m 0 2 [Word.ofNat a0, Word.ofNat a1, Word.ofNat a2] → src = a0 % 2 ^ 32 + a1 % 16 * 2 ^ 32 → len = a2 % 2 ^ 32 →
      (a0 % 32 ≠ 0 → Done (.fwLoad m a0 a1 a2) s (fun t => t.flash = s.stage.flash ∧ Recorded s.stage 0 c stRefused 0#32 t)) ∧
      (a0 % 32 = 0 →
        (∀ x, s.stage.winSpan src (max 1 len) = .error x → Done (.fwLoad m a0 a1 a2) s (fun t => Recorded s.stage 0 c stFailed (Word.ofNat (1 * 2 ^ 24)) t
          ∧ t.flag 0 0x0D8 28 = false ∧ Raises 1 0 t)) ∧
        (∀ a bad, s.stage.winSpan src (max 1 len) = .ok a → bad = (if len ≠ 0 ∧ s.stage.imgHeld a len = false then some 1 else if len = 0 ∨ 8388608 < len then some 2
            else if signatureOk (fun o => s.stage.rd8 (a + o)) len = false then some 3 else if Config.flashOk s.stage.fresh = false then some 4 else none) →
          Done (.fwLoad m a0 a1 a2) s (fun t => (∀ r, bad = some r → Recorded s.stage 0 c stFailed (Word.ofNat (r * 2 ^ 24)) t ∧ t.flag 0 0x0D8 28 = false)
            ∧ (bad = none → Recorded s.stage 0 c stDone 0#32 t ∧ t.flag 0 0x0D8 28 = true
              ∧ ∀ o, o < len → t.flash8 (slotBase (1 - s.stage.fwSlot) + o) = s.stage.rd8 (a + o)))))) ∧
    (∀ c, c = s.stage.issuedCmd m 0 3 [Word.ofNat a0] →
      (s.stage.flag 0 0x0D8 28 = false → Done (.fwRestart m a0) s (fun t => t.restarting = false ∧ Recorded s.stage 0 c stRefused 0#32 t)) ∧
      (s.stage.flag 0 0x0D8 28 = true → Done (.fwRestart m a0) s (fun t => t.restarting = true ∧ t.fwSlot = 1 - s.stage.fwSlot ∧ t.runningCmd 0 = some c
        ∧ (bit a0 0 = true → t.fld 0 0x0D8 29 29 = 1 - s.stage.fwSlot) ∧ (bit a0 0 = false → t.fld 0 0x0D8 29 29 = s.stage.fld 0 0x0D8 29 29)
        ∧ t.grid.lock = s.stage.grid.lock ∧ t.grid.wins = s.stage.grid.wins ∧ t.net = s.stage.net ∧ t.mode = s.stage.mode)))) ∧
  (∀ (s : State) (m : Master),
    (Passes s m .sys 0 0x0DC 1 →
      (s.stage.restarting = false → Done (.fwReady m) s (fun t => t.bus.resp = .okay ∧ Keeps [0] [.bus] s.stage t)) ∧
      (s.stage.restarting = true → RingFree s.stage → Done (.fwReady m) s (fun t => t.restarting = false ∧ Raises 0 1 t ∧ t.runningCmd 0 = none
        ∧ ∀ c, s.stage.runningCmd 0 = some c → Recorded s.stage 0 c stDone (Word.ofNat s.stage.fwSlot) t))) ∧
    (s.stage.dieUp = true →
      (s.stage.restarting = false → Done .fwRestartTimeout s (fun t => Keeps [] [] s.stage t)) ∧
      (s.stage.restarting = true → RingFree s.stage → Done .fwRestartTimeout s (fun t => t.restarting = false ∧ t.fwSlot = 1 - s.stage.fwSlot
        ∧ t.fld 0 0x0D8 29 29 = 1 - s.stage.fwSlot ∧ t.flag 0 0x0D8 28 = false ∧ Raises 0 3 t ∧ t.runningCmd 0 = none
        ∧ ∀ c, s.stage.runningCmd 0 = some c → Recorded s.stage 0 c stFailed (Word.ofNat (5 * 2 ^ 24)) t)))) ∧
  (∀ (m : Master) first n slot w code speed width cfg, Frame [.masterReset m] [1] [.grid, .sps] ∧ Frame [.fuseRead first n] [1] [] ∧
    Frame [.keyStoreWrite slot w] [1, pNet 0] [.net] ∧ Frame [.levelDirectCommand code] [1, pLevel] [.level] ∧ Frame [.pcieConfigRequest cfg] [] [.host] ∧
    Frame [.pcieLinkUp speed width] [0x300] [.host] ∧ Frame [.pcieLinkDown] [1, 0x300] [.host, .grid, .sps] ∧
    Frame [.fwRestartTimeout] [0] [.cmds, .ring, .mem, .ecc, .flash])

/-- A VIN rise, a wake or a retry begins a power-on when VIN lets it; VIN leaving its limits begins a power-down to WATCH; without the keep-alive nothing is left but what the sealed core stores. PG and the delays lead a sequence on, up to the release of the reset or down to OFF or WATCH. A rail fault is counted and recorded, and no retry follows the third. RESET_N and the watchdog reset the Stage die. The boot ROM samples the straps and starts the preferred valid slot or the other. TEMP and VIN_MEAS set HOT and VIN_LOW with 5 degrees of hysteresis for HOT. PD_CTRL switches domains, and one that R638 holds on is refused; a waking domain comes on. SET_MODE is refused with the first reason in the order of R642 or waits for its boundary (R629, R631, R633, R634, R635, R637, R639, R642, R645, R647, R651, R656). -/
def Obligations.PowerAndModes : Prop :=
  (∀ s : State,
    (s.stage.sup.ovp = false → Done .vinRise s (fun t => PowersOn s.stage (if s.stage.sup.cause = 7 then 7 else 1) t ∧ t.sup.vinOk = true ∧ t.sup.keep = true)) ∧
    (s.stage.sup.ovp = true → Done .vinRise s (fun t => Keeps [] [.sup] s.stage t ∧ t.sup = { s.stage.sup with vinOk := true, keep := true })) ∧
    (∀ ov : Bool, ∀ c, c = (if ov then Instr.vinOvervoltage else .vinFall) → Done c s (fun t => DieReset s.stage t ∧ t.bench = s.stage.bench ∧ t.sup.target = .watch
      ∧ t.sup.retry = false ∧ (ov = true → t.sup.ovp = true ∧ t.sup.vinOk = s.stage.sup.vinOk) ∧ (ov = false → t.sup.vinOk = false ∧ t.sup.ovp = s.stage.sup.ovp)
      ∧ (s.stage.railsUp = true → t.sup.state = .down 5 ∧ bit t.sup.en 5 = false) ∧ (s.stage.railsUp = false → t.sup.state = s.stage.sup.state))) ∧
    Done .keepAliveLoss s (fun t => DieReset s.stage t ∧ t.sup.state = .off ∧ t.sup.keep = false ∧ t.sup.vinOk = false ∧ t.sup.vaux = false ∧ t.sup.en = 0
      ∧ t.sup.rtcValid = false ∧ t.sup.wakeCfg = 0 ∧ t.sup.resetCause = 0 ∧ t.bench.on = false ∧ t.bench.vals = s.stage.bench.vals
      ∧ t.bench.log = s.stage.bench.log ∧ t.bench.sealCount = s.stage.bench.sealCount) ∧
    Done .overVoltageRecovery s (fun t => Keeps [] [.sup] s.stage t ∧ t.sup = { s.stage.sup with ovp := false }) ∧
    (MayPower s.stage →
      (s.stage.sup.retry = true → Done .railRetry s (fun t => PowersOn s.stage 4 t)) ∧
      (bit s.stage.sup.wakeCfg 0 = true → Done .rtcWake s (fun t => PowersOn s.stage 5 t ∧ t.sup.rtc = s.stage.sup.wakeAt)) ∧
      Done .resetNAssert s (fun t => PowersOn s.stage 6 t)) ∧
    ((¬ MayPower s.stage ∨ s.stage.sup.retry = false) → Done .railRetry s (fun t => Keeps [] [] s.stage t)) ∧
    ((¬ MayPower s.stage ∨ bit s.stage.sup.wakeCfg 0 = false) → Done .rtcWake s (fun t => Keeps [] [.sup] s.stage t ∧ t.sup.state = s.stage.sup.state)) ∧
    (s.stage.dieUp = true → Done .resetNAssert s (fun t => DieReset s.stage t ∧ t.bench = s.stage.bench ∧ t.sup = { s.stage.sup with state := .held })) ∧
    (s.stage.dieUp = false → ¬ MayPower s.stage → Done .resetNAssert s (fun t => Keeps [] [] s.stage t)) ∧
    (s.stage.sup.state = .held → Done .resetNRelease s (fun t => Released s.stage 2 t)) ∧
    (s.stage.sup.state ≠ .held → Done .resetNRelease s (fun t => Keeps [] [] s.stage t)) ∧
    (s.stage.dieUp = true → s.stage.flag pPower 0x09C 31 = true → s.stage.restarting = false → Done .watchdogTimeout s (fun t => Released s.stage 3 t)) ∧
    ((s.stage.dieUp = false ∨ s.stage.flag pPower 0x09C 31 = false ∨ s.stage.restarting = true) → Done .watchdogTimeout s (fun t => Keeps [] [] s.stage t)) ∧
    (∀ i,
      (s.stage.sup.state = .waitPg i → Done (.pgRise i) s (fun t => Keeps [] [.sup] s.stage t ∧ t.sup.state = .delayUp i ∧ bit t.sup.pg i = true
          ∧ t.sup.en = s.stage.sup.en) ∧
        Done (.pgTimeout i) s (fun t => RailFault s.stage (i + 1) 1 t)) ∧
      (s.stage.sup.state ≠ .waitPg i → Done (.pgRise i) s (fun t => Keeps [] [] s.stage t) ∧ Done (.pgTimeout i) s (fun t => Keeps [] [] s.stage t)) ∧
      (s.stage.railsUp = true → bit s.stage.sup.pg i = true → Done (.pgDrop i) s (fun t => RailFault s.stage (i + 1) 2 t ∧ bit t.sup.pg i = false)) ∧
      ((s.stage.railsUp = false ∨ bit s.stage.sup.pg i = false) → Done (.pgDrop i) s (fun t => Keeps [] [] s.stage t)) ∧
      (s.stage.sup.state = .delayUp i →
        (i < 5 → Done .railSequenceDelay s (fun t => Keeps [] [.sup] s.stage t ∧ t.sup.state = .waitPg (i + 1) ∧ bit t.sup.en (i + 1) = true)) ∧
        (5 ≤ i → Done .railSequenceDelay s (fun t => Released s.stage s.stage.sup.cause t))) ∧
      (s.stage.sup.state = .down i → Done .railSequenceDelay s (fun t => NextDown s.stage i t) ∧ Done (.powerDownPgFall i) s (fun t => NextDown s.stage i t)) ∧
      (s.stage.sup.state ≠ .down i → Done (.powerDownPgFall i) s (fun t => Keeps [] [.sup] s.stage t ∧ t.sup.state = s.stage.sup.state
        ∧ t.sup.pg = (if bit s.stage.sup.en i then s.stage.sup.pg else setBit s.stage.sup.pg i false)))) ∧
    ((∀ i, s.stage.sup.state ≠ .delayUp i ∧ s.stage.sup.state ≠ .down i) → Done .railSequenceDelay s (fun t => Keeps [] [] s.stage t)) ∧
    (s.stage.railsUp = true → Done .vauxOverload s (fun t => RailFault s.stage 6 3 t) ∧ Done .thermalShutdown s (fun t => RailFault s.stage 0 4 t)) ∧
    (s.stage.railsUp = false → Done .vauxOverload s (fun t => Keeps [] [] s.stage t) ∧ Done .thermalShutdown s (fun t => Keeps [] [] s.stage t))) ∧
  (∀ s : State, s.stage.dieUp = true →
    (∀ (primary : Bool) (cfg bootsel : Nat) (answered : Bool) (version : Nat),
      (s.stage.mode ≠ mBoot → Done (.bootRomStart primary cfg bootsel answered version) s (fun t => Keeps [] [] s.stage t)) ∧
      (s.stage.mode = mBoot → ∀ rank pref r, rank = (if primary then 0 else if cfg % 4 = 2 then 1 else if cfg % 4 = 3 then 2 else 0) →
        pref = (s.stage.flash8 4).toNat % 2 →
        r = (if 4 ≤ bootsel % 8 ∧ bootsel % 8 ≤ 6 then 3 else if bootsel % 8 = 7 then 4 else if answered = false then 5
            else if s.stage.slotValid pref then 0 else if s.stage.slotValid (1 - pref) then 1 else 2) →
        Done (.bootRomStart primary cfg bootsel answered version) s (fun t => t.regN 0x2A0 0x080 = 0x100 + rank * 16 + (if primary then 4 else 0) + cfg % 4
          ∧ t.fld pPower 0x080 3 0 = r ∧ t.mode = mBoot ∧ (r = 0 → t.fwSlot = pref) ∧ (r = 1 → t.fwSlot = 1 - pref)
          ∧ (r ≤ 1 → t.fld 0 0x0D8 29 29 = pref ∧ t.fwVersion = version % 2 ^ 24)))) ∧
    (∀ (x : Int) (hot : Bool), (hot = true ↔ 10 * (s.stage.fld pPower 0x098 7 0 : Int) ≤ x
        ∨ (10 * (s.stage.fld pPower 0x098 7 0 : Int) < x + 50 ∧ s.stage.flag pPower 0x080 29 = true)) →
      Done (.tempSample x) s (fun t => t.regN pPower 0x094 = toBits 16 x ∧ t.flag pPower 0x080 29 = hot
        ∧ (hot = true → s.stage.flag pPower 0x080 29 = false → Raises pPower 2 t))) ∧
    (∀ mv, Done (.vinMeasure mv) s (fun t => t.regN pPower 0x084 = mv % 65536
      ∧ (t.flag pPower 0x080 30 = true ↔ mv % 65536 < s.stage.fld pPower 0x088 15 0)
      ∧ (mv % 65536 < s.stage.fld pPower 0x088 15 0 → s.stage.flag pPower 0x080 30 = false → Raises pPower 1 t))) ∧
    (∀ d, (d < 12 → s.stage.flag pPower 0x090 (16 + d) = true → Done (.domainOn d) s (fun t => t.pdOn d = true ∧ t.flag pPower 0x090 (16 + d) = false ∧ Raises pPower 0 t)) ∧
      ((12 ≤ d ∨ s.stage.flag pPower 0x090 (16 + d) = false) → Done (.domainOn d) s (fun t => Keeps [] [] s.stage t)))) ∧
  (∀ (s : State) (m : Master) (v : Nat),
    (Passes s m .power 0 0x08C v → Done (.pdCtrlWrite m v) s (fun t => Written s .power 0 0x08C v t ∧ t.flag pPower 0x090 28 = bit v 8
      ∧ ∀ d ∈ [9, 10, 11], (bit v d = true → t.pdOn d = true ∨ t.flag pPower 0x090 (16 + d) = true)
        ∧ (bit v d = false → s.stage.domainHeld d s.stage.mode = false → t.pdOn d = false ∧ t.flag pPower 0x090 (16 + d) = false))) ∧
    (Live s .power 0 → ((bit v 8 = true ∧ s.stage.mode ≠ mDark)
        ∨ ∃ d ∈ [9, 10, 11], bit v d = false ∧ s.stage.flag pPower 0x08C d = true ∧ s.stage.domainHeld d s.stage.mode = true) →
      Done (.pdCtrlWrite m v) s (fun t => t.bus.resp = .denied ∧ Keeps [] [.bus] s.stage t)) ∧
    (Passes s m .power 0 0x0A0 v → Done (.wdogKick m v) s (fun t => t.bus.resp = .okay ∧ Keeps [pPower] [.bus] s.stage t)) ∧
    (Live s .power 0 → v % 65536 ≠ 0xA5C3 → Done (.wdogKick m v) s (fun t => t.bus.resp = .okay ∧ Raises pPower 31 t
      ∧ t.regN 0 0x0D0 = min 0xFFFFFFFF (s.stage.regN 0 0x0D0 + 1)))) ∧
  (∀ (s : State) (m : Master) (a0 target r : Nat) (c : Cmd), Ready s pPower → c = s.stage.issuedCmd m pPower 1 [Word.ofNat a0] → target = a0 % 16 →
    r = (if target ∉ [0, 1, 3, 4, 10, 11] then 1 else if s.stage.modeReq.isSome then 4 else if targetMet target s.stage.mode then 0
        else if modeTable s.stage.mode target = false then 2 else if (target = 4 ∨ target = 10) ∧ s.stage.strapBad then 5
        else if target = 10 ∧ s.stage.roleCfg ≠ 0 then 3 else 0) →
    (r = 0 → Done (.setMode m a0) s (fun t => t.modeReq = some { cmd := c, target := target, c := s.stage.dueNow } ∧ t.mode = s.stage.mode)) ∧
    (r ≠ 0 → RingFree s.stage → Done (.setMode m a0) s (fun t => t.modeReq = s.stage.modeReq ∧ t.mode = s.stage.mode
      ∧ Recorded s.stage pPower c stRefused (Word.ofNat (r * 2 ^ 24)) t))) ∧
  (∀ (x : Int) (mv d i : Nat) (primary : Bool) (cfg bootsel : Nat) (answered : Bool) (version : Nat), Frame [.tempSample x, .vinMeasure mv, .domainOn d] [pPower] [] ∧
    Frame [.bootRomStart primary cfg bootsel answered version] ([0, 0x2A0, pPower] ++ (upTo 8).map pNet ++ calPages) [.mem, .red, .mail] ∧
    Frame [.powerDownPgFall i] [] [.sup, .bench])
end

