-- ==== Sys2Proof/Laws/Bits.lean ====
section
/-!
SUPPORT. The laws of bit fields: what a field reads after a field is set, and that a register word stays below 2^32.
-/
namespace Sys2Proof.Machine

/-- A number with a field set, by its three parts: above the field, the field, below it. -/
theorem setBits_parts (n hi lo v : Nat) (h : lo ≤ hi + 1) :
    setBits n hi lo v = n / 2 ^ (hi + 1) * 2 ^ (hi + 1) + (v % 2 ^ (hi + 1 - lo)) * 2 ^ lo + n % 2 ^ lo := by
  unfold setBits bits
  obtain ⟨w, hw⟩ : ∃ w, hi + 1 = lo + w := ⟨hi + 1 - lo, by omega⟩
  have hw' : hi + 1 - lo = w := by omega
  rw [hw', hw, Nat.pow_add]
  have h1 := Nat.div_add_mod n (2 ^ lo)
  have h2 := Nat.div_add_mod (n / 2 ^ lo) (2 ^ w)
  rw [Nat.div_div_eq_div_mul] at h2
  set q := n / (2 ^ lo * 2 ^ w)
  set f := n / 2 ^ lo % 2 ^ w
  set r := n % 2 ^ lo
  have h3 : n = q * (2 ^ lo * 2 ^ w) + f * 2 ^ lo + r := by
    rw [← h1, ← h2]; ring
  have h4 : n - f * 2 ^ lo = q * (2 ^ lo * 2 ^ w) + r := by
    rw [h3]
    generalize q * (2 ^ lo * 2 ^ w) = a
    generalize f * 2 ^ lo = b
    omega
  rw [h4]
  ring

theorem setBits_div (n hi lo v : Nat) (h : lo ≤ hi + 1) : setBits n hi lo v / 2 ^ (hi + 1) = n / 2 ^ (hi + 1) := by
  rw [setBits_parts n hi lo v h]
  have hw : 2 ^ (hi + 1) = 2 ^ lo * 2 ^ (hi + 1 - lo) := by rw [← Nat.pow_add]; congr 1; omega
  have h1 : v % 2 ^ (hi + 1 - lo) * 2 ^ lo + n % 2 ^ lo < 2 ^ (hi + 1) := by
    have a := Nat.mod_lt v (Nat.two_pow_pos (hi + 1 - lo))
    have b := Nat.mod_lt n (Nat.two_pow_pos lo)
    calc v % 2 ^ (hi + 1 - lo) * 2 ^ lo + n % 2 ^ lo < v % 2 ^ (hi + 1 - lo) * 2 ^ lo + 2 ^ lo := by omega
      _ = (v % 2 ^ (hi + 1 - lo) + 1) * 2 ^ lo := by ring
      _ ≤ 2 ^ (hi + 1 - lo) * 2 ^ lo := Nat.mul_le_mul_right _ a
      _ = 2 ^ (hi + 1) := by rw [hw]; ring
  rw [Nat.add_assoc, Nat.add_comm, Nat.add_mul_div_right _ _ (Nat.two_pow_pos _), Nat.div_eq_of_lt h1, Nat.zero_add]

theorem setBits_mod (n hi lo v : Nat) (h : lo ≤ hi + 1) : setBits n hi lo v % 2 ^ lo = n % 2 ^ lo := by
  rw [setBits_parts n hi lo v h]
  have hw : 2 ^ (hi + 1) = 2 ^ lo * 2 ^ (hi + 1 - lo) := by rw [← Nat.pow_add]; congr 1; omega
  have : n / 2 ^ (hi + 1) * 2 ^ (hi + 1) + v % 2 ^ (hi + 1 - lo) * 2 ^ lo + n % 2 ^ lo
      = n % 2 ^ lo + (n / 2 ^ (hi + 1) * 2 ^ (hi + 1 - lo) + v % 2 ^ (hi + 1 - lo)) * 2 ^ lo := by
    rw [hw]; ring
  rw [this, Nat.add_mul_mod_self_right, Nat.mod_mod]

theorem setBits_shift_mod (n hi lo v : Nat) (h : lo ≤ hi + 1) :
    setBits n hi lo v / 2 ^ lo % 2 ^ (hi + 1 - lo) = v % 2 ^ (hi + 1 - lo) := by
  rw [setBits_parts n hi lo v h]
  have hw : 2 ^ (hi + 1) = 2 ^ lo * 2 ^ (hi + 1 - lo) := by rw [← Nat.pow_add]; congr 1; omega
  have : n / 2 ^ (hi + 1) * 2 ^ (hi + 1) + v % 2 ^ (hi + 1 - lo) * 2 ^ lo + n % 2 ^ lo
      = n % 2 ^ lo + (v % 2 ^ (hi + 1 - lo) + n / 2 ^ (hi + 1) * 2 ^ (hi + 1 - lo)) * 2 ^ lo := by
    rw [hw]; ring
  rw [this, Nat.add_mul_div_right _ _ (Nat.two_pow_pos _), Nat.div_eq_of_lt (Nat.mod_lt _ (Nat.two_pow_pos _)), Nat.zero_add,
    Nat.add_mul_mod_self_right, Nat.mod_mod]

/-- The field that was set reads what was set, modulo its width. -/
theorem bits_setBits_same (n hi lo v : Nat) (h : lo ≤ hi + 1) : bits (setBits n hi lo v) hi lo = v % 2 ^ (hi + 1 - lo) :=
  setBits_shift_mod n hi lo v h

/-- A field above it reads as before. -/
theorem bits_setBits_above (n hi lo v h' l' : Nat) (h : lo ≤ hi + 1) (hl : hi < l') :
    bits (setBits n hi lo v) h' l' = bits n h' l' := by
  unfold bits
  obtain ⟨d, rfl⟩ : ∃ d, l' = hi + 1 + d := ⟨l' - (hi + 1), by omega⟩
  rw [Nat.pow_add, ← Nat.div_div_eq_div_mul, ← Nat.div_div_eq_div_mul, setBits_div n hi lo v h]

/-- A field below it reads as before. -/
theorem bits_setBits_below (n hi lo v h' l' : Nat) (h : lo ≤ hi + 1) (hh : h' < lo) (hl : l' ≤ h' + 1) :
    bits (setBits n hi lo v) h' l' = bits n h' l' := by
  have key : ∀ m : Nat, bits m h' l' = m % 2 ^ lo / 2 ^ l' % 2 ^ (h' + 1 - l') := by
    intro m
    unfold bits
    obtain ⟨d, hd⟩ : ∃ d, lo = l' + (h' + 1 - l') + d := ⟨lo - (h' + 1), by omega⟩
    rw [hd, Nat.pow_add, Nat.pow_add, Nat.mul_assoc, Nat.mod_mul, Nat.mod_mul]
    rw [Nat.add_mul_div_left _ _ (Nat.two_pow_pos l'), Nat.div_eq_of_lt (Nat.mod_lt _ (Nat.two_pow_pos l')), Nat.zero_add,
      Nat.add_mul_mod_self_left, Nat.mod_mod]
  rw [key, key, setBits_mod n hi lo v h]

/-- A number stays below a power of two above the field. -/
theorem setBits_lt (n hi lo v w : Nat) (h : lo ≤ hi + 1) (hw : hi < w) (hn : n < 2 ^ w) : setBits n hi lo v < 2 ^ w := by
  obtain ⟨d, hd⟩ : ∃ d, w = hi + 1 + d := ⟨w - (hi + 1), by omega⟩
  have h1 : n / 2 ^ (hi + 1) < 2 ^ d := by
    rw [hd, Nat.pow_add] at hn
    exact Nat.div_lt_of_lt_mul hn
  rw [← setBits_div n hi lo v h] at h1
  rw [hd, Nat.pow_add]
  exact (Nat.div_lt_iff_lt_mul (Nat.two_pow_pos _)).mp h1 |>.trans_eq (Nat.mul_comm _ _)

theorem bit_eq_bits (n i : Nat) : bit n i = (bits n i i == 1) := by
  unfold bit bits
  rw [show i + 1 - i = 1 from by omega]
  rfl

/-- The bit that was set reads what was set. -/
@[simp] theorem bit_setBit_same (n i : Nat) (b : Bool) : bit (setBit n i b) i = b := by
  rw [bit_eq_bits, setBit, bits_setBits_same n i i _ (by omega), show i + 1 - i = 1 from by omega]
  cases b <;> rfl

/-- Another bit reads as before. -/
theorem bit_setBit_other (n : Nat) {i j : Nat} (b : Bool) (h : j ≠ i) : bit (setBit n i b) j = bit n j := by
  rw [bit_eq_bits, bit_eq_bits, setBit]
  rcases Nat.lt_or_gt_of_ne h with h | h
  · rw [bits_setBits_below n i i _ j j (by omega) h (by omega)]
  · rw [bits_setBits_above n i i _ j j (by omega) h]

theorem setBit_lt (n i w : Nat) (b : Bool) (hi : i < w) (hn : n < 2 ^ w) : setBit n i b < 2 ^ w :=
  setBits_lt n i i _ w (by omega) hi hn

end Sys2Proof.Machine
end

