-- ==== Sys2Proof/Laws/Tab.lean ====
section
/-!
SUPPORT. The laws of sparse tables: what a write leaves readable, and that every operation keeps the canonical form.
-/
namespace Sys2Proof.Machine

variable {α : Type}

theorem Tab.find_of_risingFrom_gt (t : Tab α) : ∀ {b k : Nat}, Tab.risingFrom b t = true → k < b → Tab.find t k = none := by
  induction t with
  | nil => intros; rfl
  | cons e t ih =>
    intro b k h hk
    obtain ⟨j, v⟩ := e
    simp only [Tab.risingFrom, Bool.and_eq_true, decide_eq_true_eq] at h
    have : j ≠ k := by omega
    simp only [Tab.find, this, if_false]
    exact ih h.2 (by omega)

theorem Tab.risingFrom_mono (t : Tab α) : ∀ {a b : Nat}, a ≤ b → Tab.risingFrom b t = true → Tab.risingFrom a t = true := by
  cases t with
  | nil => intros; rfl
  | cons e t =>
    intro a b hab h
    obtain ⟨j, v⟩ := e
    simp only [Tab.risingFrom, Bool.and_eq_true, decide_eq_true_eq] at h ⊢
    exact ⟨by omega, h.2⟩

/-! ### What a write leaves readable -/

theorem Tab.find_ins_self (t : Tab α) (k : Nat) (v : α) : Tab.find (Tab.ins t k v) k = some v := by
  induction t with
  | nil => simp [Tab.ins, Tab.find]
  | cons e t ih =>
    obtain ⟨j, w⟩ := e
    simp only [Tab.ins]
    split
    · simp [Tab.find]
    · split
      · simp [Tab.find]
      · rename_i h1 h2
        have : j ≠ k := fun h => h2 h.symm
        simpa [Tab.find, this] using ih

theorem Tab.find_ins_other (t : Tab α) {k j : Nat} (v : α) (h : j ≠ k) : Tab.find (Tab.ins t k v) j = Tab.find t j := by
  induction t with
  | nil => simp [Tab.ins, Tab.find, h.symm]
  | cons e t ih =>
    obtain ⟨i, w⟩ := e
    simp only [Tab.ins]
    split
    · simp [Tab.find, h.symm]
    · split
      · rename_i h2
        subst h2
        simp [Tab.find, h.symm]
      · simp only [Tab.find, ih]

theorem Tab.find_del_other (t : Tab α) {k j : Nat} (h : j ≠ k) : Tab.find (Tab.del t k) j = Tab.find t j := by
  induction t with
  | nil => rfl
  | cons e t ih =>
    obtain ⟨i, w⟩ := e
    simp only [Tab.del]
    split
    · rename_i h2
      subst h2
      simpa [Tab.find, h.symm] using ih
    · simp only [Tab.find, ih]

theorem Tab.find_del_self (t : Tab α) (k : Nat) : Tab.find (Tab.del t k) k = none := by
  induction t with
  | nil => rfl
  | cons e t ih =>
    obtain ⟨i, w⟩ := e
    simp only [Tab.del]
    split
    · exact ih
    · rename_i h
      simpa [Tab.find, h] using ih

/-- A key reads as what was put there. -/
@[simp] theorem Tab.get_put_self [DecidableEq α] (d v : α) (t : Tab α) (k : Nat) : Tab.get d (Tab.put d t k v) k = v := by
  unfold Tab.get Tab.put
  split
  · rename_i hv
    rw [Tab.find_del_self t k, hv]
    rfl
  · rw [Tab.find_ins_self]
    rfl

/-- Every other key reads as before. -/
theorem Tab.get_put_other [DecidableEq α] (d e v : α) (t : Tab α) {k j : Nat} (h : j ≠ k) :
    Tab.get d (Tab.put e t k v) j = Tab.get d t j := by
  unfold Tab.get Tab.put
  split
  · rw [Tab.find_del_other t h]
  · rw [Tab.find_ins_other t v h]

/-! ### The canonical form -/

theorem Tab.risingFrom_ins (t : Tab α) : ∀ {b k : Nat} (v : α), Tab.risingFrom b t = true → b ≤ k → Tab.risingFrom b (Tab.ins t k v) = true := by
  induction t with
  | nil => intro b k v _ hk; simp [Tab.ins, Tab.risingFrom, hk]
  | cons e t ih =>
    intro b k v h hk
    obtain ⟨i, w⟩ := e
    simp only [Tab.risingFrom, Bool.and_eq_true, decide_eq_true_eq] at h
    simp only [Tab.ins]
    split
    · rename_i h1
      simp only [Tab.risingFrom, Bool.and_eq_true, decide_eq_true_eq]
      exact ⟨hk, by omega, h.2⟩
    · split
      · rename_i h2
        subst h2
        simp only [Tab.risingFrom, Bool.and_eq_true, decide_eq_true_eq]
        exact ⟨hk, h.2⟩
      · simp only [Tab.risingFrom, Bool.and_eq_true, decide_eq_true_eq]
        exact ⟨h.1, ih v h.2 (by omega)⟩

theorem Tab.risingFrom_del (t : Tab α) : ∀ {b : Nat} (k : Nat), Tab.risingFrom b t = true → Tab.risingFrom b (Tab.del t k) = true := by
  induction t with
  | nil => intros; rfl
  | cons e t ih =>
    intro b k h
    obtain ⟨i, w⟩ := e
    simp only [Tab.risingFrom, Bool.and_eq_true, decide_eq_true_eq] at h
    simp only [Tab.del]
    split
    · exact Tab.risingFrom_mono _ (by omega) (ih k h.2)
    · simp only [Tab.risingFrom, Bool.and_eq_true, decide_eq_true_eq]
      exact ⟨h.1, ih k h.2⟩

theorem Tab.risingFrom_filter (p : Nat × α → Bool) (t : Tab α) : ∀ {b : Nat}, Tab.risingFrom b t = true → Tab.risingFrom b (t.filter p) = true := by
  induction t with
  | nil => intros; rfl
  | cons e t ih =>
    intro b h
    obtain ⟨i, w⟩ := e
    simp only [Tab.risingFrom, Bool.and_eq_true, decide_eq_true_eq] at h
    simp only [List.filter_cons]
    split
    · simp only [Tab.risingFrom, Bool.and_eq_true, decide_eq_true_eq]
      exact ⟨h.1, ih h.2⟩
    · exact Tab.risingFrom_mono _ (by omega) (ih h.2)

theorem Tab.mem_ins (t : Tab α) (k : Nat) (v : α) (e : Nat × α) : e ∈ Tab.ins t k v → e = (k, v) ∨ e ∈ t := by
  induction t with
  | nil => intro h; simpa [Tab.ins] using h
  | cons x t ih =>
    obtain ⟨i, w⟩ := x
    simp only [Tab.ins]
    split
    · intro h; simpa using h
    · split
      · intro h
        rcases List.mem_cons.mp h with h | h
        · exact .inl h
        · exact .inr (List.mem_cons_of_mem _ h)
      · intro h
        rcases List.mem_cons.mp h with h | h
        · exact .inr (h ▸ List.mem_cons_self ..)
        · exact (ih h).imp id (List.mem_cons_of_mem _)

theorem Tab.mem_del (t : Tab α) (k : Nat) (e : Nat × α) : e ∈ Tab.del t k → e ∈ t := by
  induction t with
  | nil => intro h; exact h
  | cons x t ih =>
    obtain ⟨i, w⟩ := x
    simp only [Tab.del]
    split
    · exact fun h => List.mem_cons_of_mem _ (ih h)
    · intro h
      rcases List.mem_cons.mp h with h | h
      · exact h ▸ List.mem_cons_self ..
      · exact List.mem_cons_of_mem _ (ih h)

/-- A put keeps the canonical form. -/
theorem Tab.wf_put [DecidableEq α] (d : Nat → α) (t : Tab α) (k : Nat) (v : α) (h : Tab.wf d t = true) :
    Tab.wf d (Tab.put (d k) t k v) = true := by
  simp only [Tab.wf, Bool.and_eq_true, List.all_eq_true, decide_eq_true_eq] at h ⊢
  unfold Tab.put
  split
  · exact ⟨Tab.risingFrom_del t k h.1, fun e he => h.2 e (Tab.mem_del t k e he)⟩
  · rename_i hv
    refine ⟨Tab.risingFrom_ins t v h.1 (Nat.zero_le k), fun e he => ?_⟩
    rcases Tab.mem_ins t k v e he with rfl | he
    · exact hv
    · exact h.2 e he

/-- A table cut down keeps the canonical form. -/
theorem Tab.wf_keep [DecidableEq α] (d : Nat → α) (p : Nat → Bool) (t : Tab α) (h : Tab.wf d t = true) : Tab.wf d (Tab.keep p t) = true := by
  simp only [Tab.wf, Bool.and_eq_true, List.all_eq_true, decide_eq_true_eq] at h ⊢
  exact ⟨Tab.risingFrom_filter _ t h.1, fun e he => h.2 e (List.mem_of_mem_filter he)⟩

/-- Two canonical tables that read alike everywhere are equal. -/
theorem Tab.ext_of_find : ∀ (s t : Tab α) {b : Nat}, Tab.risingFrom b s = true → Tab.risingFrom b t = true →
    (∀ k, Tab.find s k = Tab.find t k) → s = t := by
  intro s
  induction s with
  | nil =>
    intro t b _ _ h
    cases t with
    | nil => rfl
    | cons e t => obtain ⟨i, w⟩ := e; have := h i; simp [Tab.find] at this
  | cons e s ih =>
    intro t b hs ht h
    obtain ⟨i, v⟩ := e
    cases t with
    | nil => have := h i; simp [Tab.find] at this
    | cons f t =>
      obtain ⟨j, w⟩ := f
      simp only [Tab.risingFrom, Bool.and_eq_true, decide_eq_true_eq] at hs ht
      have hij : i = j := by
        rcases Nat.lt_trichotomy i j with hlt | he | hlt
        · have h1 := h i
          have : j ≠ i := by omega
          simp [Tab.find, this, Tab.find_of_risingFrom_gt t ht.2 (show i < j + 1 by omega)] at h1
        · exact he
        · have h1 := h j
          have : i ≠ j := by omega
          simp [Tab.find, this, Tab.find_of_risingFrom_gt s hs.2 (show j < i + 1 by omega)] at h1
      subst hij
      have hv : v = w := by have := h i; simpa [Tab.find] using this
      subst hv
      congr 1
      refine ih t hs.2 ht.2 fun k => ?_
      by_cases hk : i = k
      · subst hk
        rw [Tab.find_of_risingFrom_gt s hs.2 (by omega), Tab.find_of_risingFrom_gt t ht.2 (by omega)]
      · have := h k
        simpa [Tab.find, hk] using this

end Sys2Proof.Machine
end

