-- ==== Sys2Proof/Laws/Bytes.lean ====
section
/-!
SUPPORT. Lists of bytes: their words, and the lengths of hashes.
-/
namespace Sys2Proof.Machine

@[simp] theorem length_leBytes (k n : Nat) : (leBytes k n).length = k := by
  induction k generalizing n with
  | zero => rfl
  | succ k ih => simp [leBytes, ih]

theorem ofLeBytes_lt (l : List Byte) : ofLeBytes l < 2 ^ (8 * l.length) := by
  induction l with
  | nil => simp [ofLeBytes]
  | cons b t ih =>
    have hb := b.isLt
    have : 2 ^ (8 * (b :: t).length) = 256 * 2 ^ (8 * t.length) := by rw [List.length_cons, Nat.mul_succ, Nat.pow_add, Nat.mul_comm]
    rw [ofLeBytes, this]
    omega

/-- The bytes of the number that a list of bytes makes are that list. -/
@[simp] theorem leBytes_ofLeBytes (l : List Byte) : leBytes l.length (ofLeBytes l) = l := by
  induction l with
  | nil => rfl
  | cons b t ih =>
    have hb := b.isLt
    simp only [List.length_cons, leBytes, ofLeBytes]
    rw [show (b.toNat + 256 * ofLeBytes t) / 256 = ofLeBytes t by omega, ih, BitVec.ofNat_add]
    congr 1
    apply BitVec.eq_of_toNat_eq
    simp only [BitVec.toNat_add, BitVec.toNat_ofNat]
    omega

/-- Sixteen bytes are the bytes of their four words. -/
theorem leBytes_words {l : List Byte} (h : l.length = 16) :
    ((upTo 4).flatMap fun i => leBytes 4 (ofLeBytes ((l.drop (4 * i)).take 4))) = l := by
  match l, h with
  | [a, b, c, d, e, f, g, i, j, k, m, n, o, p, q, r], _ =>
    have w (a b c d : Byte) : leBytes 4 (ofLeBytes [a, b, c, d]) = [a, b, c, d] := leBytes_ofLeBytes [a, b, c, d]
    simp [upTo, List.range_succ, w]

@[simp] theorem length_beBytes (k n : Nat) : (beBytes k n).length = k := by simp [beBytes]

/-- A hash of eight words stays one of eight words. -/
theorem length_shaBlocks (n : Nat) (m : List Byte) (h : List (BitVec 32)) (hl : h.length = 8) : (shaBlocks n m h).length = 8 := by
  induction n generalizing m h with
  | zero => exact hl
  | succ n ih => exact ih _ _ rfl

@[simp] theorem length_sha256 (m : List Byte) : (sha256 m).length = 32 := by
  simp [sha256, List.length_flatMap, length_shaBlocks _ _ shaH rfl]

@[simp] theorem length_authTag (n c : Nat) : (authTag n c).length = 16 := by simp [authTag, hmac256]

/-! ### Bytes of memory -/

theorem Stage.rdBytes_add (s : Stage) (a m n : Nat) : s.rdBytes a (m + n) = s.rdBytes a m ++ s.rdBytes (a + m) n := by
  simp [Stage.rdBytes, upTo, List.range_add, Nat.add_assoc]

theorem Tab.get_above {α : Type} (d : α) (t : Tab α) (k : Nat) (h : ∀ e ∈ t, e.1 < k) : Tab.get d t k = d := by
  have hn : Tab.find t k = none := by
    induction t with
    | nil => rfl
    | cons e t ih =>
      have := h e (List.mem_cons_self ..)
      simp only [Tab.find]
      rw [if_neg (by omega)]
      exact ih fun x hx => h x (List.mem_cons_of_mem _ hx)
  simp [Tab.get, hn]

/-- Beyond the last byte that memory lists every byte reads zero. -/
theorem Stage.rdBytes_above (s : Stage) (a n : Nat) (h : ∀ e ∈ s.mem, e.1 < a) : s.rdBytes a n = List.replicate n 0#8 := by
  have h8 (j : Nat) : s.rd8 (a + j) = 0#8 := by
    unfold Stage.rd8
    split
    · rfl
    · exact Tab.get_above _ _ _ fun e he => Nat.lt_of_lt_of_le (h e he) (Nat.le_add_right a j)
  simp only [Stage.rdBytes, h8, upTo, List.map_const', List.length_range]

/-- A fold over bytes whose state is brought to a numeral at each step, so that the kernel evaluates it. -/
def stepped (f : Nat → Byte → Nat) : List Byte → Nat → Nat
  | [], c => c
  | b :: l, c => match f c b with
    | 0 => stepped f l 0
    | n + 1 => stepped f l (n + 1)

theorem foldl_eq_stepped (f : Nat → Byte → Nat) (l : List Byte) (c : Nat) : l.foldl f c = stepped f l c := by
  induction l generalizing c with
  | nil => rfl
  | cons b l ih =>
    simp only [List.foldl_cons, stepped]
    split <;> rename_i h <;> rw [h, ih]

/-- The CRC of an image that lists nothing beyond `m` bytes after its CRC word. -/
theorem Stage.imageCrc_eq (s : Stage) (a m n c d : Nat) (hn : s.imgW a 8 - 0x2C = m + n) (hz : ∀ e ∈ s.mem, e.1 < a + 0x2C + m)
    (hc : List.foldl (crcByte 0x82F63B78) 0xFFFFFFFF (s.rdBytes a 0x28 ++ [0#8, 0#8, 0#8, 0#8] ++ s.rdBytes (a + 0x2C) m) = c)
    (hd : stepped (crcByte 0x82F63B78) (List.replicate n 0#8) c = d) : s.imageCrc a = Nat.xor d 0xFFFFFFFF := by
  unfold Stage.imageCrc crc32c crcWith
  rw [hn, Stage.rdBytes_add, Stage.rdBytes_above s (a + 0x2C + m) n hz, ← List.append_assoc, List.foldl_append, hc, foldl_eq_stepped, hd]

end Sys2Proof.Machine
end

