-- ==== Sys2Proof/Laws/Memory.lean ====
section
/-!
SUPPORT. Memory operations: each changes nothing but the bytes of memory, and keeps their canonical form.
-/
namespace Sys2Proof.Machine

/-! ### What they change -/

/-- A byte written leaves all but memory, and with an uncorrectable word memory too. -/
theorem Stage.wr8_frame (s : Stage) (a : Nat) (b : Byte) : ∃ m, s.wr8 a b = { s with mem := m } := by
  unfold Stage.wr8
  split
  · exact ⟨s.mem, rfl⟩
  · exact ⟨_, rfl⟩

theorem Stage.wrBytes_frame (l : List Byte) : ∀ (s : Stage) (a : Nat), ∃ m, s.wrBytes a l = { s with mem := m } := by
  induction l with
  | nil => intro s a; exact ⟨s.mem, rfl⟩
  | cons b l ih =>
    intro s a
    obtain ⟨m, h⟩ := s.wr8_frame a b
    obtain ⟨n, h'⟩ := ih (s.wr8 a b) (a + 1)
    exact ⟨n, by rw [Stage.wrBytes, h', h]⟩

theorem Stage.wrCells_frame (l : List (Nat × Byte)) : ∀ s : Stage, ∃ m, s.wrCells l = { s with mem := m } := by
  induction l with
  | nil => intro s; exact ⟨s.mem, rfl⟩
  | cons e l ih =>
    intro s
    obtain ⟨m, h⟩ := s.wr8_frame e.1 e.2
    obtain ⟨n, h'⟩ := ih (s.wr8 e.1 e.2)
    exact ⟨n, by rw [Stage.wrCells, h', h]⟩

theorem Stage.wr32_frame (s : Stage) (a : Nat) (v : Word) : ∃ m, s.wr32 a v = { s with mem := m } := Stage.wrBytes_frame _ s a

theorem Stage.zeroMem_frame (s : Stage) (a k : Nat) : ∃ m, s.zeroMem a k = { s with mem := m } := ⟨_, rfl⟩

/-! ### The canonical form -/

theorem Stage.wf_wr8 (s : Stage) (a : Nat) (b : Byte) (h : Memory.wf s.mem = true) : Memory.wf (s.wr8 a b).mem = true := by
  unfold Stage.wr8
  split
  · exact h
  · exact Tab.wf_put (fun _ => 0#8) s.mem a b h

theorem Stage.wf_wrBytes (l : List Byte) : ∀ (s : Stage) (a : Nat), Memory.wf s.mem = true → Memory.wf (s.wrBytes a l).mem = true := by
  induction l with
  | nil => intro s a h; exact h
  | cons b l ih => intro s a h; exact ih _ _ (s.wf_wr8 a b h)

theorem Stage.wf_wrCells (l : List (Nat × Byte)) : ∀ s : Stage, Memory.wf s.mem = true → Memory.wf (s.wrCells l).mem = true := by
  induction l with
  | nil => intro s h; exact h
  | cons e l ih => intro s h; exact ih _ (s.wf_wr8 e.1 e.2 h)

theorem Stage.wf_wr32 (s : Stage) (a : Nat) (v : Word) (h : Memory.wf s.mem = true) : Memory.wf (s.wr32 a v).mem = true :=
  Stage.wf_wrBytes _ s a h

theorem Stage.wf_zeroMem (s : Stage) (a k : Nat) (h : Memory.wf s.mem = true) : Memory.wf (s.zeroMem a k).mem = true :=
  Tab.wf_keep (fun _ => 0#8) (fun x => !(decide (a ≤ x) && decide (x < a + k))) s.mem h

theorem Stage.wf_fillBytes (s : Stage) (a : Nat) (l : List Byte) (h : Memory.wf s.mem = true) : Memory.wf (s.fillBytes a l).mem = true :=
  Stage.wf_wrBytes l _ a h

/-! ### What a byte reads as -/

theorem Stage.rd8_wr8_other (s : Stage) {a x : Nat} (b : Byte) (h : x ≠ a) : (s.wr8 a b).rd8 x = s.rd8 x := by
  unfold Stage.wr8
  split
  · rfl
  · show (if s.lost x = true then _ else Tab.get 0#8 (Tab.put 0#8 s.mem a b) x) = _
    rw [Tab.get_put_other _ _ _ _ h]
    rfl

end Sys2Proof.Machine
end

