-- ==== Sys2Proof/Laws/State.lean ====
section
/-!
SUPPORT. The plain updates of the part, field by field: each update changes the one field it is made of, and every other field reads
as before. These lemmas are simp rules, so that no later proof unfolds an update.
-/
namespace Sys2Proof.Machine

variable (s : Stage)

/-! ### setReg -/

@[simp] theorem Stage.setReg_args (p o : Nat) (v : Word) : (s.setReg p o v).args = s.args := rfl
@[simp] theorem Stage.setReg_routes (p o : Nat) (v : Word) : (s.setReg p o v).routes = s.routes := rfl
@[simp] theorem Stage.setReg_cmdq (p o : Nat) (v : Word) : (s.setReg p o v).cmdq = s.cmdq := rfl
@[simp] theorem Stage.setReg_seqs (p o : Nat) (v : Word) : (s.setReg p o v).seqs = s.seqs := rfl
@[simp] theorem Stage.setReg_running (p o : Nat) (v : Word) : (s.setReg p o v).running = s.running := rfl
@[simp] theorem Stage.setReg_recStore (p o : Nat) (v : Word) : (s.setReg p o v).recStore = s.recStore := rfl
@[simp] theorem Stage.setReg_recHeld (p o : Nat) (v : Word) : (s.setReg p o v).recHeld = s.recHeld := rfl
@[simp] theorem Stage.setReg_waiting (p o : Nat) (v : Word) : (s.setReg p o v).waiting = s.waiting := rfl
@[simp] theorem Stage.setReg_mem (p o : Nat) (v : Word) : (s.setReg p o v).mem = s.mem := rfl
@[simp] theorem Stage.setReg_bus (p o : Nat) (v : Word) : (s.setReg p o v).bus = s.bus := rfl
@[simp] theorem Stage.setReg_outs (p o : Nat) (v : Word) : (s.setReg p o v).outs = s.outs := rfl
@[simp] theorem Stage.setReg_fresh (p o : Nat) (v : Word) : (s.setReg p o v).fresh = s.fresh := rfl
@[simp] theorem Stage.setReg_host (p o : Nat) (v : Word) : (s.setReg p o v).host = s.host := rfl
@[simp] theorem Stage.setReg_vecSent (p o : Nat) (v : Word) : (s.setReg p o v).vecSent = s.vecSent := rfl
@[simp] theorem Stage.setReg_grid (p o : Nat) (v : Word) : (s.setReg p o v).grid = s.grid := rfl
@[simp] theorem Stage.setReg_level (p o : Nat) (v : Word) : (s.setReg p o v).level = s.level := rfl
@[simp] theorem Stage.setReg_datum (p o : Nat) (v : Word) : (s.setReg p o v).datum = s.datum := rfl
@[simp] theorem Stage.setReg_tports (p o : Nat) (v : Word) : (s.setReg p o v).tports = s.tports := rfl
@[simp] theorem Stage.setReg_exch (p o : Nat) (v : Word) : (s.setReg p o v).exch = s.exch := rfl
@[simp] theorem Stage.setReg_blocks (p o : Nat) (v : Word) : (s.setReg p o v).blocks = s.blocks := rfl
@[simp] theorem Stage.setReg_sps (p o : Nat) (v : Word) : (s.setReg p o v).sps = s.sps := rfl
@[simp] theorem Stage.setReg_graph (p o : Nat) (v : Word) : (s.setReg p o v).graph = s.graph := rfl
@[simp] theorem Stage.setReg_bats (p o : Nat) (v : Word) : (s.setReg p o v).bats = s.bats := rfl
@[simp] theorem Stage.setReg_ports (p o : Nat) (v : Word) : (s.setReg p o v).ports = s.ports := rfl
@[simp] theorem Stage.setReg_groups (p o : Nat) (v : Word) : (s.setReg p o v).groups = s.groups := rfl
@[simp] theorem Stage.setReg_decs (p o : Nat) (v : Word) : (s.setReg p o v).decs = s.decs := rfl
@[simp] theorem Stage.setReg_syncs (p o : Nat) (v : Word) : (s.setReg p o v).syncs = s.syncs := rfl
@[simp] theorem Stage.setReg_patch (p o : Nat) (v : Word) : (s.setReg p o v).patch = s.patch := rfl
@[simp] theorem Stage.setReg_lanes (p o : Nat) (v : Word) : (s.setReg p o v).lanes = s.lanes := rfl
@[simp] theorem Stage.setReg_links (p o : Nat) (v : Word) : (s.setReg p o v).links = s.links := rfl
@[simp] theorem Stage.setReg_red (p o : Nat) (v : Word) : (s.setReg p o v).red = s.red := rfl
@[simp] theorem Stage.setReg_fwVersion (p o : Nat) (v : Word) : (s.setReg p o v).fwVersion = s.fwVersion := rfl
@[simp] theorem Stage.setReg_bridges (p o : Nat) (v : Word) : (s.setReg p o v).bridges = s.bridges := rfl
@[simp] theorem Stage.setReg_net (p o : Nat) (v : Word) : (s.setReg p o v).net = s.net := rfl
@[simp] theorem Stage.setReg_ecc (p o : Nat) (v : Word) : (s.setReg p o v).ecc = s.ecc := rfl
@[simp] theorem Stage.setReg_pool (p o : Nat) (v : Word) : (s.setReg p o v).pool = s.pool := rfl
@[simp] theorem Stage.setReg_reh (p o : Nat) (v : Word) : (s.setReg p o v).reh = s.reh := rfl
@[simp] theorem Stage.setReg_prompt (p o : Nat) (v : Word) : (s.setReg p o v).prompt = s.prompt := rfl
@[simp] theorem Stage.setReg_tab (p o : Nat) (v : Word) : (s.setReg p o v).tab = s.tab := rfl
@[simp] theorem Stage.setReg_bench (p o : Nat) (v : Word) : (s.setReg p o v).bench = s.bench := rfl
@[simp] theorem Stage.setReg_mail (p o : Nat) (v : Word) : (s.setReg p o v).mail = s.mail := rfl
@[simp] theorem Stage.setReg_sup (p o : Nat) (v : Word) : (s.setReg p o v).sup = s.sup := rfl
@[simp] theorem Stage.setReg_flash (p o : Nat) (v : Word) : (s.setReg p o v).flash = s.flash := rfl
@[simp] theorem Stage.setReg_modeReq (p o : Nat) (v : Word) : (s.setReg p o v).modeReq = s.modeReq := rfl
@[simp] theorem Stage.setReg_lockDue (p o : Nat) (v : Word) : (s.setReg p o v).lockDue = s.lockDue := rfl
@[simp] theorem Stage.setReg_txn (p o : Nat) (v : Word) : (s.setReg p o v).txn = s.txn := rfl
@[simp] theorem Stage.setReg_order (p o : Nat) (v : Word) : (s.setReg p o v).order = s.order := rfl

/-! ### setN -/

@[simp] theorem Stage.setN_args (p o n : Nat) : (s.setN p o n).args = s.args := rfl
@[simp] theorem Stage.setN_routes (p o n : Nat) : (s.setN p o n).routes = s.routes := rfl
@[simp] theorem Stage.setN_cmdq (p o n : Nat) : (s.setN p o n).cmdq = s.cmdq := rfl
@[simp] theorem Stage.setN_seqs (p o n : Nat) : (s.setN p o n).seqs = s.seqs := rfl
@[simp] theorem Stage.setN_running (p o n : Nat) : (s.setN p o n).running = s.running := rfl
@[simp] theorem Stage.setN_recStore (p o n : Nat) : (s.setN p o n).recStore = s.recStore := rfl
@[simp] theorem Stage.setN_recHeld (p o n : Nat) : (s.setN p o n).recHeld = s.recHeld := rfl
@[simp] theorem Stage.setN_waiting (p o n : Nat) : (s.setN p o n).waiting = s.waiting := rfl
@[simp] theorem Stage.setN_mem (p o n : Nat) : (s.setN p o n).mem = s.mem := rfl
@[simp] theorem Stage.setN_bus (p o n : Nat) : (s.setN p o n).bus = s.bus := rfl
@[simp] theorem Stage.setN_outs (p o n : Nat) : (s.setN p o n).outs = s.outs := rfl
@[simp] theorem Stage.setN_fresh (p o n : Nat) : (s.setN p o n).fresh = s.fresh := rfl
@[simp] theorem Stage.setN_host (p o n : Nat) : (s.setN p o n).host = s.host := rfl
@[simp] theorem Stage.setN_vecSent (p o n : Nat) : (s.setN p o n).vecSent = s.vecSent := rfl
@[simp] theorem Stage.setN_grid (p o n : Nat) : (s.setN p o n).grid = s.grid := rfl
@[simp] theorem Stage.setN_level (p o n : Nat) : (s.setN p o n).level = s.level := rfl
@[simp] theorem Stage.setN_datum (p o n : Nat) : (s.setN p o n).datum = s.datum := rfl
@[simp] theorem Stage.setN_tports (p o n : Nat) : (s.setN p o n).tports = s.tports := rfl
@[simp] theorem Stage.setN_exch (p o n : Nat) : (s.setN p o n).exch = s.exch := rfl
@[simp] theorem Stage.setN_blocks (p o n : Nat) : (s.setN p o n).blocks = s.blocks := rfl
@[simp] theorem Stage.setN_sps (p o n : Nat) : (s.setN p o n).sps = s.sps := rfl
@[simp] theorem Stage.setN_graph (p o n : Nat) : (s.setN p o n).graph = s.graph := rfl
@[simp] theorem Stage.setN_bats (p o n : Nat) : (s.setN p o n).bats = s.bats := rfl
@[simp] theorem Stage.setN_ports (p o n : Nat) : (s.setN p o n).ports = s.ports := rfl
@[simp] theorem Stage.setN_groups (p o n : Nat) : (s.setN p o n).groups = s.groups := rfl
@[simp] theorem Stage.setN_decs (p o n : Nat) : (s.setN p o n).decs = s.decs := rfl
@[simp] theorem Stage.setN_syncs (p o n : Nat) : (s.setN p o n).syncs = s.syncs := rfl
@[simp] theorem Stage.setN_patch (p o n : Nat) : (s.setN p o n).patch = s.patch := rfl
@[simp] theorem Stage.setN_lanes (p o n : Nat) : (s.setN p o n).lanes = s.lanes := rfl
@[simp] theorem Stage.setN_links (p o n : Nat) : (s.setN p o n).links = s.links := rfl
@[simp] theorem Stage.setN_red (p o n : Nat) : (s.setN p o n).red = s.red := rfl
@[simp] theorem Stage.setN_fwVersion (p o n : Nat) : (s.setN p o n).fwVersion = s.fwVersion := rfl
@[simp] theorem Stage.setN_bridges (p o n : Nat) : (s.setN p o n).bridges = s.bridges := rfl
@[simp] theorem Stage.setN_net (p o n : Nat) : (s.setN p o n).net = s.net := rfl
@[simp] theorem Stage.setN_ecc (p o n : Nat) : (s.setN p o n).ecc = s.ecc := rfl
@[simp] theorem Stage.setN_pool (p o n : Nat) : (s.setN p o n).pool = s.pool := rfl
@[simp] theorem Stage.setN_reh (p o n : Nat) : (s.setN p o n).reh = s.reh := rfl
@[simp] theorem Stage.setN_prompt (p o n : Nat) : (s.setN p o n).prompt = s.prompt := rfl
@[simp] theorem Stage.setN_tab (p o n : Nat) : (s.setN p o n).tab = s.tab := rfl
@[simp] theorem Stage.setN_bench (p o n : Nat) : (s.setN p o n).bench = s.bench := rfl
@[simp] theorem Stage.setN_mail (p o n : Nat) : (s.setN p o n).mail = s.mail := rfl
@[simp] theorem Stage.setN_sup (p o n : Nat) : (s.setN p o n).sup = s.sup := rfl
@[simp] theorem Stage.setN_flash (p o n : Nat) : (s.setN p o n).flash = s.flash := rfl
@[simp] theorem Stage.setN_modeReq (p o n : Nat) : (s.setN p o n).modeReq = s.modeReq := rfl
@[simp] theorem Stage.setN_lockDue (p o n : Nat) : (s.setN p o n).lockDue = s.lockDue := rfl
@[simp] theorem Stage.setN_txn (p o n : Nat) : (s.setN p o n).txn = s.txn := rfl
@[simp] theorem Stage.setN_order (p o n : Nat) : (s.setN p o n).order = s.order := rfl

/-! ### setFld -/

@[simp] theorem Stage.setFld_args (p o h l v : Nat) : (s.setFld p o h l v).args = s.args := rfl
@[simp] theorem Stage.setFld_routes (p o h l v : Nat) : (s.setFld p o h l v).routes = s.routes := rfl
@[simp] theorem Stage.setFld_cmdq (p o h l v : Nat) : (s.setFld p o h l v).cmdq = s.cmdq := rfl
@[simp] theorem Stage.setFld_seqs (p o h l v : Nat) : (s.setFld p o h l v).seqs = s.seqs := rfl
@[simp] theorem Stage.setFld_running (p o h l v : Nat) : (s.setFld p o h l v).running = s.running := rfl
@[simp] theorem Stage.setFld_recStore (p o h l v : Nat) : (s.setFld p o h l v).recStore = s.recStore := rfl
@[simp] theorem Stage.setFld_recHeld (p o h l v : Nat) : (s.setFld p o h l v).recHeld = s.recHeld := rfl
@[simp] theorem Stage.setFld_waiting (p o h l v : Nat) : (s.setFld p o h l v).waiting = s.waiting := rfl
@[simp] theorem Stage.setFld_mem (p o h l v : Nat) : (s.setFld p o h l v).mem = s.mem := rfl
@[simp] theorem Stage.setFld_bus (p o h l v : Nat) : (s.setFld p o h l v).bus = s.bus := rfl
@[simp] theorem Stage.setFld_outs (p o h l v : Nat) : (s.setFld p o h l v).outs = s.outs := rfl
@[simp] theorem Stage.setFld_fresh (p o h l v : Nat) : (s.setFld p o h l v).fresh = s.fresh := rfl
@[simp] theorem Stage.setFld_host (p o h l v : Nat) : (s.setFld p o h l v).host = s.host := rfl
@[simp] theorem Stage.setFld_vecSent (p o h l v : Nat) : (s.setFld p o h l v).vecSent = s.vecSent := rfl
@[simp] theorem Stage.setFld_grid (p o h l v : Nat) : (s.setFld p o h l v).grid = s.grid := rfl
@[simp] theorem Stage.setFld_level (p o h l v : Nat) : (s.setFld p o h l v).level = s.level := rfl
@[simp] theorem Stage.setFld_datum (p o h l v : Nat) : (s.setFld p o h l v).datum = s.datum := rfl
@[simp] theorem Stage.setFld_tports (p o h l v : Nat) : (s.setFld p o h l v).tports = s.tports := rfl
@[simp] theorem Stage.setFld_exch (p o h l v : Nat) : (s.setFld p o h l v).exch = s.exch := rfl
@[simp] theorem Stage.setFld_blocks (p o h l v : Nat) : (s.setFld p o h l v).blocks = s.blocks := rfl
@[simp] theorem Stage.setFld_sps (p o h l v : Nat) : (s.setFld p o h l v).sps = s.sps := rfl
@[simp] theorem Stage.setFld_graph (p o h l v : Nat) : (s.setFld p o h l v).graph = s.graph := rfl
@[simp] theorem Stage.setFld_bats (p o h l v : Nat) : (s.setFld p o h l v).bats = s.bats := rfl
@[simp] theorem Stage.setFld_ports (p o h l v : Nat) : (s.setFld p o h l v).ports = s.ports := rfl
@[simp] theorem Stage.setFld_groups (p o h l v : Nat) : (s.setFld p o h l v).groups = s.groups := rfl
@[simp] theorem Stage.setFld_decs (p o h l v : Nat) : (s.setFld p o h l v).decs = s.decs := rfl
@[simp] theorem Stage.setFld_syncs (p o h l v : Nat) : (s.setFld p o h l v).syncs = s.syncs := rfl
@[simp] theorem Stage.setFld_patch (p o h l v : Nat) : (s.setFld p o h l v).patch = s.patch := rfl
@[simp] theorem Stage.setFld_lanes (p o h l v : Nat) : (s.setFld p o h l v).lanes = s.lanes := rfl
@[simp] theorem Stage.setFld_links (p o h l v : Nat) : (s.setFld p o h l v).links = s.links := rfl
@[simp] theorem Stage.setFld_red (p o h l v : Nat) : (s.setFld p o h l v).red = s.red := rfl
@[simp] theorem Stage.setFld_fwVersion (p o h l v : Nat) : (s.setFld p o h l v).fwVersion = s.fwVersion := rfl
@[simp] theorem Stage.setFld_bridges (p o h l v : Nat) : (s.setFld p o h l v).bridges = s.bridges := rfl
@[simp] theorem Stage.setFld_net (p o h l v : Nat) : (s.setFld p o h l v).net = s.net := rfl
@[simp] theorem Stage.setFld_ecc (p o h l v : Nat) : (s.setFld p o h l v).ecc = s.ecc := rfl
@[simp] theorem Stage.setFld_pool (p o h l v : Nat) : (s.setFld p o h l v).pool = s.pool := rfl
@[simp] theorem Stage.setFld_reh (p o h l v : Nat) : (s.setFld p o h l v).reh = s.reh := rfl
@[simp] theorem Stage.setFld_prompt (p o h l v : Nat) : (s.setFld p o h l v).prompt = s.prompt := rfl
@[simp] theorem Stage.setFld_tab (p o h l v : Nat) : (s.setFld p o h l v).tab = s.tab := rfl
@[simp] theorem Stage.setFld_bench (p o h l v : Nat) : (s.setFld p o h l v).bench = s.bench := rfl
@[simp] theorem Stage.setFld_mail (p o h l v : Nat) : (s.setFld p o h l v).mail = s.mail := rfl
@[simp] theorem Stage.setFld_sup (p o h l v : Nat) : (s.setFld p o h l v).sup = s.sup := rfl
@[simp] theorem Stage.setFld_flash (p o h l v : Nat) : (s.setFld p o h l v).flash = s.flash := rfl
@[simp] theorem Stage.setFld_modeReq (p o h l v : Nat) : (s.setFld p o h l v).modeReq = s.modeReq := rfl
@[simp] theorem Stage.setFld_lockDue (p o h l v : Nat) : (s.setFld p o h l v).lockDue = s.lockDue := rfl
@[simp] theorem Stage.setFld_txn (p o h l v : Nat) : (s.setFld p o h l v).txn = s.txn := rfl
@[simp] theorem Stage.setFld_order (p o h l v : Nat) : (s.setFld p o h l v).order = s.order := rfl

/-! ### setFlag -/

@[simp] theorem Stage.setFlag_args (p o i : Nat) (b : Bool) : (s.setFlag p o i b).args = s.args := rfl
@[simp] theorem Stage.setFlag_routes (p o i : Nat) (b : Bool) : (s.setFlag p o i b).routes = s.routes := rfl
@[simp] theorem Stage.setFlag_cmdq (p o i : Nat) (b : Bool) : (s.setFlag p o i b).cmdq = s.cmdq := rfl
@[simp] theorem Stage.setFlag_seqs (p o i : Nat) (b : Bool) : (s.setFlag p o i b).seqs = s.seqs := rfl
@[simp] theorem Stage.setFlag_running (p o i : Nat) (b : Bool) : (s.setFlag p o i b).running = s.running := rfl
@[simp] theorem Stage.setFlag_recStore (p o i : Nat) (b : Bool) : (s.setFlag p o i b).recStore = s.recStore := rfl
@[simp] theorem Stage.setFlag_recHeld (p o i : Nat) (b : Bool) : (s.setFlag p o i b).recHeld = s.recHeld := rfl
@[simp] theorem Stage.setFlag_waiting (p o i : Nat) (b : Bool) : (s.setFlag p o i b).waiting = s.waiting := rfl
@[simp] theorem Stage.setFlag_mem (p o i : Nat) (b : Bool) : (s.setFlag p o i b).mem = s.mem := rfl
@[simp] theorem Stage.setFlag_bus (p o i : Nat) (b : Bool) : (s.setFlag p o i b).bus = s.bus := rfl
@[simp] theorem Stage.setFlag_outs (p o i : Nat) (b : Bool) : (s.setFlag p o i b).outs = s.outs := rfl
@[simp] theorem Stage.setFlag_fresh (p o i : Nat) (b : Bool) : (s.setFlag p o i b).fresh = s.fresh := rfl
@[simp] theorem Stage.setFlag_host (p o i : Nat) (b : Bool) : (s.setFlag p o i b).host = s.host := rfl
@[simp] theorem Stage.setFlag_vecSent (p o i : Nat) (b : Bool) : (s.setFlag p o i b).vecSent = s.vecSent := rfl
@[simp] theorem Stage.setFlag_grid (p o i : Nat) (b : Bool) : (s.setFlag p o i b).grid = s.grid := rfl
@[simp] theorem Stage.setFlag_level (p o i : Nat) (b : Bool) : (s.setFlag p o i b).level = s.level := rfl
@[simp] theorem Stage.setFlag_datum (p o i : Nat) (b : Bool) : (s.setFlag p o i b).datum = s.datum := rfl
@[simp] theorem Stage.setFlag_tports (p o i : Nat) (b : Bool) : (s.setFlag p o i b).tports = s.tports := rfl
@[simp] theorem Stage.setFlag_exch (p o i : Nat) (b : Bool) : (s.setFlag p o i b).exch = s.exch := rfl
@[simp] theorem Stage.setFlag_blocks (p o i : Nat) (b : Bool) : (s.setFlag p o i b).blocks = s.blocks := rfl
@[simp] theorem Stage.setFlag_sps (p o i : Nat) (b : Bool) : (s.setFlag p o i b).sps = s.sps := rfl
@[simp] theorem Stage.setFlag_graph (p o i : Nat) (b : Bool) : (s.setFlag p o i b).graph = s.graph := rfl
@[simp] theorem Stage.setFlag_bats (p o i : Nat) (b : Bool) : (s.setFlag p o i b).bats = s.bats := rfl
@[simp] theorem Stage.setFlag_ports (p o i : Nat) (b : Bool) : (s.setFlag p o i b).ports = s.ports := rfl
@[simp] theorem Stage.setFlag_groups (p o i : Nat) (b : Bool) : (s.setFlag p o i b).groups = s.groups := rfl
@[simp] theorem Stage.setFlag_decs (p o i : Nat) (b : Bool) : (s.setFlag p o i b).decs = s.decs := rfl
@[simp] theorem Stage.setFlag_syncs (p o i : Nat) (b : Bool) : (s.setFlag p o i b).syncs = s.syncs := rfl
@[simp] theorem Stage.setFlag_patch (p o i : Nat) (b : Bool) : (s.setFlag p o i b).patch = s.patch := rfl
@[simp] theorem Stage.setFlag_lanes (p o i : Nat) (b : Bool) : (s.setFlag p o i b).lanes = s.lanes := rfl
@[simp] theorem Stage.setFlag_links (p o i : Nat) (b : Bool) : (s.setFlag p o i b).links = s.links := rfl
@[simp] theorem Stage.setFlag_red (p o i : Nat) (b : Bool) : (s.setFlag p o i b).red = s.red := rfl
@[simp] theorem Stage.setFlag_fwVersion (p o i : Nat) (b : Bool) : (s.setFlag p o i b).fwVersion = s.fwVersion := rfl
@[simp] theorem Stage.setFlag_bridges (p o i : Nat) (b : Bool) : (s.setFlag p o i b).bridges = s.bridges := rfl
@[simp] theorem Stage.setFlag_net (p o i : Nat) (b : Bool) : (s.setFlag p o i b).net = s.net := rfl
@[simp] theorem Stage.setFlag_ecc (p o i : Nat) (b : Bool) : (s.setFlag p o i b).ecc = s.ecc := rfl
@[simp] theorem Stage.setFlag_pool (p o i : Nat) (b : Bool) : (s.setFlag p o i b).pool = s.pool := rfl
@[simp] theorem Stage.setFlag_reh (p o i : Nat) (b : Bool) : (s.setFlag p o i b).reh = s.reh := rfl
@[simp] theorem Stage.setFlag_prompt (p o i : Nat) (b : Bool) : (s.setFlag p o i b).prompt = s.prompt := rfl
@[simp] theorem Stage.setFlag_tab (p o i : Nat) (b : Bool) : (s.setFlag p o i b).tab = s.tab := rfl
@[simp] theorem Stage.setFlag_bench (p o i : Nat) (b : Bool) : (s.setFlag p o i b).bench = s.bench := rfl
@[simp] theorem Stage.setFlag_mail (p o i : Nat) (b : Bool) : (s.setFlag p o i b).mail = s.mail := rfl
@[simp] theorem Stage.setFlag_sup (p o i : Nat) (b : Bool) : (s.setFlag p o i b).sup = s.sup := rfl
@[simp] theorem Stage.setFlag_flash (p o i : Nat) (b : Bool) : (s.setFlag p o i b).flash = s.flash := rfl
@[simp] theorem Stage.setFlag_modeReq (p o i : Nat) (b : Bool) : (s.setFlag p o i b).modeReq = s.modeReq := rfl
@[simp] theorem Stage.setFlag_lockDue (p o i : Nat) (b : Bool) : (s.setFlag p o i b).lockDue = s.lockDue := rfl
@[simp] theorem Stage.setFlag_txn (p o i : Nat) (b : Bool) : (s.setFlag p o i b).txn = s.txn := rfl
@[simp] theorem Stage.setFlag_order (p o i : Nat) (b : Bool) : (s.setFlag p o i b).order = s.order := rfl

/-! ### set64 -/

@[simp] theorem Stage.set64_args (p o n : Nat) : (s.set64 p o n).args = s.args := rfl
@[simp] theorem Stage.set64_routes (p o n : Nat) : (s.set64 p o n).routes = s.routes := rfl
@[simp] theorem Stage.set64_cmdq (p o n : Nat) : (s.set64 p o n).cmdq = s.cmdq := rfl
@[simp] theorem Stage.set64_seqs (p o n : Nat) : (s.set64 p o n).seqs = s.seqs := rfl
@[simp] theorem Stage.set64_running (p o n : Nat) : (s.set64 p o n).running = s.running := rfl
@[simp] theorem Stage.set64_recStore (p o n : Nat) : (s.set64 p o n).recStore = s.recStore := rfl
@[simp] theorem Stage.set64_recHeld (p o n : Nat) : (s.set64 p o n).recHeld = s.recHeld := rfl
@[simp] theorem Stage.set64_waiting (p o n : Nat) : (s.set64 p o n).waiting = s.waiting := rfl
@[simp] theorem Stage.set64_mem (p o n : Nat) : (s.set64 p o n).mem = s.mem := rfl
@[simp] theorem Stage.set64_bus (p o n : Nat) : (s.set64 p o n).bus = s.bus := rfl
@[simp] theorem Stage.set64_outs (p o n : Nat) : (s.set64 p o n).outs = s.outs := rfl
@[simp] theorem Stage.set64_fresh (p o n : Nat) : (s.set64 p o n).fresh = s.fresh := rfl
@[simp] theorem Stage.set64_host (p o n : Nat) : (s.set64 p o n).host = s.host := rfl
@[simp] theorem Stage.set64_vecSent (p o n : Nat) : (s.set64 p o n).vecSent = s.vecSent := rfl
@[simp] theorem Stage.set64_grid (p o n : Nat) : (s.set64 p o n).grid = s.grid := rfl
@[simp] theorem Stage.set64_level (p o n : Nat) : (s.set64 p o n).level = s.level := rfl
@[simp] theorem Stage.set64_datum (p o n : Nat) : (s.set64 p o n).datum = s.datum := rfl
@[simp] theorem Stage.set64_tports (p o n : Nat) : (s.set64 p o n).tports = s.tports := rfl
@[simp] theorem Stage.set64_exch (p o n : Nat) : (s.set64 p o n).exch = s.exch := rfl
@[simp] theorem Stage.set64_blocks (p o n : Nat) : (s.set64 p o n).blocks = s.blocks := rfl
@[simp] theorem Stage.set64_sps (p o n : Nat) : (s.set64 p o n).sps = s.sps := rfl
@[simp] theorem Stage.set64_graph (p o n : Nat) : (s.set64 p o n).graph = s.graph := rfl
@[simp] theorem Stage.set64_bats (p o n : Nat) : (s.set64 p o n).bats = s.bats := rfl
@[simp] theorem Stage.set64_ports (p o n : Nat) : (s.set64 p o n).ports = s.ports := rfl
@[simp] theorem Stage.set64_groups (p o n : Nat) : (s.set64 p o n).groups = s.groups := rfl
@[simp] theorem Stage.set64_decs (p o n : Nat) : (s.set64 p o n).decs = s.decs := rfl
@[simp] theorem Stage.set64_syncs (p o n : Nat) : (s.set64 p o n).syncs = s.syncs := rfl
@[simp] theorem Stage.set64_patch (p o n : Nat) : (s.set64 p o n).patch = s.patch := rfl
@[simp] theorem Stage.set64_lanes (p o n : Nat) : (s.set64 p o n).lanes = s.lanes := rfl
@[simp] theorem Stage.set64_links (p o n : Nat) : (s.set64 p o n).links = s.links := rfl
@[simp] theorem Stage.set64_red (p o n : Nat) : (s.set64 p o n).red = s.red := rfl
@[simp] theorem Stage.set64_fwVersion (p o n : Nat) : (s.set64 p o n).fwVersion = s.fwVersion := rfl
@[simp] theorem Stage.set64_bridges (p o n : Nat) : (s.set64 p o n).bridges = s.bridges := rfl
@[simp] theorem Stage.set64_net (p o n : Nat) : (s.set64 p o n).net = s.net := rfl
@[simp] theorem Stage.set64_ecc (p o n : Nat) : (s.set64 p o n).ecc = s.ecc := rfl
@[simp] theorem Stage.set64_pool (p o n : Nat) : (s.set64 p o n).pool = s.pool := rfl
@[simp] theorem Stage.set64_reh (p o n : Nat) : (s.set64 p o n).reh = s.reh := rfl
@[simp] theorem Stage.set64_prompt (p o n : Nat) : (s.set64 p o n).prompt = s.prompt := rfl
@[simp] theorem Stage.set64_tab (p o n : Nat) : (s.set64 p o n).tab = s.tab := rfl
@[simp] theorem Stage.set64_bench (p o n : Nat) : (s.set64 p o n).bench = s.bench := rfl
@[simp] theorem Stage.set64_mail (p o n : Nat) : (s.set64 p o n).mail = s.mail := rfl
@[simp] theorem Stage.set64_sup (p o n : Nat) : (s.set64 p o n).sup = s.sup := rfl
@[simp] theorem Stage.set64_flash (p o n : Nat) : (s.set64 p o n).flash = s.flash := rfl
@[simp] theorem Stage.set64_modeReq (p o n : Nat) : (s.set64 p o n).modeReq = s.modeReq := rfl
@[simp] theorem Stage.set64_lockDue (p o n : Nat) : (s.set64 p o n).lockDue = s.lockDue := rfl
@[simp] theorem Stage.set64_txn (p o n : Nat) : (s.set64 p o n).txn = s.txn := rfl
@[simp] theorem Stage.set64_order (p o n : Nat) : (s.set64 p o n).order = s.order := rfl

/-! ### bump -/

@[simp] theorem Stage.bump_args (p o : Nat) : (s.bump p o).args = s.args := rfl
@[simp] theorem Stage.bump_routes (p o : Nat) : (s.bump p o).routes = s.routes := rfl
@[simp] theorem Stage.bump_cmdq (p o : Nat) : (s.bump p o).cmdq = s.cmdq := rfl
@[simp] theorem Stage.bump_seqs (p o : Nat) : (s.bump p o).seqs = s.seqs := rfl
@[simp] theorem Stage.bump_running (p o : Nat) : (s.bump p o).running = s.running := rfl
@[simp] theorem Stage.bump_recStore (p o : Nat) : (s.bump p o).recStore = s.recStore := rfl
@[simp] theorem Stage.bump_recHeld (p o : Nat) : (s.bump p o).recHeld = s.recHeld := rfl
@[simp] theorem Stage.bump_waiting (p o : Nat) : (s.bump p o).waiting = s.waiting := rfl
@[simp] theorem Stage.bump_mem (p o : Nat) : (s.bump p o).mem = s.mem := rfl
@[simp] theorem Stage.bump_bus (p o : Nat) : (s.bump p o).bus = s.bus := rfl
@[simp] theorem Stage.bump_outs (p o : Nat) : (s.bump p o).outs = s.outs := rfl
@[simp] theorem Stage.bump_fresh (p o : Nat) : (s.bump p o).fresh = s.fresh := rfl
@[simp] theorem Stage.bump_host (p o : Nat) : (s.bump p o).host = s.host := rfl
@[simp] theorem Stage.bump_vecSent (p o : Nat) : (s.bump p o).vecSent = s.vecSent := rfl
@[simp] theorem Stage.bump_grid (p o : Nat) : (s.bump p o).grid = s.grid := rfl
@[simp] theorem Stage.bump_level (p o : Nat) : (s.bump p o).level = s.level := rfl
@[simp] theorem Stage.bump_datum (p o : Nat) : (s.bump p o).datum = s.datum := rfl
@[simp] theorem Stage.bump_tports (p o : Nat) : (s.bump p o).tports = s.tports := rfl
@[simp] theorem Stage.bump_exch (p o : Nat) : (s.bump p o).exch = s.exch := rfl
@[simp] theorem Stage.bump_blocks (p o : Nat) : (s.bump p o).blocks = s.blocks := rfl
@[simp] theorem Stage.bump_sps (p o : Nat) : (s.bump p o).sps = s.sps := rfl
@[simp] theorem Stage.bump_graph (p o : Nat) : (s.bump p o).graph = s.graph := rfl
@[simp] theorem Stage.bump_bats (p o : Nat) : (s.bump p o).bats = s.bats := rfl
@[simp] theorem Stage.bump_ports (p o : Nat) : (s.bump p o).ports = s.ports := rfl
@[simp] theorem Stage.bump_groups (p o : Nat) : (s.bump p o).groups = s.groups := rfl
@[simp] theorem Stage.bump_decs (p o : Nat) : (s.bump p o).decs = s.decs := rfl
@[simp] theorem Stage.bump_syncs (p o : Nat) : (s.bump p o).syncs = s.syncs := rfl
@[simp] theorem Stage.bump_patch (p o : Nat) : (s.bump p o).patch = s.patch := rfl
@[simp] theorem Stage.bump_lanes (p o : Nat) : (s.bump p o).lanes = s.lanes := rfl
@[simp] theorem Stage.bump_links (p o : Nat) : (s.bump p o).links = s.links := rfl
@[simp] theorem Stage.bump_red (p o : Nat) : (s.bump p o).red = s.red := rfl
@[simp] theorem Stage.bump_fwVersion (p o : Nat) : (s.bump p o).fwVersion = s.fwVersion := rfl
@[simp] theorem Stage.bump_bridges (p o : Nat) : (s.bump p o).bridges = s.bridges := rfl
@[simp] theorem Stage.bump_net (p o : Nat) : (s.bump p o).net = s.net := rfl
@[simp] theorem Stage.bump_ecc (p o : Nat) : (s.bump p o).ecc = s.ecc := rfl
@[simp] theorem Stage.bump_pool (p o : Nat) : (s.bump p o).pool = s.pool := rfl
@[simp] theorem Stage.bump_reh (p o : Nat) : (s.bump p o).reh = s.reh := rfl
@[simp] theorem Stage.bump_prompt (p o : Nat) : (s.bump p o).prompt = s.prompt := rfl
@[simp] theorem Stage.bump_tab (p o : Nat) : (s.bump p o).tab = s.tab := rfl
@[simp] theorem Stage.bump_bench (p o : Nat) : (s.bump p o).bench = s.bench := rfl
@[simp] theorem Stage.bump_mail (p o : Nat) : (s.bump p o).mail = s.mail := rfl
@[simp] theorem Stage.bump_sup (p o : Nat) : (s.bump p o).sup = s.sup := rfl
@[simp] theorem Stage.bump_flash (p o : Nat) : (s.bump p o).flash = s.flash := rfl
@[simp] theorem Stage.bump_modeReq (p o : Nat) : (s.bump p o).modeReq = s.modeReq := rfl
@[simp] theorem Stage.bump_lockDue (p o : Nat) : (s.bump p o).lockDue = s.lockDue := rfl
@[simp] theorem Stage.bump_txn (p o : Nat) : (s.bump p o).txn = s.txn := rfl
@[simp] theorem Stage.bump_order (p o : Nat) : (s.bump p o).order = s.order := rfl

/-! ### bumpBy -/

@[simp] theorem Stage.bumpBy_args (p o k : Nat) : (s.bumpBy p o k).args = s.args := rfl
@[simp] theorem Stage.bumpBy_routes (p o k : Nat) : (s.bumpBy p o k).routes = s.routes := rfl
@[simp] theorem Stage.bumpBy_cmdq (p o k : Nat) : (s.bumpBy p o k).cmdq = s.cmdq := rfl
@[simp] theorem Stage.bumpBy_seqs (p o k : Nat) : (s.bumpBy p o k).seqs = s.seqs := rfl
@[simp] theorem Stage.bumpBy_running (p o k : Nat) : (s.bumpBy p o k).running = s.running := rfl
@[simp] theorem Stage.bumpBy_recStore (p o k : Nat) : (s.bumpBy p o k).recStore = s.recStore := rfl
@[simp] theorem Stage.bumpBy_recHeld (p o k : Nat) : (s.bumpBy p o k).recHeld = s.recHeld := rfl
@[simp] theorem Stage.bumpBy_waiting (p o k : Nat) : (s.bumpBy p o k).waiting = s.waiting := rfl
@[simp] theorem Stage.bumpBy_mem (p o k : Nat) : (s.bumpBy p o k).mem = s.mem := rfl
@[simp] theorem Stage.bumpBy_bus (p o k : Nat) : (s.bumpBy p o k).bus = s.bus := rfl
@[simp] theorem Stage.bumpBy_outs (p o k : Nat) : (s.bumpBy p o k).outs = s.outs := rfl
@[simp] theorem Stage.bumpBy_fresh (p o k : Nat) : (s.bumpBy p o k).fresh = s.fresh := rfl
@[simp] theorem Stage.bumpBy_host (p o k : Nat) : (s.bumpBy p o k).host = s.host := rfl
@[simp] theorem Stage.bumpBy_vecSent (p o k : Nat) : (s.bumpBy p o k).vecSent = s.vecSent := rfl
@[simp] theorem Stage.bumpBy_grid (p o k : Nat) : (s.bumpBy p o k).grid = s.grid := rfl
@[simp] theorem Stage.bumpBy_level (p o k : Nat) : (s.bumpBy p o k).level = s.level := rfl
@[simp] theorem Stage.bumpBy_datum (p o k : Nat) : (s.bumpBy p o k).datum = s.datum := rfl
@[simp] theorem Stage.bumpBy_tports (p o k : Nat) : (s.bumpBy p o k).tports = s.tports := rfl
@[simp] theorem Stage.bumpBy_exch (p o k : Nat) : (s.bumpBy p o k).exch = s.exch := rfl
@[simp] theorem Stage.bumpBy_blocks (p o k : Nat) : (s.bumpBy p o k).blocks = s.blocks := rfl
@[simp] theorem Stage.bumpBy_sps (p o k : Nat) : (s.bumpBy p o k).sps = s.sps := rfl
@[simp] theorem Stage.bumpBy_graph (p o k : Nat) : (s.bumpBy p o k).graph = s.graph := rfl
@[simp] theorem Stage.bumpBy_bats (p o k : Nat) : (s.bumpBy p o k).bats = s.bats := rfl
@[simp] theorem Stage.bumpBy_ports (p o k : Nat) : (s.bumpBy p o k).ports = s.ports := rfl
@[simp] theorem Stage.bumpBy_groups (p o k : Nat) : (s.bumpBy p o k).groups = s.groups := rfl
@[simp] theorem Stage.bumpBy_decs (p o k : Nat) : (s.bumpBy p o k).decs = s.decs := rfl
@[simp] theorem Stage.bumpBy_syncs (p o k : Nat) : (s.bumpBy p o k).syncs = s.syncs := rfl
@[simp] theorem Stage.bumpBy_patch (p o k : Nat) : (s.bumpBy p o k).patch = s.patch := rfl
@[simp] theorem Stage.bumpBy_lanes (p o k : Nat) : (s.bumpBy p o k).lanes = s.lanes := rfl
@[simp] theorem Stage.bumpBy_links (p o k : Nat) : (s.bumpBy p o k).links = s.links := rfl
@[simp] theorem Stage.bumpBy_red (p o k : Nat) : (s.bumpBy p o k).red = s.red := rfl
@[simp] theorem Stage.bumpBy_fwVersion (p o k : Nat) : (s.bumpBy p o k).fwVersion = s.fwVersion := rfl
@[simp] theorem Stage.bumpBy_bridges (p o k : Nat) : (s.bumpBy p o k).bridges = s.bridges := rfl
@[simp] theorem Stage.bumpBy_net (p o k : Nat) : (s.bumpBy p o k).net = s.net := rfl
@[simp] theorem Stage.bumpBy_ecc (p o k : Nat) : (s.bumpBy p o k).ecc = s.ecc := rfl
@[simp] theorem Stage.bumpBy_pool (p o k : Nat) : (s.bumpBy p o k).pool = s.pool := rfl
@[simp] theorem Stage.bumpBy_reh (p o k : Nat) : (s.bumpBy p o k).reh = s.reh := rfl
@[simp] theorem Stage.bumpBy_prompt (p o k : Nat) : (s.bumpBy p o k).prompt = s.prompt := rfl
@[simp] theorem Stage.bumpBy_tab (p o k : Nat) : (s.bumpBy p o k).tab = s.tab := rfl
@[simp] theorem Stage.bumpBy_bench (p o k : Nat) : (s.bumpBy p o k).bench = s.bench := rfl
@[simp] theorem Stage.bumpBy_mail (p o k : Nat) : (s.bumpBy p o k).mail = s.mail := rfl
@[simp] theorem Stage.bumpBy_sup (p o k : Nat) : (s.bumpBy p o k).sup = s.sup := rfl
@[simp] theorem Stage.bumpBy_flash (p o k : Nat) : (s.bumpBy p o k).flash = s.flash := rfl
@[simp] theorem Stage.bumpBy_modeReq (p o k : Nat) : (s.bumpBy p o k).modeReq = s.modeReq := rfl
@[simp] theorem Stage.bumpBy_lockDue (p o k : Nat) : (s.bumpBy p o k).lockDue = s.lockDue := rfl
@[simp] theorem Stage.bumpBy_txn (p o k : Nat) : (s.bumpBy p o k).txn = s.txn := rfl
@[simp] theorem Stage.bumpBy_order (p o k : Nat) : (s.bumpBy p o k).order = s.order := rfl

/-! ### raise -/

@[simp] theorem Stage.raise_args (p b : Nat) : (s.raise p b).args = s.args := rfl
@[simp] theorem Stage.raise_routes (p b : Nat) : (s.raise p b).routes = s.routes := rfl
@[simp] theorem Stage.raise_cmdq (p b : Nat) : (s.raise p b).cmdq = s.cmdq := rfl
@[simp] theorem Stage.raise_seqs (p b : Nat) : (s.raise p b).seqs = s.seqs := rfl
@[simp] theorem Stage.raise_running (p b : Nat) : (s.raise p b).running = s.running := rfl
@[simp] theorem Stage.raise_recStore (p b : Nat) : (s.raise p b).recStore = s.recStore := rfl
@[simp] theorem Stage.raise_recHeld (p b : Nat) : (s.raise p b).recHeld = s.recHeld := rfl
@[simp] theorem Stage.raise_waiting (p b : Nat) : (s.raise p b).waiting = s.waiting := rfl
@[simp] theorem Stage.raise_mem (p b : Nat) : (s.raise p b).mem = s.mem := rfl
@[simp] theorem Stage.raise_bus (p b : Nat) : (s.raise p b).bus = s.bus := rfl
@[simp] theorem Stage.raise_outs (p b : Nat) : (s.raise p b).outs = s.outs := rfl
@[simp] theorem Stage.raise_fresh (p b : Nat) : (s.raise p b).fresh = s.fresh := rfl
@[simp] theorem Stage.raise_host (p b : Nat) : (s.raise p b).host = s.host := rfl
@[simp] theorem Stage.raise_vecSent (p b : Nat) : (s.raise p b).vecSent = s.vecSent := rfl
@[simp] theorem Stage.raise_grid (p b : Nat) : (s.raise p b).grid = s.grid := rfl
@[simp] theorem Stage.raise_level (p b : Nat) : (s.raise p b).level = s.level := rfl
@[simp] theorem Stage.raise_datum (p b : Nat) : (s.raise p b).datum = s.datum := rfl
@[simp] theorem Stage.raise_tports (p b : Nat) : (s.raise p b).tports = s.tports := rfl
@[simp] theorem Stage.raise_exch (p b : Nat) : (s.raise p b).exch = s.exch := rfl
@[simp] theorem Stage.raise_blocks (p b : Nat) : (s.raise p b).blocks = s.blocks := rfl
@[simp] theorem Stage.raise_sps (p b : Nat) : (s.raise p b).sps = s.sps := rfl
@[simp] theorem Stage.raise_graph (p b : Nat) : (s.raise p b).graph = s.graph := rfl
@[simp] theorem Stage.raise_bats (p b : Nat) : (s.raise p b).bats = s.bats := rfl
@[simp] theorem Stage.raise_ports (p b : Nat) : (s.raise p b).ports = s.ports := rfl
@[simp] theorem Stage.raise_groups (p b : Nat) : (s.raise p b).groups = s.groups := rfl
@[simp] theorem Stage.raise_decs (p b : Nat) : (s.raise p b).decs = s.decs := rfl
@[simp] theorem Stage.raise_syncs (p b : Nat) : (s.raise p b).syncs = s.syncs := rfl
@[simp] theorem Stage.raise_patch (p b : Nat) : (s.raise p b).patch = s.patch := rfl
@[simp] theorem Stage.raise_lanes (p b : Nat) : (s.raise p b).lanes = s.lanes := rfl
@[simp] theorem Stage.raise_links (p b : Nat) : (s.raise p b).links = s.links := rfl
@[simp] theorem Stage.raise_red (p b : Nat) : (s.raise p b).red = s.red := rfl
@[simp] theorem Stage.raise_fwVersion (p b : Nat) : (s.raise p b).fwVersion = s.fwVersion := rfl
@[simp] theorem Stage.raise_bridges (p b : Nat) : (s.raise p b).bridges = s.bridges := rfl
@[simp] theorem Stage.raise_net (p b : Nat) : (s.raise p b).net = s.net := rfl
@[simp] theorem Stage.raise_ecc (p b : Nat) : (s.raise p b).ecc = s.ecc := rfl
@[simp] theorem Stage.raise_pool (p b : Nat) : (s.raise p b).pool = s.pool := rfl
@[simp] theorem Stage.raise_reh (p b : Nat) : (s.raise p b).reh = s.reh := rfl
@[simp] theorem Stage.raise_prompt (p b : Nat) : (s.raise p b).prompt = s.prompt := rfl
@[simp] theorem Stage.raise_tab (p b : Nat) : (s.raise p b).tab = s.tab := rfl
@[simp] theorem Stage.raise_bench (p b : Nat) : (s.raise p b).bench = s.bench := rfl
@[simp] theorem Stage.raise_mail (p b : Nat) : (s.raise p b).mail = s.mail := rfl
@[simp] theorem Stage.raise_sup (p b : Nat) : (s.raise p b).sup = s.sup := rfl
@[simp] theorem Stage.raise_flash (p b : Nat) : (s.raise p b).flash = s.flash := rfl
@[simp] theorem Stage.raise_modeReq (p b : Nat) : (s.raise p b).modeReq = s.modeReq := rfl
@[simp] theorem Stage.raise_lockDue (p b : Nat) : (s.raise p b).lockDue = s.lockDue := rfl
@[simp] theorem Stage.raise_txn (p b : Nat) : (s.raise p b).txn = s.txn := rfl
@[simp] theorem Stage.raise_order (p b : Nat) : (s.raise p b).order = s.order := rfl

/-! ### emit -/

@[simp] theorem Stage.emit_regs (o : Out) : (s.emit o).regs = s.regs := rfl
@[simp] theorem Stage.emit_args (o : Out) : (s.emit o).args = s.args := rfl
@[simp] theorem Stage.emit_routes (o : Out) : (s.emit o).routes = s.routes := rfl
@[simp] theorem Stage.emit_cmdq (o : Out) : (s.emit o).cmdq = s.cmdq := rfl
@[simp] theorem Stage.emit_seqs (o : Out) : (s.emit o).seqs = s.seqs := rfl
@[simp] theorem Stage.emit_running (o : Out) : (s.emit o).running = s.running := rfl
@[simp] theorem Stage.emit_recStore (o : Out) : (s.emit o).recStore = s.recStore := rfl
@[simp] theorem Stage.emit_recHeld (o : Out) : (s.emit o).recHeld = s.recHeld := rfl
@[simp] theorem Stage.emit_waiting (o : Out) : (s.emit o).waiting = s.waiting := rfl
@[simp] theorem Stage.emit_mem (o : Out) : (s.emit o).mem = s.mem := rfl
@[simp] theorem Stage.emit_bus (o : Out) : (s.emit o).bus = s.bus := rfl
@[simp] theorem Stage.emit_fresh (o : Out) : (s.emit o).fresh = s.fresh := rfl
@[simp] theorem Stage.emit_host (o : Out) : (s.emit o).host = s.host := rfl
@[simp] theorem Stage.emit_vecSent (o : Out) : (s.emit o).vecSent = s.vecSent := rfl
@[simp] theorem Stage.emit_grid (o : Out) : (s.emit o).grid = s.grid := rfl
@[simp] theorem Stage.emit_level (o : Out) : (s.emit o).level = s.level := rfl
@[simp] theorem Stage.emit_datum (o : Out) : (s.emit o).datum = s.datum := rfl
@[simp] theorem Stage.emit_tports (o : Out) : (s.emit o).tports = s.tports := rfl
@[simp] theorem Stage.emit_exch (o : Out) : (s.emit o).exch = s.exch := rfl
@[simp] theorem Stage.emit_blocks (o : Out) : (s.emit o).blocks = s.blocks := rfl
@[simp] theorem Stage.emit_sps (o : Out) : (s.emit o).sps = s.sps := rfl
@[simp] theorem Stage.emit_graph (o : Out) : (s.emit o).graph = s.graph := rfl
@[simp] theorem Stage.emit_bats (o : Out) : (s.emit o).bats = s.bats := rfl
@[simp] theorem Stage.emit_ports (o : Out) : (s.emit o).ports = s.ports := rfl
@[simp] theorem Stage.emit_groups (o : Out) : (s.emit o).groups = s.groups := rfl
@[simp] theorem Stage.emit_decs (o : Out) : (s.emit o).decs = s.decs := rfl
@[simp] theorem Stage.emit_syncs (o : Out) : (s.emit o).syncs = s.syncs := rfl
@[simp] theorem Stage.emit_patch (o : Out) : (s.emit o).patch = s.patch := rfl
@[simp] theorem Stage.emit_lanes (o : Out) : (s.emit o).lanes = s.lanes := rfl
@[simp] theorem Stage.emit_links (o : Out) : (s.emit o).links = s.links := rfl
@[simp] theorem Stage.emit_red (o : Out) : (s.emit o).red = s.red := rfl
@[simp] theorem Stage.emit_fwVersion (o : Out) : (s.emit o).fwVersion = s.fwVersion := rfl
@[simp] theorem Stage.emit_bridges (o : Out) : (s.emit o).bridges = s.bridges := rfl
@[simp] theorem Stage.emit_net (o : Out) : (s.emit o).net = s.net := rfl
@[simp] theorem Stage.emit_ecc (o : Out) : (s.emit o).ecc = s.ecc := rfl
@[simp] theorem Stage.emit_pool (o : Out) : (s.emit o).pool = s.pool := rfl
@[simp] theorem Stage.emit_reh (o : Out) : (s.emit o).reh = s.reh := rfl
@[simp] theorem Stage.emit_prompt (o : Out) : (s.emit o).prompt = s.prompt := rfl
@[simp] theorem Stage.emit_tab (o : Out) : (s.emit o).tab = s.tab := rfl
@[simp] theorem Stage.emit_bench (o : Out) : (s.emit o).bench = s.bench := rfl
@[simp] theorem Stage.emit_mail (o : Out) : (s.emit o).mail = s.mail := rfl
@[simp] theorem Stage.emit_sup (o : Out) : (s.emit o).sup = s.sup := rfl
@[simp] theorem Stage.emit_flash (o : Out) : (s.emit o).flash = s.flash := rfl
@[simp] theorem Stage.emit_modeReq (o : Out) : (s.emit o).modeReq = s.modeReq := rfl
@[simp] theorem Stage.emit_lockDue (o : Out) : (s.emit o).lockDue = s.lockDue := rfl
@[simp] theorem Stage.emit_txn (o : Out) : (s.emit o).txn = s.txn := rfl
@[simp] theorem Stage.emit_order (o : Out) : (s.emit o).order = s.order := rfl

/-! ### respond -/

@[simp] theorem Stage.respond_regs (r : Resp) : (s.respond r).regs = s.regs := rfl
@[simp] theorem Stage.respond_args (r : Resp) : (s.respond r).args = s.args := rfl
@[simp] theorem Stage.respond_routes (r : Resp) : (s.respond r).routes = s.routes := rfl
@[simp] theorem Stage.respond_cmdq (r : Resp) : (s.respond r).cmdq = s.cmdq := rfl
@[simp] theorem Stage.respond_seqs (r : Resp) : (s.respond r).seqs = s.seqs := rfl
@[simp] theorem Stage.respond_running (r : Resp) : (s.respond r).running = s.running := rfl
@[simp] theorem Stage.respond_recStore (r : Resp) : (s.respond r).recStore = s.recStore := rfl
@[simp] theorem Stage.respond_recHeld (r : Resp) : (s.respond r).recHeld = s.recHeld := rfl
@[simp] theorem Stage.respond_waiting (r : Resp) : (s.respond r).waiting = s.waiting := rfl
@[simp] theorem Stage.respond_mem (r : Resp) : (s.respond r).mem = s.mem := rfl
@[simp] theorem Stage.respond_outs (r : Resp) : (s.respond r).outs = s.outs := rfl
@[simp] theorem Stage.respond_fresh (r : Resp) : (s.respond r).fresh = s.fresh := rfl
@[simp] theorem Stage.respond_host (r : Resp) : (s.respond r).host = s.host := rfl
@[simp] theorem Stage.respond_vecSent (r : Resp) : (s.respond r).vecSent = s.vecSent := rfl
@[simp] theorem Stage.respond_grid (r : Resp) : (s.respond r).grid = s.grid := rfl
@[simp] theorem Stage.respond_level (r : Resp) : (s.respond r).level = s.level := rfl
@[simp] theorem Stage.respond_datum (r : Resp) : (s.respond r).datum = s.datum := rfl
@[simp] theorem Stage.respond_tports (r : Resp) : (s.respond r).tports = s.tports := rfl
@[simp] theorem Stage.respond_exch (r : Resp) : (s.respond r).exch = s.exch := rfl
@[simp] theorem Stage.respond_blocks (r : Resp) : (s.respond r).blocks = s.blocks := rfl
@[simp] theorem Stage.respond_sps (r : Resp) : (s.respond r).sps = s.sps := rfl
@[simp] theorem Stage.respond_graph (r : Resp) : (s.respond r).graph = s.graph := rfl
@[simp] theorem Stage.respond_bats (r : Resp) : (s.respond r).bats = s.bats := rfl
@[simp] theorem Stage.respond_ports (r : Resp) : (s.respond r).ports = s.ports := rfl
@[simp] theorem Stage.respond_groups (r : Resp) : (s.respond r).groups = s.groups := rfl
@[simp] theorem Stage.respond_decs (r : Resp) : (s.respond r).decs = s.decs := rfl
@[simp] theorem Stage.respond_syncs (r : Resp) : (s.respond r).syncs = s.syncs := rfl
@[simp] theorem Stage.respond_patch (r : Resp) : (s.respond r).patch = s.patch := rfl
@[simp] theorem Stage.respond_lanes (r : Resp) : (s.respond r).lanes = s.lanes := rfl
@[simp] theorem Stage.respond_links (r : Resp) : (s.respond r).links = s.links := rfl
@[simp] theorem Stage.respond_red (r : Resp) : (s.respond r).red = s.red := rfl
@[simp] theorem Stage.respond_fwVersion (r : Resp) : (s.respond r).fwVersion = s.fwVersion := rfl
@[simp] theorem Stage.respond_bridges (r : Resp) : (s.respond r).bridges = s.bridges := rfl
@[simp] theorem Stage.respond_net (r : Resp) : (s.respond r).net = s.net := rfl
@[simp] theorem Stage.respond_ecc (r : Resp) : (s.respond r).ecc = s.ecc := rfl
@[simp] theorem Stage.respond_pool (r : Resp) : (s.respond r).pool = s.pool := rfl
@[simp] theorem Stage.respond_reh (r : Resp) : (s.respond r).reh = s.reh := rfl
@[simp] theorem Stage.respond_prompt (r : Resp) : (s.respond r).prompt = s.prompt := rfl
@[simp] theorem Stage.respond_tab (r : Resp) : (s.respond r).tab = s.tab := rfl
@[simp] theorem Stage.respond_bench (r : Resp) : (s.respond r).bench = s.bench := rfl
@[simp] theorem Stage.respond_mail (r : Resp) : (s.respond r).mail = s.mail := rfl
@[simp] theorem Stage.respond_sup (r : Resp) : (s.respond r).sup = s.sup := rfl
@[simp] theorem Stage.respond_flash (r : Resp) : (s.respond r).flash = s.flash := rfl
@[simp] theorem Stage.respond_modeReq (r : Resp) : (s.respond r).modeReq = s.modeReq := rfl
@[simp] theorem Stage.respond_lockDue (r : Resp) : (s.respond r).lockDue = s.lockDue := rfl
@[simp] theorem Stage.respond_txn (r : Resp) : (s.respond r).txn = s.txn := rfl
@[simp] theorem Stage.respond_order (r : Resp) : (s.respond r).order = s.order := rfl

/-! ### answer -/

@[simp] theorem Stage.answer_regs (v : Word) : (s.answer v).regs = s.regs := rfl
@[simp] theorem Stage.answer_args (v : Word) : (s.answer v).args = s.args := rfl
@[simp] theorem Stage.answer_routes (v : Word) : (s.answer v).routes = s.routes := rfl
@[simp] theorem Stage.answer_cmdq (v : Word) : (s.answer v).cmdq = s.cmdq := rfl
@[simp] theorem Stage.answer_seqs (v : Word) : (s.answer v).seqs = s.seqs := rfl
@[simp] theorem Stage.answer_running (v : Word) : (s.answer v).running = s.running := rfl
@[simp] theorem Stage.answer_recStore (v : Word) : (s.answer v).recStore = s.recStore := rfl
@[simp] theorem Stage.answer_recHeld (v : Word) : (s.answer v).recHeld = s.recHeld := rfl
@[simp] theorem Stage.answer_waiting (v : Word) : (s.answer v).waiting = s.waiting := rfl
@[simp] theorem Stage.answer_mem (v : Word) : (s.answer v).mem = s.mem := rfl
@[simp] theorem Stage.answer_outs (v : Word) : (s.answer v).outs = s.outs := rfl
@[simp] theorem Stage.answer_fresh (v : Word) : (s.answer v).fresh = s.fresh := rfl
@[simp] theorem Stage.answer_host (v : Word) : (s.answer v).host = s.host := rfl
@[simp] theorem Stage.answer_vecSent (v : Word) : (s.answer v).vecSent = s.vecSent := rfl
@[simp] theorem Stage.answer_grid (v : Word) : (s.answer v).grid = s.grid := rfl
@[simp] theorem Stage.answer_level (v : Word) : (s.answer v).level = s.level := rfl
@[simp] theorem Stage.answer_datum (v : Word) : (s.answer v).datum = s.datum := rfl
@[simp] theorem Stage.answer_tports (v : Word) : (s.answer v).tports = s.tports := rfl
@[simp] theorem Stage.answer_exch (v : Word) : (s.answer v).exch = s.exch := rfl
@[simp] theorem Stage.answer_blocks (v : Word) : (s.answer v).blocks = s.blocks := rfl
@[simp] theorem Stage.answer_sps (v : Word) : (s.answer v).sps = s.sps := rfl
@[simp] theorem Stage.answer_graph (v : Word) : (s.answer v).graph = s.graph := rfl
@[simp] theorem Stage.answer_bats (v : Word) : (s.answer v).bats = s.bats := rfl
@[simp] theorem Stage.answer_ports (v : Word) : (s.answer v).ports = s.ports := rfl
@[simp] theorem Stage.answer_groups (v : Word) : (s.answer v).groups = s.groups := rfl
@[simp] theorem Stage.answer_decs (v : Word) : (s.answer v).decs = s.decs := rfl
@[simp] theorem Stage.answer_syncs (v : Word) : (s.answer v).syncs = s.syncs := rfl
@[simp] theorem Stage.answer_patch (v : Word) : (s.answer v).patch = s.patch := rfl
@[simp] theorem Stage.answer_lanes (v : Word) : (s.answer v).lanes = s.lanes := rfl
@[simp] theorem Stage.answer_links (v : Word) : (s.answer v).links = s.links := rfl
@[simp] theorem Stage.answer_red (v : Word) : (s.answer v).red = s.red := rfl
@[simp] theorem Stage.answer_fwVersion (v : Word) : (s.answer v).fwVersion = s.fwVersion := rfl
@[simp] theorem Stage.answer_bridges (v : Word) : (s.answer v).bridges = s.bridges := rfl
@[simp] theorem Stage.answer_net (v : Word) : (s.answer v).net = s.net := rfl
@[simp] theorem Stage.answer_ecc (v : Word) : (s.answer v).ecc = s.ecc := rfl
@[simp] theorem Stage.answer_pool (v : Word) : (s.answer v).pool = s.pool := rfl
@[simp] theorem Stage.answer_reh (v : Word) : (s.answer v).reh = s.reh := rfl
@[simp] theorem Stage.answer_prompt (v : Word) : (s.answer v).prompt = s.prompt := rfl
@[simp] theorem Stage.answer_tab (v : Word) : (s.answer v).tab = s.tab := rfl
@[simp] theorem Stage.answer_bench (v : Word) : (s.answer v).bench = s.bench := rfl
@[simp] theorem Stage.answer_mail (v : Word) : (s.answer v).mail = s.mail := rfl
@[simp] theorem Stage.answer_sup (v : Word) : (s.answer v).sup = s.sup := rfl
@[simp] theorem Stage.answer_flash (v : Word) : (s.answer v).flash = s.flash := rfl
@[simp] theorem Stage.answer_modeReq (v : Word) : (s.answer v).modeReq = s.modeReq := rfl
@[simp] theorem Stage.answer_lockDue (v : Word) : (s.answer v).lockDue = s.lockDue := rfl
@[simp] theorem Stage.answer_txn (v : Word) : (s.answer v).txn = s.txn := rfl
@[simp] theorem Stage.answer_order (v : Word) : (s.answer v).order = s.order := rfl

/-! ### setArg -/

@[simp] theorem Stage.setArg_regs (p : Nat) (m : Master) (j : Nat) (v : Word) : (s.setArg p m j v).regs = s.regs := rfl
@[simp] theorem Stage.setArg_routes (p : Nat) (m : Master) (j : Nat) (v : Word) : (s.setArg p m j v).routes = s.routes := rfl
@[simp] theorem Stage.setArg_cmdq (p : Nat) (m : Master) (j : Nat) (v : Word) : (s.setArg p m j v).cmdq = s.cmdq := rfl
@[simp] theorem Stage.setArg_seqs (p : Nat) (m : Master) (j : Nat) (v : Word) : (s.setArg p m j v).seqs = s.seqs := rfl
@[simp] theorem Stage.setArg_running (p : Nat) (m : Master) (j : Nat) (v : Word) : (s.setArg p m j v).running = s.running := rfl
@[simp] theorem Stage.setArg_recStore (p : Nat) (m : Master) (j : Nat) (v : Word) : (s.setArg p m j v).recStore = s.recStore := rfl
@[simp] theorem Stage.setArg_recHeld (p : Nat) (m : Master) (j : Nat) (v : Word) : (s.setArg p m j v).recHeld = s.recHeld := rfl
@[simp] theorem Stage.setArg_waiting (p : Nat) (m : Master) (j : Nat) (v : Word) : (s.setArg p m j v).waiting = s.waiting := rfl
@[simp] theorem Stage.setArg_mem (p : Nat) (m : Master) (j : Nat) (v : Word) : (s.setArg p m j v).mem = s.mem := rfl
@[simp] theorem Stage.setArg_bus (p : Nat) (m : Master) (j : Nat) (v : Word) : (s.setArg p m j v).bus = s.bus := rfl
@[simp] theorem Stage.setArg_outs (p : Nat) (m : Master) (j : Nat) (v : Word) : (s.setArg p m j v).outs = s.outs := rfl
@[simp] theorem Stage.setArg_fresh (p : Nat) (m : Master) (j : Nat) (v : Word) : (s.setArg p m j v).fresh = s.fresh := rfl
@[simp] theorem Stage.setArg_host (p : Nat) (m : Master) (j : Nat) (v : Word) : (s.setArg p m j v).host = s.host := rfl
@[simp] theorem Stage.setArg_vecSent (p : Nat) (m : Master) (j : Nat) (v : Word) : (s.setArg p m j v).vecSent = s.vecSent := rfl
@[simp] theorem Stage.setArg_grid (p : Nat) (m : Master) (j : Nat) (v : Word) : (s.setArg p m j v).grid = s.grid := rfl
@[simp] theorem Stage.setArg_level (p : Nat) (m : Master) (j : Nat) (v : Word) : (s.setArg p m j v).level = s.level := rfl
@[simp] theorem Stage.setArg_datum (p : Nat) (m : Master) (j : Nat) (v : Word) : (s.setArg p m j v).datum = s.datum := rfl
@[simp] theorem Stage.setArg_tports (p : Nat) (m : Master) (j : Nat) (v : Word) : (s.setArg p m j v).tports = s.tports := rfl
@[simp] theorem Stage.setArg_exch (p : Nat) (m : Master) (j : Nat) (v : Word) : (s.setArg p m j v).exch = s.exch := rfl
@[simp] theorem Stage.setArg_blocks (p : Nat) (m : Master) (j : Nat) (v : Word) : (s.setArg p m j v).blocks = s.blocks := rfl
@[simp] theorem Stage.setArg_sps (p : Nat) (m : Master) (j : Nat) (v : Word) : (s.setArg p m j v).sps = s.sps := rfl
@[simp] theorem Stage.setArg_graph (p : Nat) (m : Master) (j : Nat) (v : Word) : (s.setArg p m j v).graph = s.graph := rfl
@[simp] theorem Stage.setArg_bats (p : Nat) (m : Master) (j : Nat) (v : Word) : (s.setArg p m j v).bats = s.bats := rfl
@[simp] theorem Stage.setArg_ports (p : Nat) (m : Master) (j : Nat) (v : Word) : (s.setArg p m j v).ports = s.ports := rfl
@[simp] theorem Stage.setArg_groups (p : Nat) (m : Master) (j : Nat) (v : Word) : (s.setArg p m j v).groups = s.groups := rfl
@[simp] theorem Stage.setArg_decs (p : Nat) (m : Master) (j : Nat) (v : Word) : (s.setArg p m j v).decs = s.decs := rfl
@[simp] theorem Stage.setArg_syncs (p : Nat) (m : Master) (j : Nat) (v : Word) : (s.setArg p m j v).syncs = s.syncs := rfl
@[simp] theorem Stage.setArg_patch (p : Nat) (m : Master) (j : Nat) (v : Word) : (s.setArg p m j v).patch = s.patch := rfl
@[simp] theorem Stage.setArg_lanes (p : Nat) (m : Master) (j : Nat) (v : Word) : (s.setArg p m j v).lanes = s.lanes := rfl
@[simp] theorem Stage.setArg_links (p : Nat) (m : Master) (j : Nat) (v : Word) : (s.setArg p m j v).links = s.links := rfl
@[simp] theorem Stage.setArg_red (p : Nat) (m : Master) (j : Nat) (v : Word) : (s.setArg p m j v).red = s.red := rfl
@[simp] theorem Stage.setArg_fwVersion (p : Nat) (m : Master) (j : Nat) (v : Word) : (s.setArg p m j v).fwVersion = s.fwVersion := rfl
@[simp] theorem Stage.setArg_bridges (p : Nat) (m : Master) (j : Nat) (v : Word) : (s.setArg p m j v).bridges = s.bridges := rfl
@[simp] theorem Stage.setArg_net (p : Nat) (m : Master) (j : Nat) (v : Word) : (s.setArg p m j v).net = s.net := rfl
@[simp] theorem Stage.setArg_ecc (p : Nat) (m : Master) (j : Nat) (v : Word) : (s.setArg p m j v).ecc = s.ecc := rfl
@[simp] theorem Stage.setArg_pool (p : Nat) (m : Master) (j : Nat) (v : Word) : (s.setArg p m j v).pool = s.pool := rfl
@[simp] theorem Stage.setArg_reh (p : Nat) (m : Master) (j : Nat) (v : Word) : (s.setArg p m j v).reh = s.reh := rfl
@[simp] theorem Stage.setArg_prompt (p : Nat) (m : Master) (j : Nat) (v : Word) : (s.setArg p m j v).prompt = s.prompt := rfl
@[simp] theorem Stage.setArg_tab (p : Nat) (m : Master) (j : Nat) (v : Word) : (s.setArg p m j v).tab = s.tab := rfl
@[simp] theorem Stage.setArg_bench (p : Nat) (m : Master) (j : Nat) (v : Word) : (s.setArg p m j v).bench = s.bench := rfl
@[simp] theorem Stage.setArg_mail (p : Nat) (m : Master) (j : Nat) (v : Word) : (s.setArg p m j v).mail = s.mail := rfl
@[simp] theorem Stage.setArg_sup (p : Nat) (m : Master) (j : Nat) (v : Word) : (s.setArg p m j v).sup = s.sup := rfl
@[simp] theorem Stage.setArg_flash (p : Nat) (m : Master) (j : Nat) (v : Word) : (s.setArg p m j v).flash = s.flash := rfl
@[simp] theorem Stage.setArg_modeReq (p : Nat) (m : Master) (j : Nat) (v : Word) : (s.setArg p m j v).modeReq = s.modeReq := rfl
@[simp] theorem Stage.setArg_lockDue (p : Nat) (m : Master) (j : Nat) (v : Word) : (s.setArg p m j v).lockDue = s.lockDue := rfl
@[simp] theorem Stage.setArg_txn (p : Nat) (m : Master) (j : Nat) (v : Word) : (s.setArg p m j v).txn = s.txn := rfl
@[simp] theorem Stage.setArg_order (p : Nat) (m : Master) (j : Nat) (v : Word) : (s.setArg p m j v).order = s.order := rfl

/-! ### setRunning -/

@[simp] theorem Stage.setRunning_regs (p : Nat) (c : Option Cmd) : (s.setRunning p c).regs = s.regs := rfl
@[simp] theorem Stage.setRunning_args (p : Nat) (c : Option Cmd) : (s.setRunning p c).args = s.args := rfl
@[simp] theorem Stage.setRunning_routes (p : Nat) (c : Option Cmd) : (s.setRunning p c).routes = s.routes := rfl
@[simp] theorem Stage.setRunning_cmdq (p : Nat) (c : Option Cmd) : (s.setRunning p c).cmdq = s.cmdq := rfl
@[simp] theorem Stage.setRunning_seqs (p : Nat) (c : Option Cmd) : (s.setRunning p c).seqs = s.seqs := rfl
@[simp] theorem Stage.setRunning_recStore (p : Nat) (c : Option Cmd) : (s.setRunning p c).recStore = s.recStore := rfl
@[simp] theorem Stage.setRunning_recHeld (p : Nat) (c : Option Cmd) : (s.setRunning p c).recHeld = s.recHeld := rfl
@[simp] theorem Stage.setRunning_waiting (p : Nat) (c : Option Cmd) : (s.setRunning p c).waiting = s.waiting := rfl
@[simp] theorem Stage.setRunning_mem (p : Nat) (c : Option Cmd) : (s.setRunning p c).mem = s.mem := rfl
@[simp] theorem Stage.setRunning_bus (p : Nat) (c : Option Cmd) : (s.setRunning p c).bus = s.bus := rfl
@[simp] theorem Stage.setRunning_outs (p : Nat) (c : Option Cmd) : (s.setRunning p c).outs = s.outs := rfl
@[simp] theorem Stage.setRunning_fresh (p : Nat) (c : Option Cmd) : (s.setRunning p c).fresh = s.fresh := rfl
@[simp] theorem Stage.setRunning_host (p : Nat) (c : Option Cmd) : (s.setRunning p c).host = s.host := rfl
@[simp] theorem Stage.setRunning_vecSent (p : Nat) (c : Option Cmd) : (s.setRunning p c).vecSent = s.vecSent := rfl
@[simp] theorem Stage.setRunning_grid (p : Nat) (c : Option Cmd) : (s.setRunning p c).grid = s.grid := rfl
@[simp] theorem Stage.setRunning_level (p : Nat) (c : Option Cmd) : (s.setRunning p c).level = s.level := rfl
@[simp] theorem Stage.setRunning_datum (p : Nat) (c : Option Cmd) : (s.setRunning p c).datum = s.datum := rfl
@[simp] theorem Stage.setRunning_tports (p : Nat) (c : Option Cmd) : (s.setRunning p c).tports = s.tports := rfl
@[simp] theorem Stage.setRunning_exch (p : Nat) (c : Option Cmd) : (s.setRunning p c).exch = s.exch := rfl
@[simp] theorem Stage.setRunning_blocks (p : Nat) (c : Option Cmd) : (s.setRunning p c).blocks = s.blocks := rfl
@[simp] theorem Stage.setRunning_sps (p : Nat) (c : Option Cmd) : (s.setRunning p c).sps = s.sps := rfl
@[simp] theorem Stage.setRunning_graph (p : Nat) (c : Option Cmd) : (s.setRunning p c).graph = s.graph := rfl
@[simp] theorem Stage.setRunning_bats (p : Nat) (c : Option Cmd) : (s.setRunning p c).bats = s.bats := rfl
@[simp] theorem Stage.setRunning_ports (p : Nat) (c : Option Cmd) : (s.setRunning p c).ports = s.ports := rfl
@[simp] theorem Stage.setRunning_groups (p : Nat) (c : Option Cmd) : (s.setRunning p c).groups = s.groups := rfl
@[simp] theorem Stage.setRunning_decs (p : Nat) (c : Option Cmd) : (s.setRunning p c).decs = s.decs := rfl
@[simp] theorem Stage.setRunning_syncs (p : Nat) (c : Option Cmd) : (s.setRunning p c).syncs = s.syncs := rfl
@[simp] theorem Stage.setRunning_patch (p : Nat) (c : Option Cmd) : (s.setRunning p c).patch = s.patch := rfl
@[simp] theorem Stage.setRunning_lanes (p : Nat) (c : Option Cmd) : (s.setRunning p c).lanes = s.lanes := rfl
@[simp] theorem Stage.setRunning_links (p : Nat) (c : Option Cmd) : (s.setRunning p c).links = s.links := rfl
@[simp] theorem Stage.setRunning_red (p : Nat) (c : Option Cmd) : (s.setRunning p c).red = s.red := rfl
@[simp] theorem Stage.setRunning_fwVersion (p : Nat) (c : Option Cmd) : (s.setRunning p c).fwVersion = s.fwVersion := rfl
@[simp] theorem Stage.setRunning_bridges (p : Nat) (c : Option Cmd) : (s.setRunning p c).bridges = s.bridges := rfl
@[simp] theorem Stage.setRunning_net (p : Nat) (c : Option Cmd) : (s.setRunning p c).net = s.net := rfl
@[simp] theorem Stage.setRunning_ecc (p : Nat) (c : Option Cmd) : (s.setRunning p c).ecc = s.ecc := rfl
@[simp] theorem Stage.setRunning_pool (p : Nat) (c : Option Cmd) : (s.setRunning p c).pool = s.pool := rfl
@[simp] theorem Stage.setRunning_reh (p : Nat) (c : Option Cmd) : (s.setRunning p c).reh = s.reh := rfl
@[simp] theorem Stage.setRunning_prompt (p : Nat) (c : Option Cmd) : (s.setRunning p c).prompt = s.prompt := rfl
@[simp] theorem Stage.setRunning_tab (p : Nat) (c : Option Cmd) : (s.setRunning p c).tab = s.tab := rfl
@[simp] theorem Stage.setRunning_bench (p : Nat) (c : Option Cmd) : (s.setRunning p c).bench = s.bench := rfl
@[simp] theorem Stage.setRunning_mail (p : Nat) (c : Option Cmd) : (s.setRunning p c).mail = s.mail := rfl
@[simp] theorem Stage.setRunning_sup (p : Nat) (c : Option Cmd) : (s.setRunning p c).sup = s.sup := rfl
@[simp] theorem Stage.setRunning_flash (p : Nat) (c : Option Cmd) : (s.setRunning p c).flash = s.flash := rfl
@[simp] theorem Stage.setRunning_modeReq (p : Nat) (c : Option Cmd) : (s.setRunning p c).modeReq = s.modeReq := rfl
@[simp] theorem Stage.setRunning_lockDue (p : Nat) (c : Option Cmd) : (s.setRunning p c).lockDue = s.lockDue := rfl
@[simp] theorem Stage.setRunning_txn (p : Nat) (c : Option Cmd) : (s.setRunning p c).txn = s.txn := rfl
@[simp] theorem Stage.setRunning_order (p : Nat) (c : Option Cmd) : (s.setRunning p c).order = s.order := rfl

/-! ### popCmd -/

@[simp] theorem Stage.popCmd_regs (p : Nat) : (s.popCmd p).regs = s.regs := rfl
@[simp] theorem Stage.popCmd_args (p : Nat) : (s.popCmd p).args = s.args := rfl
@[simp] theorem Stage.popCmd_routes (p : Nat) : (s.popCmd p).routes = s.routes := rfl
@[simp] theorem Stage.popCmd_seqs (p : Nat) : (s.popCmd p).seqs = s.seqs := rfl
@[simp] theorem Stage.popCmd_running (p : Nat) : (s.popCmd p).running = s.running := rfl
@[simp] theorem Stage.popCmd_recStore (p : Nat) : (s.popCmd p).recStore = s.recStore := rfl
@[simp] theorem Stage.popCmd_recHeld (p : Nat) : (s.popCmd p).recHeld = s.recHeld := rfl
@[simp] theorem Stage.popCmd_waiting (p : Nat) : (s.popCmd p).waiting = s.waiting := rfl
@[simp] theorem Stage.popCmd_mem (p : Nat) : (s.popCmd p).mem = s.mem := rfl
@[simp] theorem Stage.popCmd_bus (p : Nat) : (s.popCmd p).bus = s.bus := rfl
@[simp] theorem Stage.popCmd_outs (p : Nat) : (s.popCmd p).outs = s.outs := rfl
@[simp] theorem Stage.popCmd_fresh (p : Nat) : (s.popCmd p).fresh = s.fresh := rfl
@[simp] theorem Stage.popCmd_host (p : Nat) : (s.popCmd p).host = s.host := rfl
@[simp] theorem Stage.popCmd_vecSent (p : Nat) : (s.popCmd p).vecSent = s.vecSent := rfl
@[simp] theorem Stage.popCmd_grid (p : Nat) : (s.popCmd p).grid = s.grid := rfl
@[simp] theorem Stage.popCmd_level (p : Nat) : (s.popCmd p).level = s.level := rfl
@[simp] theorem Stage.popCmd_datum (p : Nat) : (s.popCmd p).datum = s.datum := rfl
@[simp] theorem Stage.popCmd_tports (p : Nat) : (s.popCmd p).tports = s.tports := rfl
@[simp] theorem Stage.popCmd_exch (p : Nat) : (s.popCmd p).exch = s.exch := rfl
@[simp] theorem Stage.popCmd_blocks (p : Nat) : (s.popCmd p).blocks = s.blocks := rfl
@[simp] theorem Stage.popCmd_sps (p : Nat) : (s.popCmd p).sps = s.sps := rfl
@[simp] theorem Stage.popCmd_graph (p : Nat) : (s.popCmd p).graph = s.graph := rfl
@[simp] theorem Stage.popCmd_bats (p : Nat) : (s.popCmd p).bats = s.bats := rfl
@[simp] theorem Stage.popCmd_ports (p : Nat) : (s.popCmd p).ports = s.ports := rfl
@[simp] theorem Stage.popCmd_groups (p : Nat) : (s.popCmd p).groups = s.groups := rfl
@[simp] theorem Stage.popCmd_decs (p : Nat) : (s.popCmd p).decs = s.decs := rfl
@[simp] theorem Stage.popCmd_syncs (p : Nat) : (s.popCmd p).syncs = s.syncs := rfl
@[simp] theorem Stage.popCmd_patch (p : Nat) : (s.popCmd p).patch = s.patch := rfl
@[simp] theorem Stage.popCmd_lanes (p : Nat) : (s.popCmd p).lanes = s.lanes := rfl
@[simp] theorem Stage.popCmd_links (p : Nat) : (s.popCmd p).links = s.links := rfl
@[simp] theorem Stage.popCmd_red (p : Nat) : (s.popCmd p).red = s.red := rfl
@[simp] theorem Stage.popCmd_fwVersion (p : Nat) : (s.popCmd p).fwVersion = s.fwVersion := rfl
@[simp] theorem Stage.popCmd_bridges (p : Nat) : (s.popCmd p).bridges = s.bridges := rfl
@[simp] theorem Stage.popCmd_net (p : Nat) : (s.popCmd p).net = s.net := rfl
@[simp] theorem Stage.popCmd_ecc (p : Nat) : (s.popCmd p).ecc = s.ecc := rfl
@[simp] theorem Stage.popCmd_pool (p : Nat) : (s.popCmd p).pool = s.pool := rfl
@[simp] theorem Stage.popCmd_reh (p : Nat) : (s.popCmd p).reh = s.reh := rfl
@[simp] theorem Stage.popCmd_prompt (p : Nat) : (s.popCmd p).prompt = s.prompt := rfl
@[simp] theorem Stage.popCmd_tab (p : Nat) : (s.popCmd p).tab = s.tab := rfl
@[simp] theorem Stage.popCmd_bench (p : Nat) : (s.popCmd p).bench = s.bench := rfl
@[simp] theorem Stage.popCmd_mail (p : Nat) : (s.popCmd p).mail = s.mail := rfl
@[simp] theorem Stage.popCmd_sup (p : Nat) : (s.popCmd p).sup = s.sup := rfl
@[simp] theorem Stage.popCmd_flash (p : Nat) : (s.popCmd p).flash = s.flash := rfl
@[simp] theorem Stage.popCmd_modeReq (p : Nat) : (s.popCmd p).modeReq = s.modeReq := rfl
@[simp] theorem Stage.popCmd_lockDue (p : Nat) : (s.popCmd p).lockDue = s.lockDue := rfl
@[simp] theorem Stage.popCmd_txn (p : Nat) : (s.popCmd p).txn = s.txn := rfl
@[simp] theorem Stage.popCmd_order (p : Nat) : (s.popCmd p).order = s.order := rfl

/-! ### tick -/

@[simp] theorem Stage.tick_regs (r : Nat) : (s.tick r).regs = s.regs := rfl
@[simp] theorem Stage.tick_args (r : Nat) : (s.tick r).args = s.args := rfl
@[simp] theorem Stage.tick_routes (r : Nat) : (s.tick r).routes = s.routes := rfl
@[simp] theorem Stage.tick_cmdq (r : Nat) : (s.tick r).cmdq = s.cmdq := rfl
@[simp] theorem Stage.tick_seqs (r : Nat) : (s.tick r).seqs = s.seqs := rfl
@[simp] theorem Stage.tick_running (r : Nat) : (s.tick r).running = s.running := rfl
@[simp] theorem Stage.tick_recStore (r : Nat) : (s.tick r).recStore = s.recStore := rfl
@[simp] theorem Stage.tick_recHeld (r : Nat) : (s.tick r).recHeld = s.recHeld := rfl
@[simp] theorem Stage.tick_waiting (r : Nat) : (s.tick r).waiting = s.waiting := rfl
@[simp] theorem Stage.tick_mem (r : Nat) : (s.tick r).mem = s.mem := rfl
@[simp] theorem Stage.tick_bus (r : Nat) : (s.tick r).bus = s.bus := rfl
@[simp] theorem Stage.tick_outs (r : Nat) : (s.tick r).outs = s.outs := rfl
@[simp] theorem Stage.tick_fresh (r : Nat) : (s.tick r).fresh = s.fresh := rfl
@[simp] theorem Stage.tick_host (r : Nat) : (s.tick r).host = s.host := rfl
@[simp] theorem Stage.tick_vecSent (r : Nat) : (s.tick r).vecSent = s.vecSent := rfl
@[simp] theorem Stage.tick_grid (r : Nat) : (s.tick r).grid = s.grid := rfl
@[simp] theorem Stage.tick_level (r : Nat) : (s.tick r).level = s.level := rfl
@[simp] theorem Stage.tick_tports (r : Nat) : (s.tick r).tports = s.tports := rfl
@[simp] theorem Stage.tick_exch (r : Nat) : (s.tick r).exch = s.exch := rfl
@[simp] theorem Stage.tick_blocks (r : Nat) : (s.tick r).blocks = s.blocks := rfl
@[simp] theorem Stage.tick_sps (r : Nat) : (s.tick r).sps = s.sps := rfl
@[simp] theorem Stage.tick_graph (r : Nat) : (s.tick r).graph = s.graph := rfl
@[simp] theorem Stage.tick_bats (r : Nat) : (s.tick r).bats = s.bats := rfl
@[simp] theorem Stage.tick_ports (r : Nat) : (s.tick r).ports = s.ports := rfl
@[simp] theorem Stage.tick_groups (r : Nat) : (s.tick r).groups = s.groups := rfl
@[simp] theorem Stage.tick_decs (r : Nat) : (s.tick r).decs = s.decs := rfl
@[simp] theorem Stage.tick_syncs (r : Nat) : (s.tick r).syncs = s.syncs := rfl
@[simp] theorem Stage.tick_patch (r : Nat) : (s.tick r).patch = s.patch := rfl
@[simp] theorem Stage.tick_lanes (r : Nat) : (s.tick r).lanes = s.lanes := rfl
@[simp] theorem Stage.tick_links (r : Nat) : (s.tick r).links = s.links := rfl
@[simp] theorem Stage.tick_red (r : Nat) : (s.tick r).red = s.red := rfl
@[simp] theorem Stage.tick_fwVersion (r : Nat) : (s.tick r).fwVersion = s.fwVersion := rfl
@[simp] theorem Stage.tick_bridges (r : Nat) : (s.tick r).bridges = s.bridges := rfl
@[simp] theorem Stage.tick_net (r : Nat) : (s.tick r).net = s.net := rfl
@[simp] theorem Stage.tick_ecc (r : Nat) : (s.tick r).ecc = s.ecc := rfl
@[simp] theorem Stage.tick_pool (r : Nat) : (s.tick r).pool = s.pool := rfl
@[simp] theorem Stage.tick_reh (r : Nat) : (s.tick r).reh = s.reh := rfl
@[simp] theorem Stage.tick_prompt (r : Nat) : (s.tick r).prompt = s.prompt := rfl
@[simp] theorem Stage.tick_tab (r : Nat) : (s.tick r).tab = s.tab := rfl
@[simp] theorem Stage.tick_bench (r : Nat) : (s.tick r).bench = s.bench := rfl
@[simp] theorem Stage.tick_mail (r : Nat) : (s.tick r).mail = s.mail := rfl
@[simp] theorem Stage.tick_sup (r : Nat) : (s.tick r).sup = s.sup := rfl
@[simp] theorem Stage.tick_flash (r : Nat) : (s.tick r).flash = s.flash := rfl
@[simp] theorem Stage.tick_modeReq (r : Nat) : (s.tick r).modeReq = s.modeReq := rfl
@[simp] theorem Stage.tick_lockDue (r : Nat) : (s.tick r).lockDue = s.lockDue := rfl
@[simp] theorem Stage.tick_txn (r : Nat) : (s.tick r).txn = s.txn := rfl
@[simp] theorem Stage.tick_order (r : Nat) : (s.tick r).order = s.order := rfl

/-! ### raiseIf, wr8 and putSp -/

@[simp] theorem Stage.raiseIf_args (c : Bool) (p b : Nat) : (s.raiseIf c p b).args = s.args := by unfold Stage.raiseIf; split <;> rfl
@[simp] theorem Stage.raiseIf_routes (c : Bool) (p b : Nat) : (s.raiseIf c p b).routes = s.routes := by unfold Stage.raiseIf; split <;> rfl
@[simp] theorem Stage.raiseIf_cmdq (c : Bool) (p b : Nat) : (s.raiseIf c p b).cmdq = s.cmdq := by unfold Stage.raiseIf; split <;> rfl
@[simp] theorem Stage.raiseIf_seqs (c : Bool) (p b : Nat) : (s.raiseIf c p b).seqs = s.seqs := by unfold Stage.raiseIf; split <;> rfl
@[simp] theorem Stage.raiseIf_running (c : Bool) (p b : Nat) : (s.raiseIf c p b).running = s.running := by unfold Stage.raiseIf; split <;> rfl
@[simp] theorem Stage.raiseIf_recStore (c : Bool) (p b : Nat) : (s.raiseIf c p b).recStore = s.recStore := by unfold Stage.raiseIf; split <;> rfl
@[simp] theorem Stage.raiseIf_recHeld (c : Bool) (p b : Nat) : (s.raiseIf c p b).recHeld = s.recHeld := by unfold Stage.raiseIf; split <;> rfl
@[simp] theorem Stage.raiseIf_waiting (c : Bool) (p b : Nat) : (s.raiseIf c p b).waiting = s.waiting := by unfold Stage.raiseIf; split <;> rfl
@[simp] theorem Stage.raiseIf_mem (c : Bool) (p b : Nat) : (s.raiseIf c p b).mem = s.mem := by unfold Stage.raiseIf; split <;> rfl
@[simp] theorem Stage.raiseIf_bus (c : Bool) (p b : Nat) : (s.raiseIf c p b).bus = s.bus := by unfold Stage.raiseIf; split <;> rfl
@[simp] theorem Stage.raiseIf_outs (c : Bool) (p b : Nat) : (s.raiseIf c p b).outs = s.outs := by unfold Stage.raiseIf; split <;> rfl
@[simp] theorem Stage.raiseIf_fresh (c : Bool) (p b : Nat) : (s.raiseIf c p b).fresh = s.fresh := by unfold Stage.raiseIf; split <;> rfl
@[simp] theorem Stage.raiseIf_host (c : Bool) (p b : Nat) : (s.raiseIf c p b).host = s.host := by unfold Stage.raiseIf; split <;> rfl
@[simp] theorem Stage.raiseIf_vecSent (c : Bool) (p b : Nat) : (s.raiseIf c p b).vecSent = s.vecSent := by unfold Stage.raiseIf; split <;> rfl
@[simp] theorem Stage.raiseIf_grid (c : Bool) (p b : Nat) : (s.raiseIf c p b).grid = s.grid := by unfold Stage.raiseIf; split <;> rfl
@[simp] theorem Stage.raiseIf_level (c : Bool) (p b : Nat) : (s.raiseIf c p b).level = s.level := by unfold Stage.raiseIf; split <;> rfl
@[simp] theorem Stage.raiseIf_datum (c : Bool) (p b : Nat) : (s.raiseIf c p b).datum = s.datum := by unfold Stage.raiseIf; split <;> rfl
@[simp] theorem Stage.raiseIf_tports (c : Bool) (p b : Nat) : (s.raiseIf c p b).tports = s.tports := by unfold Stage.raiseIf; split <;> rfl
@[simp] theorem Stage.raiseIf_exch (c : Bool) (p b : Nat) : (s.raiseIf c p b).exch = s.exch := by unfold Stage.raiseIf; split <;> rfl
@[simp] theorem Stage.raiseIf_blocks (c : Bool) (p b : Nat) : (s.raiseIf c p b).blocks = s.blocks := by unfold Stage.raiseIf; split <;> rfl
@[simp] theorem Stage.raiseIf_sps (c : Bool) (p b : Nat) : (s.raiseIf c p b).sps = s.sps := by unfold Stage.raiseIf; split <;> rfl
@[simp] theorem Stage.raiseIf_graph (c : Bool) (p b : Nat) : (s.raiseIf c p b).graph = s.graph := by unfold Stage.raiseIf; split <;> rfl
@[simp] theorem Stage.raiseIf_bats (c : Bool) (p b : Nat) : (s.raiseIf c p b).bats = s.bats := by unfold Stage.raiseIf; split <;> rfl
@[simp] theorem Stage.raiseIf_ports (c : Bool) (p b : Nat) : (s.raiseIf c p b).ports = s.ports := by unfold Stage.raiseIf; split <;> rfl
@[simp] theorem Stage.raiseIf_groups (c : Bool) (p b : Nat) : (s.raiseIf c p b).groups = s.groups := by unfold Stage.raiseIf; split <;> rfl
@[simp] theorem Stage.raiseIf_decs (c : Bool) (p b : Nat) : (s.raiseIf c p b).decs = s.decs := by unfold Stage.raiseIf; split <;> rfl
@[simp] theorem Stage.raiseIf_syncs (c : Bool) (p b : Nat) : (s.raiseIf c p b).syncs = s.syncs := by unfold Stage.raiseIf; split <;> rfl
@[simp] theorem Stage.raiseIf_patch (c : Bool) (p b : Nat) : (s.raiseIf c p b).patch = s.patch := by unfold Stage.raiseIf; split <;> rfl
@[simp] theorem Stage.raiseIf_lanes (c : Bool) (p b : Nat) : (s.raiseIf c p b).lanes = s.lanes := by unfold Stage.raiseIf; split <;> rfl
@[simp] theorem Stage.raiseIf_links (c : Bool) (p b : Nat) : (s.raiseIf c p b).links = s.links := by unfold Stage.raiseIf; split <;> rfl
@[simp] theorem Stage.raiseIf_red (c : Bool) (p b : Nat) : (s.raiseIf c p b).red = s.red := by unfold Stage.raiseIf; split <;> rfl
@[simp] theorem Stage.raiseIf_fwVersion (c : Bool) (p b : Nat) : (s.raiseIf c p b).fwVersion = s.fwVersion := by unfold Stage.raiseIf; split <;> rfl
@[simp] theorem Stage.raiseIf_bridges (c : Bool) (p b : Nat) : (s.raiseIf c p b).bridges = s.bridges := by unfold Stage.raiseIf; split <;> rfl
@[simp] theorem Stage.raiseIf_net (c : Bool) (p b : Nat) : (s.raiseIf c p b).net = s.net := by unfold Stage.raiseIf; split <;> rfl
@[simp] theorem Stage.raiseIf_ecc (c : Bool) (p b : Nat) : (s.raiseIf c p b).ecc = s.ecc := by unfold Stage.raiseIf; split <;> rfl
@[simp] theorem Stage.raiseIf_pool (c : Bool) (p b : Nat) : (s.raiseIf c p b).pool = s.pool := by unfold Stage.raiseIf; split <;> rfl
@[simp] theorem Stage.raiseIf_reh (c : Bool) (p b : Nat) : (s.raiseIf c p b).reh = s.reh := by unfold Stage.raiseIf; split <;> rfl
@[simp] theorem Stage.raiseIf_prompt (c : Bool) (p b : Nat) : (s.raiseIf c p b).prompt = s.prompt := by unfold Stage.raiseIf; split <;> rfl
@[simp] theorem Stage.raiseIf_tab (c : Bool) (p b : Nat) : (s.raiseIf c p b).tab = s.tab := by unfold Stage.raiseIf; split <;> rfl
@[simp] theorem Stage.raiseIf_bench (c : Bool) (p b : Nat) : (s.raiseIf c p b).bench = s.bench := by unfold Stage.raiseIf; split <;> rfl
@[simp] theorem Stage.raiseIf_mail (c : Bool) (p b : Nat) : (s.raiseIf c p b).mail = s.mail := by unfold Stage.raiseIf; split <;> rfl
@[simp] theorem Stage.raiseIf_sup (c : Bool) (p b : Nat) : (s.raiseIf c p b).sup = s.sup := by unfold Stage.raiseIf; split <;> rfl
@[simp] theorem Stage.raiseIf_flash (c : Bool) (p b : Nat) : (s.raiseIf c p b).flash = s.flash := by unfold Stage.raiseIf; split <;> rfl
@[simp] theorem Stage.raiseIf_modeReq (c : Bool) (p b : Nat) : (s.raiseIf c p b).modeReq = s.modeReq := by unfold Stage.raiseIf; split <;> rfl
@[simp] theorem Stage.raiseIf_lockDue (c : Bool) (p b : Nat) : (s.raiseIf c p b).lockDue = s.lockDue := by unfold Stage.raiseIf; split <;> rfl
@[simp] theorem Stage.raiseIf_txn (c : Bool) (p b : Nat) : (s.raiseIf c p b).txn = s.txn := by unfold Stage.raiseIf; split <;> rfl
@[simp] theorem Stage.raiseIf_order (c : Bool) (p b : Nat) : (s.raiseIf c p b).order = s.order := by unfold Stage.raiseIf; split <;> rfl
@[simp] theorem Stage.wr8_regs (a : Nat) (v : Byte) : (s.wr8 a v).regs = s.regs := by unfold Stage.wr8; split <;> rfl
@[simp] theorem Stage.wr8_args (a : Nat) (v : Byte) : (s.wr8 a v).args = s.args := by unfold Stage.wr8; split <;> rfl
@[simp] theorem Stage.wr8_routes (a : Nat) (v : Byte) : (s.wr8 a v).routes = s.routes := by unfold Stage.wr8; split <;> rfl
@[simp] theorem Stage.wr8_cmdq (a : Nat) (v : Byte) : (s.wr8 a v).cmdq = s.cmdq := by unfold Stage.wr8; split <;> rfl
@[simp] theorem Stage.wr8_seqs (a : Nat) (v : Byte) : (s.wr8 a v).seqs = s.seqs := by unfold Stage.wr8; split <;> rfl
@[simp] theorem Stage.wr8_running (a : Nat) (v : Byte) : (s.wr8 a v).running = s.running := by unfold Stage.wr8; split <;> rfl
@[simp] theorem Stage.wr8_recStore (a : Nat) (v : Byte) : (s.wr8 a v).recStore = s.recStore := by unfold Stage.wr8; split <;> rfl
@[simp] theorem Stage.wr8_recHeld (a : Nat) (v : Byte) : (s.wr8 a v).recHeld = s.recHeld := by unfold Stage.wr8; split <;> rfl
@[simp] theorem Stage.wr8_waiting (a : Nat) (v : Byte) : (s.wr8 a v).waiting = s.waiting := by unfold Stage.wr8; split <;> rfl
@[simp] theorem Stage.wr8_bus (a : Nat) (v : Byte) : (s.wr8 a v).bus = s.bus := by unfold Stage.wr8; split <;> rfl
@[simp] theorem Stage.wr8_outs (a : Nat) (v : Byte) : (s.wr8 a v).outs = s.outs := by unfold Stage.wr8; split <;> rfl
@[simp] theorem Stage.wr8_fresh (a : Nat) (v : Byte) : (s.wr8 a v).fresh = s.fresh := by unfold Stage.wr8; split <;> rfl
@[simp] theorem Stage.wr8_host (a : Nat) (v : Byte) : (s.wr8 a v).host = s.host := by unfold Stage.wr8; split <;> rfl
@[simp] theorem Stage.wr8_vecSent (a : Nat) (v : Byte) : (s.wr8 a v).vecSent = s.vecSent := by unfold Stage.wr8; split <;> rfl
@[simp] theorem Stage.wr8_grid (a : Nat) (v : Byte) : (s.wr8 a v).grid = s.grid := by unfold Stage.wr8; split <;> rfl
@[simp] theorem Stage.wr8_level (a : Nat) (v : Byte) : (s.wr8 a v).level = s.level := by unfold Stage.wr8; split <;> rfl
@[simp] theorem Stage.wr8_datum (a : Nat) (v : Byte) : (s.wr8 a v).datum = s.datum := by unfold Stage.wr8; split <;> rfl
@[simp] theorem Stage.wr8_tports (a : Nat) (v : Byte) : (s.wr8 a v).tports = s.tports := by unfold Stage.wr8; split <;> rfl
@[simp] theorem Stage.wr8_exch (a : Nat) (v : Byte) : (s.wr8 a v).exch = s.exch := by unfold Stage.wr8; split <;> rfl
@[simp] theorem Stage.wr8_blocks (a : Nat) (v : Byte) : (s.wr8 a v).blocks = s.blocks := by unfold Stage.wr8; split <;> rfl
@[simp] theorem Stage.wr8_sps (a : Nat) (v : Byte) : (s.wr8 a v).sps = s.sps := by unfold Stage.wr8; split <;> rfl
@[simp] theorem Stage.wr8_graph (a : Nat) (v : Byte) : (s.wr8 a v).graph = s.graph := by unfold Stage.wr8; split <;> rfl
@[simp] theorem Stage.wr8_bats (a : Nat) (v : Byte) : (s.wr8 a v).bats = s.bats := by unfold Stage.wr8; split <;> rfl
@[simp] theorem Stage.wr8_ports (a : Nat) (v : Byte) : (s.wr8 a v).ports = s.ports := by unfold Stage.wr8; split <;> rfl
@[simp] theorem Stage.wr8_groups (a : Nat) (v : Byte) : (s.wr8 a v).groups = s.groups := by unfold Stage.wr8; split <;> rfl
@[simp] theorem Stage.wr8_decs (a : Nat) (v : Byte) : (s.wr8 a v).decs = s.decs := by unfold Stage.wr8; split <;> rfl
@[simp] theorem Stage.wr8_syncs (a : Nat) (v : Byte) : (s.wr8 a v).syncs = s.syncs := by unfold Stage.wr8; split <;> rfl
@[simp] theorem Stage.wr8_patch (a : Nat) (v : Byte) : (s.wr8 a v).patch = s.patch := by unfold Stage.wr8; split <;> rfl
@[simp] theorem Stage.wr8_lanes (a : Nat) (v : Byte) : (s.wr8 a v).lanes = s.lanes := by unfold Stage.wr8; split <;> rfl
@[simp] theorem Stage.wr8_links (a : Nat) (v : Byte) : (s.wr8 a v).links = s.links := by unfold Stage.wr8; split <;> rfl
@[simp] theorem Stage.wr8_red (a : Nat) (v : Byte) : (s.wr8 a v).red = s.red := by unfold Stage.wr8; split <;> rfl
@[simp] theorem Stage.wr8_fwVersion (a : Nat) (v : Byte) : (s.wr8 a v).fwVersion = s.fwVersion := by unfold Stage.wr8; split <;> rfl
@[simp] theorem Stage.wr8_bridges (a : Nat) (v : Byte) : (s.wr8 a v).bridges = s.bridges := by unfold Stage.wr8; split <;> rfl
@[simp] theorem Stage.wr8_net (a : Nat) (v : Byte) : (s.wr8 a v).net = s.net := by unfold Stage.wr8; split <;> rfl
@[simp] theorem Stage.wr8_ecc (a : Nat) (v : Byte) : (s.wr8 a v).ecc = s.ecc := by unfold Stage.wr8; split <;> rfl
@[simp] theorem Stage.wr8_pool (a : Nat) (v : Byte) : (s.wr8 a v).pool = s.pool := by unfold Stage.wr8; split <;> rfl
@[simp] theorem Stage.wr8_reh (a : Nat) (v : Byte) : (s.wr8 a v).reh = s.reh := by unfold Stage.wr8; split <;> rfl
@[simp] theorem Stage.wr8_prompt (a : Nat) (v : Byte) : (s.wr8 a v).prompt = s.prompt := by unfold Stage.wr8; split <;> rfl
@[simp] theorem Stage.wr8_tab (a : Nat) (v : Byte) : (s.wr8 a v).tab = s.tab := by unfold Stage.wr8; split <;> rfl
@[simp] theorem Stage.wr8_bench (a : Nat) (v : Byte) : (s.wr8 a v).bench = s.bench := by unfold Stage.wr8; split <;> rfl
@[simp] theorem Stage.wr8_mail (a : Nat) (v : Byte) : (s.wr8 a v).mail = s.mail := by unfold Stage.wr8; split <;> rfl
@[simp] theorem Stage.wr8_sup (a : Nat) (v : Byte) : (s.wr8 a v).sup = s.sup := by unfold Stage.wr8; split <;> rfl
@[simp] theorem Stage.wr8_flash (a : Nat) (v : Byte) : (s.wr8 a v).flash = s.flash := by unfold Stage.wr8; split <;> rfl
@[simp] theorem Stage.wr8_modeReq (a : Nat) (v : Byte) : (s.wr8 a v).modeReq = s.modeReq := by unfold Stage.wr8; split <;> rfl
@[simp] theorem Stage.wr8_lockDue (a : Nat) (v : Byte) : (s.wr8 a v).lockDue = s.lockDue := by unfold Stage.wr8; split <;> rfl
@[simp] theorem Stage.wr8_txn (a : Nat) (v : Byte) : (s.wr8 a v).txn = s.txn := by unfold Stage.wr8; split <;> rfl
@[simp] theorem Stage.wr8_order (a : Nat) (v : Byte) : (s.wr8 a v).order = s.order := by unfold Stage.wr8; split <;> rfl
@[simp] theorem Stage.wrBytes_regs (l : List Byte) : ∀ (s : Stage) (a : Nat), (s.wrBytes a l).regs = s.regs := by induction l with | nil => intros; rfl | cons b t ih => intro s a; rw [Stage.wrBytes, ih, Stage.wr8_regs]
@[simp] theorem Stage.wrBytes_args (l : List Byte) : ∀ (s : Stage) (a : Nat), (s.wrBytes a l).args = s.args := by induction l with | nil => intros; rfl | cons b t ih => intro s a; rw [Stage.wrBytes, ih, Stage.wr8_args]
@[simp] theorem Stage.wrBytes_routes (l : List Byte) : ∀ (s : Stage) (a : Nat), (s.wrBytes a l).routes = s.routes := by induction l with | nil => intros; rfl | cons b t ih => intro s a; rw [Stage.wrBytes, ih, Stage.wr8_routes]
@[simp] theorem Stage.wrBytes_cmdq (l : List Byte) : ∀ (s : Stage) (a : Nat), (s.wrBytes a l).cmdq = s.cmdq := by induction l with | nil => intros; rfl | cons b t ih => intro s a; rw [Stage.wrBytes, ih, Stage.wr8_cmdq]
@[simp] theorem Stage.wrBytes_seqs (l : List Byte) : ∀ (s : Stage) (a : Nat), (s.wrBytes a l).seqs = s.seqs := by induction l with | nil => intros; rfl | cons b t ih => intro s a; rw [Stage.wrBytes, ih, Stage.wr8_seqs]
@[simp] theorem Stage.wrBytes_running (l : List Byte) : ∀ (s : Stage) (a : Nat), (s.wrBytes a l).running = s.running := by induction l with | nil => intros; rfl | cons b t ih => intro s a; rw [Stage.wrBytes, ih, Stage.wr8_running]
@[simp] theorem Stage.wrBytes_recStore (l : List Byte) : ∀ (s : Stage) (a : Nat), (s.wrBytes a l).recStore = s.recStore := by induction l with | nil => intros; rfl | cons b t ih => intro s a; rw [Stage.wrBytes, ih, Stage.wr8_recStore]
@[simp] theorem Stage.wrBytes_recHeld (l : List Byte) : ∀ (s : Stage) (a : Nat), (s.wrBytes a l).recHeld = s.recHeld := by induction l with | nil => intros; rfl | cons b t ih => intro s a; rw [Stage.wrBytes, ih, Stage.wr8_recHeld]
@[simp] theorem Stage.wrBytes_waiting (l : List Byte) : ∀ (s : Stage) (a : Nat), (s.wrBytes a l).waiting = s.waiting := by induction l with | nil => intros; rfl | cons b t ih => intro s a; rw [Stage.wrBytes, ih, Stage.wr8_waiting]
@[simp] theorem Stage.wrBytes_bus (l : List Byte) : ∀ (s : Stage) (a : Nat), (s.wrBytes a l).bus = s.bus := by induction l with | nil => intros; rfl | cons b t ih => intro s a; rw [Stage.wrBytes, ih, Stage.wr8_bus]
@[simp] theorem Stage.wrBytes_outs (l : List Byte) : ∀ (s : Stage) (a : Nat), (s.wrBytes a l).outs = s.outs := by induction l with | nil => intros; rfl | cons b t ih => intro s a; rw [Stage.wrBytes, ih, Stage.wr8_outs]
@[simp] theorem Stage.wrBytes_fresh (l : List Byte) : ∀ (s : Stage) (a : Nat), (s.wrBytes a l).fresh = s.fresh := by induction l with | nil => intros; rfl | cons b t ih => intro s a; rw [Stage.wrBytes, ih, Stage.wr8_fresh]
@[simp] theorem Stage.wrBytes_host (l : List Byte) : ∀ (s : Stage) (a : Nat), (s.wrBytes a l).host = s.host := by induction l with | nil => intros; rfl | cons b t ih => intro s a; rw [Stage.wrBytes, ih, Stage.wr8_host]
@[simp] theorem Stage.wrBytes_vecSent (l : List Byte) : ∀ (s : Stage) (a : Nat), (s.wrBytes a l).vecSent = s.vecSent := by induction l with | nil => intros; rfl | cons b t ih => intro s a; rw [Stage.wrBytes, ih, Stage.wr8_vecSent]
@[simp] theorem Stage.wrBytes_grid (l : List Byte) : ∀ (s : Stage) (a : Nat), (s.wrBytes a l).grid = s.grid := by induction l with | nil => intros; rfl | cons b t ih => intro s a; rw [Stage.wrBytes, ih, Stage.wr8_grid]
@[simp] theorem Stage.wrBytes_level (l : List Byte) : ∀ (s : Stage) (a : Nat), (s.wrBytes a l).level = s.level := by induction l with | nil => intros; rfl | cons b t ih => intro s a; rw [Stage.wrBytes, ih, Stage.wr8_level]
@[simp] theorem Stage.wrBytes_datum (l : List Byte) : ∀ (s : Stage) (a : Nat), (s.wrBytes a l).datum = s.datum := by induction l with | nil => intros; rfl | cons b t ih => intro s a; rw [Stage.wrBytes, ih, Stage.wr8_datum]
@[simp] theorem Stage.wrBytes_tports (l : List Byte) : ∀ (s : Stage) (a : Nat), (s.wrBytes a l).tports = s.tports := by induction l with | nil => intros; rfl | cons b t ih => intro s a; rw [Stage.wrBytes, ih, Stage.wr8_tports]
@[simp] theorem Stage.wrBytes_exch (l : List Byte) : ∀ (s : Stage) (a : Nat), (s.wrBytes a l).exch = s.exch := by induction l with | nil => intros; rfl | cons b t ih => intro s a; rw [Stage.wrBytes, ih, Stage.wr8_exch]
@[simp] theorem Stage.wrBytes_blocks (l : List Byte) : ∀ (s : Stage) (a : Nat), (s.wrBytes a l).blocks = s.blocks := by induction l with | nil => intros; rfl | cons b t ih => intro s a; rw [Stage.wrBytes, ih, Stage.wr8_blocks]
@[simp] theorem Stage.wrBytes_sps (l : List Byte) : ∀ (s : Stage) (a : Nat), (s.wrBytes a l).sps = s.sps := by induction l with | nil => intros; rfl | cons b t ih => intro s a; rw [Stage.wrBytes, ih, Stage.wr8_sps]
@[simp] theorem Stage.wrBytes_graph (l : List Byte) : ∀ (s : Stage) (a : Nat), (s.wrBytes a l).graph = s.graph := by induction l with | nil => intros; rfl | cons b t ih => intro s a; rw [Stage.wrBytes, ih, Stage.wr8_graph]
@[simp] theorem Stage.wrBytes_bats (l : List Byte) : ∀ (s : Stage) (a : Nat), (s.wrBytes a l).bats = s.bats := by induction l with | nil => intros; rfl | cons b t ih => intro s a; rw [Stage.wrBytes, ih, Stage.wr8_bats]
@[simp] theorem Stage.wrBytes_ports (l : List Byte) : ∀ (s : Stage) (a : Nat), (s.wrBytes a l).ports = s.ports := by induction l with | nil => intros; rfl | cons b t ih => intro s a; rw [Stage.wrBytes, ih, Stage.wr8_ports]
@[simp] theorem Stage.wrBytes_groups (l : List Byte) : ∀ (s : Stage) (a : Nat), (s.wrBytes a l).groups = s.groups := by induction l with | nil => intros; rfl | cons b t ih => intro s a; rw [Stage.wrBytes, ih, Stage.wr8_groups]
@[simp] theorem Stage.wrBytes_decs (l : List Byte) : ∀ (s : Stage) (a : Nat), (s.wrBytes a l).decs = s.decs := by induction l with | nil => intros; rfl | cons b t ih => intro s a; rw [Stage.wrBytes, ih, Stage.wr8_decs]
@[simp] theorem Stage.wrBytes_syncs (l : List Byte) : ∀ (s : Stage) (a : Nat), (s.wrBytes a l).syncs = s.syncs := by induction l with | nil => intros; rfl | cons b t ih => intro s a; rw [Stage.wrBytes, ih, Stage.wr8_syncs]
@[simp] theorem Stage.wrBytes_patch (l : List Byte) : ∀ (s : Stage) (a : Nat), (s.wrBytes a l).patch = s.patch := by induction l with | nil => intros; rfl | cons b t ih => intro s a; rw [Stage.wrBytes, ih, Stage.wr8_patch]
@[simp] theorem Stage.wrBytes_lanes (l : List Byte) : ∀ (s : Stage) (a : Nat), (s.wrBytes a l).lanes = s.lanes := by induction l with | nil => intros; rfl | cons b t ih => intro s a; rw [Stage.wrBytes, ih, Stage.wr8_lanes]
@[simp] theorem Stage.wrBytes_links (l : List Byte) : ∀ (s : Stage) (a : Nat), (s.wrBytes a l).links = s.links := by induction l with | nil => intros; rfl | cons b t ih => intro s a; rw [Stage.wrBytes, ih, Stage.wr8_links]
@[simp] theorem Stage.wrBytes_red (l : List Byte) : ∀ (s : Stage) (a : Nat), (s.wrBytes a l).red = s.red := by induction l with | nil => intros; rfl | cons b t ih => intro s a; rw [Stage.wrBytes, ih, Stage.wr8_red]
@[simp] theorem Stage.wrBytes_fwVersion (l : List Byte) : ∀ (s : Stage) (a : Nat), (s.wrBytes a l).fwVersion = s.fwVersion := by induction l with | nil => intros; rfl | cons b t ih => intro s a; rw [Stage.wrBytes, ih, Stage.wr8_fwVersion]
@[simp] theorem Stage.wrBytes_bridges (l : List Byte) : ∀ (s : Stage) (a : Nat), (s.wrBytes a l).bridges = s.bridges := by induction l with | nil => intros; rfl | cons b t ih => intro s a; rw [Stage.wrBytes, ih, Stage.wr8_bridges]
@[simp] theorem Stage.wrBytes_net (l : List Byte) : ∀ (s : Stage) (a : Nat), (s.wrBytes a l).net = s.net := by induction l with | nil => intros; rfl | cons b t ih => intro s a; rw [Stage.wrBytes, ih, Stage.wr8_net]
@[simp] theorem Stage.wrBytes_ecc (l : List Byte) : ∀ (s : Stage) (a : Nat), (s.wrBytes a l).ecc = s.ecc := by induction l with | nil => intros; rfl | cons b t ih => intro s a; rw [Stage.wrBytes, ih, Stage.wr8_ecc]
@[simp] theorem Stage.wrBytes_pool (l : List Byte) : ∀ (s : Stage) (a : Nat), (s.wrBytes a l).pool = s.pool := by induction l with | nil => intros; rfl | cons b t ih => intro s a; rw [Stage.wrBytes, ih, Stage.wr8_pool]
@[simp] theorem Stage.wrBytes_reh (l : List Byte) : ∀ (s : Stage) (a : Nat), (s.wrBytes a l).reh = s.reh := by induction l with | nil => intros; rfl | cons b t ih => intro s a; rw [Stage.wrBytes, ih, Stage.wr8_reh]
@[simp] theorem Stage.wrBytes_prompt (l : List Byte) : ∀ (s : Stage) (a : Nat), (s.wrBytes a l).prompt = s.prompt := by induction l with | nil => intros; rfl | cons b t ih => intro s a; rw [Stage.wrBytes, ih, Stage.wr8_prompt]
@[simp] theorem Stage.wrBytes_tab (l : List Byte) : ∀ (s : Stage) (a : Nat), (s.wrBytes a l).tab = s.tab := by induction l with | nil => intros; rfl | cons b t ih => intro s a; rw [Stage.wrBytes, ih, Stage.wr8_tab]
@[simp] theorem Stage.wrBytes_bench (l : List Byte) : ∀ (s : Stage) (a : Nat), (s.wrBytes a l).bench = s.bench := by induction l with | nil => intros; rfl | cons b t ih => intro s a; rw [Stage.wrBytes, ih, Stage.wr8_bench]
@[simp] theorem Stage.wrBytes_mail (l : List Byte) : ∀ (s : Stage) (a : Nat), (s.wrBytes a l).mail = s.mail := by induction l with | nil => intros; rfl | cons b t ih => intro s a; rw [Stage.wrBytes, ih, Stage.wr8_mail]
@[simp] theorem Stage.wrBytes_sup (l : List Byte) : ∀ (s : Stage) (a : Nat), (s.wrBytes a l).sup = s.sup := by induction l with | nil => intros; rfl | cons b t ih => intro s a; rw [Stage.wrBytes, ih, Stage.wr8_sup]
@[simp] theorem Stage.wrBytes_flash (l : List Byte) : ∀ (s : Stage) (a : Nat), (s.wrBytes a l).flash = s.flash := by induction l with | nil => intros; rfl | cons b t ih => intro s a; rw [Stage.wrBytes, ih, Stage.wr8_flash]
@[simp] theorem Stage.wrBytes_modeReq (l : List Byte) : ∀ (s : Stage) (a : Nat), (s.wrBytes a l).modeReq = s.modeReq := by induction l with | nil => intros; rfl | cons b t ih => intro s a; rw [Stage.wrBytes, ih, Stage.wr8_modeReq]
@[simp] theorem Stage.wrBytes_lockDue (l : List Byte) : ∀ (s : Stage) (a : Nat), (s.wrBytes a l).lockDue = s.lockDue := by induction l with | nil => intros; rfl | cons b t ih => intro s a; rw [Stage.wrBytes, ih, Stage.wr8_lockDue]
@[simp] theorem Stage.wrBytes_txn (l : List Byte) : ∀ (s : Stage) (a : Nat), (s.wrBytes a l).txn = s.txn := by induction l with | nil => intros; rfl | cons b t ih => intro s a; rw [Stage.wrBytes, ih, Stage.wr8_txn]
@[simp] theorem Stage.wrBytes_order (l : List Byte) : ∀ (s : Stage) (a : Nat), (s.wrBytes a l).order = s.order := by induction l with | nil => intros; rfl | cons b t ih => intro s a; rw [Stage.wrBytes, ih, Stage.wr8_order]
@[simp] theorem Stage.wr32_regs (a : Nat) (v : Word) : (s.wr32 a v).regs = s.regs := Stage.wrBytes_regs _ s a
@[simp] theorem Stage.wr32_args (a : Nat) (v : Word) : (s.wr32 a v).args = s.args := Stage.wrBytes_args _ s a
@[simp] theorem Stage.wr32_routes (a : Nat) (v : Word) : (s.wr32 a v).routes = s.routes := Stage.wrBytes_routes _ s a
@[simp] theorem Stage.wr32_cmdq (a : Nat) (v : Word) : (s.wr32 a v).cmdq = s.cmdq := Stage.wrBytes_cmdq _ s a
@[simp] theorem Stage.wr32_seqs (a : Nat) (v : Word) : (s.wr32 a v).seqs = s.seqs := Stage.wrBytes_seqs _ s a
@[simp] theorem Stage.wr32_running (a : Nat) (v : Word) : (s.wr32 a v).running = s.running := Stage.wrBytes_running _ s a
@[simp] theorem Stage.wr32_recStore (a : Nat) (v : Word) : (s.wr32 a v).recStore = s.recStore := Stage.wrBytes_recStore _ s a
@[simp] theorem Stage.wr32_recHeld (a : Nat) (v : Word) : (s.wr32 a v).recHeld = s.recHeld := Stage.wrBytes_recHeld _ s a
@[simp] theorem Stage.wr32_waiting (a : Nat) (v : Word) : (s.wr32 a v).waiting = s.waiting := Stage.wrBytes_waiting _ s a
@[simp] theorem Stage.wr32_bus (a : Nat) (v : Word) : (s.wr32 a v).bus = s.bus := Stage.wrBytes_bus _ s a
@[simp] theorem Stage.wr32_outs (a : Nat) (v : Word) : (s.wr32 a v).outs = s.outs := Stage.wrBytes_outs _ s a
@[simp] theorem Stage.wr32_fresh (a : Nat) (v : Word) : (s.wr32 a v).fresh = s.fresh := Stage.wrBytes_fresh _ s a
@[simp] theorem Stage.wr32_host (a : Nat) (v : Word) : (s.wr32 a v).host = s.host := Stage.wrBytes_host _ s a
@[simp] theorem Stage.wr32_vecSent (a : Nat) (v : Word) : (s.wr32 a v).vecSent = s.vecSent := Stage.wrBytes_vecSent _ s a
@[simp] theorem Stage.wr32_grid (a : Nat) (v : Word) : (s.wr32 a v).grid = s.grid := Stage.wrBytes_grid _ s a
@[simp] theorem Stage.wr32_level (a : Nat) (v : Word) : (s.wr32 a v).level = s.level := Stage.wrBytes_level _ s a
@[simp] theorem Stage.wr32_datum (a : Nat) (v : Word) : (s.wr32 a v).datum = s.datum := Stage.wrBytes_datum _ s a
@[simp] theorem Stage.wr32_tports (a : Nat) (v : Word) : (s.wr32 a v).tports = s.tports := Stage.wrBytes_tports _ s a
@[simp] theorem Stage.wr32_exch (a : Nat) (v : Word) : (s.wr32 a v).exch = s.exch := Stage.wrBytes_exch _ s a
@[simp] theorem Stage.wr32_blocks (a : Nat) (v : Word) : (s.wr32 a v).blocks = s.blocks := Stage.wrBytes_blocks _ s a
@[simp] theorem Stage.wr32_sps (a : Nat) (v : Word) : (s.wr32 a v).sps = s.sps := Stage.wrBytes_sps _ s a
@[simp] theorem Stage.wr32_graph (a : Nat) (v : Word) : (s.wr32 a v).graph = s.graph := Stage.wrBytes_graph _ s a
@[simp] theorem Stage.wr32_bats (a : Nat) (v : Word) : (s.wr32 a v).bats = s.bats := Stage.wrBytes_bats _ s a
@[simp] theorem Stage.wr32_ports (a : Nat) (v : Word) : (s.wr32 a v).ports = s.ports := Stage.wrBytes_ports _ s a
@[simp] theorem Stage.wr32_groups (a : Nat) (v : Word) : (s.wr32 a v).groups = s.groups := Stage.wrBytes_groups _ s a
@[simp] theorem Stage.wr32_decs (a : Nat) (v : Word) : (s.wr32 a v).decs = s.decs := Stage.wrBytes_decs _ s a
@[simp] theorem Stage.wr32_syncs (a : Nat) (v : Word) : (s.wr32 a v).syncs = s.syncs := Stage.wrBytes_syncs _ s a
@[simp] theorem Stage.wr32_patch (a : Nat) (v : Word) : (s.wr32 a v).patch = s.patch := Stage.wrBytes_patch _ s a
@[simp] theorem Stage.wr32_lanes (a : Nat) (v : Word) : (s.wr32 a v).lanes = s.lanes := Stage.wrBytes_lanes _ s a
@[simp] theorem Stage.wr32_links (a : Nat) (v : Word) : (s.wr32 a v).links = s.links := Stage.wrBytes_links _ s a
@[simp] theorem Stage.wr32_red (a : Nat) (v : Word) : (s.wr32 a v).red = s.red := Stage.wrBytes_red _ s a
@[simp] theorem Stage.wr32_fwVersion (a : Nat) (v : Word) : (s.wr32 a v).fwVersion = s.fwVersion := Stage.wrBytes_fwVersion _ s a
@[simp] theorem Stage.wr32_bridges (a : Nat) (v : Word) : (s.wr32 a v).bridges = s.bridges := Stage.wrBytes_bridges _ s a
@[simp] theorem Stage.wr32_net (a : Nat) (v : Word) : (s.wr32 a v).net = s.net := Stage.wrBytes_net _ s a
@[simp] theorem Stage.wr32_ecc (a : Nat) (v : Word) : (s.wr32 a v).ecc = s.ecc := Stage.wrBytes_ecc _ s a
@[simp] theorem Stage.wr32_pool (a : Nat) (v : Word) : (s.wr32 a v).pool = s.pool := Stage.wrBytes_pool _ s a
@[simp] theorem Stage.wr32_reh (a : Nat) (v : Word) : (s.wr32 a v).reh = s.reh := Stage.wrBytes_reh _ s a
@[simp] theorem Stage.wr32_prompt (a : Nat) (v : Word) : (s.wr32 a v).prompt = s.prompt := Stage.wrBytes_prompt _ s a
@[simp] theorem Stage.wr32_tab (a : Nat) (v : Word) : (s.wr32 a v).tab = s.tab := Stage.wrBytes_tab _ s a
@[simp] theorem Stage.wr32_bench (a : Nat) (v : Word) : (s.wr32 a v).bench = s.bench := Stage.wrBytes_bench _ s a
@[simp] theorem Stage.wr32_mail (a : Nat) (v : Word) : (s.wr32 a v).mail = s.mail := Stage.wrBytes_mail _ s a
@[simp] theorem Stage.wr32_sup (a : Nat) (v : Word) : (s.wr32 a v).sup = s.sup := Stage.wrBytes_sup _ s a
@[simp] theorem Stage.wr32_flash (a : Nat) (v : Word) : (s.wr32 a v).flash = s.flash := Stage.wrBytes_flash _ s a
@[simp] theorem Stage.wr32_modeReq (a : Nat) (v : Word) : (s.wr32 a v).modeReq = s.modeReq := Stage.wrBytes_modeReq _ s a
@[simp] theorem Stage.wr32_lockDue (a : Nat) (v : Word) : (s.wr32 a v).lockDue = s.lockDue := Stage.wrBytes_lockDue _ s a
@[simp] theorem Stage.wr32_txn (a : Nat) (v : Word) : (s.wr32 a v).txn = s.txn := Stage.wrBytes_txn _ s a
@[simp] theorem Stage.wr32_order (a : Nat) (v : Word) : (s.wr32 a v).order = s.order := Stage.wrBytes_order _ s a
@[simp] theorem Stage.putSp_args (k : Nat) (sp : SpSt) : (s.putSp k sp).args = s.args := by unfold Stage.putSp; rw [Stage.raiseIf_args]
@[simp] theorem Stage.putSp_routes (k : Nat) (sp : SpSt) : (s.putSp k sp).routes = s.routes := by unfold Stage.putSp; rw [Stage.raiseIf_routes]
@[simp] theorem Stage.putSp_cmdq (k : Nat) (sp : SpSt) : (s.putSp k sp).cmdq = s.cmdq := by unfold Stage.putSp; rw [Stage.raiseIf_cmdq]
@[simp] theorem Stage.putSp_seqs (k : Nat) (sp : SpSt) : (s.putSp k sp).seqs = s.seqs := by unfold Stage.putSp; rw [Stage.raiseIf_seqs]
@[simp] theorem Stage.putSp_running (k : Nat) (sp : SpSt) : (s.putSp k sp).running = s.running := by unfold Stage.putSp; rw [Stage.raiseIf_running]
@[simp] theorem Stage.putSp_recStore (k : Nat) (sp : SpSt) : (s.putSp k sp).recStore = s.recStore := by unfold Stage.putSp; rw [Stage.raiseIf_recStore]
@[simp] theorem Stage.putSp_recHeld (k : Nat) (sp : SpSt) : (s.putSp k sp).recHeld = s.recHeld := by unfold Stage.putSp; rw [Stage.raiseIf_recHeld]
@[simp] theorem Stage.putSp_waiting (k : Nat) (sp : SpSt) : (s.putSp k sp).waiting = s.waiting := by unfold Stage.putSp; rw [Stage.raiseIf_waiting]
@[simp] theorem Stage.putSp_mem (k : Nat) (sp : SpSt) : (s.putSp k sp).mem = s.mem := by unfold Stage.putSp; rw [Stage.raiseIf_mem]
@[simp] theorem Stage.putSp_bus (k : Nat) (sp : SpSt) : (s.putSp k sp).bus = s.bus := by unfold Stage.putSp; rw [Stage.raiseIf_bus]
@[simp] theorem Stage.putSp_outs (k : Nat) (sp : SpSt) : (s.putSp k sp).outs = s.outs := by unfold Stage.putSp; rw [Stage.raiseIf_outs]
@[simp] theorem Stage.putSp_fresh (k : Nat) (sp : SpSt) : (s.putSp k sp).fresh = s.fresh := by unfold Stage.putSp; rw [Stage.raiseIf_fresh]
@[simp] theorem Stage.putSp_host (k : Nat) (sp : SpSt) : (s.putSp k sp).host = s.host := by unfold Stage.putSp; rw [Stage.raiseIf_host]
@[simp] theorem Stage.putSp_vecSent (k : Nat) (sp : SpSt) : (s.putSp k sp).vecSent = s.vecSent := by unfold Stage.putSp; rw [Stage.raiseIf_vecSent]
@[simp] theorem Stage.putSp_grid (k : Nat) (sp : SpSt) : (s.putSp k sp).grid = s.grid := by unfold Stage.putSp; rw [Stage.raiseIf_grid]
@[simp] theorem Stage.putSp_level (k : Nat) (sp : SpSt) : (s.putSp k sp).level = s.level := by unfold Stage.putSp; rw [Stage.raiseIf_level]
@[simp] theorem Stage.putSp_datum (k : Nat) (sp : SpSt) : (s.putSp k sp).datum = s.datum := by unfold Stage.putSp; rw [Stage.raiseIf_datum]
@[simp] theorem Stage.putSp_tports (k : Nat) (sp : SpSt) : (s.putSp k sp).tports = s.tports := by unfold Stage.putSp; rw [Stage.raiseIf_tports]
@[simp] theorem Stage.putSp_exch (k : Nat) (sp : SpSt) : (s.putSp k sp).exch = s.exch := by unfold Stage.putSp; rw [Stage.raiseIf_exch]
@[simp] theorem Stage.putSp_blocks (k : Nat) (sp : SpSt) : (s.putSp k sp).blocks = s.blocks := by unfold Stage.putSp; rw [Stage.raiseIf_blocks]
@[simp] theorem Stage.putSp_graph (k : Nat) (sp : SpSt) : (s.putSp k sp).graph = s.graph := by unfold Stage.putSp; rw [Stage.raiseIf_graph]
@[simp] theorem Stage.putSp_bats (k : Nat) (sp : SpSt) : (s.putSp k sp).bats = s.bats := by unfold Stage.putSp; rw [Stage.raiseIf_bats]
@[simp] theorem Stage.putSp_ports (k : Nat) (sp : SpSt) : (s.putSp k sp).ports = s.ports := by unfold Stage.putSp; rw [Stage.raiseIf_ports]
@[simp] theorem Stage.putSp_groups (k : Nat) (sp : SpSt) : (s.putSp k sp).groups = s.groups := by unfold Stage.putSp; rw [Stage.raiseIf_groups]
@[simp] theorem Stage.putSp_decs (k : Nat) (sp : SpSt) : (s.putSp k sp).decs = s.decs := by unfold Stage.putSp; rw [Stage.raiseIf_decs]
@[simp] theorem Stage.putSp_syncs (k : Nat) (sp : SpSt) : (s.putSp k sp).syncs = s.syncs := by unfold Stage.putSp; rw [Stage.raiseIf_syncs]
@[simp] theorem Stage.putSp_patch (k : Nat) (sp : SpSt) : (s.putSp k sp).patch = s.patch := by unfold Stage.putSp; rw [Stage.raiseIf_patch]
@[simp] theorem Stage.putSp_lanes (k : Nat) (sp : SpSt) : (s.putSp k sp).lanes = s.lanes := by unfold Stage.putSp; rw [Stage.raiseIf_lanes]
@[simp] theorem Stage.putSp_links (k : Nat) (sp : SpSt) : (s.putSp k sp).links = s.links := by unfold Stage.putSp; rw [Stage.raiseIf_links]
@[simp] theorem Stage.putSp_red (k : Nat) (sp : SpSt) : (s.putSp k sp).red = s.red := by unfold Stage.putSp; rw [Stage.raiseIf_red]
@[simp] theorem Stage.putSp_fwVersion (k : Nat) (sp : SpSt) : (s.putSp k sp).fwVersion = s.fwVersion := by unfold Stage.putSp; rw [Stage.raiseIf_fwVersion]
@[simp] theorem Stage.putSp_bridges (k : Nat) (sp : SpSt) : (s.putSp k sp).bridges = s.bridges := by unfold Stage.putSp; rw [Stage.raiseIf_bridges]
@[simp] theorem Stage.putSp_net (k : Nat) (sp : SpSt) : (s.putSp k sp).net = s.net := by unfold Stage.putSp; rw [Stage.raiseIf_net]
@[simp] theorem Stage.putSp_ecc (k : Nat) (sp : SpSt) : (s.putSp k sp).ecc = s.ecc := by unfold Stage.putSp; rw [Stage.raiseIf_ecc]
@[simp] theorem Stage.putSp_pool (k : Nat) (sp : SpSt) : (s.putSp k sp).pool = s.pool := by unfold Stage.putSp; rw [Stage.raiseIf_pool]
@[simp] theorem Stage.putSp_reh (k : Nat) (sp : SpSt) : (s.putSp k sp).reh = s.reh := by unfold Stage.putSp; rw [Stage.raiseIf_reh]
@[simp] theorem Stage.putSp_prompt (k : Nat) (sp : SpSt) : (s.putSp k sp).prompt = s.prompt := by unfold Stage.putSp; rw [Stage.raiseIf_prompt]
@[simp] theorem Stage.putSp_tab (k : Nat) (sp : SpSt) : (s.putSp k sp).tab = s.tab := by unfold Stage.putSp; rw [Stage.raiseIf_tab]
@[simp] theorem Stage.putSp_bench (k : Nat) (sp : SpSt) : (s.putSp k sp).bench = s.bench := by unfold Stage.putSp; rw [Stage.raiseIf_bench]
@[simp] theorem Stage.putSp_mail (k : Nat) (sp : SpSt) : (s.putSp k sp).mail = s.mail := by unfold Stage.putSp; rw [Stage.raiseIf_mail]
@[simp] theorem Stage.putSp_sup (k : Nat) (sp : SpSt) : (s.putSp k sp).sup = s.sup := by unfold Stage.putSp; rw [Stage.raiseIf_sup]
@[simp] theorem Stage.putSp_flash (k : Nat) (sp : SpSt) : (s.putSp k sp).flash = s.flash := by unfold Stage.putSp; rw [Stage.raiseIf_flash]
@[simp] theorem Stage.putSp_modeReq (k : Nat) (sp : SpSt) : (s.putSp k sp).modeReq = s.modeReq := by unfold Stage.putSp; rw [Stage.raiseIf_modeReq]
@[simp] theorem Stage.putSp_lockDue (k : Nat) (sp : SpSt) : (s.putSp k sp).lockDue = s.lockDue := by unfold Stage.putSp; rw [Stage.raiseIf_lockDue]
@[simp] theorem Stage.putSp_txn (k : Nat) (sp : SpSt) : (s.putSp k sp).txn = s.txn := by unfold Stage.putSp; rw [Stage.raiseIf_txn]
@[simp] theorem Stage.putSp_order (k : Nat) (sp : SpSt) : (s.putSp k sp).order = s.order := by unfold Stage.putSp; rw [Stage.raiseIf_order]

end Sys2Proof.Machine
end

