-- ==== Sys2Proof/Laws/Regs.lean ====
section
/-!
SUPPORT. The laws of the register file: what each register, field and bit reads after an update, and that the register file keeps its canonical form.
-/
namespace Sys2Proof.Machine

/-! ### A register after a write -/

@[simp] theorem Word.toNat_ofNat (n : Nat) : (Word.ofNat n).toNat = n % 2 ^ 32 := BitVec.toNat_ofNat ..

@[simp] theorem Stage.reg_setReg_same (s : Stage) (p o : Nat) (v : Word) : (s.setReg p o v).reg p o = v := Tab.get_put_self ..

/-- A register at another address reads as before. -/
theorem Stage.reg_setReg_other (s : Stage) {p o q x : Nat} (v : Word) (h : q * 4096 + x ≠ p * 4096 + o) :
    (s.setReg p o v).reg q x = s.reg q x := Tab.get_put_other _ _ _ _ h

theorem Stage.regN_lt (s : Stage) (p o : Nat) : s.regN p o < 2 ^ 32 := (s.reg p o).isLt

@[simp] theorem Stage.regN_setReg_same (s : Stage) (p o : Nat) (v : Word) : (s.setReg p o v).regN p o = v.toNat := by
  rw [Stage.regN, Stage.reg_setReg_same]

theorem Stage.regN_setReg_other (s : Stage) {p o q x : Nat} (v : Word) (h : q * 4096 + x ≠ p * 4096 + o) :
    (s.setReg p o v).regN q x = s.regN q x := by rw [Stage.regN, Stage.reg_setReg_other s v h]; rfl

@[simp] theorem Stage.regN_setN_same (s : Stage) (p o n : Nat) : (s.setN p o n).regN p o = n % 2 ^ 32 := by
  rw [Stage.setN, Stage.regN_setReg_same, Word.toNat_ofNat]

theorem Stage.reg_setN_other (s : Stage) {p o q x : Nat} (n : Nat) (h : q * 4096 + x ≠ p * 4096 + o) :
    (s.setN p o n).reg q x = s.reg q x := Stage.reg_setReg_other s _ h

theorem Stage.regN_setN_other (s : Stage) {p o q x : Nat} (n : Nat) (h : q * 4096 + x ≠ p * 4096 + o) :
    (s.setN p o n).regN q x = s.regN q x := Stage.regN_setReg_other s _ h

/-! ### Fields and bits -/

/-- The field set reads what was set. -/
theorem Stage.fld_setFld_same (s : Stage) (p o h l v : Nat) (hl : l ≤ h + 1) (hh : h < 32) :
    (s.setFld p o h l v).fld p o h l = v % 2 ^ (h + 1 - l) := by
  have := setBits_lt (s.regN p o) h l v 32 hl hh (s.regN_lt p o)
  rw [Stage.fld, Stage.setFld, Stage.regN_setN_same, Nat.mod_eq_of_lt this, bits_setBits_same _ _ _ _ hl]

theorem Stage.reg_setFld_other (s : Stage) {p o q x : Nat} (h l v : Nat) (hn : q * 4096 + x ≠ p * 4096 + o) :
    (s.setFld p o h l v).reg q x = s.reg q x := Stage.reg_setReg_other s _ hn

theorem Stage.reg_setFlag_other (s : Stage) {p o q x : Nat} (i : Nat) (b : Bool) (hn : q * 4096 + x ≠ p * 4096 + o) :
    (s.setFlag p o i b).reg q x = s.reg q x := Stage.reg_setReg_other s _ hn

theorem Stage.regN_setFlag_same (s : Stage) (p o i : Nat) (b : Bool) (hi : i < 32) :
    (s.setFlag p o i b).regN p o = setBit (s.regN p o) i b := by
  rw [Stage.setFlag, Stage.regN_setN_same, Nat.mod_eq_of_lt (setBit_lt _ _ 32 _ hi (s.regN_lt p o))]

/-- The bit set reads what was set. -/
theorem Stage.flag_setFlag_same (s : Stage) (p o i : Nat) (b : Bool) (hi : i < 32) : (s.setFlag p o i b).flag p o i = b := by
  rw [Stage.flag, Stage.regN_setFlag_same s p o i b hi, bit_setBit_same]

/-- Another bit of the register reads as before. -/
theorem Stage.flag_setFlag_bit (s : Stage) (p o : Nat) {i j : Nat} (b : Bool) (hi : i < 32) (hj : j ≠ i) :
    (s.setFlag p o i b).flag p o j = s.flag p o j := by
  rw [Stage.flag, Stage.regN_setFlag_same s p o i b hi, bit_setBit_other _ _ hj]; rfl

theorem Stage.flag_congr {s t : Stage} {p o : Nat} (h : t.reg p o = s.reg p o) (i : Nat) : t.flag p o i = s.flag p o i := by
  rw [Stage.flag, Stage.flag, Stage.regN, Stage.regN, h]

theorem Stage.fld_congr {s t : Stage} {p o : Nat} (h : t.reg p o = s.reg p o) (hi lo : Nat) : t.fld p o hi lo = s.fld p o hi lo := by
  rw [Stage.fld, Stage.fld, Stage.regN, Stage.regN, h]

/-! ### Events (R573) -/

@[simp] theorem Stage.raise_sets (s : Stage) (p b : Nat) (hb : b < 32) : (s.raise p b).flag p 0x014 b = true :=
  Stage.flag_setFlag_same s p 0x014 b true hb

/-- Raising an event leaves every register but that EVENT register. -/
theorem Stage.reg_raise_other (s : Stage) {p q x : Nat} (b : Nat) (h : q * 4096 + x ≠ p * 4096 + 0x014) :
    (s.raise p b).reg q x = s.reg q x := Stage.reg_setReg_other s _ h

/-- Raising an event clears no event. -/
theorem Stage.flag_raise_mono (s : Stage) (p b q c : Nat) (hb : b < 32) (h : s.flag q 0x014 c = true) : (s.raise p b).flag q 0x014 c = true := by
  by_cases hq : q = p
  · subst hq
    by_cases hc : c = b
    · subst hc; exact Stage.raise_sets s q c hb
    · rw [Stage.raise, Stage.flag_setFlag_bit s q 0x014 true hb hc, h]
  · rw [Stage.flag_congr (Stage.reg_raise_other s b (by omega)), h]

theorem Stage.reg_raiseIf_other (s : Stage) {p q x : Nat} (c : Bool) (b : Nat) (h : q * 4096 + x ≠ p * 4096 + 0x014) :
    (s.raiseIf c p b).reg q x = s.reg q x := by
  unfold Stage.raiseIf
  split
  · exact Stage.reg_raise_other s b h
  · rfl

theorem Stage.flag_raiseIf_mono (s : Stage) (e : Bool) (p b q c : Nat) (hb : b < 32) (h : s.flag q 0x014 c = true) :
    (s.raiseIf e p b).flag q 0x014 c = true := by
  unfold Stage.raiseIf
  split
  · exact Stage.flag_raise_mono s p b q c hb h
  · exact h

/-! ### The canonical form -/

/-- The register file lists no register at its reset value, and lists each once, in rising order. -/
def Stage.regsWf (s : Stage) : Bool := Tab.wf regReset s.regs

theorem Stage.regsWf_setReg (s : Stage) (p o : Nat) (v : Word) (h : s.regsWf = true) : (s.setReg p o v).regsWf = true :=
  Tab.wf_put regReset s.regs _ v h

end Sys2Proof.Machine
end

