-- ==== Sys2Proof/Laws/Settle.lean ====
section
/-!
SUPPORT. What every command ends with (R574 to R576): HEALTH events and interrupt messages change EVENT registers, the messages sent and the two
references they are judged against, and nothing else.
-/
namespace Sys2Proof.Machine

/-! ### HEALTH events -/

/-- The events that a list of pages raises. -/
def raiseHealth (h : Tab Nat) (l : Tab Nat) (s : Stage) : Stage :=
  l.foldl (fun s e => s.raiseIf (Nat.land e.2 (3 - Tab.get 0 h e.1) != 0) e.1 29) s

theorem Stage.healthEvents_eq (s : Stage) (old : Tab Nat) : s.healthEvents old = raiseHealth old s.healthFlags s := rfl

theorem raiseHealth_reg (h l : Tab Nat) : ∀ (s : Stage) {q x : Nat}, x < 4096 → x ≠ 0x014 → (raiseHealth h l s).reg q x = s.reg q x := by
  induction l with
  | nil => intros; rfl
  | cons e l ih =>
    intro s q x hx hn
    rw [raiseHealth, List.foldl_cons, ← raiseHealth, ih _ hx hn, Stage.reg_raiseIf_other _ _ _ (by omega)]

theorem raiseHealth_event (h l : Tab Nat) : ∀ (s : Stage) {q c : Nat}, s.flag q 0x014 c = true → (raiseHealth h l s).flag q 0x014 c = true := by
  induction l with
  | nil => intro s q c h; exact h
  | cons e l ih =>
    intro s q c hf
    rw [raiseHealth, List.foldl_cons, ← raiseHealth]
    exact ih _ (Stage.flag_raiseIf_mono s _ _ _ _ _ (by omega) hf)

/-- An entry whose FAULT or DEGRADED is new raises the event of its page. -/
theorem raiseHealth_raises (h l : Tab Nat) : ∀ (s : Stage) (e : Nat × Nat), e ∈ l → Nat.land e.2 (3 - Tab.get 0 h e.1) ≠ 0 →
    (raiseHealth h l s).flag e.1 0x014 29 = true := by
  induction l with
  | nil => intro s e he; exact absurd he (List.not_mem_nil)
  | cons x l ih =>
    intro s e he hn
    rw [raiseHealth, List.foldl_cons, ← raiseHealth]
    rcases List.mem_cons.mp he with rfl | he
    · apply raiseHealth_event
      rw [Stage.raiseIf, if_pos (by simpa using hn)]
      exact Stage.raise_sets s e.1 29 (by omega)
    · exact ih _ e he hn

/-! ### Interrupt vectors -/

/-- One vector changes the messages sent and nothing else. -/
theorem Stage.sendVec_frame (pend : Nat) (s : Stage) (v : Nat) :
    ∃ m l, Stage.sendVec pend s v = { s with vecSent := m, outs := l ++ s.outs } := by
  unfold Stage.sendVec
  split
  · exact ⟨_, [_], rfl⟩
  · exact ⟨s.vecSent, [], rfl⟩

/-- The vectors change the messages sent and nothing else. -/
theorem Stage.vectors_frame (s : Stage) : ∃ m l, s.vectors = { s with vecSent := m, outs := l ++ s.outs } := by
  have key : ∀ (vs : List Nat) (pend : Nat) (t : Stage), ∃ m l, vs.foldl (Stage.sendVec pend) t = { t with vecSent := m, outs := l ++ t.outs } := by
    intro vs pend
    induction vs with
    | nil => intro t; exact ⟨t.vecSent, [], rfl⟩
    | cons v vs ih =>
      intro t
      obtain ⟨m, l, h⟩ := Stage.sendVec_frame pend t v
      obtain ⟨m', l', h'⟩ := ih (Stage.sendVec pend t v)
      exact ⟨m', l' ++ l, by rw [List.foldl_cons, h', h]; simp⟩
  unfold Stage.vectors
  simp only
  split
  · exact ⟨0, [], rfl⟩
  · obtain ⟨m, l, h⟩ := key (upTo 32) s.vecPending { s with vecSent := Nat.land s.vecSent s.vecPending }
    exact ⟨m, l, by rw [h]⟩

/-! ### What a command ends with -/

/-- Everything that settling can change. -/
theorem Stage.settle_frame (s : Stage) (old : Tab Nat) :
    ∃ m l, s.settle old = { raiseHealth old s.healthFlags s with vecSent := m, outs := l ++ s.outs } := by
  obtain ⟨m, l, h⟩ := Stage.vectors_frame (s.healthEvents old)
  have ho : ∀ (h l : Tab Nat) (s : Stage), (raiseHealth h l s).outs = s.outs := by
    intro h l
    induction l with
    | nil => intros; rfl
    | cons e l ih => intro s; rw [raiseHealth, List.foldl_cons, ← raiseHealth, ih, Stage.raiseIf_outs]
  refine ⟨m, l, ?_⟩
  rw [Stage.settle, h, Stage.healthEvents_eq, ho]

/-- The end of a command is what it left, but for EVENT registers and messages. -/
theorem Stage.ends_cases (s t : Stage) : s.ends t = t ∨ (t.dieUp = true ∧ s.dieUp = true ∧ s.ends t = t.settle s.healthFlags) ∨
    (t.dieUp = true ∧ s.dieUp = false ∧ s.ends t = t.vectors) := by
  unfold Stage.ends
  cases ht : t.dieUp <;> cases hs : s.dieUp <;> simp

/-- Every register but the EVENT registers reads as the command left it. -/
theorem Stage.ends_reg (s t : Stage) {q x : Nat} (hx : x < 4096) (hn : x ≠ 0x014) : (s.ends t).reg q x = t.reg q x := by
  rcases s.ends_cases t with h | ⟨_, _, h⟩ | ⟨_, _, h⟩
  · rw [h]
  · obtain ⟨m, l, hs⟩ := t.settle_frame s.healthFlags
    rw [h, hs]
    exact raiseHealth_reg _ _ t hx hn
  · obtain ⟨m, l, hv⟩ := t.vectors_frame
    rw [h, hv]; rfl

theorem Stage.ends_regN (s t : Stage) {q x : Nat} (hx : x < 4096) (hn : x ≠ 0x014) : (s.ends t).regN q x = t.regN q x := by
  rw [Stage.regN, Stage.ends_reg s t hx hn]; rfl

theorem Stage.ends_fld (s t : Stage) {q x : Nat} (hi lo : Nat) (hx : x < 4096) (hn : x ≠ 0x014) : (s.ends t).fld q x hi lo = t.fld q x hi lo :=
  Stage.fld_congr (Stage.ends_reg s t hx hn) hi lo

theorem Stage.ends_flag (s t : Stage) {q x : Nat} (i : Nat) (hx : x < 4096) (hn : x ≠ 0x014) : (s.ends t).flag q x i = t.flag q x i :=
  Stage.flag_congr (Stage.ends_reg s t hx hn) i

/-- An event that the command left set stays set. -/
theorem Stage.ends_event (s t : Stage) {q c : Nat} (h : t.flag q 0x014 c = true) : (s.ends t).flag q 0x014 c = true := by
  rcases s.ends_cases t with e | ⟨_, _, e⟩ | ⟨_, _, e⟩
  · rw [e, h]
  · obtain ⟨m, l, hs⟩ := t.settle_frame s.healthFlags
    rw [e, hs]
    exact raiseHealth_event _ _ t h
  · obtain ⟨m, l, hv⟩ := t.vectors_frame
    rw [e, hv]; exact h

/-- What has left the part stays on its record. -/
theorem Stage.ends_outs (s t : Stage) {o : Out} (h : o ∈ t.outs) : o ∈ (s.ends t).outs := by
  rcases s.ends_cases t with e | ⟨_, _, e⟩ | ⟨_, _, e⟩
  · rw [e]; exact h
  · obtain ⟨m, l, hs⟩ := t.settle_frame s.healthFlags
    rw [e, hs]
    exact List.mem_append_right l h
  · obtain ⟨m, l, hv⟩ := t.vectors_frame
    rw [e, hv]
    exact List.mem_append_right l h

theorem raiseHealth_args (h l : Tab Nat) : ∀ s : Stage, (raiseHealth h l s).args = s.args := by induction l with | nil => intros; rfl | cons e l ih => intro s; rw [raiseHealth, List.foldl_cons, ← raiseHealth, ih, Stage.raiseIf_args]
@[simp] theorem Stage.settle_args (s : Stage) (old : Tab Nat) : (s.settle old).args = s.args := by obtain ⟨m, l, h⟩ := s.settle_frame old; rw [h]; exact raiseHealth_args _ _ s
@[simp] theorem Stage.ends_args (s t : Stage) : (s.ends t).args = t.args := by rcases s.ends_cases t with h | ⟨_, _, h⟩ | ⟨_, _, h⟩ <;> rw [h]; exact t.settle_args _; obtain ⟨m, l, hv⟩ := t.vectors_frame; rw [hv]
theorem raiseHealth_routes (h l : Tab Nat) : ∀ s : Stage, (raiseHealth h l s).routes = s.routes := by induction l with | nil => intros; rfl | cons e l ih => intro s; rw [raiseHealth, List.foldl_cons, ← raiseHealth, ih, Stage.raiseIf_routes]
@[simp] theorem Stage.settle_routes (s : Stage) (old : Tab Nat) : (s.settle old).routes = s.routes := by obtain ⟨m, l, h⟩ := s.settle_frame old; rw [h]; exact raiseHealth_routes _ _ s
@[simp] theorem Stage.ends_routes (s t : Stage) : (s.ends t).routes = t.routes := by rcases s.ends_cases t with h | ⟨_, _, h⟩ | ⟨_, _, h⟩ <;> rw [h]; exact t.settle_routes _; obtain ⟨m, l, hv⟩ := t.vectors_frame; rw [hv]
theorem raiseHealth_cmdq (h l : Tab Nat) : ∀ s : Stage, (raiseHealth h l s).cmdq = s.cmdq := by induction l with | nil => intros; rfl | cons e l ih => intro s; rw [raiseHealth, List.foldl_cons, ← raiseHealth, ih, Stage.raiseIf_cmdq]
@[simp] theorem Stage.settle_cmdq (s : Stage) (old : Tab Nat) : (s.settle old).cmdq = s.cmdq := by obtain ⟨m, l, h⟩ := s.settle_frame old; rw [h]; exact raiseHealth_cmdq _ _ s
@[simp] theorem Stage.ends_cmdq (s t : Stage) : (s.ends t).cmdq = t.cmdq := by rcases s.ends_cases t with h | ⟨_, _, h⟩ | ⟨_, _, h⟩ <;> rw [h]; exact t.settle_cmdq _; obtain ⟨m, l, hv⟩ := t.vectors_frame; rw [hv]
theorem raiseHealth_seqs (h l : Tab Nat) : ∀ s : Stage, (raiseHealth h l s).seqs = s.seqs := by induction l with | nil => intros; rfl | cons e l ih => intro s; rw [raiseHealth, List.foldl_cons, ← raiseHealth, ih, Stage.raiseIf_seqs]
@[simp] theorem Stage.settle_seqs (s : Stage) (old : Tab Nat) : (s.settle old).seqs = s.seqs := by obtain ⟨m, l, h⟩ := s.settle_frame old; rw [h]; exact raiseHealth_seqs _ _ s
@[simp] theorem Stage.ends_seqs (s t : Stage) : (s.ends t).seqs = t.seqs := by rcases s.ends_cases t with h | ⟨_, _, h⟩ | ⟨_, _, h⟩ <;> rw [h]; exact t.settle_seqs _; obtain ⟨m, l, hv⟩ := t.vectors_frame; rw [hv]
theorem raiseHealth_running (h l : Tab Nat) : ∀ s : Stage, (raiseHealth h l s).running = s.running := by induction l with | nil => intros; rfl | cons e l ih => intro s; rw [raiseHealth, List.foldl_cons, ← raiseHealth, ih, Stage.raiseIf_running]
@[simp] theorem Stage.settle_running (s : Stage) (old : Tab Nat) : (s.settle old).running = s.running := by obtain ⟨m, l, h⟩ := s.settle_frame old; rw [h]; exact raiseHealth_running _ _ s
@[simp] theorem Stage.ends_running (s t : Stage) : (s.ends t).running = t.running := by rcases s.ends_cases t with h | ⟨_, _, h⟩ | ⟨_, _, h⟩ <;> rw [h]; exact t.settle_running _; obtain ⟨m, l, hv⟩ := t.vectors_frame; rw [hv]
theorem raiseHealth_recStore (h l : Tab Nat) : ∀ s : Stage, (raiseHealth h l s).recStore = s.recStore := by induction l with | nil => intros; rfl | cons e l ih => intro s; rw [raiseHealth, List.foldl_cons, ← raiseHealth, ih, Stage.raiseIf_recStore]
@[simp] theorem Stage.settle_recStore (s : Stage) (old : Tab Nat) : (s.settle old).recStore = s.recStore := by obtain ⟨m, l, h⟩ := s.settle_frame old; rw [h]; exact raiseHealth_recStore _ _ s
@[simp] theorem Stage.ends_recStore (s t : Stage) : (s.ends t).recStore = t.recStore := by rcases s.ends_cases t with h | ⟨_, _, h⟩ | ⟨_, _, h⟩ <;> rw [h]; exact t.settle_recStore _; obtain ⟨m, l, hv⟩ := t.vectors_frame; rw [hv]
theorem raiseHealth_recHeld (h l : Tab Nat) : ∀ s : Stage, (raiseHealth h l s).recHeld = s.recHeld := by induction l with | nil => intros; rfl | cons e l ih => intro s; rw [raiseHealth, List.foldl_cons, ← raiseHealth, ih, Stage.raiseIf_recHeld]
@[simp] theorem Stage.settle_recHeld (s : Stage) (old : Tab Nat) : (s.settle old).recHeld = s.recHeld := by obtain ⟨m, l, h⟩ := s.settle_frame old; rw [h]; exact raiseHealth_recHeld _ _ s
@[simp] theorem Stage.ends_recHeld (s t : Stage) : (s.ends t).recHeld = t.recHeld := by rcases s.ends_cases t with h | ⟨_, _, h⟩ | ⟨_, _, h⟩ <;> rw [h]; exact t.settle_recHeld _; obtain ⟨m, l, hv⟩ := t.vectors_frame; rw [hv]
theorem raiseHealth_waiting (h l : Tab Nat) : ∀ s : Stage, (raiseHealth h l s).waiting = s.waiting := by induction l with | nil => intros; rfl | cons e l ih => intro s; rw [raiseHealth, List.foldl_cons, ← raiseHealth, ih, Stage.raiseIf_waiting]
@[simp] theorem Stage.settle_waiting (s : Stage) (old : Tab Nat) : (s.settle old).waiting = s.waiting := by obtain ⟨m, l, h⟩ := s.settle_frame old; rw [h]; exact raiseHealth_waiting _ _ s
@[simp] theorem Stage.ends_waiting (s t : Stage) : (s.ends t).waiting = t.waiting := by rcases s.ends_cases t with h | ⟨_, _, h⟩ | ⟨_, _, h⟩ <;> rw [h]; exact t.settle_waiting _; obtain ⟨m, l, hv⟩ := t.vectors_frame; rw [hv]
theorem raiseHealth_mem (h l : Tab Nat) : ∀ s : Stage, (raiseHealth h l s).mem = s.mem := by induction l with | nil => intros; rfl | cons e l ih => intro s; rw [raiseHealth, List.foldl_cons, ← raiseHealth, ih, Stage.raiseIf_mem]
@[simp] theorem Stage.settle_mem (s : Stage) (old : Tab Nat) : (s.settle old).mem = s.mem := by obtain ⟨m, l, h⟩ := s.settle_frame old; rw [h]; exact raiseHealth_mem _ _ s
@[simp] theorem Stage.ends_mem (s t : Stage) : (s.ends t).mem = t.mem := by rcases s.ends_cases t with h | ⟨_, _, h⟩ | ⟨_, _, h⟩ <;> rw [h]; exact t.settle_mem _; obtain ⟨m, l, hv⟩ := t.vectors_frame; rw [hv]
theorem raiseHealth_bus (h l : Tab Nat) : ∀ s : Stage, (raiseHealth h l s).bus = s.bus := by induction l with | nil => intros; rfl | cons e l ih => intro s; rw [raiseHealth, List.foldl_cons, ← raiseHealth, ih, Stage.raiseIf_bus]
@[simp] theorem Stage.settle_bus (s : Stage) (old : Tab Nat) : (s.settle old).bus = s.bus := by obtain ⟨m, l, h⟩ := s.settle_frame old; rw [h]; exact raiseHealth_bus _ _ s
@[simp] theorem Stage.ends_bus (s t : Stage) : (s.ends t).bus = t.bus := by rcases s.ends_cases t with h | ⟨_, _, h⟩ | ⟨_, _, h⟩ <;> rw [h]; exact t.settle_bus _; obtain ⟨m, l, hv⟩ := t.vectors_frame; rw [hv]
theorem raiseHealth_fresh (h l : Tab Nat) : ∀ s : Stage, (raiseHealth h l s).fresh = s.fresh := by induction l with | nil => intros; rfl | cons e l ih => intro s; rw [raiseHealth, List.foldl_cons, ← raiseHealth, ih, Stage.raiseIf_fresh]
@[simp] theorem Stage.settle_fresh (s : Stage) (old : Tab Nat) : (s.settle old).fresh = s.fresh := by obtain ⟨m, l, h⟩ := s.settle_frame old; rw [h]; exact raiseHealth_fresh _ _ s
@[simp] theorem Stage.ends_fresh (s t : Stage) : (s.ends t).fresh = t.fresh := by rcases s.ends_cases t with h | ⟨_, _, h⟩ | ⟨_, _, h⟩ <;> rw [h]; exact t.settle_fresh _; obtain ⟨m, l, hv⟩ := t.vectors_frame; rw [hv]
theorem raiseHealth_host (h l : Tab Nat) : ∀ s : Stage, (raiseHealth h l s).host = s.host := by induction l with | nil => intros; rfl | cons e l ih => intro s; rw [raiseHealth, List.foldl_cons, ← raiseHealth, ih, Stage.raiseIf_host]
@[simp] theorem Stage.settle_host (s : Stage) (old : Tab Nat) : (s.settle old).host = s.host := by obtain ⟨m, l, h⟩ := s.settle_frame old; rw [h]; exact raiseHealth_host _ _ s
@[simp] theorem Stage.ends_host (s t : Stage) : (s.ends t).host = t.host := by rcases s.ends_cases t with h | ⟨_, _, h⟩ | ⟨_, _, h⟩ <;> rw [h]; exact t.settle_host _; obtain ⟨m, l, hv⟩ := t.vectors_frame; rw [hv]
theorem raiseHealth_grid (h l : Tab Nat) : ∀ s : Stage, (raiseHealth h l s).grid = s.grid := by induction l with | nil => intros; rfl | cons e l ih => intro s; rw [raiseHealth, List.foldl_cons, ← raiseHealth, ih, Stage.raiseIf_grid]
@[simp] theorem Stage.settle_grid (s : Stage) (old : Tab Nat) : (s.settle old).grid = s.grid := by obtain ⟨m, l, h⟩ := s.settle_frame old; rw [h]; exact raiseHealth_grid _ _ s
@[simp] theorem Stage.ends_grid (s t : Stage) : (s.ends t).grid = t.grid := by rcases s.ends_cases t with h | ⟨_, _, h⟩ | ⟨_, _, h⟩ <;> rw [h]; exact t.settle_grid _; obtain ⟨m, l, hv⟩ := t.vectors_frame; rw [hv]
theorem raiseHealth_level (h l : Tab Nat) : ∀ s : Stage, (raiseHealth h l s).level = s.level := by induction l with | nil => intros; rfl | cons e l ih => intro s; rw [raiseHealth, List.foldl_cons, ← raiseHealth, ih, Stage.raiseIf_level]
@[simp] theorem Stage.settle_level (s : Stage) (old : Tab Nat) : (s.settle old).level = s.level := by obtain ⟨m, l, h⟩ := s.settle_frame old; rw [h]; exact raiseHealth_level _ _ s
@[simp] theorem Stage.ends_level (s t : Stage) : (s.ends t).level = t.level := by rcases s.ends_cases t with h | ⟨_, _, h⟩ | ⟨_, _, h⟩ <;> rw [h]; exact t.settle_level _; obtain ⟨m, l, hv⟩ := t.vectors_frame; rw [hv]
theorem raiseHealth_datum (h l : Tab Nat) : ∀ s : Stage, (raiseHealth h l s).datum = s.datum := by induction l with | nil => intros; rfl | cons e l ih => intro s; rw [raiseHealth, List.foldl_cons, ← raiseHealth, ih, Stage.raiseIf_datum]
@[simp] theorem Stage.settle_datum (s : Stage) (old : Tab Nat) : (s.settle old).datum = s.datum := by obtain ⟨m, l, h⟩ := s.settle_frame old; rw [h]; exact raiseHealth_datum _ _ s
@[simp] theorem Stage.ends_datum (s t : Stage) : (s.ends t).datum = t.datum := by rcases s.ends_cases t with h | ⟨_, _, h⟩ | ⟨_, _, h⟩ <;> rw [h]; exact t.settle_datum _; obtain ⟨m, l, hv⟩ := t.vectors_frame; rw [hv]
theorem raiseHealth_tports (h l : Tab Nat) : ∀ s : Stage, (raiseHealth h l s).tports = s.tports := by induction l with | nil => intros; rfl | cons e l ih => intro s; rw [raiseHealth, List.foldl_cons, ← raiseHealth, ih, Stage.raiseIf_tports]
@[simp] theorem Stage.settle_tports (s : Stage) (old : Tab Nat) : (s.settle old).tports = s.tports := by obtain ⟨m, l, h⟩ := s.settle_frame old; rw [h]; exact raiseHealth_tports _ _ s
@[simp] theorem Stage.ends_tports (s t : Stage) : (s.ends t).tports = t.tports := by rcases s.ends_cases t with h | ⟨_, _, h⟩ | ⟨_, _, h⟩ <;> rw [h]; exact t.settle_tports _; obtain ⟨m, l, hv⟩ := t.vectors_frame; rw [hv]
theorem raiseHealth_exch (h l : Tab Nat) : ∀ s : Stage, (raiseHealth h l s).exch = s.exch := by induction l with | nil => intros; rfl | cons e l ih => intro s; rw [raiseHealth, List.foldl_cons, ← raiseHealth, ih, Stage.raiseIf_exch]
@[simp] theorem Stage.settle_exch (s : Stage) (old : Tab Nat) : (s.settle old).exch = s.exch := by obtain ⟨m, l, h⟩ := s.settle_frame old; rw [h]; exact raiseHealth_exch _ _ s
@[simp] theorem Stage.ends_exch (s t : Stage) : (s.ends t).exch = t.exch := by rcases s.ends_cases t with h | ⟨_, _, h⟩ | ⟨_, _, h⟩ <;> rw [h]; exact t.settle_exch _; obtain ⟨m, l, hv⟩ := t.vectors_frame; rw [hv]
theorem raiseHealth_blocks (h l : Tab Nat) : ∀ s : Stage, (raiseHealth h l s).blocks = s.blocks := by induction l with | nil => intros; rfl | cons e l ih => intro s; rw [raiseHealth, List.foldl_cons, ← raiseHealth, ih, Stage.raiseIf_blocks]
@[simp] theorem Stage.settle_blocks (s : Stage) (old : Tab Nat) : (s.settle old).blocks = s.blocks := by obtain ⟨m, l, h⟩ := s.settle_frame old; rw [h]; exact raiseHealth_blocks _ _ s
@[simp] theorem Stage.ends_blocks (s t : Stage) : (s.ends t).blocks = t.blocks := by rcases s.ends_cases t with h | ⟨_, _, h⟩ | ⟨_, _, h⟩ <;> rw [h]; exact t.settle_blocks _; obtain ⟨m, l, hv⟩ := t.vectors_frame; rw [hv]
theorem raiseHealth_sps (h l : Tab Nat) : ∀ s : Stage, (raiseHealth h l s).sps = s.sps := by induction l with | nil => intros; rfl | cons e l ih => intro s; rw [raiseHealth, List.foldl_cons, ← raiseHealth, ih, Stage.raiseIf_sps]
@[simp] theorem Stage.settle_sps (s : Stage) (old : Tab Nat) : (s.settle old).sps = s.sps := by obtain ⟨m, l, h⟩ := s.settle_frame old; rw [h]; exact raiseHealth_sps _ _ s
@[simp] theorem Stage.ends_sps (s t : Stage) : (s.ends t).sps = t.sps := by rcases s.ends_cases t with h | ⟨_, _, h⟩ | ⟨_, _, h⟩ <;> rw [h]; exact t.settle_sps _; obtain ⟨m, l, hv⟩ := t.vectors_frame; rw [hv]
theorem raiseHealth_graph (h l : Tab Nat) : ∀ s : Stage, (raiseHealth h l s).graph = s.graph := by induction l with | nil => intros; rfl | cons e l ih => intro s; rw [raiseHealth, List.foldl_cons, ← raiseHealth, ih, Stage.raiseIf_graph]
@[simp] theorem Stage.settle_graph (s : Stage) (old : Tab Nat) : (s.settle old).graph = s.graph := by obtain ⟨m, l, h⟩ := s.settle_frame old; rw [h]; exact raiseHealth_graph _ _ s
@[simp] theorem Stage.ends_graph (s t : Stage) : (s.ends t).graph = t.graph := by rcases s.ends_cases t with h | ⟨_, _, h⟩ | ⟨_, _, h⟩ <;> rw [h]; exact t.settle_graph _; obtain ⟨m, l, hv⟩ := t.vectors_frame; rw [hv]
theorem raiseHealth_bats (h l : Tab Nat) : ∀ s : Stage, (raiseHealth h l s).bats = s.bats := by induction l with | nil => intros; rfl | cons e l ih => intro s; rw [raiseHealth, List.foldl_cons, ← raiseHealth, ih, Stage.raiseIf_bats]
@[simp] theorem Stage.settle_bats (s : Stage) (old : Tab Nat) : (s.settle old).bats = s.bats := by obtain ⟨m, l, h⟩ := s.settle_frame old; rw [h]; exact raiseHealth_bats _ _ s
@[simp] theorem Stage.ends_bats (s t : Stage) : (s.ends t).bats = t.bats := by rcases s.ends_cases t with h | ⟨_, _, h⟩ | ⟨_, _, h⟩ <;> rw [h]; exact t.settle_bats _; obtain ⟨m, l, hv⟩ := t.vectors_frame; rw [hv]
theorem raiseHealth_ports (h l : Tab Nat) : ∀ s : Stage, (raiseHealth h l s).ports = s.ports := by induction l with | nil => intros; rfl | cons e l ih => intro s; rw [raiseHealth, List.foldl_cons, ← raiseHealth, ih, Stage.raiseIf_ports]
@[simp] theorem Stage.settle_ports (s : Stage) (old : Tab Nat) : (s.settle old).ports = s.ports := by obtain ⟨m, l, h⟩ := s.settle_frame old; rw [h]; exact raiseHealth_ports _ _ s
@[simp] theorem Stage.ends_ports (s t : Stage) : (s.ends t).ports = t.ports := by rcases s.ends_cases t with h | ⟨_, _, h⟩ | ⟨_, _, h⟩ <;> rw [h]; exact t.settle_ports _; obtain ⟨m, l, hv⟩ := t.vectors_frame; rw [hv]
theorem raiseHealth_groups (h l : Tab Nat) : ∀ s : Stage, (raiseHealth h l s).groups = s.groups := by induction l with | nil => intros; rfl | cons e l ih => intro s; rw [raiseHealth, List.foldl_cons, ← raiseHealth, ih, Stage.raiseIf_groups]
@[simp] theorem Stage.settle_groups (s : Stage) (old : Tab Nat) : (s.settle old).groups = s.groups := by obtain ⟨m, l, h⟩ := s.settle_frame old; rw [h]; exact raiseHealth_groups _ _ s
@[simp] theorem Stage.ends_groups (s t : Stage) : (s.ends t).groups = t.groups := by rcases s.ends_cases t with h | ⟨_, _, h⟩ | ⟨_, _, h⟩ <;> rw [h]; exact t.settle_groups _; obtain ⟨m, l, hv⟩ := t.vectors_frame; rw [hv]
theorem raiseHealth_decs (h l : Tab Nat) : ∀ s : Stage, (raiseHealth h l s).decs = s.decs := by induction l with | nil => intros; rfl | cons e l ih => intro s; rw [raiseHealth, List.foldl_cons, ← raiseHealth, ih, Stage.raiseIf_decs]
@[simp] theorem Stage.settle_decs (s : Stage) (old : Tab Nat) : (s.settle old).decs = s.decs := by obtain ⟨m, l, h⟩ := s.settle_frame old; rw [h]; exact raiseHealth_decs _ _ s
@[simp] theorem Stage.ends_decs (s t : Stage) : (s.ends t).decs = t.decs := by rcases s.ends_cases t with h | ⟨_, _, h⟩ | ⟨_, _, h⟩ <;> rw [h]; exact t.settle_decs _; obtain ⟨m, l, hv⟩ := t.vectors_frame; rw [hv]
theorem raiseHealth_syncs (h l : Tab Nat) : ∀ s : Stage, (raiseHealth h l s).syncs = s.syncs := by induction l with | nil => intros; rfl | cons e l ih => intro s; rw [raiseHealth, List.foldl_cons, ← raiseHealth, ih, Stage.raiseIf_syncs]
@[simp] theorem Stage.settle_syncs (s : Stage) (old : Tab Nat) : (s.settle old).syncs = s.syncs := by obtain ⟨m, l, h⟩ := s.settle_frame old; rw [h]; exact raiseHealth_syncs _ _ s
@[simp] theorem Stage.ends_syncs (s t : Stage) : (s.ends t).syncs = t.syncs := by rcases s.ends_cases t with h | ⟨_, _, h⟩ | ⟨_, _, h⟩ <;> rw [h]; exact t.settle_syncs _; obtain ⟨m, l, hv⟩ := t.vectors_frame; rw [hv]
theorem raiseHealth_patch (h l : Tab Nat) : ∀ s : Stage, (raiseHealth h l s).patch = s.patch := by induction l with | nil => intros; rfl | cons e l ih => intro s; rw [raiseHealth, List.foldl_cons, ← raiseHealth, ih, Stage.raiseIf_patch]
@[simp] theorem Stage.settle_patch (s : Stage) (old : Tab Nat) : (s.settle old).patch = s.patch := by obtain ⟨m, l, h⟩ := s.settle_frame old; rw [h]; exact raiseHealth_patch _ _ s
@[simp] theorem Stage.ends_patch (s t : Stage) : (s.ends t).patch = t.patch := by rcases s.ends_cases t with h | ⟨_, _, h⟩ | ⟨_, _, h⟩ <;> rw [h]; exact t.settle_patch _; obtain ⟨m, l, hv⟩ := t.vectors_frame; rw [hv]
theorem raiseHealth_lanes (h l : Tab Nat) : ∀ s : Stage, (raiseHealth h l s).lanes = s.lanes := by induction l with | nil => intros; rfl | cons e l ih => intro s; rw [raiseHealth, List.foldl_cons, ← raiseHealth, ih, Stage.raiseIf_lanes]
@[simp] theorem Stage.settle_lanes (s : Stage) (old : Tab Nat) : (s.settle old).lanes = s.lanes := by obtain ⟨m, l, h⟩ := s.settle_frame old; rw [h]; exact raiseHealth_lanes _ _ s
@[simp] theorem Stage.ends_lanes (s t : Stage) : (s.ends t).lanes = t.lanes := by rcases s.ends_cases t with h | ⟨_, _, h⟩ | ⟨_, _, h⟩ <;> rw [h]; exact t.settle_lanes _; obtain ⟨m, l, hv⟩ := t.vectors_frame; rw [hv]
theorem raiseHealth_links (h l : Tab Nat) : ∀ s : Stage, (raiseHealth h l s).links = s.links := by induction l with | nil => intros; rfl | cons e l ih => intro s; rw [raiseHealth, List.foldl_cons, ← raiseHealth, ih, Stage.raiseIf_links]
@[simp] theorem Stage.settle_links (s : Stage) (old : Tab Nat) : (s.settle old).links = s.links := by obtain ⟨m, l, h⟩ := s.settle_frame old; rw [h]; exact raiseHealth_links _ _ s
@[simp] theorem Stage.ends_links (s t : Stage) : (s.ends t).links = t.links := by rcases s.ends_cases t with h | ⟨_, _, h⟩ | ⟨_, _, h⟩ <;> rw [h]; exact t.settle_links _; obtain ⟨m, l, hv⟩ := t.vectors_frame; rw [hv]
theorem raiseHealth_red (h l : Tab Nat) : ∀ s : Stage, (raiseHealth h l s).red = s.red := by induction l with | nil => intros; rfl | cons e l ih => intro s; rw [raiseHealth, List.foldl_cons, ← raiseHealth, ih, Stage.raiseIf_red]
@[simp] theorem Stage.settle_red (s : Stage) (old : Tab Nat) : (s.settle old).red = s.red := by obtain ⟨m, l, h⟩ := s.settle_frame old; rw [h]; exact raiseHealth_red _ _ s
@[simp] theorem Stage.ends_red (s t : Stage) : (s.ends t).red = t.red := by rcases s.ends_cases t with h | ⟨_, _, h⟩ | ⟨_, _, h⟩ <;> rw [h]; exact t.settle_red _; obtain ⟨m, l, hv⟩ := t.vectors_frame; rw [hv]
theorem raiseHealth_fwVersion (h l : Tab Nat) : ∀ s : Stage, (raiseHealth h l s).fwVersion = s.fwVersion := by induction l with | nil => intros; rfl | cons e l ih => intro s; rw [raiseHealth, List.foldl_cons, ← raiseHealth, ih, Stage.raiseIf_fwVersion]
@[simp] theorem Stage.settle_fwVersion (s : Stage) (old : Tab Nat) : (s.settle old).fwVersion = s.fwVersion := by obtain ⟨m, l, h⟩ := s.settle_frame old; rw [h]; exact raiseHealth_fwVersion _ _ s
@[simp] theorem Stage.ends_fwVersion (s t : Stage) : (s.ends t).fwVersion = t.fwVersion := by rcases s.ends_cases t with h | ⟨_, _, h⟩ | ⟨_, _, h⟩ <;> rw [h]; exact t.settle_fwVersion _; obtain ⟨m, l, hv⟩ := t.vectors_frame; rw [hv]
theorem raiseHealth_bridges (h l : Tab Nat) : ∀ s : Stage, (raiseHealth h l s).bridges = s.bridges := by induction l with | nil => intros; rfl | cons e l ih => intro s; rw [raiseHealth, List.foldl_cons, ← raiseHealth, ih, Stage.raiseIf_bridges]
@[simp] theorem Stage.settle_bridges (s : Stage) (old : Tab Nat) : (s.settle old).bridges = s.bridges := by obtain ⟨m, l, h⟩ := s.settle_frame old; rw [h]; exact raiseHealth_bridges _ _ s
@[simp] theorem Stage.ends_bridges (s t : Stage) : (s.ends t).bridges = t.bridges := by rcases s.ends_cases t with h | ⟨_, _, h⟩ | ⟨_, _, h⟩ <;> rw [h]; exact t.settle_bridges _; obtain ⟨m, l, hv⟩ := t.vectors_frame; rw [hv]
theorem raiseHealth_net (h l : Tab Nat) : ∀ s : Stage, (raiseHealth h l s).net = s.net := by induction l with | nil => intros; rfl | cons e l ih => intro s; rw [raiseHealth, List.foldl_cons, ← raiseHealth, ih, Stage.raiseIf_net]
@[simp] theorem Stage.settle_net (s : Stage) (old : Tab Nat) : (s.settle old).net = s.net := by obtain ⟨m, l, h⟩ := s.settle_frame old; rw [h]; exact raiseHealth_net _ _ s
@[simp] theorem Stage.ends_net (s t : Stage) : (s.ends t).net = t.net := by rcases s.ends_cases t with h | ⟨_, _, h⟩ | ⟨_, _, h⟩ <;> rw [h]; exact t.settle_net _; obtain ⟨m, l, hv⟩ := t.vectors_frame; rw [hv]
theorem raiseHealth_ecc (h l : Tab Nat) : ∀ s : Stage, (raiseHealth h l s).ecc = s.ecc := by induction l with | nil => intros; rfl | cons e l ih => intro s; rw [raiseHealth, List.foldl_cons, ← raiseHealth, ih, Stage.raiseIf_ecc]
@[simp] theorem Stage.settle_ecc (s : Stage) (old : Tab Nat) : (s.settle old).ecc = s.ecc := by obtain ⟨m, l, h⟩ := s.settle_frame old; rw [h]; exact raiseHealth_ecc _ _ s
@[simp] theorem Stage.ends_ecc (s t : Stage) : (s.ends t).ecc = t.ecc := by rcases s.ends_cases t with h | ⟨_, _, h⟩ | ⟨_, _, h⟩ <;> rw [h]; exact t.settle_ecc _; obtain ⟨m, l, hv⟩ := t.vectors_frame; rw [hv]
theorem raiseHealth_pool (h l : Tab Nat) : ∀ s : Stage, (raiseHealth h l s).pool = s.pool := by induction l with | nil => intros; rfl | cons e l ih => intro s; rw [raiseHealth, List.foldl_cons, ← raiseHealth, ih, Stage.raiseIf_pool]
@[simp] theorem Stage.settle_pool (s : Stage) (old : Tab Nat) : (s.settle old).pool = s.pool := by obtain ⟨m, l, h⟩ := s.settle_frame old; rw [h]; exact raiseHealth_pool _ _ s
@[simp] theorem Stage.ends_pool (s t : Stage) : (s.ends t).pool = t.pool := by rcases s.ends_cases t with h | ⟨_, _, h⟩ | ⟨_, _, h⟩ <;> rw [h]; exact t.settle_pool _; obtain ⟨m, l, hv⟩ := t.vectors_frame; rw [hv]
theorem raiseHealth_reh (h l : Tab Nat) : ∀ s : Stage, (raiseHealth h l s).reh = s.reh := by induction l with | nil => intros; rfl | cons e l ih => intro s; rw [raiseHealth, List.foldl_cons, ← raiseHealth, ih, Stage.raiseIf_reh]
@[simp] theorem Stage.settle_reh (s : Stage) (old : Tab Nat) : (s.settle old).reh = s.reh := by obtain ⟨m, l, h⟩ := s.settle_frame old; rw [h]; exact raiseHealth_reh _ _ s
@[simp] theorem Stage.ends_reh (s t : Stage) : (s.ends t).reh = t.reh := by rcases s.ends_cases t with h | ⟨_, _, h⟩ | ⟨_, _, h⟩ <;> rw [h]; exact t.settle_reh _; obtain ⟨m, l, hv⟩ := t.vectors_frame; rw [hv]
theorem raiseHealth_prompt (h l : Tab Nat) : ∀ s : Stage, (raiseHealth h l s).prompt = s.prompt := by induction l with | nil => intros; rfl | cons e l ih => intro s; rw [raiseHealth, List.foldl_cons, ← raiseHealth, ih, Stage.raiseIf_prompt]
@[simp] theorem Stage.settle_prompt (s : Stage) (old : Tab Nat) : (s.settle old).prompt = s.prompt := by obtain ⟨m, l, h⟩ := s.settle_frame old; rw [h]; exact raiseHealth_prompt _ _ s
@[simp] theorem Stage.ends_prompt (s t : Stage) : (s.ends t).prompt = t.prompt := by rcases s.ends_cases t with h | ⟨_, _, h⟩ | ⟨_, _, h⟩ <;> rw [h]; exact t.settle_prompt _; obtain ⟨m, l, hv⟩ := t.vectors_frame; rw [hv]
theorem raiseHealth_tab (h l : Tab Nat) : ∀ s : Stage, (raiseHealth h l s).tab = s.tab := by induction l with | nil => intros; rfl | cons e l ih => intro s; rw [raiseHealth, List.foldl_cons, ← raiseHealth, ih, Stage.raiseIf_tab]
@[simp] theorem Stage.settle_tab (s : Stage) (old : Tab Nat) : (s.settle old).tab = s.tab := by obtain ⟨m, l, h⟩ := s.settle_frame old; rw [h]; exact raiseHealth_tab _ _ s
@[simp] theorem Stage.ends_tab (s t : Stage) : (s.ends t).tab = t.tab := by rcases s.ends_cases t with h | ⟨_, _, h⟩ | ⟨_, _, h⟩ <;> rw [h]; exact t.settle_tab _; obtain ⟨m, l, hv⟩ := t.vectors_frame; rw [hv]
theorem raiseHealth_bench (h l : Tab Nat) : ∀ s : Stage, (raiseHealth h l s).bench = s.bench := by induction l with | nil => intros; rfl | cons e l ih => intro s; rw [raiseHealth, List.foldl_cons, ← raiseHealth, ih, Stage.raiseIf_bench]
@[simp] theorem Stage.settle_bench (s : Stage) (old : Tab Nat) : (s.settle old).bench = s.bench := by obtain ⟨m, l, h⟩ := s.settle_frame old; rw [h]; exact raiseHealth_bench _ _ s
@[simp] theorem Stage.ends_bench (s t : Stage) : (s.ends t).bench = t.bench := by rcases s.ends_cases t with h | ⟨_, _, h⟩ | ⟨_, _, h⟩ <;> rw [h]; exact t.settle_bench _; obtain ⟨m, l, hv⟩ := t.vectors_frame; rw [hv]
theorem raiseHealth_mail (h l : Tab Nat) : ∀ s : Stage, (raiseHealth h l s).mail = s.mail := by induction l with | nil => intros; rfl | cons e l ih => intro s; rw [raiseHealth, List.foldl_cons, ← raiseHealth, ih, Stage.raiseIf_mail]
@[simp] theorem Stage.settle_mail (s : Stage) (old : Tab Nat) : (s.settle old).mail = s.mail := by obtain ⟨m, l, h⟩ := s.settle_frame old; rw [h]; exact raiseHealth_mail _ _ s
@[simp] theorem Stage.ends_mail (s t : Stage) : (s.ends t).mail = t.mail := by rcases s.ends_cases t with h | ⟨_, _, h⟩ | ⟨_, _, h⟩ <;> rw [h]; exact t.settle_mail _; obtain ⟨m, l, hv⟩ := t.vectors_frame; rw [hv]
theorem raiseHealth_sup (h l : Tab Nat) : ∀ s : Stage, (raiseHealth h l s).sup = s.sup := by induction l with | nil => intros; rfl | cons e l ih => intro s; rw [raiseHealth, List.foldl_cons, ← raiseHealth, ih, Stage.raiseIf_sup]
@[simp] theorem Stage.settle_sup (s : Stage) (old : Tab Nat) : (s.settle old).sup = s.sup := by obtain ⟨m, l, h⟩ := s.settle_frame old; rw [h]; exact raiseHealth_sup _ _ s
@[simp] theorem Stage.ends_sup (s t : Stage) : (s.ends t).sup = t.sup := by rcases s.ends_cases t with h | ⟨_, _, h⟩ | ⟨_, _, h⟩ <;> rw [h]; exact t.settle_sup _; obtain ⟨m, l, hv⟩ := t.vectors_frame; rw [hv]
theorem raiseHealth_flash (h l : Tab Nat) : ∀ s : Stage, (raiseHealth h l s).flash = s.flash := by induction l with | nil => intros; rfl | cons e l ih => intro s; rw [raiseHealth, List.foldl_cons, ← raiseHealth, ih, Stage.raiseIf_flash]
@[simp] theorem Stage.settle_flash (s : Stage) (old : Tab Nat) : (s.settle old).flash = s.flash := by obtain ⟨m, l, h⟩ := s.settle_frame old; rw [h]; exact raiseHealth_flash _ _ s
@[simp] theorem Stage.ends_flash (s t : Stage) : (s.ends t).flash = t.flash := by rcases s.ends_cases t with h | ⟨_, _, h⟩ | ⟨_, _, h⟩ <;> rw [h]; exact t.settle_flash _; obtain ⟨m, l, hv⟩ := t.vectors_frame; rw [hv]
theorem raiseHealth_modeReq (h l : Tab Nat) : ∀ s : Stage, (raiseHealth h l s).modeReq = s.modeReq := by induction l with | nil => intros; rfl | cons e l ih => intro s; rw [raiseHealth, List.foldl_cons, ← raiseHealth, ih, Stage.raiseIf_modeReq]
@[simp] theorem Stage.settle_modeReq (s : Stage) (old : Tab Nat) : (s.settle old).modeReq = s.modeReq := by obtain ⟨m, l, h⟩ := s.settle_frame old; rw [h]; exact raiseHealth_modeReq _ _ s
@[simp] theorem Stage.ends_modeReq (s t : Stage) : (s.ends t).modeReq = t.modeReq := by rcases s.ends_cases t with h | ⟨_, _, h⟩ | ⟨_, _, h⟩ <;> rw [h]; exact t.settle_modeReq _; obtain ⟨m, l, hv⟩ := t.vectors_frame; rw [hv]
theorem raiseHealth_lockDue (h l : Tab Nat) : ∀ s : Stage, (raiseHealth h l s).lockDue = s.lockDue := by induction l with | nil => intros; rfl | cons e l ih => intro s; rw [raiseHealth, List.foldl_cons, ← raiseHealth, ih, Stage.raiseIf_lockDue]
@[simp] theorem Stage.settle_lockDue (s : Stage) (old : Tab Nat) : (s.settle old).lockDue = s.lockDue := by obtain ⟨m, l, h⟩ := s.settle_frame old; rw [h]; exact raiseHealth_lockDue _ _ s
@[simp] theorem Stage.ends_lockDue (s t : Stage) : (s.ends t).lockDue = t.lockDue := by rcases s.ends_cases t with h | ⟨_, _, h⟩ | ⟨_, _, h⟩ <;> rw [h]; exact t.settle_lockDue _; obtain ⟨m, l, hv⟩ := t.vectors_frame; rw [hv]
theorem raiseHealth_txn (h l : Tab Nat) : ∀ s : Stage, (raiseHealth h l s).txn = s.txn := by induction l with | nil => intros; rfl | cons e l ih => intro s; rw [raiseHealth, List.foldl_cons, ← raiseHealth, ih, Stage.raiseIf_txn]
@[simp] theorem Stage.settle_txn (s : Stage) (old : Tab Nat) : (s.settle old).txn = s.txn := by obtain ⟨m, l, h⟩ := s.settle_frame old; rw [h]; exact raiseHealth_txn _ _ s
@[simp] theorem Stage.ends_txn (s t : Stage) : (s.ends t).txn = t.txn := by rcases s.ends_cases t with h | ⟨_, _, h⟩ | ⟨_, _, h⟩ <;> rw [h]; exact t.settle_txn _; obtain ⟨m, l, hv⟩ := t.vectors_frame; rw [hv]
theorem raiseHealth_order (h l : Tab Nat) : ∀ s : Stage, (raiseHealth h l s).order = s.order := by induction l with | nil => intros; rfl | cons e l ih => intro s; rw [raiseHealth, List.foldl_cons, ← raiseHealth, ih, Stage.raiseIf_order]
@[simp] theorem Stage.settle_order (s : Stage) (old : Tab Nat) : (s.settle old).order = s.order := by obtain ⟨m, l, h⟩ := s.settle_frame old; rw [h]; exact raiseHealth_order _ _ s
@[simp] theorem Stage.ends_order (s t : Stage) : (s.ends t).order = t.order := by rcases s.ends_cases t with h | ⟨_, _, h⟩ | ⟨_, _, h⟩ <;> rw [h]; exact t.settle_order _; obtain ⟨m, l, hv⟩ := t.vectors_frame; rw [hv]

@[simp] theorem Stage.ends_dieUp (s t : Stage) : (s.ends t).dieUp = t.dieUp := by rw [Stage.dieUp, Stage.ends_sup]; rfl

end Sys2Proof.Machine
end

