-- ==== Sys2Proof/Laws/Exec.lean ====
section
/-!
SUPPORT. The lifts of a command's effect to the machine, their guards, and the record of a command that ends: each says once what it can do.
-/
namespace Sys2Proof.Machine

/-! ### Lifts -/

/-- A command of the Stage die answers a next state with the queue as it is, in every state. -/
theorem State.act_eq (s : State) (f : Stage → Stage) :
    s.act f = .next { s with stage := if s.stage.dieUp then s.stage.ends (f s.stage) else s.stage } := rfl

/-- With the die up a command ends as its effect and what follows from it. -/
theorem State.act_up (s : State) (f : Stage → Stage) (h : s.stage.dieUp = true) : s.act f = .next { s with stage := s.stage.ends (f s.stage) } := by
  rw [State.act_eq, if_pos h]

/-- Without the die it changes nothing. -/
theorem State.act_down (s : State) (f : Stage → Stage) (h : s.stage.dieUp = false) : s.act f = .next s := by
  rw [State.act_eq, if_neg (by rw [h]; exact Bool.false_ne_true)]

/-- A command that is `act f` has a result `P` when the end of `f` has it. -/
theorem done_act {c : Instr} {s : State} {f : Stage → Stage} {P : Stage → Prop} (hc : exec c s = s.act f) (h : s.stage.dieUp = true)
    (hp : P (s.stage.ends (f s.stage))) : Done c s P :=
  ⟨_, hc.trans (s.act_up f h), rfl, hp⟩

/-- A command of the supervisor or the sealed core has a result `P` when the end of `f` has it. -/
theorem done_always {c : Instr} {s : State} {f : Stage → Stage} {P : Stage → Prop} (hc : exec c s = s.always f)
    (hp : P (s.stage.ends (f s.stage))) : Done c s P :=
  ⟨_, hc, rfl, hp⟩

/-! ### Guards -/

theorem Stage.block_live (s : State) (k : PageKind) (i : Nat) (f : Stage → Stage) (h : Live s k i) : s.stage.block k i f = f s.stage := if_pos h.2

theorem Stage.block_cases (s : Stage) (k : PageKind) (i : Nat) (f : Stage → Stage) : s.block k i f = f s ∨ s.block k i f = s := by
  unfold Stage.block
  split
  · exact .inl rfl
  · exact .inr rfl

theorem Stage.netPort_live (s : State) (p : Nat) (f : Stage → Stage) (h : LiveNet s p) : s.stage.netPort p f = f s.stage := by
  unfold Stage.netPort
  rw [Stage.block_live s .net p _ h.1, if_pos h.2]

theorem Stage.message_live (s : State) (n : Nat) (f : Stage → Stage) (h : LiveCtl s n) : s.stage.message n f = f s.stage := by
  unfold Stage.message
  rw [Stage.block_live s .link n _ h.1, if_pos h.2]

/-! ### Completion records -/

/-- A record that enters the ring changes memory and HEAD. -/
theorem Stage.ringWrite_frame (s : Stage) (r : CRec) :
    ∃ m, s.ringWrite r = ({ s with mem := m }).setN 0 0x0C0 ((s.fld 0 0x0C0 10 0 + 1) % 2048) := by
  obtain ⟨m, h⟩ := Stage.wrBytes_frame ((r.words (1 - s.fld 0 0x0C0 10 0 / 1024)).flatMap (leBytes 4)) s (ringBase + 32 * (s.fld 0 0x0C0 10 0 % 1024))
  exact ⟨m, congrArg (fun x : Stage => x.setN 0 0x0C0 ((s.fld 0 0x0C0 10 0 + 1) % 2048)) h⟩

/-- A record put changes at most HEAD and the events of SYS among the registers, memory and the records that wait. -/
theorem Stage.putRecord_frame (s : Stage) (r : CRec) :
    ∃ t m l h, s.putRecord r = { s with regs := t, mem := m, recStore := l, recHeld := h } := by
  unfold Stage.putRecord
  split
  · obtain ⟨m, h⟩ := s.ringWrite_frame r
    exact ⟨_, _, _, _, h⟩
  · dsimp only
    split
    · exact ⟨_, _, _, _, rfl⟩
    · exact ⟨_, _, _, _, rfl⟩

/-- A command that completes changes no more than that. -/
theorem Stage.complete_frame (s : Stage) (p : Nat) (c : Cmd) (st : Nat) (w : Word) :
    ∃ t m l h, s.complete p c st w = { s with regs := t, mem := m, recStore := l, recHeld := h } := s.putRecord_frame _

end Sys2Proof.Machine
end

