-- ==== Sys2Proof/WellFormed.lean ====
section
/-!
DEFINITION. Which operands a command may carry: a master of R536, a register word, an address of the Grid, a page of the map,
the index of a block that the part has, and slots whose every field lies in its width. A command out of these bounds still has the
meaning its definition gives it; the bounds say which commands the part can be sent.
-/
namespace Sys2Proof
open Sys2Proof.Machine

/-- An index below `n`. -/
def isBelow (n k : Nat) : Bool := decide (k < n)

/-- A value of a register: 32 bits (R6). -/
def isWord (v : Nat) : Bool := decide (v < 2 ^ 32)

/-- An address of the Grid: 36 bits (R536). -/
def isAddr (a : Nat) : Bool := decide (a < 2 ^ 36)

/-- A page of the page table (R548). -/
def isPage (p : Nat) : Bool := (pageOf p).isSome

/-- The bytes of a transaction: at most 16 beats of 32 (R537). -/
def isBurst (n : Nat) : Bool := decide (1 ≤ n ∧ n ≤ 512)

/-- The masters of each class, as the model numbers them: MGMT the core and, from 0 again, the plane loaders; PORTS the ports, the decimators
and the bridges (R536). -/
def masterCount (cls : Nat) : Nat :=
  match cls with
  | 0 => 64 | 4 => 8 | 5 => 4 | 6 => 34 | 7 => 64
  | _ => 1

/-- A master that the part has (R536). -/
def Master.wf (m : Master) : Bool := decide (m.cls < 8) && decide (m.idx < masterCount m.cls)

/-- The fields of a PTP message lie in their widths (R264). -/
def PtpMsg.wf (g : PtpMsg) : Bool :=
  decide (g.domain < 256) && decide (g.sdo < 4096) && decide (g.seq < 65536) && decide (g.sec < 2 ^ 48) && decide (g.ns < 1000000000)

/-- The operands of a command lie in their bounds. -/
def Instr.wf : Instr → Bool
  | .sampleBoundary _ _ _ active => isBelow 4 active
  | .levelWindow => true
  | .emergSettleEnd => true
  | .downstepBarEnd => true
  | .avsFrameResponse _ v => isBelow 65536 v
  | .regAlert => true
  | .vcoreReadback => true
  | .lvlCfgWrite m v => m.wf && isWord v
  | .vcoreLimitsWrite m v => m.wf && isWord v
  | .vcoreStartWrite m v => m.wf && isWord v
  | .engineRateWrite m v => m.wf && isWord v
  | .sampleIndexLoRead m => m.wf
  | .gridWrite m id addr data _ _ => m.wf && isBelow 64 id && isAddr addr && isBurst data.length
  | .gridRead m id addr len _ => m.wf && isBelow 64 id && isAddr addr && isBurst len
  | .gatherWrite k => isBelow 64 k
  | .scatterWrite k _ => isBelow 64 k
  | .farComplete k j => isBelow 64 k && isBelow 4 j
  | .interruptEntry k => isBelow 64 k
  | .illegalEncoding k w => isBelow 64 k && isBelow (2 ^ 128) w
  | .nop k _ pred o => isBelow 64 k && predLegal pred && o.legal
  | .mac k _ slot o => isBelow 64 k && ({ slot with op := .mac } : MSlot).legal && o.legal
  | .msu k _ slot o => isBelow 64 k && ({ slot with op := .msu } : MSlot).legal && o.legal
  | .mpy k _ slot o => isBelow 64 k && ({ slot with op := .mpy } : MSlot).legal && o.legal
  | .mpyn k _ slot o => isBelow 64 k && ({ slot with op := .mpyn } : MSlot).legal && o.legal
  | .ld k _ slot o => isBelow 64 k && slot.legal && slot.lm != 0 && o.legal
  | .add k pred dd da db o => isBelow 64 k && (⟨pred, .add dd da db⟩ : ASlot).legal && o.legal
  | .sub k pred dd da db o => isBelow 64 k && (⟨pred, .sub dd da db⟩ : ASlot).legal && o.legal
  | .adds k pred dd da db o => isBelow 64 k && (⟨pred, .adds dd da db⟩ : ASlot).legal && o.legal
  | .subs k pred dd da db o => isBelow 64 k && (⟨pred, .subs dd da db⟩ : ASlot).legal && o.legal
  | .and k pred dd da db o => isBelow 64 k && (⟨pred, .and dd da db⟩ : ASlot).legal && o.legal
  | .or k pred dd da db o => isBelow 64 k && (⟨pred, .or dd da db⟩ : ASlot).legal && o.legal
  | .xor k pred dd da db o => isBelow 64 k && (⟨pred, .xor dd da db⟩ : ASlot).legal && o.legal
  | .not k pred dd da o => isBelow 64 k && (⟨pred, .not dd da⟩ : ASlot).legal && o.legal
  | .neg k pred dd da o => isBelow 64 k && (⟨pred, .neg dd da⟩ : ASlot).legal && o.legal
  | .abs k pred dd da o => isBelow 64 k && (⟨pred, .abs dd da⟩ : ASlot).legal && o.legal
  | .min k pred dd da db o => isBelow 64 k && (⟨pred, .min dd da db⟩ : ASlot).legal && o.legal
  | .max k pred dd da db o => isBelow 64 k && (⟨pred, .max dd da db⟩ : ASlot).legal && o.legal
  | .mov k pred dd da o => isBelow 64 k && (⟨pred, .mov dd da⟩ : ASlot).legal && o.legal
  | .shv k pred dd da db o => isBelow 64 k && (⟨pred, .shv dd da db⟩ : ASlot).legal && o.legal
  | .addi k pred dd da imm o => isBelow 64 k && (⟨pred, .addi dd da imm⟩ : ASlot).legal && o.legal
  | .shli k pred dd da n o => isBelow 64 k && (⟨pred, .shli dd da n⟩ : ASlot).legal && o.legal
  | .shri k pred dd da n o => isBelow 64 k && (⟨pred, .shri dd da n⟩ : ASlot).legal && o.legal
  | .srai k pred dd da n o => isBelow 64 k && (⟨pred, .srai dd da n⟩ : ASlot).legal && o.legal
  | .shlsi k pred dd da n o => isBelow 64 k && (⟨pred, .shlsi dd da n⟩ : ASlot).legal && o.legal
  | .extr k pred aca dd s6 o => isBelow 64 k && (⟨pred, .extr aca dd s6⟩ : ASlot).legal && o.legal
  | .norm k pred aca dd o => isBelow 64 k && (⟨pred, .norm aca dd⟩ : ASlot).legal && o.legal
  | .expa k pred aca dd o => isBelow 64 k && (⟨pred, .expa aca dd⟩ : ASlot).legal && o.legal
  | .expd k pred da dd o => isBelow 64 k && (⟨pred, .expd da dd⟩ : ASlot).legal && o.legal
  | .aclr k pred acd o => isBelow 64 k && (⟨pred, .aclr acd⟩ : ASlot).legal && o.legal
  | .amov k pred acd aca o => isBelow 64 k && (⟨pred, .amov acd aca⟩ : ASlot).legal && o.legal
  | .aadd k pred acd aca o => isBelow 64 k && (⟨pred, .aadd acd aca⟩ : ASlot).legal && o.legal
  | .asub k pred acd aca o => isBelow 64 k && (⟨pred, .asub acd aca⟩ : ASlot).legal && o.legal
  | .aneg k pred acd aca o => isBelow 64 k && (⟨pred, .aneg acd aca⟩ : ASlot).legal && o.legal
  | .ashi k pred acd aca s6 o => isBelow 64 k && (⟨pred, .ashi acd aca s6⟩ : ASlot).legal && o.legal
  | .ashd k pred acd aca da o => isBelow 64 k && (⟨pred, .ashd acd aca da⟩ : ASlot).legal && o.legal
  | .dtoa k pred acd da s6 o => isBelow 64 k && (⟨pred, .dtoa acd da s6⟩ : ASlot).legal && o.legal
  | .ard k pred aca dd part o => isBelow 64 k && (⟨pred, .ard aca dd part⟩ : ASlot).legal && o.legal
  | .awr k pred acd da part o => isBelow 64 k && (⟨pred, .awr acd da part⟩ : ASlot).legal && o.legal
  | .cmpeq k pred fk da db o => isBelow 64 k && (⟨pred, .cmpeq fk da db⟩ : ASlot).legal && o.legal
  | .cmplt k pred fk da db o => isBelow 64 k && (⟨pred, .cmplt fk da db⟩ : ASlot).legal && o.legal
  | .cmple k pred fk da db o => isBelow 64 k && (⟨pred, .cmple fk da db⟩ : ASlot).legal && o.legal
  | .cmpltu k pred fk da db o => isBelow 64 k && (⟨pred, .cmpltu fk da db⟩ : ASlot).legal && o.legal
  | .cmpeqi k pred fk da imm o => isBelow 64 k && (⟨pred, .cmpeqi fk da imm⟩ : ASlot).legal && o.legal
  | .cmplti k pred fk da imm o => isBelow 64 k && (⟨pred, .cmplti fk da imm⟩ : ASlot).legal && o.legal
  | .cmpgti k pred fk da imm o => isBelow 64 k && (⟨pred, .cmpgti fk da imm⟩ : ASlot).legal && o.legal
  | .btst k pred fk da n o => isBelow 64 k && (⟨pred, .btst fk da n⟩ : ASlot).legal && o.legal
  | .atstn k pred fk aca o => isBelow 64 k && (⟨pred, .atstn fk aca⟩ : ASlot).legal && o.legal
  | .atstz k pred fk aca o => isBelow 64 k && (⟨pred, .atstz fk aca⟩ : ASlot).legal && o.legal
  | .fop k pred fk fa fb tt o => isBelow 64 k && (⟨pred, .fop fk fa fb tt⟩ : ASlot).legal && o.legal
  | .ldc k pred dr p am imm o => isBelow 64 k && (⟨pred, .ldc dr p am imm⟩ : TSlot).legal && o.legal
  | .stx k pred dr p am imm o => isBelow 64 k && (⟨pred, .stx dr p am imm⟩ : TSlot).legal && o.legal
  | .sty k pred dr p am imm o => isBelow 64 k && (⟨pred, .sty dr p am imm⟩ : TSlot).legal && o.legal
  | .stc k pred dr p am imm o => isBelow 64 k && (⟨pred, .stc dr p am imm⟩ : TSlot).legal && o.legal
  | .modp k pred p am imm o => isBelow 64 k && (⟨pred, .modp p am imm⟩ : TSlot).legal && o.legal
  | .far k pred p am imm o => isBelow 64 k && (⟨pred, .far p am imm⟩ : TSlot).legal && o.legal
  | .movi k pred dd imm o => isBelow 64 k && (⟨pred, .movi dd imm⟩ : TSlot).legal && o.legal
  | .movhi k pred dd imm o => isBelow 64 k && (⟨pred, .movhi dd imm⟩ : TSlot).legal && o.legal
  | .movs k pred sreg d o => isBelow 64 k && (⟨pred, .movs sreg d⟩ : TSlot).legal && o.legal
  | .movr k pred sreg d o => isBelow 64 k && (⟨pred, .movr sreg d⟩ : TSlot).legal && o.legal
  | .movsi k pred sreg imm o => isBelow 64 k && (⟨pred, .movsi sreg imm⟩ : TSlot).legal && o.legal
  | .br k pred target o => isBelow 64 k && (⟨pred, .br target⟩ : TSlot).legal && o.legal
  | .call k pred target o => isBelow 64 k && (⟨pred, .call target⟩ : TSlot).legal && o.legal
  | .ret k pred o => isBelow 64 k && (⟨pred, .ret⟩ : TSlot).legal && o.legal
  | .loop k pred rot stop count o => isBelow 64 k && (⟨pred, .loop rot stop count⟩ : TSlot).legal && o.legal
  | .loopd k pred rot stop d o => isBelow 64 k && (⟨pred, .loopd rot stop d⟩ : TSlot).legal && o.legal
  | .lexit k pred target o => isBelow 64 k && (⟨pred, .lexit target⟩ : TSlot).legal && o.legal
  | .iret k pred o => isBelow 64 k && (⟨pred, .iret⟩ : TSlot).legal && o.legal
  | .sdone k pred o => isBelow 64 k && (⟨pred, .sdone⟩ : TSlot).legal && o.legal
  | .swait k pred j o => isBelow 64 k && (⟨pred, .swait j⟩ : TSlot).legal && o.legal
  | .fwait k pred n o => isBelow 64 k && (⟨pred, .fwait n⟩ : TSlot).legal && o.legal
  | .mbrd k pred d o => isBelow 64 k && (⟨pred, .mbrd d⟩ : TSlot).legal && o.legal
  | .mbwr k pred d o => isBelow 64 k && (⟨pred, .mbwr d⟩ : TSlot).legal && o.legal
  | .mboxInWrite m k v => m.wf && isBelow 64 k && isWord v
  | .breakNow m k v => m.wf && isBelow 64 k && isWord v
  | .bankCtrlSwap m k => m.wf && isBelow 64 k
  | .battenSumWrite k _ _ => isBelow 64 k
  | .rehCtrlWrite m k v => m.wf && isBelow 64 k && isWord v
  | .swap m k curve time => m.wf && isBelow 64 k && isBelow 4 curve && isBelow (2 ^ 19) time
  | .hold m k => m.wf && isBelow 64 k
  | .release m k => m.wf && isBelow 64 k
  | .reverse m k => m.wf && isBelow 64 k
  | .cancelQueued m k => m.wf && isBelow 64 k
  | .rampReqLoWrite m k v => m.wf && isBelow 64 k && isWord v
  | .rampReqHiWrite m k v => m.wf && isBelow 64 k && isWord v
  | .loadPlane m k a0 a1 => m.wf && isBelow 64 k && isWord a0 && isWord a1
  | .loadPlaneComplete k => isBelow 64 k
  | .queuedCommandStart p => isPage p
  | .cmdUnknown m p code => m.wf && isPage p && isBelow 256 code
  | .loadGraph m a0 a1 => m.wf && isWord a0 && isWord a1
  | .graphCommit m a0 a1 a2 => m.wf && isWord a0 && isWord a1 && isWord a2
  | .discard m a0 => m.wf && isWord a0
  | .commitCopyDone => true
  | .inRouteWrite m v => m.wf && isWord v
  | .outRouteWrite m v => m.wf && isWord v
  | .toneCfgWrite m v => m.wf && isWord v
  | .interpWrite m j v => m.wf && isBelow 3 j && isWord v
  | .fastCfgWrite m v => m.wf && isWord v
  | .ctrlEnableWrite m p _ => m.wf && isPage p
  | .brCfgWrite m b v => m.wf && isBelow 8 b && isWord v
  | .bridgeMapWrite m b _ v => m.wf && isBelow 8 b && isWord v
  | .bridgeEdgeGap b => isBelow 8 b
  | .bridgeEdgesPresent b => isBelow 8 b
  | .bridgeWindow b _ => isBelow 8 b
  | .bridgeRatioUpdate b _ _ _ => isBelow 8 b
  | .bridgeFadeEnd b => isBelow 8 b
  | .pllLock => true
  | .refFault => true
  | .refRecover => true
  | .nowFracRead m _ => m.wf
  | .step m => m.wf
  | .stepApply => true
  | .slewPlanEnd => true
  | .holdTimeoutExpiry _ => true
  | .datumCtrlWrite m v => m.wf && isWord v
  | .servoOffsetInHiWrite m v => m.wf && isWord v
  | .asymmetryWrite m p _ v => m.wf && isPage p && isWord v
  | .tpCtrlWrite m p v => m.wf && isPage p && isWord v
  | .syncRx p _ msg => isPage p && msg.wf
  | .followUpRx p msg => isPage p && msg.wf
  | .delayReqRx p _ msg => isPage p && msg.wf
  | .delayRespRx p msg => isPage p && msg.wf
  | .pdelayReqRx p _ _ msg => isPage p && msg.wf
  | .pdelayRespRx p _ msg => isPage p && msg.wf
  | .pdelayRespFollowUpRx p msg => isPage p && msg.wf
  | .ptpSyncSend p _ => isPage p
  | .ptpDelayReqSend p _ => isPage p
  | .ppsEdge _ _ => true
  | .ppsLost => true
  | .clk10mGate _ _ => true
  | .clk10mLost => true
  | .ppsOutPulse => true
  | .go m a0 => m.wf && isWord a0
  | .goAt m a0 a1 a2 => m.wf && isWord a0 && isWord a1 && isWord a2
  | .cancel m a0 => m.wf && isWord a0
  | .cancelAll m => m.wf
  | .cueGoEdge _ _ => true
  | .standbyWrite m v => m.wf && isWord v
  | .actionGraphCommit => true
  | .tableauInEdge _ _ => true
  | .trigger m a0 a1 a2 => m.wf && isWord a0 && isWord a1 && isWord a2
  | .tableauTimedCapture _ => true
  | .tableauExtDone => true
  | .tableauAck m => m.wf
  | .cgCfgWrite m g _ v => m.wf && isBelow 8 g && isWord v
  | .mclkCfgWrite m n v => m.wf && isBelow 4 n && isWord v
  | .portCfgWrite m p v => m.wf && isBelow 32 p && isWord v
  | .fsyncEdge p _ _ _ _ => isBelow 32 p
  | .frameWindowEnd p _ _ _ => isBelow 32 p
  | .clkLost g _ => isBelow 8 g
  | .portRampEnd p _ _ => isBelow 32 p
  | .portFadeEnd p _ _ => isBelow 32 p
  | .maskCommit m p => m.wf && isBelow 32 p
  | .blkFracRead m p => m.wf && isBelow 32 p
  | .decConfigWrite m j v => m.wf && isBelow 4 j && isWord v
  | .decGcWrite m j v => m.wf && isBelow 4 j && isWord v
  | .pdmClkCfgWrite m k v => m.wf && isBelow 4 k && isWord v
  | .sync m a0 a1 a2 => m.wf && isWord a0 && isWord a1 && isWord a2
  | .syncInstant _ => true
  | .laneCfgWrite m i v => m.wf && isBelow 24 i && isWord v
  | .retrain m i => m.wf && isBelow 24 i
  | .ts1Rx i peer _ => isBelow 24 i && isBelow 256 peer
  | .ts2Rx i peer rate => isBelow 24 i && isBelow 256 peer && isBelow 256 rate
  | .seekAttemptEnd i => isBelow 24 i
  | .seekWaitEnd i => isBelow 24 i
  | .trainTimeout i => isBelow 24 i
  | .rateChangeTimeout i => isBelow 24 i
  | .deskewDone n _ => isBelow 4 n
  | .losDetect i => isBelow 24 i
  | .losClear i => isBelow 24 i
  | .lolDetect i _ => isBelow 24 i
  | .eiosRx i => isBelow 24 i
  | .idleExitDetect i => isBelow 24 i
  | .idleTimeout i => isBelow 24 i
  | .ftbEnd i pairs => isBelow 24 i && isBelow 129 pairs
  | .loopbackTestEnd i _ => isBelow 24 i
  | .linkCfgWrite m n v => m.wf && isBelow 4 n && isWord v
  | .linkCtrlWrite m n v => m.wf && isBelow 4 n && isWord v
  | .audioBlockSend n _ => isBelow 4 n
  | .audioFrameRx n lanes g c b idx _ _ _ _ _ => isBelow 4 n && isBelow 16 lanes && isBelow 64 g && isBelow 65 c && isBelow 65 b && isWord idx
  | .groupRampEnd n g => isBelow 4 n && isBelow 64 g
  | .groupFadeEnd n g => isBelow 4 n && isBelow 64 g
  | .controlFrameRx n lanes seq ack _ _ _ => isBelow 4 n && isBelow 16 lanes && isBelow 256 seq && isBelow 256 ack
  | .ackOnlyTimer n => isBelow 4 n
  | .retxTimeout n => isBelow 4 n
  | .forwardWrite n b who addr _ => isBelow 4 n && isBelow (2 ^ 64) b && isBelow 256 who && isAddr addr
  | .forwardWriteBytes n b who addr mask _ => isBelow 4 n && isBelow (2 ^ 64) b && isBelow 256 who && isAddr addr && isBelow 16 mask
  | .forwardRamp n b bat _ hi => isBelow 4 n && isBelow (2 ^ 64) b && isBelow 64 bat && isWord hi
  | .forwardTrigger n b cue standby => isBelow 4 n && isBelow (2 ^ 64) b && isWord cue && isWord standby
  | .forwardCancel n b cue => isBelow 4 n && isBelow (2 ^ 64) b && isWord cue
  | .forwardStandby n v => isBelow 4 n && isWord v
  | .forwardCommit n b id crc => isBelow 4 n && isBelow (2 ^ 64) b && isBelow (2 ^ 64) id && isWord crc
  | .forwardPlaneReady n b bat => isBelow 4 n && isBelow (2 ^ 64) b && isBelow 64 bat
  | .forwardDsync n mask _ => isBelow 4 n && isWord mask
  | .forwardSelected n b who addr sel _ => isBelow 4 n && isBelow (2 ^ 64) b && isBelow 256 who && isAddr addr && isWord sel
  | .abdicate n t cause => isBelow 4 n && isBelow (2 ^ 64) t && isBelow 16 cause
  | .hello n cfg primary rank version graphId => isBelow 4 n && isBelow 256 cfg && isBelow 2 primary && isBelow 4 rank && isWord version && isBelow (2 ^ 64) graphId
  | .request n => isBelow 4 n
  | .start n h => isBelow 4 n && isBelow (2 ^ 64) h
  | .region n r addr _ => isBelow 4 n && isBelow (2 ^ 64) r && isAddr addr
  | .copyDone n count => isBelow 4 n && isWord count
  | .joined n j => isBelow 4 n && isBelow (2 ^ 64) j
  | .refuse n reason => isBelow 4 n && isBelow 256 reason
  | .mirrorGo n cue b => isBelow 4 n && isWord cue && isBelow (2 ^ 64) b
  | .tableauMessage n _ => isBelow 4 n
  | .mailbox n _ => isBelow 4 n
  | .timeFrameSend n _ => isBelow 4 n
  | .timeFrameRx n _ _ _ _ => isBelow 4 n
  | .markerRx n _ residual b => isBelow 4 n && isBelow 65536 residual && isBelow (2 ^ 64) b
  | .heartbeatRx n lanes _ role ack idx health => isBelow 4 n && isBelow 16 lanes && isBelow 256 role && isBelow 256 ack && isBelow (2 ^ 64) idx && isWord health
  | .hbTimeoutExpiry n => isBelow 4 n
  | .netLinkChange p _ _ _ speed => isBelow 8 p && isBelow 4 speed
  | .netFrameRx p _ => isBelow 8 p
  | .mgmtFrameSend p _ => isBelow 8 p
  | .streamAdd m a0 a1 => m.wf && isWord a0 && isWord a1
  | .streamRemove m a0 => m.wf && isWord a0
  | .talkerPacketSend c _ => isBelow 256 c
  | .listenerPacketRx p _ => isBelow 8 p
  | .controlDatagramRx p _ => isBelow 8 p
  | .cdgGo => true
  | .cdgGoAt => true
  | .cdgWrite => true
  | .cdgRead => true
  | .cdgMailbox => true
  | .roleCfgWrite m v => m.wf && isWord v
  | .electionTimeout => true
  | .sdPendingClear m v => m.wf && isWord v
  | .handover m => m.wf
  | .join m => m.wf
  | .catchWarmEnd => true
  | .catchMatchTimeout => true
  | .loanWrite m i v => m.wf && isBelow 8 i && isWord v
  | .rehCfgWrite m v => m.wf && isWord v
  | .bankBorrow b _ => isBelow 256 b
  | .marchBlockDone b _ => isBelow 256 b
  | .bankRecall b => isBelow 256 b
  | .recallComplete b _ => isBelow 256 b
  | .scrubRead _ addr page _ _ => isAddr addr && isPage page
  | .scrubPeriodEnd => true
  | .selftestSegmentDone k g _ => isBelow 64 k && isBelow 64 g
  | .healthReport _ => true
  | .reportWriteComplete _ => true
  | .clearFail m => m.wf
  | .ownerWrite m off v => m.wf && isBelow 4096 off && isWord v
  | .handoverComplete bank _ => isBelow 256 bank
  | .eccInjectWrite m v => m.wf && isWord v
  | .eccLastHiRead m => m.wf
  | .gridLockSet m => m.wf
  | .gridTimeout m id => m.wf && isBelow 64 id
  | .masterReset m => m.wf
  | .lastErrLoRead m => m.wf
  | .fuseRead _ _ => true
  | .keyStoreWrite slot _ => isBelow 8 slot
  | .levelDirectCommand code => isBelow 128 code
  | .softReset m p => m.wf && isPage p
  | .eventForceWrite m p v => m.wf && isPage p && isWord v
  | .ringTailWrite m v => m.wf && isWord v
  | .pcieConfigRequest _ => true
  | .pcieInboundRequest _ id _ _ len => isBelow 256 id && isBelow 4097 len
  | .pcieLinkUp speed width => isBelow 16 speed && isBelow 64 width
  | .pcieLinkDown => true
  | .restoreFactory m a0 => m.wf && isWord a0
  | .fwLoad m a0 a1 a2 => m.wf && isWord a0 && isWord a1 && isWord a2
  | .fwRestart m a0 => m.wf && isWord a0
  | .fwReady m => m.wf
  | .fwRestartTimeout => true
  | .calSaveUser m => m.wf
  | .calSaveFactory m => m.wf
  | .benchCoreStart crc => isWord crc
  | .benchPeriodEnd _ overload fault _ => isBelow 16 overload && isBelow 16 fault
  | .benchMinuteEnd _ => true
  | .benchIntegrityCheck crc => isWord crc
  | .benchRecord _ _ => true
  | .benchSilent => true
  | .rec0Read m => m.wf
  | .readLog m a0 a1 => m.wf && isWord a0 && isWord a1
  | .readId m => m.wf
  | .calChallenge m => m.wf
  | .calEnter m => m.wf
  | .calMeasure m a0 => m.wf && isWord a0
  | .calMeasureComplete _ _ => true
  | .calSettings m a0 a1 a2 => m.wf && isWord a0 && isWord a1 && isWord a2
  | .calSetRtc m a0 => m.wf && isWord a0
  | .calCommit m => m.wf
  | .calExit m => m.wf
  | .calAutoExit _ => true
  | .nonceExpiry => true
  | .calLockoutEnd => true
  | .uartId => true
  | .uartNow => true
  | .uartLog _ _ => true
  | .uartErr => true
  | .govCtrlWrite m v => m.wf && isWord v
  | .vinRise => true
  | .vinFall => true
  | .vinOvervoltage => true
  | .keepAliveLoss => true
  | .pgRise i => isBelow 6 i
  | .pgTimeout i => isBelow 6 i
  | .pgDrop i => isBelow 6 i
  | .vauxOverload => true
  | .thermalShutdown => true
  | .railRetry => true
  | .rtcWake => true
  | .resetNAssert => true
  | .resetNRelease => true
  | .bootRomStart _ cfg bootsel _ version => isBelow 4 cfg && isBelow 8 bootsel && isBelow (2 ^ 24) version
  | .tempSample _ => true
  | .vinMeasure _ => true
  | .pdCtrlWrite m v => m.wf && isWord v
  | .domainOn d => isBelow 12 d
  | .setMode m a0 => m.wf && isWord a0
  | .wdogKick m v => m.wf && isWord v
  | .watchdogTimeout => true
  | .idleExitRequest n => isBelow 4 n
  | .powerDownPgFall i => isBelow 6 i
  | .railSequenceDelay => true
  | .overVoltageRecovery => true
  | .sgmiiSpeedChange p speed => isBelow 8 p && isBelow 4 speed

end Sys2Proof
end

