-- ==== Sys2Proof/Tests/Slice0.lean ====
section
/-!
SUPPORT. Small tests of one step each, and for every obligation states and operands that meet its hypotheses.
-/
namespace Sys2Proof.Tests
set_option Elab.async false
open Sys2Proof Sys2Proof.Machine

/-- The part after reset with every power domain on. -/
def lit : Stage := ({} : Stage).setN 0x2D0 0x090 0xFFFF

/-- A state of that part with nothing waiting. -/
def on (s : Stage) : State := { stage := s }

/-! ### Strip processors -/

/-- SP 0 in state `x`. -/
def spWith (x : SpSt) : State := on (lit.putSp 0 x)

/-- A processor that runs its sample's code, with D1 = -1, D2 = 5 and the largest and smallest D3 and D4, and AC1 at its largest. -/
def sp0 : SpSt :=
  { run := .running, d := [(1, -1#32), (2, 5#32), (3, 0x7FFFFFFF#32), (4, 0x80000000#32)], ac := [(1, 2 ^ 71 - 1)], sr := [(rSPMODE, 3)] }

def aRuns (l : List AOp) : Prop := ∀ op ∈ l, Runs (spWith sp0) 0 (({} : Bundle).withA 0 op) 0
def tRuns (l : List TOp) : Prop := ∀ op ∈ l, Runs (spWith sp0) 0 (({} : Bundle).withT 0 op) 0

theorem witness_ModularResults :
    aRuns [.add 0 1 2, .sub 31 3 4, .and 15 1 2, .or 16 1 2, .xor 0 1 1, .not 0 4, .min 0 3 4, .max 0 3 4, .mov 1 1, .addi 1 3 0xFFF,
      .shli 0 1 31, .shri 0 1 31, .srai 0 4 31, .ard 1 0 2] := by
  dsimp only [aRuns, Runs, Issues, Flows, Live]; decide +kernel

theorem witness_ExpAndNorm :
    aRuns [.expa 1 0, .expd 1 0, .norm 0 1] ∧ InRange 72 (2 ^ 71 - 1) ∧ InRange 72 (-(2 ^ 71)) ∧ InRange 32 (2 ^ 31 - 1) ∧ InRange 32 (-1)
      ∧ expOf 72 1 < 72 - 1 ∧ 0 < expOf 32 1 := by
  dsimp only [aRuns, Runs, Issues, Flows, Live, InRange]; and_intros <;> decide +kernel

theorem witness_SaturatingResults :
    aRuns [.adds 0 3 3, .subs 0 4 3, .neg 0 4, .abs 0 4, .shv 0 3 2, .shv 0 3 0, .shv 0 3 1, .shlsi 0 3 31, .extr 1 0 31]
      ∧ ((spWith sp0).atIssue 0).dInt 2 = (5 : Nat) ∧ ((spWith sp0).atIssue 0).dInt 1 = -((1 : Nat) : Int)
      ∧ ((spWith sp0).atIssue 0).rnd = true ∧ ((spWith { sp0 with sr := [(rSPMODE, 0)] }).atIssue 0).rnd = false
      ∧ Runs (spWith { sp0 with sr := [(rSPMODE, 0)] }) 0 (({} : Bundle).withA 0 (.extr 1 0 32)) 0 := by
  dsimp only [aRuns, Runs, Issues, Flows, Live]; and_intros <;> decide +kernel

theorem witness_AccumulatorResults :
    aRuns [.aclr 3, .amov 0 1, .aadd 1 1, .asub 0 1, .aneg 0 1, .ashi 0 1 31, .ashi 0 1 32, .ashd 0 1 1, .ashd 0 1 2, .dtoa 0 3 31, .awr 1 1 2]
      ∧ ((spWith sp0).atIssue 0).acs = true ∧ ((spWith { sp0 with sr := [(rSPMODE, 0)] }).atIssue 0).acs = false
      ∧ Runs (spWith { sp0 with sr := [(rSPMODE, 0)] }) 0 (({} : Bundle).withA 0 (.aadd 1 1)) 0
      ∧ ¬ InRange 72 (((spWith sp0).atIssue 0).acc 1 + ((spWith sp0).atIssue 0).acc 1)
      ∧ ((spWith sp0).atIssue 0).dInt 2 = (5 : Nat) ∧ ((spWith sp0).atIssue 0).dInt 1 = -((1 : Nat) : Int) := by
  dsimp only [aRuns, Runs, Issues, Flows, Live, InRange]; and_intros <;> decide +kernel

theorem witness_FlagResults :
    aRuns [.cmpeq 3 1 2, .cmplt 0 3 4, .cmple 0 3 4, .cmpltu 0 3 4, .cmpeqi 0 1 0xFFF, .cmplti 0 1 0x800, .cmpgti 0 1 0x7FF, .btst 0 4 31,
      .atstn 0 1, .atstz 0 1, .fop 0 3 1 15] := by
  dsimp only [aRuns, Runs, Issues, Flows, Live]; decide +kernel

def mRuns (l : List (Bool × MSlot)) : Prop := ∀ m ∈ l, Runs (spWith sp0) 0 (({} : Bundle).withM m.1 m.2) m.2.pred

/-- A sum of AC1 on its way from the first slot of the bundle before, and a processor that issues its second bundle. -/
def chained : SpSt :=
  { sp0 with iss := 1, pend := [{ due := 2, rank := 0, iss := 0, dest := .ac 1, val := 7 }, { due := 2, rank := 1, iss := 0, dest := .ac 1, val := 8 }] }

theorem witness_MultiplySlots :
    mRuns [(false, { op := .mac, sa := 3, sb := 4, fs := true, acc := 1 }), (true, { op := .mac }), (false, { op := .msu }), (true, { op := .msu }),
      (false, { op := .mpy, sa := 1, sb := 2 }), (true, { op := .mpyn }), (false, { lm := 1 }), (true, { lm := 2, lp := 7 }), (true, { lm := 3, ld := 31 })]
      ∧ (∀ e ∈ sp0.pend, ¬ (e.dest = .ac 1 ∧ e.rank < 2 ∧ e.iss + 1 = sp0.iss))
      ∧ (∃ l ∈ chained.pend, l.dest = .ac 1 ∧ l.rank < 2 ∧ l.iss + 1 = chained.iss
        ∧ ∀ e ∈ chained.pend, e.dest = .ac 1 → e.rank < 2 → e.iss + 1 = chained.iss → e = l ∨ e.rank < l.rank) := by
  dsimp only [mRuns, Runs, Issues, Flows, Live]; and_intros <;> decide +kernel

/-- A legal descriptor of one word to SP 0's X memory at Y word 8, where P3 points. -/
def farReady : State := on (((lit.putSp 0 { sp0 with sr := [(3, 8), (rSPMODE, 3)] }).wr32 (wordAddr 0 .y 8) 0x10000000#32).wr32 (wordAddr 0 .y 11) 1#32)

theorem witness_StoresAndPointers :
    tRuns [.stx 1 0 0 0, .stx 1 0 3 0x7FF, .sty 2 1 1 0, .stc 3 7 2 1, .ldc 31 0 0 0, .modp 0 2 0x400, .far 0 0 0]
      ∧ (spWith sp0).stage.lost (wordAddr 0 .x 0) = false ∧ (spWith sp0).stage.lost (wordAddr 0 .y 0) = false
      ∧ (spWith sp0).stage.lost (wordAddr 0 .c 0) = false ∧ (spWith sp0).stage.farDesc 0 0 = none
      ∧ Runs farReady 0 (({} : Bundle).withT 0 (.far 3 0 0)) 0 ∧ (farReady.stage.farDesc 0 ((farReady.atIssue 0).tmAddr 3 0 0)).isSome = true := by
  dsimp only [tRuns, Runs, Issues, Flows, Live]; and_intros <;> decide +kernel

theorem witness_Moves :
    tRuns [.movi 0 0x10000, .movhi 31 0xFFFF, .movr 0x10 0, .movr 0x1B 0, .movr 0x20 0, .movs 0 1, .movs rFLAGS 2, .movsi 0x10 0x4000,
      .movsi 0x20 1, .movsi rFLAGS 15, .mbrd 0, .mbwr 1] ∧ 0 ≠ rFLAGS ∧ 0x10 ≠ rFLAGS ∧ 0x20 ≠ rFLAGS := by
  dsimp only [tRuns, Runs, Issues, Flows, Live]; and_intros <;> decide +kernel

/-- Two results that meet in D18 under RRB = 0, and a flag result alone. -/
def meeting : SpSt :=
  { pend := [{ due := 1, rank := 2, iss := 0, dest := .d 18, val := 1 }, { due := 1, rank := 0, iss := 0, dest := .d 18, val := 2 },
      { due := 1, rank := 2, iss := 0, dest := .flag 3, val := 1 }, { due := 1, rank := 1, iss := 0, dest := .ac 3, val := 1 },
      { due := 2, rank := 1, iss := 0, dest := .d 18, val := 5 }] }

theorem witness_NamesRotate :
    15 < 16 ∧ 16 ≤ 16 ∧ 16 < 32 ∧ 31 < 32 ∧ 16 ≤ 30 ∧ 30 < 31 ∧ (meeting.setSreg rRRB 1).rrb = (meeting.rrb + 1) % 16
      ∧ (({} : SpSt).setSreg rRRB 0).rrb = ((({} : SpSt).setSreg rRRB 15).rrb + 1) % 16
      ∧ ∃ l ∈ meeting.pend, l.dest = .d 18 ∧ ∀ m ∈ meeting.pend, m.meets l = true → m = l := by
  decide +kernel

theorem witness_ResultsMeet :
    (∃ l ∈ meeting.pend, (∀ m ∈ meeting.pend, m.meets l = true → m = l ∨ l.beats m = true) ∧ l.dest = .d 18
        ∧ ∃ m ∈ meeting.pend, m.meets l = true ∧ l.beats m = true ∧ ∀ x ∈ meeting.pend, x.due = l.due → x.dest ≠ .sr rSPSTAT)
      ∧ (∃ l ∈ meeting.pend, (∀ m ∈ meeting.pend, m.meets l = true → m = l ∨ l.beats m = true) ∧ l.dest = .ac 3)
      ∧ (∃ l ∈ meeting.pend, (∀ m ∈ meeting.pend, m.meets l = true → m = l ∨ l.beats m = true) ∧ l.dest = .flag 3
        ∧ ∀ m ∈ meeting.pend, m.due = l.due → m.dest ≠ .sr rFLAGS) := by
  decide +kernel

/-- In a handler at 0x7FE, with one return address and level 0 active from 4 to the bundle at 9. -/
def sp1 : SpSt := { sp0 with pc := 0x7FE, inHandler := true, rstack := [7], sr := [(0x40, 3), (rLS, 4), (rLE, 9), (rSPMODE, 3)] }

theorem witness_BranchesAndCalls :
    tRuns [.br 0x7FF, .call 0] ∧ ((spWith sp0).atIssue 0).pc < 0x7FF ∧ ((spWith sp1).atIssue 0).pc < 0x7FF
      ∧ ((spWith sp1).atIssue 0).rstack = [] ++ [7] ∧ Runs (spWith sp1) 0 (({} : Bundle).withT 0 .ret) 0
      ∧ ((spWith sp1).atIssue 0).levels = [0] ∧ Runs (spWith sp1) 0 (({} : Bundle).withT 0 (.lexit 0)) 0
      ∧ Runs (spWith sp1) 0 (({} : Bundle).withT 0 .iret) 0
      ∧ (∀ d ∈ [After.jump 0x7FF, After.iret], slotBundle (.nop 0 true 0 {}) = some (0, {}) ∧ Issues (spWith { sp1 with delay := some d }) 0 {}
        ∧ (((spWith { sp1 with delay := some d }).atIssue 0).holds ({} : Bundle).t.pred && ({} : Bundle).isDone) = false
        ∧ ((spWith { sp1 with delay := some d }).atIssue 0).delay = some d) := by
  dsimp only [tRuns, Runs, Issues, Flows, Live]; and_intros <;> decide +kernel

theorem witness_LoopsTakeALevel :
    (∀ sr ∈ [[], [(0x40, 1), (rLE, 9)]], ∀ op ∈ [TOp.loop true 20 0x3FF, .loop false 20 0, .loopd true 20 1, .loopd false 20 0],
        Runs (spWith { sp0 with sr := sr }) 0 (({} : Bundle).withT 0 op) 0)
      ∧ (∀ op ∈ [TOp.loop true 20 1, .loopd false 20 1], ∀ sp ∈ [{ sp0 with sr := [(0x40, 1), (0x41, 0xFFFF), (rLE, 0x90009)] }], ∀ b ∈ [({} : Bundle).withT 0 op],
        b.legal = true ∧ sp.delay = none ∧ b.t.op.endBelow 0 = false ∧ (∀ v ∈ sp.levels, sp.stop v ≠ 0) ∧ sp.holds b.t.pred = true
          ∧ sp.lc 0 ≠ 0 ∧ sp.lc 1 ≠ 0) := by
  dsimp only [Runs, Issues, Flows, Live]; and_intros <;> decide +kernel

/-- At the end address of level 1, which is inside level 0. -/
def atEnd : SpSt := { sp0 with pc := 9, sr := [(0x40, 3), (0x41, 2), (rLS, 0x40002), (rLE, 0x8009000C), (rRRB, 15), (rSPMODE, 3)] }

theorem witness_IterationsEnd :
    (∀ x ∈ [atEnd, sp0, { atEnd with pc := 0x7FE }], slotBundle (.nop 0 true 0 {}) = some (0, {}) ∧ Issues (spWith x) 0 {}
        ∧ (((spWith x).atIssue 0).holds ({} : Bundle).t.pred && ({} : Bundle).isDone) = false ∧ ({} : Bundle).t.op.isControl = false
        ∧ ((spWith x).atIssue 0).delay = none)
      ∧ ((spWith atEnd).atIssue 0).levels = [1, 0] ∧ ((spWith atEnd).atIssue 0).pc = ((spWith atEnd).atIssue 0).stop 1
      ∧ 1 < ((spWith atEnd).atIssue 0).lc 1
      ∧ (∀ v ∈ ((spWith { atEnd with pc := 0x7FE }).atIssue 0).levels,
        ((spWith { atEnd with pc := 0x7FE }).atIssue 0).pc ≠ ((spWith { atEnd with pc := 0x7FE }).atIssue 0).stop v)
      ∧ ((spWith { atEnd with pc := 0x7FE }).atIssue 0).pc < 0x7FF := by
  dsimp only [Issues, Live]; and_intros <;> decide +kernel

/-- One of two gather entries and the header have landed, and one transfer is outstanding. -/
def waits : SpSt := { sp0 with gLen := 2, gNext := 1, far := [{ toGrid := true, addr := 0x10000000, isY := false, loc := 0, len := 1 }] }

theorem witness_EndsAndWaits :
    Issues (spWith sp0) 0 (({} : Bundle).withT 0 .sdone) ∧ ((spWith sp0).atIssue 0).holds 0 = true
      ∧ Runs (spWith waits) 0 (({} : Bundle).withT 0 (.swait 0)) 0 ∧ ((spWith waits).atIssue 0).landed 0 = true
      ∧ Runs (spWith waits) 0 (({} : Bundle).withT 0 (.fwait 1)) 0 ∧ ((spWith waits).atIssue 0).far.length ≤ 1
      ∧ ((spWith waits).atIssue 0).landed 1 = false
      ∧ ((spWith waits).atIssue 0).bundleFault ((spWith waits).atIssue 0).pc (({} : Bundle).withT 0 (.swait 1)) = none
      ∧ 0 < ((spWith waits).atIssue 0).far.length
      ∧ ((spWith waits).atIssue 0).bundleFault ((spWith waits).atIssue 0).pc (({} : Bundle).withT 0 (.fwait 0)) = none
      ∧ ((spWith waits).atIssue 0).holds 0 = true
      ∧ (∀ inT : Bool, Runs (spWith sp0) 0 (if inT then { ({} : Bundle) with t := { pred := 0, op := .nop } } else { ({} : Bundle) with a := { pred := 0, op := .nop } }) 0) := by
  dsimp only [Runs, Issues, Flows, Live]; and_intros <;> decide +kernel

theorem witness_FalsePredicates :
    Live (spWith sp0) .sp 0 ∧ ((spWith sp0).atIssue 0).holds 8 = false ∧ Issues (spWith sp0) 0 (({} : Bundle).withA 8 (.add 0 1 2))
      ∧ Issues (spWith sp0) 0 (({} : Bundle).withT 8 (.movi 1 5)) ∧ (∀ dr p am imm, TOp.movi 1 5 ≠ .ldc dr p am imm ∧ TOp.movi 1 5 ≠ .stc dr p am imm)
      ∧ Issues (spWith sp0) 0 (({} : Bundle).withT 8 (.ldc 1 0 0 0)) ∧ Issues (spWith sp0) 0 (({} : Bundle).withT 8 (.stc 1 0 1 0))
      ∧ ({ pred := 8, op := .mac, lm := 2 } : MSlot).pred = 8 ∧ Issues (spWith sp0) 0 (({} : Bundle).withM true { pred := 8, op := .mac, lm := 2 }) := by
  dsimp only [Issues, Live]
  refine ⟨by decide +kernel, by decide +kernel, by decide +kernel, by decide +kernel, by simp, by decide +kernel⟩

theorem witness_IssueFrame :
    slotBundle (.stx 0 0 1 0 0 0 {}) = some (0, ({} : Bundle).withT 0 (.stx 1 0 0 0)) ∧ (∃ t, exec (.stx 0 0 1 0 0 0 {}) (spWith sp0) = .next t) :=
  ⟨rfl, _, rfl⟩

theorem witness_BundleFaults :
    (∀ op ∈ [TOp.ret, .iret], ∃ f, ((spWith sp0).atIssue 0).bundleFault ((spWith sp0).atIssue 0).pc (({} : Bundle).withT 0 op) = some f)
      ∧ slotBundle (.ret 0 0 {}) = some (0, ({} : Bundle).withT 0 .ret) ∧ Live (spWith sp0) .sp 0 ∧ ((spWith sp0).stage.sp 0).active = true
      ∧ ((spWith sp0).stage.sp 0).entryDue = false ∧ decodeBundle 0x0A000000 = none
      ∧ (∀ op ∈ [TOp.br 0, .call 0, .ret, .loop false 20 1, .iret], ∀ b ∈ [({} : Bundle).withT 0 op],
        b.legal = true ∧ atEnd.delay = none ∧ b.t.op.endBelow 9 = false ∧ b.t.op.endBarred = true ∧ 1 ∈ atEnd.levels ∧ atEnd.stop 1 = 9)
      ∧ (∀ sp ∈ [{ sp0 with rstack := [1, 2, 3, 4] }], ∀ op ∈ [TOp.call 0, .ret, .iret], ∀ b ∈ [({} : Bundle).withT 0 op],
        b.legal = true ∧ sp.delay = none ∧ b.t.op.endBelow 0 = false ∧ (∀ v ∈ sp.levels, sp.stop v ≠ 0) ∧ sp.holds b.t.pred = true
          ∧ 4 ≤ sp.rstack.length ∧ sp0.rstack = [] ∧ sp.inHandler = false) := by
  refine ⟨?_, rfl, ?_⟩
  · intro op h
    simp only [List.mem_cons, List.not_mem_nil, or_false] at h
    rcases h with rfl | rfl
    · exact ⟨cRS_UNDER, by decide +kernel⟩
    · exact ⟨cIRET_OUT, by decide +kernel⟩
  · dsimp only [Live]; and_intros <;> decide +kernel

theorem witness_InterruptEntries :
    (∀ x ∈ [{ sp0 with flt := some (15, 2047) }, { sp0 with flt := some (15, 2047), inHandler := true },
          { sp0 with brk := true, pc := 2047, sr := [(rSPMODE, 0x20)] }, { sp0 with mbox := true, pc := 2047, sr := [(rSPMODE, 0x10)] }],
        Live (spWith x) .sp 0 ∧ ((spWith x).stage.sp 0).landAll.rstack.length ≤ 4)
      ∧ ({ sp0 with flt := some (15, 2047) }).flt = some (15, 2047) ∧ sp0.inHandler = false ∧ 15 < 16 ∧ 2047 < 2048 ∧ sp0.flt = none ∧ sp0.run = .running
      ∧ ({ sp0 with brk := true, pc := 2047, sr := [(rSPMODE, 0x20)] } : SpSt).breakDue = true
      ∧ ({ sp0 with mbox := true, pc := 2047, sr := [(rSPMODE, 0x10)] } : SpSt).breakDue = false
      ∧ ({ sp0 with mbox := true, pc := 2047, sr := [(rSPMODE, 0x10)] } : SpSt).mboxDue = true := by
  dsimp only [Live]; and_intros <;> decide +kernel

/-! ### The whole machine -/

/-- The AVSBus has failed three times at a read, and the bus runs. -/
def avsLost : State := on { lit with level := { loop := .level, frames := [.voltageRead], attempts := 3 } }

theorem witness_DieHeld :
    ({ ({} : Stage) with sup := { state := .off } } : Stage).dieUp = false ∧ outsideDie (.lvlCfgWrite ⟨0, 0⟩ 0) = false
      ∧ (on { ({} : Stage) with sup := { state := .off } }).pending = [] := by
  decide +kernel

theorem witness_HealthRises :
    ∃ t, avsLost.stage.dieUp = true ∧ t.stage.dieUp = true ∧ step { avsLost with pending := [.avsFrameResponse false 0] } = .next t
      ∧ pageOf 0x2D1 = some (.level, 0) ∧ bit (avsLost.stage.healthAt 0x2D1) 0 = false ∧ bit (t.stage.healthAt 0x2D1) 0 = true
      ∧ avsLost.stage.anyDegraded = false ∧ t.stage.anyDegraded = true :=
  ⟨_, by decide +kernel, by decide +kernel, rfl, by decide +kernel, by decide +kernel, by decide +kernel, by decide +kernel, by decide +kernel⟩

/-- Event 0 of SYS is enabled and routed to vector 31, with MSI-X on and, for `mask = 0`, that vector unmasked. -/
def vec (mask : Nat) : Stage :=
  { (((lit.setN 0 0x014 1).setN 0 0x018 1).setN 0x300 (0x20C + 16 * 31) mask) with
    host := { msixEn := true, bme := true }, routes := [(0, 0x8000001F#32)] }

theorem witness_VectorsKept : VectorsSent lit ∧ (∃ t, step (on lit) = .next t) :=
  ⟨by unfold VectorsSent; decide +kernel, _, rfl⟩

theorem witness_VectorMessages :
    31 < 32 ∧ bit (vec 0).vecPending 31 = true ∧ (vec 0).deliverable 31 = true ∧ bit (vec 0).vecSent 31 = false
      ∧ bit (vec 0).vecPending 0 = false ∧ (vec 1).deliverable 31 = false
      ∧ (∀ v, v < 32 → bit (vec 1).vecPending v = true → (vec 1).deliverable v = true → bit (vec 1).vecSent v = true) := by
  decide +kernel

theorem witness_MemoryKeepsForm :
    Memory.wf (lit.wr8 5 1#8).mem = true ∧ (0 : Nat) ≠ 5 ∧ 8 % 4 = 0 ∧ lit.lost 8 = false ∧ (7 < 8 ∨ 8 + 4 ≤ 7) ∧ (12 < 8 ∨ 8 + 4 ≤ 12)
      ∧ Memory.wf ([] : Tab Byte) = true := by
  decide +kernel

theorem witness_BundleRoundTrip :
    ({ m1 := { lm := 3, lp := 11, ld := 31, op := .mac, fs := true, sa := 31, sb := 31, acc := 3 },
       m2 := { pred := 15, lm := 1 }, a := { pred := 8, op := .extr 3 31 63 }, t := { op := .movsi 0x49 32767 } } : Bundle).legal = true
      ∧ 0 < 2 ^ 128 ∧ decodeBundle 0 = some {} := by
  decide +kernel

/-- SP 0 with a header due at X word `b`. -/
def headed (b : Nat) : State := on ((lit.putSp 0 { sp0 with hdrDue := true, last := some 5, skipped := 1 }).setFld (pSp 0) 0x090 14 0 b)

/-- SP 0 with a transfer of one word from the pool outstanding while the Grid is locked. -/
def fetching : Stage :=
  { (lit.putSp 0 { sp0 with far := [{ toGrid := false, addr := 0x10000000, isY := true, loc := 4, len := 1 }] }) with grid := { lock := true } }

theorem witness_SampleDma :
    (∀ b ∈ [0, 24565], Live (headed b) .sp 0 ∧ ((headed b).stage.sp 0).hdrDue = true ∧ (headed b).stage.ecc = []
        ∧ (headed b).stage.fld (pSp 0) 0x090 14 0 = b ∧ b ≤ 24565 ∧ ((headed b).stage.sp 0).last = some 5)
      ∧ (∀ x ∈ [{ sp0 with gLen := 1 }], Live (spWith x) .sp 0 ∧ ((spWith x).stage.sp 0).hdrDue = false
        ∧ ((spWith x).stage.sp 0).gNext < ((spWith x).stage.sp 0).gLen ∧ (spWith x).stage.ecc = [])
      ∧ (∀ x ∈ [{ sp0 with run := .draining }], Live (spWith x) .sp 0 ∧ ((spWith x).stage.sp 0).run = .draining ∧ ((spWith x).stage.sp 0).far = []
        ∧ (spWith x).stage.graph.leaving = [])
      ∧ (∃ f, (fetching.sp 0).far[0]? = some f ∧ Live (on fetching) .sp 0 ∧ fetching.farHeld { cls := 7, idx := 0 } f = false
        ∧ ∃ x : Stage × Bool, (burstsOf f.addr (4 * f.len)).foldl (Stage.farBurst 0 { cls := 7, idx := 0 } f) (some (fetching, true)) = some x) := by
  dsimp only [Live]
  refine ⟨by decide +kernel, by decide +kernel, by decide +kernel, _, rfl, by decide +kernel, by decide +kernel, _, rfl⟩

/-! ### The level loop -/

/-- The level loop in `l`, with VCORE at `v`. -/
def lvl (l : LevelSt) (v : Nat) : Stage := { lit with level := l }.setFld pLevel 0x090 6 0 v

/-- The slack target is 200 permille with a band of 30, and the limits are 0 and 96. -/
theorem witness_LevelSteps :
    (∀ e ∈ [((169 : Int), 72, false), (169, 96, false), (231, 1, false), (231, 1, true), (231, 0, false), (170, 72, false), (230, 72, false)],
      ∀ s ∈ [lvl { loop := .level, winMin := some (e.1, 5), downBar := e.2.2 } e.2.1],
        s.dieUp = true ∧ s.level.winMin = some (e.1, 5) ∧ s.level.loop = .level ∧ s.fld pLevel 0x084 9 0 = 200 ∧ s.fld pLevel 0x084 25 16 = 30
        ∧ s.vcoreNow = e.2.1 ∧ s.vmax = 96 ∧ s.vmin = 0 ∧ s.level.downBar = e.2.2)
      ∧ (∀ e ∈ [LoopState.fault, .settle, .emergency, .hold], (lvl { loop := e } 72).level.loop = e ∧ (lvl { loop := e } 72).dieUp = true)
      ∧ ((lvl { loop := .settle } 72).level.low && isLevelling (lvl { loop := .settle } 72).mode) = false
      ∧ (∀ v ∈ [95, 96], ∀ s ∈ [(lvl { loop := .settle, low := true } v).setFld 0 0x0E0 3 0 4],
        s.dieUp = true ∧ s.level.loop = .settle ∧ s.level.low = true ∧ isLevelling s.mode = true ∧ s.vcoreNow = v ∧ s.vmax = 96)
      ∧ (∃ t, exec .levelWindow (on lit) = .next t) := by
  refine ⟨by decide +kernel, by decide +kernel, by decide +kernel, by decide +kernel, _, rfl⟩

theorem witness_RegulatorBus :
    (∀ e ∈ [(AvsCmd.voltageRead, LoopState.level, 0), (.currentRead, .fault, 2), (.statusRead, .hold, 3), (.voltageWrite 72 true, .emergency, 4)],
      ∀ s ∈ [lvl { loop := e.2.1, frames := [e.1], attempts := e.2.2 } 72],
        s.dieUp = true ∧ s.level.frames = e.1 :: [] ∧ s.level.loop = e.2.1 ∧ s.level.attempts = e.2.2)
      ∧ lit.dieUp = true ∧ lit.level.frames = [] := by
  decide +kernel

theorem witness_LevelRegisters :
    (∀ l ∈ [LoopState.level, .hold, .fault], ∀ m ∈ [0, 1], Passes (on (lvl { loop := l } 72)) mgmt .level 0 0x080 m)
      ∧ (∀ v ∈ [0x00600000, 0x00460000, 0x00600050], Passes (on (lvl { loop := .hold } 72)) mgmt .level 0 0x088 v)
      ∧ (∀ v ∈ [0, 96], Passes (on (lvl { loop := .hold } 72)) mgmt .level 0 0x08C v)
      ∧ (lvl { loop := .hold } 72).frozen = false ∧ ∃ t, exec (.lvlCfgWrite mgmt 0) (on lit) = .next t := by
  dsimp only [Passes, Live]
  refine ⟨by decide +kernel, by decide +kernel, by decide +kernel, by decide +kernel, _, rfl⟩

theorem witness_SampleStrobe :
    lit.datum.started = false ∧ ({ started := true } : DatumSt).stepReady = [] ∧ Passes (on lit) mgmt .sys 0 0x088 0 ∧ Passes (on lit) mgmt .sys 0 0x088 5
      ∧ bits 5 2 0 ≠ lit.rateCode ∧ Passes (on lit) mgmt .sys 0 0x088 1 ∧ bits 1 2 0 = lit.rateCode ∧ Live (on lit) .sys 0 ∧ Live (on lit) .datum 0
      ∧ Live (on lit) .grid 0 := by
  dsimp only [Passes, Live]; and_intros <;> decide +kernel

/-! ### Battens and commands -/

theorem witness_LaneSums : lit.highRate = false ∧ 7 < 8 := by decide +kernel

/-- BAT `k` works on a sample whose first lane holds the sum `z`. -/
def summing (k : Nat) (z : Int) : Stage :=
  { lit with blocks := [(64 + k, { busy := true })], bats := [(k, { held := some ([z], 0, 1) })] }

theorem witness_BattenSums :
    (∀ k ∈ [0, 63], ∀ z ∈ [(2 : Int) ^ 71 - 1, 0], ∀ s ∈ [summing k z],
        Live (on s) .bat k ∧ s.ecc = [] ∧ s.highRate = false ∧ (s.blk (64 + k)).busy = true ∧ s.exch.nxt = [])
      ∧ ¬ InRange 32 (roundHalfEven (max (-(2 ^ 71)) (min (2 ^ 71 - 1) (2 ^ 71 - 1))) (2 ^ 27))
      ∧ (∀ k ∈ [0, 63], Live (on lit) .bat k ∧ (lit.blk (64 + k)).busy = false ∧ Passes (on lit) mgmt .bat k 0x0B4 1)
      ∧ ∃ t, exec (.battenSumWrite 0 0 []) (on lit) = .next t := by
  dsimp only [Live, Passes, InRange]
  refine ⟨by decide +kernel, by decide +kernel, by decide +kernel, _, rfl⟩

/-- The part in mode `m`. -/
def inMode (m : Nat) (s : Stage) : Stage := s.setFld 0 0x0E0 3 0 m

/-- BAT 0 with 64 requests in its queue. -/
def fullQueue : Stage := { lit with bats := [(0, { queue := (upTo 64).map fun i => { due := 9, ord := i, lo := 0, hi := 0, deferred := false } })] }

theorem witness_CrossfadeRequests :
    (∀ k ∈ [0, 63], ∀ v ∈ [xfReq 1 2 300000, xfReq 1 0 10, xfReq 2 0 0, xfReq 3 0 0, xfReq 4 0 0, xfReq 5 0 0], Places (on lit) mgmt .bat k 0x084 v 0)
      ∧ Live (on lit) .bat 0 ∧ ¬ (heldMode lit.mode = true ∧ mgmt.cls < 2) ∧ rampLegal lit.highRate (0x8000 % 2 ^ 32) = true
      ∧ lit.tagTooFar mgmt.cls = false ∧ (lit.bat 0).queue.length < 64
      ∧ Live (on fullQueue) .bat 0 ∧ ¬ (heldMode fullQueue.mode = true ∧ mgmt.cls < 2) ∧ fullQueue.tagTooFar mgmt.cls = false
      ∧ 64 ≤ (fullQueue.bat 0).queue.length ∧ heldMode (inMode 6 lit).mode = true ∧ mgmt.cls < 2 ∧ Live (on (inMode 6 lit)) .bat 0
      ∧ (0 : Int) ≤ 32768 := by
  dsimp only [Places, Live]; and_intros <;> decide +kernel

/-- The arguments of a command whose source is the management memory. -/
def memCmd (code : Nat) : Cmd := { seq := 1, cls := 0, idx := 0, code := code, a0 := 0x10000000#32, a1 := 0#32, a2 := 0#32 }

/-- BAT 0 loads a plane from management memory. -/
def loading (lock : Bool) : Stage :=
  { lit with bats := [(0, { loading := true, ready := false })], grid := { lock := lock } }.setRunning (pBat 0) (some (memCmd 1))

theorem witness_PlaneLoads :
    Ready (on lit) (pBat 0) ∧ (lit.bat 0).fading = false ∧ lit.batStaged 0 = false ∧ 0x10000000 % 32 = 0
      ∧ ¬ ((lit.bat 0).fading = false ∧ lit.batStaged 0 = false ∧ 4 % 32 = 0) ∧ RingFree lit
      ∧ Live (on (loading false)) .bat 0 ∧ (loading false).runningCmd (pBat 0) = some (memCmd 1) ∧ ((loading false).bat 0).loading = true
      ∧ RingFree (loading false) ∧ (0x10000000 + 65536 ≤ 0x10100000)
      ∧ (∀ i, i < 2048 → (loading false).winMap 0 ((memCmd 1).a0.toNat + (memCmd 1).a1.toNat % 16 * 2 ^ 32 + 32 * i) 32 false = some (0x10000000 + 32 * i))
      ∧ Live (on (loading true)) .bat 0 ∧ (loading true).runningCmd (pBat 0) = some (memCmd 1) ∧ ((loading true).bat 0).loading = true
      ∧ RingFree (loading true)
      ∧ (∀ i, i < 2048 → (loading true).winMap 0 ((memCmd 1).a0.toNat + (memCmd 1).a1.toNat % 16 * 2 ^ 32 + 32 * i) 32 false = none)
      ∧ lit.dieUp = true ∧ lit.runningCmd (pBat 0) = none := by
  dsimp only [Ready, RingFree, Live]; and_intros <;> decide +kernel

/-- Page `p` holds back `n` commands of code `code`. -/
def queued (p n code : Nat) : Stage := { lit with cmdq := [(p, (upTo n).map fun _ => memCmd code)], level := { loop := .level } }

/-- A hot restart goes on. -/
def hot : Stage := lit.setFlag 0 0x0D8 31 true

theorem witness_CommandQueues :
    200 = 456 % 256 ∧ pageOf 0x280 = some (.datum, 0) ∧ Ready (on lit) 0x280 ∧ RingFree lit ∧ (0 = 0 ∨ commandCodes .datum 0 < 0)
      ∧ commandCodes .datum 0 < 2 ∧ PageKind.datum ≠ .graph
      ∧ (∀ n ∈ [1, 7, 8], (queued 0x280 n 9).dieUp = true ∧ (queued 0x280 n 9).powered 0x280 = true ∧ (queued 0x280 n 9).restarting = false
        ∧ ((queued 0x280 n 9).queue 0x280).length = n ∧ (queued 0x280 n 9).queue 0x280 ≠ [])
      ∧ hot.dieUp = true ∧ hot.powered 0x280 = true ∧ hot.restarting = true ∧ ({} : Stage).dieUp = true ∧ pageOf (pBat 0) = some (.bat, 0) ∧ ({} : Stage).powered (pBat 0) = false
      ∧ (queued 0x280 1 9).queue 0x280 = memCmd 9 :: [] ∧ ((queued 0x280 1 9).mayStart 0x280 && (queued 0x280 1 9).cmdFree 0x280) = true
      ∧ RingFree (queued 0x280 1 9) ∧ commandCodes .datum 0 < (memCmd 9).code
      ∧ (((queued 0x280 1 9).setRunning 0x280 (some (memCmd 1))).mayStart 0x280 && ((queued 0x280 1 9).setRunning 0x280 (some (memCmd 1))).cmdFree 0x280) = false
      ∧ ((queued 0x280 1 9).setRunning 0x280 (some (memCmd 1))).queue 0x280 = memCmd 9 :: [] := by
  dsimp only [Ready, RingFree, Live]; and_intros <;> decide +kernel

/-! ### Cues and tableaux -/

/-- A book of two cues: cue 0 with a GRAPH_COMMIT action and a default next cue 1, and cue 1 with none; the standby is cue `q`. -/
def book (m q : Nat) : Stage :=
  [(0x20, 0x100), (0x24, 0x80000001), (0x28, 0x200), (0x104, 1), (0x110, 0x07000000)].foldl (fun (s : Stage) (e : Nat × Nat) => s.wr32 (bookBase + e.1) (Word.ofNat e.2))
    (((inMode m lit).setN pPrompt 0x0B0 0x80000002).setN pPrompt 0x084 (0x80000000 + q))

/-- The same with the datum at 10 s. -/
def bookLate : Stage := { (book 4 0).setN pPrompt 0x080 1 with datum := { raw := 10 * unitsPerSec } }

/-- CUE_GO is enabled for a falling edge (`sense` 1) or a rising one, with the last edge at `last`. -/
def goPin (sense : Nat) (last : Option Nat) : Stage := { (((book 4 1).setFlag pPrompt 0x080 2 true).setFld pPrompt 0x080 3 3 sense).setFld pPrompt 0x088 9 0 1 with prompt := { pinLast := last } }

theorem witness_CueTriggers :
    (∃ t, exec (.cueGoEdge 0 true) (on lit) = .next t)
      ∧ (∀ q ∈ [0, 1], Ready (on (book 4 q)) pPrompt ∧ bit q 31 = false ∧ bits q 11 0 = q ∧ TakesCue (book 4 q) 0 q ∧ TakesCue (book 4 q) 1 q
        ∧ bit 0x80000000 31 = true ∧ (book 4 q).flag pPrompt 0x084 31 = true ∧ (book 4 q).fld pPrompt 0x084 11 0 = q)
      ∧ bit ((book 4 0).bookWord (0x24 + 8 * 0)) 31 = true ∧ bit ((book 4 1).bookWord (0x24 + 8 * 1)) 31 = false
      ∧ Ready (on (book 2 0)) pPrompt ∧ trigMode (book 2 0).mode 0 = .refuse ∧ RingFree (book 2 0)
      ∧ 1000000000 ≤ bits 1000000000 29 0 ∧ RingFree (book 4 0) ∧ bits 999999999 29 0 < 1000000000
      ∧ (book 4 0).now ≤ (book 4 0).datumArg (5 % 2 ^ 32) (0 % 2 ^ 32) + (book 4 0).cuePre 0 ∧ (book 4 0).flag pPrompt 0x080 0 = false
      ∧ Ready (on bookLate) pPrompt ∧ TakesCue bookLate 1 0 ∧ bookLate.datumArg (5 % 2 ^ 32) (0 % 2 ^ 32) + bookLate.cuePre 0 < bookLate.now
      ∧ bookLate.flag pPrompt 0x080 0 = true ∧ RingFree bookLate
      ∧ (goPin 1 none).dieUp = true ∧ true = (goPin 1 none).flag pPrompt 0x080 3 ∧ lit.flag pPrompt 0x080 2 = false
      ∧ (goPin 1 none).flag pPrompt 0x080 2 = true ∧ false ≠ (goPin 1 none).flag pPrompt 0x080 3 ∧ true ≠ (goPin 0 none).flag pPrompt 0x080 3
      ∧ (goPin 0 (some 5)).prompt.pinLast = some 5 ∧ 5 + 999999 * unit < 5 + (goPin 0 (some 5)).fld pPrompt 0x088 9 0 * 1000000 * unit
      ∧ (goPin 0 none).prompt.pinLast = none ∧ (goPin 0 none).flag pPrompt 0x084 31 = true ∧ (goPin 0 none).fld pPrompt 0x084 11 0 = 1
      ∧ TakesCue (goPin 0 none) 2 1 := by
  refine ⟨⟨_, rfl⟩, ?_⟩
  dsimp only [Ready, TakesCue, RingFree]; and_intros <;> decide +kernel

theorem witness_CuePasses : Passes (on (book 4 0)) mgmt .prompt 0 0x084 0x80000001 := by
  dsimp only [Passes, Live]; and_intros <;> decide +kernel

/-- One trigger of cue 0 for boundary `b`, with handle 5. -/
def trig (b : Nat) : Trig := { seq := 5, cls := 0, cue := 0, src := 0, t := none, m := 0, b0 := b, b := b, late := false }

/-- The book in mode `m` with that trigger waiting. -/
def waiting (m b : Nat) : Stage := { book m 0 with prompt := { trigs := [trig b] } }

theorem witness_CueRemoval :
    (∀ b ∈ [1, 2], Ready (on (waiting 4 b)) pPrompt ∧ cancelBarred (waiting 4 b).mode = false
        ∧ ((waiting 4 b).prompt.trigs.find? fun t => t.seq == (pPrompt * 65536 + 5) % 65536) = some (trig b))
      ∧ pPrompt * 65536 + 5 < 2 ^ 32 ∧ (pPrompt * 65536 + 5) / 65536 = pPrompt ∧ (pPrompt * 65536 + 5) % 65536 ≠ 0
      ∧ (waiting 4 2).datum.index + (waiting 4 2).applyDelay + 1 ≤ 2 ∧ 1 < (waiting 4 1).datum.index + (waiting 4 1).applyDelay + 1 ∧ RingFree (waiting 4 1)
      ∧ (∀ tr ∈ (waiting 4 1).prompt.trigs, tr.seq ≠ (pPrompt * 65536 + 6) % 65536)
      ∧ ((pPrompt * 65536) / 65536 ≠ pPrompt ∨ (pPrompt * 65536) % 65536 = 0) ∧ (5 / 65536 ≠ pPrompt)
      ∧ Ready (on (waiting 6 2)) pPrompt ∧ cancelBarred (waiting 6 2).mode = true ∧ RingFree (waiting 6 2)
      ∧ lit.dieUp = true ∧ runsCues lit.mode = false
      ∧ (waiting 4 1).dieUp = true ∧ runsCues (waiting 4 1).mode = true ∧ (waiting 4 1).prompt.trigs = [trig 1] ∧ (trig 1).src ≠ 7
      ∧ (trig 1).m ≤ (waiting 4 1).datum.index ∧ (trig 1).b ≤ (waiting 4 1).datum.index + (waiting 4 1).applyDelay ∧ (waiting 4 1).cueOk (trig 1).cue = true
      ∧ (trig 1).issued = [] ∧ ((upTo ((waiting 4 1).cueActions (trig 1).cue)).filter fun x => (waiting 4 1).actType (trig 1).cue x == actGraphCommit) = [0]
      ∧ (waiting 4 1).graph.staged = none := by
  dsimp only [Ready, RingFree]; and_intros <;> decide +kernel

/-- TAB_CFG at `cfg`, TAB_STAT at `stat`, and the last capture at `last`. -/
def tabs (cfg stat : Nat) (last : Option Nat) : Stage := { (lit.setN pTab 0x080 cfg).setN pTab 0x084 stat with tab := { last := last } }

theorem witness_Tableaux :
    (∃ t, exec (.tableauInEdge 0 true) (on lit) = .next t) ∧ lit.dieUp = true ∧ lit.powered pTab = true
      ∧ lit.flag pTab 0x080 0 = false ∧ true = (tabs 3 0 none).flag pTab 0x080 1 ∧ (tabs 1 0 none).flag pTab 0x080 0 = true
      ∧ true ≠ (tabs 1 0 none).flag pTab 0x080 1 ∧ ((tabs 1 0 none).tick 7).tabOut = .captured ∧ ((tabs 1 0 (some 7)).tick 7).tabOut = .merged
      ∧ ((tabs 9 1 none).tick 7).tabOut = .kept
      ∧ Ready (on lit) pTab ∧ RingFree lit ∧ bit 0 0 = false ∧ (∀ n, n < 4 → lit.flag pTab 0x080 (8 + n) = false) ∧ lit.tabOut = .captured
      ∧ Ready (on (tabs 0 0 (some 0))) pTab ∧ RingFree (tabs 0 0 (some 0)) ∧ (∀ n, n < 4 → (tabs 0 0 (some 0)).flag pTab 0x080 (8 + n) = false)
      ∧ (tabs 0 0 (some 0)).tabOut = .merged ∧ Ready (on (tabs 8 1 none)) pTab ∧ RingFree (tabs 8 1 none)
      ∧ (∀ n, n < 4 → (tabs 8 1 none).flag pTab 0x080 (8 + n) = false) ∧ (tabs 8 1 none).tabOut = .kept := by
  refine ⟨⟨_, rfl⟩, ?_⟩
  dsimp only [Ready, RingFree]; and_intros <;> decide +kernel

/-- A timed trigger for the datum `d` waits, and the datum is at 10 s. -/
def timed (d : Option Nat) : Stage := { lit with datum := { raw := 10 * unitsPerSec }, tab := { timed := d.map fun x => (x, memCmd 1) } }

theorem witness_TableauxTimed :
    bit 1 0 = true ∧ Ready (on (timed (some 5))) pTab ∧ RingFree (timed (some 5)) ∧ (timed (some 5)).tab.timed.isSome = true
      ∧ 1000000000 ≤ bits 1000000000 29 0 ∧ Ready (on (timed none)) pTab ∧ RingFree (timed none) ∧ (timed none).tab.timed = none ∧ bits 0 29 0 < 1000000000
      ∧ (timed none).datumArg (9 % 2 ^ 32) 0 < (timed none).now ∧ (timed none).now ≤ (timed none).datumArg (10 % 2 ^ 32) 0
      ∧ (timed (some 5)).tab.timed = some (5, memCmd 1) ∧ 5 ≤ ((timed (some 5)).tick 6).now ∧ ((timed (some 5)).tick 6).tabOut = .captured
      ∧ (timed (some 5)).tab.msgs = [] ∧ ((timed (some (11 * unitsPerSec))).tick 6).now < 11 * unitsPerSec
      ∧ ({ lit with tab := { ext := some (1, [(3, 4#32)]) } } : Stage).tab.ext = some (1, [(3, 4#32)]) ∧ Tab.wf (fun _ => 0#32) [(3, 4#32)] = true
      ∧ lit.tab.ext = none ∧ Passes (on lit) mgmt .tableau 0 0x0A0 1 := by
  dsimp only [Ready, RingFree, Passes, Live]; and_intros <;> decide +kernel

/-! ### The sealed core -/

/-- Words of a record whose last is the CRC-32C of the others. -/
def record (good : Bool) : List Nat :=
  let w := (upTo 15).map fun i => 7 + i
  w ++ [if good then crc32c (w.flatMap (leBytes 4)) else (crc32c (w.flatMap (leBytes 4)) + 1) % 2 ^ 32]

/-- The core with a record on its way. -/
def sending (good : Bool) : Stage := { lit with bench := { sent := [record good] } }

theorem witness_SealedCore :
    lit.bench.on = true ∧ lit.bench.next = none ∧ ({ next := some ({}, some 5) } : BenchSt).next = some ({}, some 5)
      ∧ ({ on := false } : BenchSt).on = false
      ∧ (∀ g : Bool, (sending g).dieUp = true ∧ (sending g).bench.sent = record g :: [] ∧ (sending g).sup.state = .up ∧ (record g).length = 16
        ∧ (∀ x ∈ record g, x < 2 ^ 32))
      ∧ crc32c (((record true).take 15).flatMap (leBytes 4)) = (record true).getD 15 0
      ∧ crc32c (((record false).take 15).flatMap (leBytes 4)) ≠ (record false).getD 15 0
      ∧ lit.dieUp = true ∧ (lit.setFlag pBench 0x080 31 true).flag pBench 0x080 31 = true ∧ Live (on lit) .bench 0
      ∧ 65280 ≤ 65280 ∧ 65280 < 65281 ∧ Passes (on lit) mgmt .bench 0 0x100 1 ∧ ∃ t, exec .nonceExpiry (on lit) = .next t := by
  dsimp only [Live, Passes]
  refine ⟨by decide +kernel, by decide +kernel, by decide +kernel, by decide +kernel, by decide +kernel, by decide +kernel, by decide +kernel,
    by decide +kernel, by decide +kernel, by decide +kernel, by decide +kernel, by decide +kernel, by decide +kernel, _, rfl⟩

/-- SERVICE with the seal `low`, calibration open or not, the lockout, the seal counter and the Grid locked without paths. -/
def cal (low opened lock : Bool) (count : Nat) (out : Bool) : Stage :=
  { inMode 11 lit with grid := { lock := lock }, bench := { sealLow := low, calib := if opened then some ({}, none) else none, sealCount := count, lockout := out } }

theorem witness_SealedCommands :
    Ready (on lit) pBench ∧ RingFree lit ∧ lit.catOk 1 = true ∧ (0 : Nat) < 65280 ∧ 65279 < 65280 ∧ 1 ≤ 1 ∧ 32 ≤ 32 ∧ lit.mode ≠ mService
      ∧ (∀ s ∈ [cal false false true 0 false, cal false false false 0 false, cal true false false 0 false, cal true true false 0 false,
          cal true false false 0xFFFFFF true], Ready (on s) pBench ∧ RingFree s ∧ s.mode = mService)
      ∧ (cal false false true 0 false).catOk 1 = false ∧ (cal false false false 0 false).catOk 1 = true
      ∧ (cal false false false 0 false).bench.sealLow = false
      ∧ (cal true false false 0 false).catOk 1 = true ∧ (cal true false false 0 false).bench.sealLow = true ∧ (cal true false false 0 false).bench.calib = none
      ∧ 5 ≤ ((cal true false false 0 false).issuedCmd mgmt pBench 5 [Word.ofNat 0]).code
      ∧ (cal true false false 0 false).bench.lockout = false ∧ (cal true false false 0xFFFFFF true).bench.lockout = true
      ∧ (cal true false false 0xFFFFFF true).bench.sealCount = 0xFFFFFF ∧ (cal true false false 0 false).bench.sealCount ≠ 0xFFFFFF
      ∧ (cal true false false 0 false).bench.nonce = none
      ∧ (cal true true false 0 false).bench.calib = some ({}, none) ∧ bits 0 4 3 ≠ 3 ∧ bits 0 2 1 ≠ 3 ∧ 1 ≤ bits 1 11 0 ∧ bits 3600 11 0 ≤ 3600
      ∧ bits 0x18 4 3 = 3 ∧ bits 6 2 1 = 3 ∧ bits 0 11 0 < 1 ∧ 3600 < bits 3601 11 0 := by
  dsimp only [Ready, RingFree]; and_intros <;> decide +kernel

/-- CAL_COMMIT reads the flash back right or wrong, whichever the free value says. -/
theorem witness_SealedCommands_flash : Config.flashOk 0 = true ∨ Config.flashOk 0 = false := by
  cases Config.flashOk 0 <;> simp

/-- The registers can hold the tag that CAL_ENTER asks for, whatever the part's key is. -/
theorem witness_SealedCommands_tag :
    ∃ s : Stage, s.bench.sealCount ≠ 0xFFFFFF ∧ s.bench.nonce = some 0
      ∧ authTag 0 s.bench.sealCount = (upTo 4).flatMap fun i => leBytes 4 (s.regN pBench (0x0A8 + 4 * i)) := by
  obtain ⟨w, hw, hr⟩ : ∃ w : Nat → Nat, (∀ i, w i < 2 ^ 32) ∧ authTag 0 0 = (upTo 4).flatMap fun i => leBytes 4 (w i) :=
    ⟨fun i => ofLeBytes (((authTag 0 0).drop (4 * i)).take 4), fun i => lt_of_lt_of_le (ofLeBytes_lt _) (Nat.pow_le_pow_right (by decide)
      (Nat.mul_le_mul_left 8 (List.length_take_le 4 _))), (leBytes_words (length_authTag 0 0)).symm⟩
  refine ⟨(upTo 4).foldl (fun s i => s.setN pBench (0x0A8 + 4 * i) (w i)) { lit with bench := { nonce := some 0 } }, ?_, rfl, ?_⟩
  · show (0 : Nat) ≠ 0xFFFFFF
    decide
  rw [show (upTo 4).foldl (fun s i => s.setN pBench (0x0A8 + 4 * i) (w i)) { lit with bench := { nonce := some 0 } }
    = ((((({ lit with bench := { nonce := some 0 } } : Stage).setN pBench 0x0A8 (w 0)).setN pBench 0x0AC (w 1)).setN pBench 0x0B0 (w 2)).setN pBench 0x0B4 (w 3)) from rfl]
  refine hr.trans ?_
  have h0 : w 0 % 4294967296 = w 0 := Nat.mod_eq_of_lt (hw 0)
  have h1 : w 1 % 4294967296 = w 1 := Nat.mod_eq_of_lt (hw 1)
  have h2 : w 2 % 4294967296 = w 2 := Nat.mod_eq_of_lt (hw 2)
  have h3 : w 3 % 4294967296 = w 3 := Nat.mod_eq_of_lt (hw 3)
  simp [upTo, List.range_succ, Stage.regN_setN_other, pBench, h0, h1, h2, h3]

/-- A measurement of channel 3 runs in an open calibration. -/
theorem witness_SealedCommands_measure :
    ((cal true true false 0 false).setRunning pBench (some (memCmd 5))).mode = mService
      ∧ 3000 < ((90999 : Int) + 10 * (0 : Nat) - 94000).natAbs ∧ ((91000 : Int) + 10 * (0 : Nat) - 94000).natAbs ≤ 3000
      ∧ (cal true true false 0 false).bench.calib = some ({}, none) := by
  decide +kernel

/-! ### Boundary-applied writes, plain writes and bridges -/

theorem witness_WritesWait :
    Places (on lit) mgmt .sp 0 0x080 0x10000 0 ∧ Places (on lit) mgmt .sp 63 0x0A4 0xFFFFFFFF 0 ∧ Places (on lit) mgmt .patch 0 0x08C 0 0
      ∧ Places (on lit) mgmt .patch 0 0x094 0 0 ∧ Places (on lit) mgmt .patch 0 0x09C 0 0
      ∧ (∀ j ∈ [0, 1, 2], Places (on lit) mgmt .patch 0 (0x0A4 + 4 * (j % 3)) 0 0)
      ∧ (∀ out : Bool, Places (on lit) mgmt .bridge 7 (if out then 0x0A4 else 0x09C) 0 0)
      ∧ Places (on lit) mgmt .port 0 0x090 1 3
      ∧ (∀ j ∈ [1, 2, 3], Places (on lit) mgmt .decim 0 (if j % 4 = 3 then 0x0A0 else 0x084 + 4 * (j % 4)) 0x00010001 0)
      ∧ (∀ j ∈ [0, 1, 2, 3], Places (on lit) mgmt .decim 0 (0x090 + 4 * (j % 4)) 0x800000 0) := by
  dsimp only [Places, Live]; and_intros <;> decide +kernel

/-- A byte of management memory waits for boundary 3. -/
def byteWaits : Stage := { lit with waiting := [{ due := 3, cls := 0, kind := .mem [(0x10000000, 5#8)] }] }

theorem witness_WritesWait_due :
    (byteWaits.waiting.map fun w => w.kind) = [.mem [(0x10000000, 5#8)]] ∧ (byteWaits.waiting.map fun w => w.due) = [3] ∧ 3 ≤ 3 ∧ 2 < 3
      ∧ byteWaits.heldBack (.mem [(0x10000000, 5#8)]) = false ∧ byteWaits.reaches (.mem [(0x10000000, 5#8)]) = true
      ∧ byteWaits.lost 0x10000000 = false := by
  decide +kernel

/-- BRIDGE 7 in state `st`, of a foreign group and enabled, with fade `h`, the window before at `w` and a locked rate of `r` mHz. -/
def bridged (st : Nat) (h : Option HalfDip) (w : Option Nat) (r : Nat) : Stage :=
  { ((lit.setFld (pBridge 7) 0x084 1 0 st).setFlag (pBridge 7) 0x00C 0 true) with bridges := [(7, { window := w, ratio := r, fade := h })] }

/-- The same in a part whose clock group 0, that of the bridge, lies in the foreign domain. -/
def foreign (st : Nat) : Stage := (bridged st none none 0).setFld (pPort 0) 0x0C0 29 28 2

theorem witness_PlainWrites :
    Passes (on lit) mgmt .patch 0 0x084 0 ∧ Passes (on (lit.setFlag (pSp 63) 0x00C 2 true)) mgmt .sp 63 0x400 (setBit 1 1 true)
      ∧ (∀ st ∈ [0, 1, 3, 2], Passes (on (bridged st none none 0)) mgmt .bridge 7 0x080 1 ∧ (bridged st none none 0).brState 7 = st)
      ∧ ((bridged 2 none none 0).bridge 7).leaving = false ∧ ((bridged 2 (some { down := true, j := 0, n := 1 }) none 0).bridge 7).leaving = true
      ∧ Passes (on (bridged 2 (some { down := true, j := 0, n := 1 }) none 0)) mgmt .bridge 7 0x080 1
      ∧ lit.dieUp = true ∧ pageOf (pPort 0) = some (.port, 0) ∧ pageOf 0x280 = some (.datum, 0) ∧ enableRW .port = true ∧ enableRW .datum = false
      ∧ lit.powered (pPort 0) = true ∧ lit.powered 0x280 = true ∧ ({} : Stage).dieUp = true ∧ ({} : Stage).powered (pBat 0) = false := by
  dsimp only [Passes, Live]; and_intros <;> decide +kernel

theorem witness_Bridges :
    (∀ st ∈ [0, 1, 2, 3], Live (on (bridged st none none 0)) .bridge 7 ∧ (bridged st none none 0).brState 7 = st)
      ∧ ((bridged 2 none none 0).bridge 7).leaving = false ∧ ((bridged 2 (some { down := true, j := 0, n := 1 }) none 0).bridge 7).leaving = true
      ∧ (bridged 2 (some { down := true, j := 0, n := 1 }) none 0).brState 7 = 2
      ∧ ((foreign 0).brOn 7 && (foreign 0).brForeign 7) = true ∧ (foreign 0).brState 7 = 0
      ∧ ((bridged 0 none none 0).brOn 7 && (bridged 0 none none 0).brForeign 7) = false
      ∧ brInRange 7999999 = false ∧ brInRange 8000000 = true ∧ brInRange 216000000 = true ∧ ((bridged 1 none none 0).bridge 7).window = none
      ∧ (bridged 1 none (some 100000000) 0).brState 7 = 1 ∧ ((bridged 1 none (some 100000000) 0).bridge 7).window = some 100000000
      ∧ ((100001000 : Nat) - (100000000 : Nat) : Int).natAbs * 1000000 ≤ 10 * 100000000
      ∧ 10 * 100000000 < ((100001001 : Nat) - (100000000 : Nat) : Int).natAbs * 1000000
      ∧ (bridged 2 none none 100000000).brState 7 = 2 ∧ ((bridged 2 none none 100000000).bridge 7).leaving = false
      ∧ 1000 * ((bridged 2 none none 100000000).bridge 7).ratio < ((100100001 : Nat) - (((bridged 2 none none 100000000).bridge 7).ratio : Int)).natAbs * 1000000
      ∧ ((100100000 : Nat) - (((bridged 2 none none 100000000).bridge 7).ratio : Int)).natAbs * 1000000 ≤ 1000 * ((bridged 2 none none 100000000).bridge 7).ratio
      ∧ (∀ h ∈ [({ down := true, j := 4, n := 4 } : HalfDip), { down := false, j := 4, n := 4 }, { down := true, j := 3, n := 4 }],
        Live (on (bridged 2 (some h) none 0)) .bridge 7 ∧ ((bridged 2 (some h) none 0).bridge 7).fade = some h)
      ∧ ∃ t, exec (.bridgeEdgeGap 7) (on lit) = .next t := by
  dsimp only [Live]
  and_intros
  all_goals first | decide +kernel | exact ⟨_, rfl⟩

/-! ### Graphs -/

/-- A part that runs graph 1 in mode `m`. -/
def graph1 (m : Nat) : Stage := (inMode m lit).set64 pGraph 0x094 1

/-- In that part's pool, the smallest image: a partial one on graph 1 with CAPACITY and LATENCY alone. -/
def imaged (m : Nat) : Stage :=
  [(0, 0x4853594C), (4, 0x10000), (8, 16512), (12, 1), (0x10, 2), (0x18, 2), (0x20, 1), (0x28, 2682701991), (0x40, 9), (0x44, 0x60), (0x48, 32), (0x50, 10),
    (0x54, 0x80), (0x58, 16384)].foldl (fun (s : Stage) (e : Nat × Nat) => s.wr32 (poolBase + e.1) (Word.ofNat e.2)) (graph1 m)

/-- What LOAD_GRAPH finds at the pool's start in that part, or in one without an image. -/
def found (s : Stage) : Option Nat × Stage := (s.issued mgmt pGraph 1 [0#32, 1#32]).unstage.loaderFind (0 % 2 ^ 32 + 1 % 16 * 2 ^ 32)

theorem zeros_crc : stepped (crcByte 0x82F63B78) (List.replicate 16404 0#8) 2365755274 = 1612265304 := by decide +kernel

theorem image_crc : ((found (imaged 4)).2.wakeFor poolBase).imageCrc poolBase = 2682701991 :=
  Stage.imageCrc_eq _ poolBase 0x40 16404 2365755274 1612265304 (by decide +kernel) (by decide +kernel) (by decide +kernel) zeros_crc

theorem image_passes : ((found (imaged 4)).2.wakeFor poolBase).imageFail poolBase = none := by
  have h1 : ((found (imaged 4)).2.wakeFor poolBase).placeOk poolBase = true := by decide +kernel
  have h2 : ((found (imaged 4)).2.wakeFor poolBase).formatFail poolBase = none := by decide +kernel
  have h3 : ((found (imaged 4)).2.wakeFor poolBase).imgW poolBase 0x28 = 2682701991 := by decide +kernel
  unfold Stage.imageFail
  rw [h1, h2, image_crc, h3]
  decide +kernel

/-- An image staged there under handle 9, with the command and the commit given. -/
def stagedAt (k : Option Commit) : Stage :=
  let s := imaged 4
  { s with graph := { s.graph with staged := some { handle := 9, addr := poolBase, size := 16512, id := 2, crc := 0, gap := 2, live := false }, commit := k } }

/-- A commit in progress of a staged image at `a`. -/
def commitAt (a : Nat) (sw cp : Bool) : Commit :=
  { cmd := none, c := 1, n := 0, s := 1, r := 3, u := 3, done := 3, img := { handle := 9, addr := a, size := 128, id := 2, crc := 0, gap := 2, live := false },
    dips := [], replaced := [0], dark := false, swapped := sw, copied := cp }

/-- A committed image at the pool's second bank whose SP_MEM section of SP 0 lies beyond the pool. -/
def strayed : Stage :=
  [(0x10, 1), (0x40, 4), (0x44, 0x2000000), (0x48, 64)].foldl (fun (s : Stage) (e : Nat × Nat) => s.wr32 (poolBase + 0x20000 + e.1) (Word.ofNat e.2))
    { graph1 4 with graph := { commit := some (commitAt (poolBase + 0x20000) true false) } }

theorem witness_GraphCommands :
    (∀ s ∈ [imaged 4, graph1 4], Ready (on s) pGraph ∧ RingFree s ∧ (found s).1 = some poolBase ∧ ((found s).2.wakeFor poolBase).ecc = [])
      ∧ 1 % 32 ≠ 0 ∧ 0 % 32 = 0 ∧ (((found (graph1 4)).2.wakeFor poolBase).imageFail poolBase).isSome = true
      ∧ Ready (on (stagedAt none)) pGraph ∧ RingFree (stagedAt none) ∧ (stagedAt none).graph.staged.isSome = true ∧ commitMode (stagedAt none).mode = true
      ∧ ((stagedAt none).graph.staged.map fun g => g.handle) = some (9 % 2 ^ 32) ∧ 65535 % 2 ^ 32 + 2 ^ 32 * (0 % 2 ^ 32) ≤ (stagedAt none).datum.index + 65535
      ∧ (stagedAt none).datum.index + 65535 < 65536 % 2 ^ 32 + 2 ^ 32 * (0 % 2 ^ 32) ∧ (∀ x ∈ (stagedAt none).sects poolBase, x.typ ≠ tRegImage)
      ∧ 9 ≠ 8 % 2 ^ 32
      ∧ lit.dieUp = true ∧ lit.graph.commit = none
      ∧ (∀ k ∈ [commitAt poolBase false false, commitAt poolBase true true, commitAt poolBase true false],
        (stagedAt (some k)).dieUp = true ∧ (stagedAt (some k)).graph.commit = some k)
      ∧ (commitAt poolBase true false).swapped = true ∧ (commitAt poolBase true false).copied = false ∧ (commitAt poolBase true false).dark = false
      ∧ ((stagedAt (some (commitAt poolBase true false))).sects poolBase).filter (Sys2Proof.Machine.copied [0]) = []
      ∧ strayed.dieUp = true ∧ strayed.graph.commit = some (commitAt (poolBase + 0x20000) true false)
      ∧ (∃ x ∈ (strayed.sects (poolBase + 0x20000)).filter (Sys2Proof.Machine.copied [0]), strayed.imgHeld (poolBase + 0x20000 + x.off) x.len = false) := by
  dsimp only [Ready, RingFree]; and_intros <;> decide +kernel

/-! ### The datum -/

/-- The part with datum `d` in mode `m`. -/
def dated (m : Nat) (d : DatumSt) : Stage := { inMode m lit with datum := d }

theorem witness_DatumEvents :
    lit.dieUp = true ∧ lit.datum.everLocked = false ∧ ({ everLocked := true } : DatumSt).everLocked = true ∧ lit.srcAlt = 0
      ∧ (∀ v ∈ [ServoState.acquire, .locked, .slew, .free, .holdover], (dated 4 { servo := v }).datum.servo = v ∧ (dated 4 { servo := v }).datum.planEnd = none
        ∧ (dated 4 { servo := v }).srcAlt = 0 ∧ (dated 4 { servo := v }).dieUp = true)
      ∧ (dated 4 { servo := .slew, planEnd := some 9 }).datum.planEnd = some 9
      ∧ (∀ r ∈ [1 + 3000 * 1000000 * unit], ∀ s ∈ [(dated 4 { srcNow := 1, lastOff := [(2, (1, 0))] }).setN pDatum 0x080 0x210],
        s.dieUp = true ∧ s.datum.srcNow = s.src ∧ s.srcAlt ≠ 0 ∧ s.srcAlt ≠ s.src ∧ Tab.find s.datum.lastOff s.srcAlt = some (1, 0)
        ∧ max s.datum.raw r - 1 ≤ s.holdTimeout)
      ∧ (1 : Int) ≠ 0 ∧ stepMode (dated 3 { stepReady := [{ amount := 1, cmd := none }] }).mode = true
      ∧ (dated 3 { stepReady := [{ amount := 1, cmd := none }] }).datum.stepReady = [{ amount := 1, cmd := none }] ∧ lit.datum.stepReady = []
      ∧ true ≠ lit.flag pDatum 0x0F0 0 ∧ (∃ l, (dated 4 { ppsLast := some 1 }).datum.ppsLast = some l
        ∧ (max (dated 4 { ppsLast := some 1 }).datum.raw 58982400000000 : Nat) - l < 58982400000000)
      ∧ false = lit.flag pDatum 0x0F0 0 ∧ lit.datum.ppsLast = none ∧ (dated 4 { ppsOk := true }).datum.ppsOk = true ∧ lit.datum.ppsOk = false
      ∧ (lit.setFlag pDatum 0x080 16 true).flag pDatum 0x080 16 = true ∧ (lit.setFlag pDatum 0x080 16 true).datum.servo = .free
      ∧ lit.flag pDatum 0x080 16 = false
      ∧ (lit.setN pDatum 0x0F0 0xC0000000).flag pDatum 0x0F0 31 = true ∧ (lit.setN pDatum 0x0F0 0xC0000000).flag pDatum 0x0F0 30 = true
      ∧ (dated 4 { servo := .locked }).datum.servo = .locked := by
  refine ⟨by decide +kernel, by decide +kernel, by decide +kernel, by decide +kernel, by decide +kernel, by decide +kernel, by decide +kernel, by decide +kernel,
    by decide +kernel, by decide +kernel, by decide +kernel, by decide +kernel, ⟨1, by decide +kernel⟩, ?_⟩
  decide +kernel

theorem witness_DatumEvents_commands :
    Ready (on lit) pDatum ∧ stepMode lit.mode = true ∧ Ready (on (inMode 4 lit)) pDatum ∧ stepMode (inMode 4 lit).mode = false ∧ RingFree (inMode 4 lit)
      ∧ Passes (on lit) mgmt .datum 0 0x080 0x10
      ∧ (∀ e ∈ [((100000 : Nat), 0), (0, 0)], ∀ s ∈ [(dated 4 { srcNow := 4 }).setN pDatum 0x0DC e.1], Passes (on s) mgmt .datum 0 0x0E0 e.2
        ∧ s.datum.srcNow = 4 ∧ s.datum.servo = .free ∧ s.datum.asym = false ∧ s.datum.switched = false
        ∧ ((sext 64 (s.regN pDatum 0x0DC + regWord .datum 0 0x0E0 e.2 * 2 ^ 32)).natAbs : Int) ≤ s.stepThr)
      ∧ ∃ t, exec .pllLock (on lit) = .next t := by
  dsimp only [Ready, RingFree, Passes, Live]
  refine ⟨by decide +kernel, by decide +kernel, by decide +kernel, by decide +kernel, by decide +kernel, by decide +kernel, by decide +kernel, _, rfl⟩

/-! ### Time ports -/

/-- NET7 with a link and its time port enabled, one-step or not, in state `st` under profile `pr`, and holding `t`. -/
def timePort (st pr : Nat) (one : Bool) (t : TimePort) : Stage :=
  { (lit.setFlag (pNet 7) 0x084 31 true).setN (pNet 7) 0x300 (1 + (if one then 2 else 0) + st * 16 + pr * 256) with tports := [(pNet 7, t)] }

/-- A message of sequence number 5 that such a port takes, or with `other` one of another domain. -/
def ptp (two other : Bool) : PtpMsg := { domain := if other then 77 else 0, sdo := 0, seq := 5, corr := 0, sec := 1, ns := 2, twoStep := two }

theorem witness_PtpMessages :
    (∀ st ∈ [tpSlave, tpMaster, 0], ∀ one : Bool, LiveNet (on (timePort st 0 one {})) 7 ∧ (timePort st 0 one {}).tpEn (pNet 7) = true
        ∧ (timePort st 0 one {}).tpState (pNet 7) = st ∧ (timePort st 0 one {}).tpOneStep (pNet 7) = one ∧ (timePort st 0 one {}).tpProfile (pNet 7) = 0
        ∧ (timePort st 0 one {}).ptpMatch (pNet 7) (ptp false true) = false
        ∧ (∀ two : Bool, TakesPtp (on (timePort st 0 one {})) 7 (ptp two false) ∧ (ptp two false).twoStep = two))
      ∧ (∀ t ∈ [({ sync := some (5, 10, 0), req := some (5, 3), last := some (1, 2, 0), presp := some (5, 4, 6, 0) } : TimePort)],
        TakesPtp (on (timePort 2 0 true t)) 7 (ptp true false) ∧ (timePort 2 0 true t).tp (pNet 7) = t ∧ t.sync = some ((ptp true false).seq, 10, 0)
        ∧ t.req = some ((ptp true false).seq, 3) ∧ t.last = some (1, 2, 0) ∧ t.dbar = none ∧ t.presp = some ((ptp true false).seq, 4, 6, 0)
        ∧ (timePort 2 0 true t).tpProfile (pNet 7) = 0)
      ∧ (∃ t, exec (.ptpSyncSend 7 0) (on lit) = .next t) := by
  dsimp only [TakesPtp, LiveNet, Live]
  refine ⟨by decide +kernel, by decide +kernel, _, rfl⟩

/-- In SLAVE with no Sync awaiting its origin, no Follow_Up is taken. -/
theorem witness_PtpMessages_none :
    ∀ q t2 c, ((timePort 2 0 true {}).tp (pNet 7)).sync = some (q, t2, c) → q ≠ (ptp true false).seq := by
  intro q t2 c h
  rw [show ((timePort 2 0 true {}).tp (pNet 7)).sync = none by decide +kernel] at h
  exact absurd h (by simp)

/-- ISL_LINK3 enabled, with its time port in state `st`. -/
def linkTime (st : Nat) : Stage := lit.setN (pLink 3) 0x300 (1 + st * 16)

theorem witness_TimePorts :
    (∀ v ∈ [0x21, 0x31, 0x20], ∀ st ∈ [2, 3], Passes (on (timePort st 0 true {})) mgmt .net 7 0x300 v ∧ (timePort st 0 true {}).tpState (pNet 7) = st
        ∧ Passes (on (linkTime st)) mgmt .link 3 0x300 v)
      ∧ (∀ adj : Bool, Passes (on lit) mgmt .net 0 (if adj then 0x30C else 0x308) 0xFFFFFFFF ∧ Passes (on lit) mgmt .link 0 (if adj then 0x30C else 0x308) 1)
      ∧ (∀ st ∈ [2, 3], Live (on (linkTime st)) .link 3 ∧ (linkTime st).tpEn (pLink 3) = true ∧ (linkTime st).tpState (pLink 3) = st
        ∧ ((linkTime st).tp (pLink 3)).dbar = none)
      ∧ (∃ t, exec (.timeFrameSend 3 0) (on lit) = .next t) := by
  dsimp only [Passes, Live]
  refine ⟨by decide +kernel, by decide +kernel, by decide +kernel, _, rfl⟩

/-! ### Ports and decimators -/

/-- PORT0 enabled in clock group 0, which is a master that drives or a slave, with its last edge at frame `e` and directions `rx` and `tx`. -/
def porting (master : Bool) (e : Option Nat) (rx tx : PortDir) : Stage :=
  { ((lit.setFld (pPort 0) 0x0C0 31 31 (if master then 1 else 0)).setFlag (pPort 0) 0x00C 0 true).setN (pPort 0) 0x0C4 48000 with
    ports := [(0, { edge := e, rx := rx, tx := tx })], datum := { everLocked := true, started := true } }

/-- One frame of 48 kHz in 2^-16 ns. -/
def frame : Nat := 1365333333

theorem witness_PortsAndDecimators :
    (∀ rate : Bool, Passes (on lit) mgmt .port 0 (if rate then 0x0C4 else 0x0C0) (if rate then 8000 else 0x80000202))
      ∧ (∀ v ∈ [0x80000000, 0], Passes (on lit) mgmt .port 0 0x0CC v) ∧ Passes (on lit) mgmt .port 0 0x080 0
      ∧ (∀ k ∈ [0, 3], Passes (on lit) mgmt .decim 0 (0x0B0 + 4 * k) 0x80000000) ∧ Live (on lit) .port 31
      ∧ (∀ ms : Bool, ∀ s ∈ [porting ms (some 0) {} {}], Live (on s) .port 0 ∧ s.portDomain 0 ≠ 2 ∧ s.portOn 0 = true ∧ (s.port 0).barred = false
        ∧ (s.port 0).edge = some 0
        ∧ ((cgMaster (s.cgCfg (s.portGroup 0)) = true ∧ s.cgDrives (s.portGroup 0) = true) ∨ (cgMaster (s.cgCfg (s.portGroup 0)) = false ∧ (s.port 0).learning = false))
        ∧ (s.frameNear 0 (s.psi 0) ((s.tick frame).datum.at frame)).1 = 1 ∧ (s.frameNear 0 (s.psi 0) ((s.tick frame).datum.at frame)).2.1 = true
        ∧ (s.frameNear 0 (s.psi 0) ((s.tick (frame * 7 / 5)).datum.at (frame * 7 / 5))).2.1 = false
        ∧ (s.frameNear 0 (s.psi 0) ((s.tick 0).datum.at 0)).1 ≤ 0)
      ∧ lit.portDomain 31 ≠ 2 ∧ lit.portOn 31 = false ∧ (lit.port 31).edge = none
      ∧ (∀ s ∈ [porting true (some 0) {} {}], ∀ e ∈ [(frame * 11 / 8, true), (frame * 11 / 8 + 9, false)],
        decide (256 * (s.portM 0 : Int) * (s.tick e.1).datum.at e.1 * s.fs - s.psi 0 * s.portM 0 * unitsPerSec - 256 * (0 + 1) * unitsPerSec ≤ 96 * unitsPerSec) = e.2)
      ∧ (∀ s ∈ [{ porting false none {} {} with groups := [(0, { last := some 0 })] }], Live (on s) .port 0 ∧ cgMaster (s.cgCfg 0) = false
        ∧ (s.cg 0).last = some 0
        ∧ 0 * s.cgFrameRate (s.cgCfg 0) (s.fld (pPort 0) 0x0C4 17 0) + 4 * unitsPerSec
            ≤ (s.tick (4 * frame + 4)).now * s.cgFrameRate (s.cgCfg 0) (s.fld (pPort 0) 0x0C4 17 0))
      ∧ cgMaster ((porting true none {} {}).cgCfg 0) = true ∧ (lit.cg 31).last = none := by
  dsimp only [Passes, Live]; and_intros <;> decide +kernel

/-- A ramp-in that ends with frame 1, and a fade that does. -/
theorem witness_PortsAndDecimators_ramps :
    (∀ tx : Bool, ∀ s ∈ [porting true none { st := 2, live := some (0, 1) } { st := 2, live := some (0, 1) }, porting true none { fade := some (0, 1, 1) } { fade := some (0, 1, 1) }],
        Live (on s) .port 0 ∧ ((s.dir 0 tx).st = 2 ∧ (s.dir 0 tx).live = some (0, 1) ∨ (s.dir 0 tx).fade = some (0, 1, 1)))
      ∧ (∀ s ∈ [porting true none {} {}], (s.tick frame).dirReached 0 true (0 + 1) frame = true ∧ (s.tick 0).dirReached 0 true (0 + 1) 0 = false
        ∧ (s.tick frame).dirReached 0 true (0 + (1 + 1 - 1)) frame = true
        ∧ ({ s with datum := { s.datum with index := 50 } }.tick 0).dirReached 0 false (0 + 1) 0 = true ∧ (s.tick 0).dirReached 0 false (0 + 1) 0 = false) := by
  dsimp only [Live]; and_intros <;> decide +kernel

/-- `n` timed SYNCs wait, and the datum is at 10 s. -/
def syncing (n : Nat) : Stage := { lit with datum := { raw := 10 * unitsPerSec }, syncs := (upTo n).map fun i => { mask := i, datum := 0, cmd := none } }

theorem witness_PortsAndDecimators_sync :
    (∀ n ∈ [15, 16], Ready (on (syncing n)) pDecim ∧ RingFree (syncing n) ∧ (syncing n).timedSyncs = n) ∧ lit.places < 4096 ∧ bit 0x7FFFFFFF 31 = false
      ∧ bit 0x80000000 31 = true ∧ bits 999999999 29 0 < 1000000000 ∧ 1000000000 ≤ bits 1000000000 29 0
      ∧ (syncing 15).datumOf (9 % 2 ^ 32) (999999999 % 2 ^ 30) < (syncing 15).now ∧ (syncing 15).now ≤ (syncing 15).datumOf (10 % 2 ^ 32) (0 % 2 ^ 30)
      ∧ (syncing 16).now ≤ (syncing 16).datumOf (10 % 2 ^ 32) (0 % 2 ^ 30) ∧ lit.dieUp = true ∧ lit.decs = []
      ∧ (∃ t, exec (.clkLost 0 0) (on lit) = .next t) := by
  dsimp only [Ready, RingFree]
  and_intros
  all_goals first | decide +kernel | exact ⟨_, rfl⟩

/-! ### Lanes and links -/

/-- Lane `i` enabled for every rate, in state `st` at rate 1, with `l`. -/
def laned (i st : Nat) (l : LaneSt) : Stage :=
  { ((lit.setFld (lanePage i) (laneBase i) 31 31 1).setFld (lanePage i) (laneBase i) 28 24 (if i < 16 then 31 else 1)).setFld (lanePage i) (laneBase i + 4) 26 24 st
      |>.setFld (lanePage i) (laneBase i + 4) 23 21 1 with lanes := [(i, l)] }

theorem witness_Lanes_writes :
    (∀ e ∈ [((15 : Nat), PageKind.lanes, (0 : Nat)), (23, .net, 7)], LiveLane (on lit) e.1 ∧ (e.2.1, e.2.2) = (if e.1 < 16 then (.lanes, 0) else (.net, e.1 - 16))
        ∧ (∀ v ∈ (if e.1 < 16 then [0x9F100064, 0x1F802710] else [0x81100064, 0x01802710]), Passes (on lit) mgmt e.2.1 e.2.2 (laneBase e.1) v ∧ Passes (on (laned e.1 5 {})) mgmt e.2.1 e.2.2 (laneBase e.1) v)
        ∧ Passes (on (laned e.1 5 {})) mgmt e.2.1 e.2.2 (laneBase e.1 + 0x0C) 1
        ∧ lit.laneEn e.1 = false ∧ bit 0x81100064 31 = true ∧ bit 0x01802710 31 = false ∧ (laned e.1 5 {}).laneEn e.1 = true) := by
  dsimp only [Passes, Live, LiveLane]; decide +kernel

theorem witness_Lanes :
    (∀ i ∈ [0, 15, 16, 23], ∀ st ∈ [lnOff, lnSeek, lnLock, lnAgree, lnDeskew, lnUp], LiveLane (on (laned i st {})) i ∧ (laned i st {}).laneState i = st
        ∧ (laned i st {}).laneStat i 28 28 = 0)
      ∧ (∀ l ∈ [({ ts1 := 6, ack := 7, ts2 := 6, rate := 1 } : LaneSt), { ts1 := 7, ts2 := 7, rate := 1 }, { ts2 := 7, rate := 0 }, { trying := true }, {}],
        (laned 15 1 l).lane 15 = l ∧ (laned 15 3 l).lane 15 = l ∧ l.changing = false)
      ∧ bit ((laned 15 3 {}).laneCfg 15 28 24) 1 = true ∧ bit ((laned 15 3 {}).laneStat 15 20 16) 1 = false
      ∧ bit (((laned 15 3 {}).setLaneStat 15 20 16 2).laneStat 15 20 16) 1 = true ∧ bit (lit.laneCfg 15 28 24) 5 = false
      ∧ ((laned 15 3 { changing := true }).lane 15).changing = true ∧ (laned 15 3 { changing := true }).laneRate 15 < 5
      ∧ (∀ ex : Bool, ((laned 15 5 { exiting := ex }).setLaneStat 15 28 28 1).laneStat 15 28 28 = 1
        ∧ (((laned 15 5 { exiting := ex }).setLaneStat 15 28 28 1).lane 15).exiting = ex ∧ ((laned 15 5 { exiting := ex }).setLaneStat 15 28 28 1).laneState 15 = lnUp
        ∧ LiveLane (on ((laned 15 5 { exiting := ex }).setLaneStat 15 28 28 1)) 15)
      ∧ (∀ s ∈ [(inMode 4 lit).setN pReh 0x080 8], LiveLane (on s) 5 ∧ s.rehOn 3 = true ∧ s.laneEn 5 = false ∧ 5 ∉ s.reh.laneRerun
        ∧ 5 ∈ ({ s with reh := { laneRerun := [5] } } : Stage).reh.laneRerun)
      ∧ (∀ s ∈ [(laned 3 4 {}).setFld 0x270 0x080 25 24 2], Live (on s) .link 0 ∧ s.laneState 3 = lnDeskew ∧ s.inBond 3 = true
        ∧ (∀ i, i < 4 → s.laneState i = lnDeskew → s.inBond i = true → s.laneRate i = 1))
      ∧ [0, 0, 0, 10].getD (3 % 4) 0 * symbolTenths 1 ≤ 400 ∧ 400 < [0, 0, 0, 11].getD (3 % 4) 0 * symbolTenths 1
      ∧ (∃ t, exec (.ts1Rx 0 0 false) (on lit) = .next t) := by
  dsimp only [Passes, Live, LiveLane]
  and_intros
  all_goals first | decide +kernel | exact ⟨_, rfl⟩

/-- ISL_LINK3 enabled in state `st` with flags `f` of LINK_STAT, blocks of 8, an offset of 16 samples, 65 channels each way, and `l`. -/
def linked (st f : Nat) (l : LinkSt) : Stage :=
  { ((((lit.setN (pLink 3) 0x080 0x82071000).setN (pLink 3) 0x084 (st + f)).setN (pLink 3) 0x088 0x00410000).setN (pLink 3) 0x08C 0x00410000).setN (pLink 3) 0x094 0x03000000
    with links := [(3, l)] }

theorem witness_Links :
    (∀ v ∈ [0x82071001, 0x00071001], Passes (on lit) mgmt .link 3 0x080 v) ∧ bit 0x82071001 31 = true ∧ bit 0x00071001 31 = false
      ∧ (linked 2 0 {}).linkEn 3 = true ∧ Passes (on (lit.setFlag (pLink 3) 0x080 31 true)) mgmt .link 3 0x090 15 ∧ Passes (on lit) mgmt .link 3 0x090 1
      ∧ (∀ s ∈ [linked 2 0 {}], Live (on s) .link 3 ∧ 2 ≤ s.linkState 3 ∧ 8 % s.blockOf 3 = 0 ∧ 9 % s.blockOf 3 ≠ 0
        ∧ (∀ j, j < s.blockOf 3 → (s.handedAt (8 + j)).isSome = true) ∧ s.flag (pLink 3) 0x084 19 = false ∧ 1 < groupsOf (s.txCount 3)
        ∧ 8 = nearestMod (2 ^ 32) s.datum.index 8 ∧ groupsOf (s.rxCount 3) = 2 ∧ groupSize (s.rxCount 3) 1 = 1 ∧ groupSize (s.rxCount 3) 0 ≠ 1
        ∧ s.datum.index < 8 + s.rxOffset 3 ∧ 8 ≤ s.datum.index + 128 ∧ 128 = nearestMod (2 ^ 32) s.datum.index 128 ∧ 128 ≤ s.datum.index + 128
        ∧ 129 = nearestMod (2 ^ 32) s.datum.index 129 ∧ s.datum.index + 128 < 129)
      ∧ (∀ s ∈ [{ linked 2 0 {} with datum := { index := 16 } }], 0 = nearestMod (2 ^ 32) s.datum.index 0 ∧ 0 + s.rxOffset 3 ≤ s.datum.index)
      ∧ (linked 1 0 {}).linkState 3 < 2 ∧ Live (on (linked 1 0 {})) .link 3
      ∧ (∀ e ∈ [((2 : Nat), 4), (2, 3), (4, 4), (4, 3)], ∀ gr ∈ [({ st := e.1, j := e.2, nf := 4 } : LinkGroup)], Live (on (linked 2 0 { groups := [(63, gr)] })) .link 3
        ∧ gr = Tab.get {} ((linked 2 0 { groups := [(63, gr)] }).link 3).groups 63)
      ∧ (linked 2 0 {}).ctrlOk 3 = false
      ∧ (∀ c ∈ [({ expect := 255, ackDue := true, out := [(255, .request), (0, .request)], timeouts := 1 } : CtlSt), { out := [(255, .request)], timeouts := 2 }],
        ∀ s ∈ [linked 2 0x60000 { ctl := c }], s.ctrlOk 3 = true ∧ (s.link 3).ctl = c ∧ ((s.linkCols 3 15).link 3).ctl = c ∧ Live (on s) .link 3 ∧ c.queue = []
        ∧ c.out ≠ [] ∧ s.fld (pLink 3) 0x094 31 24 = 3 ∧ s.hbOk 3 = true)
      ∧ 1 ≤ (0 + 256 - 255) % 256 ∧ (1 + 256 - 255) % 256 ≤ [((0 : Nat), CtlMsg.request)].length + 1 ∧ 1 + 1 < 3 ∧ 3 ≤ 2 + 1
      ∧ (linked 2 0 {}).hbOk 3 = false ∧ ((linked 2 0 {}).link 3).ctl.out = []
      ∧ ((linked 2 0 {}).setFlag (pLink 3) 0x09C 8 true).flag (pLink 3) 0x09C 8 = true
      ∧ (∃ t, exec (.ackOnlyTimer 3) (on lit) = .next t) := by
  dsimp only [Passes, Live]
  and_intros
  all_goals first | decide +kernel | exact ⟨_, rfl⟩

/-! ### Redundancy -/

/-- A pair's joiner or understudy (mode `m`) with the book, whose catch-up on link 0 is in phase `ph` with hold boundary 3, at index `n`. -/
def joiner (m ph n : Nat) : Stage :=
  { ((book m 0).setN pRed 0x080 1).setFlag (pLink 0) 0x084 18 true with
    datum := { index := n }, red := { catchup := if m = 7 then some { link := 0, cmd := none, phase := ph, h := 3 } else none } }

theorem witness_ForwardedRecords :
    (∀ s ∈ [joiner 6 2 5, joiner 7 2 5, joiner 7 4 5], LiveCtl (on s) 0 ∧ s.takesRecords 0 = true ∧ 6 > s.datum.index ∧ s.holdAt ≤ 5 ∧ 5 ≤ s.datum.index ∧ s.holdAt ≤ 3
        ∧ TakesCue s 7 1 ∧ s.graph.staged = none ∧ (∀ tr ∈ s.prompt.trigs, ¬ (tr.cue = 0 ∧ tr.b = 1)))
      ∧ LiveCtl (on (joiner 4 0 5)) 0 ∧ (joiner 4 0 5).takesRecords 0 = false ∧ (joiner 7 1 5).takesRecords 0 = false ∧ LiveCtl (on (joiner 7 1 5)) 0
      ∧ 2 < (joiner 7 2 5).holdAt ∧ regionOf 0x2E0088 4 = .regs ∧ regionOf 0x10000000 4 ≠ .regs
      ∧ (∀ s ∈ [{ joiner 6 2 5 with prompt := { trigs := [trig 9] } }], LiveCtl (on s) 0 ∧ s.takesRecords 0 = true
        ∧ (s.prompt.trigs.find? fun t => t.cue == 0 && t.b == 9) = some (trig 9))
      ∧ (∀ s ∈ [{ joiner 6 2 5 with datum := { raw := 10 } }], LiveCtl (on s) 0 ∧ s.takesRecords 0 = true ∧ boundaryDatum s.holdAt s.fs ≤ 9 ∧ 9 < s.now ∧ s.now ≤ 10) := by
  dsimp only [LiveCtl, Live, TakesCue]; and_intros <;> decide +kernel

/-- A part in SOLO with the mirror and the tableau messages as the flags say, a merge distance of 4 and the triggers and runs given, at index 5 and datum 10. -/
def mirrored (go tb : Bool) (tr : List Trig) (ran : List (Nat × Nat)) : Stage :=
  { ((((book 4 0).setFlag (pLink 3) 0x084 18 true).setFlag pPrompt 0x080 6 go).setFlag pTab 0x080 5 tb) with
    datum := { index := 5, raw := 10 }, prompt := { trigs := tr, ran := ran } }

theorem witness_ForwardedRecords_mirror :
    (∀ s ∈ [mirrored true true [] [], mirrored true true [trig 9] [], mirrored true true [] [(0, 9)], mirrored false false [] []], LiveCtl (on s) 3)
      ∧ (mirrored false false [] []).flag pPrompt 0x080 6 = false ∧ LiveCtl (on (joiner 6 2 5)) 0 ∧ (joiner 6 2 5).mode = mUnderstudy
      ∧ (mirrored true true [] []).flag pPrompt 0x080 6 = true ∧ trigMode (mirrored true true [] []).mode 5 = .take
      ∧ ((mirrored true true [trig 9] []).prompt.trigs.find? fun t => t.cue == 0 && (mirrored true true [trig 9] []).mergeNear t.b 9) = some (trig 9)
      ∧ (∃ r ∈ (mirrored true true [] [(0, 9)]).prompt.ran, r.1 = 0 ∧ (mirrored true true [] [(0, 9)]).mergeNear r.2 9 = true)
      ∧ (∀ tr ∈ (mirrored true true [] [(0, 9)]).prompt.trigs, ¬ (tr.cue = 0 ∧ (mirrored true true [] [(0, 9)]).mergeNear tr.b 9 = true))
      ∧ (∀ r ∈ (mirrored true true [] []).prompt.ran, ¬ (r.1 = 0 ∧ (mirrored true true [] []).mergeNear r.2 9 = true))
      ∧ TakesCue (mirrored true true [] []) 5 0 ∧ (mirrored true true [] []).datum.index < 6
      ∧ (mirrored false false [] []).flag pTab 0x080 5 = false ∧ (mirrored true true [] []).flag pTab 0x080 5 = true
      ∧ 9 < (mirrored true true [] []).now ∧ (mirrored true true [] []).now ≤ 10
      ∧ ∃ t, exec (.tableauMessage 3 0) (on lit) = .next t := by
  dsimp only [LiveCtl, Live, TakesCue]
  and_intros
  all_goals first | decide +kernel | exact ⟨_, rfl⟩

/-- A pair's part in mode `m` whose peer on link 0 is in mode `pm`, with redundancy state `r`. -/
def paired (m pm : Nat) (r : RedSt) : Stage :=
  { (((inMode m lit).setN pRed 0x080 1).setN (pLink 0) 0x084 0x60003).setN (pLink 0) 0x09C (256 + pm) with red := r }

theorem witness_GroupRoles :
    Passes (on lit) mgmt .redundancy 0 0x080 1 ∧ Passes (on lit) mgmt .redundancy 0 0x080 5 ∧ Passes (on lit) mgmt .redundancy 0 0x094 0xFFFFFFFF
      ∧ Ready (on (paired 5 6 {})) pRed ∧ (paired 5 6 {}).eligible = true ∧ (paired 5 6 {}).red.abdicating = none
      ∧ Ready (on (paired 5 4 {})) pRed ∧ (paired 5 4 {}).eligible = false ∧ RingFree (paired 5 4 {})
      ∧ (paired 5 6 { abdicating := some (9, none) }).red.abdicating ≠ none ∧ Ready (on (paired 5 6 { abdicating := some (9, none) })) pRed
      ∧ Ready (on (paired 9 5 {})) pRed ∧ (paired 9 5 {}).mode = mIsolated ∧ (paired 9 5 {}).joinLink.isSome = true
      ∧ (paired 5 6 {}).mode ≠ mIsolated ∧ RingFree (paired 5 6 {})
      ∧ LiveCtl (on (paired 5 6 {})) 0 ∧ (paired 5 6 {}).memberLink 0 = true
      ∧ LiveCtl (on (mirrored true true [] [])) 3 ∧ (mirrored true true [] []).memberLink 3 = false
      ∧ (paired 5 6 {}).mode = mPrincipal ∧ ((Tab.get none (paired 5 6 {}).red.hellos 0).map (·.2)).getD (paired 5 6 {}).graphId = (paired 5 6 {}).graphId
      ∧ ((Tab.get none (paired 5 6 {}).red.hellos 0).map (·.1)).getD (paired 5 6 {}).version = (paired 5 6 {}).version
      ∧ (paired 5 6 {}).red.source = none
      ∧ (∀ e ∈ [((0 : Nat), (1 : Nat), (1 : Nat)), (5, 0, 2)], ∀ s ∈ [paired 5 6 { hellos := [(0, some (if e.1 = 0 then 2 ^ 24 else e.1, e.2.1))] }],
        e.2.2 = (if e.2.1 ≠ s.graphId then 1 else if (if e.1 = 0 then 2 ^ 24 else e.1) ≠ s.version then 2 else 3) ∧ e.2.2 ≠ 3)
      ∧ (∃ c, (paired 5 6 { source := some { link := 1 } }).red.source = some c ∧ c.link ≠ 0) := by
  dsimp only [Passes, Live, Ready, RingFree, LiveCtl]
  and_intros
  all_goals decide +kernel

/-- A catch-up in phase `ph` on link 0, with a HELLO of the source. -/
def catching (ph : Nat) (hello : Option (Nat × Nat)) (join : Option Nat) : Stage :=
  paired 7 5 { catchup := some { link := 0, cmd := none, phase := ph, join := join }, hellos := [(0, hello)] }

theorem witness_GroupRoles_catchup :
    (∀ ph ∈ [1, 2, 3, 4, 5], LiveCtl (on (catching ph none none)) 0 ∧ (catching ph none none).dieUp = true
        ∧ (catching ph none none).red.catchup = some { link := 0, cmd := none, phase := ph })
      ∧ Tab.get none (catching 1 none none).red.hellos 0 = none
      ∧ Tab.get none (catching 1 (some (2 ^ 24, 0)) none).red.hellos 0 = some ((catching 1 (some (2 ^ 24, 0)) none).version, (catching 1 (some (2 ^ 24, 0)) none).graphId)
      ∧ Tab.get none (catching 1 (some (7, 0)) none).red.hellos 0 = some (7, 0) ∧ 7 ≠ (catching 1 (some (7, 0)) none).version
      ∧ Tab.get none (catching 1 (some (2 ^ 24, 5)) none).red.hellos 0 = some (2 ^ 24, 5) ∧ 2 ^ 24 = (catching 1 (some (2 ^ 24, 5)) none).version
      ∧ 5 ≠ (catching 1 (some (2 ^ 24, 5)) none).graphId
      ∧ (catching 4 none (some 9)).red.catchup = some { link := 0, cmd := none, phase := 4, join := some 9 }
      ∧ lit.red.election = 0 ∧ (paired 2 5 { election := 1 }).red.election ≠ 0 ∧ (paired 2 5 { election := 1 }).triangulated = false
      ∧ (paired 2 5 { election := 1 }).hbOk 0 = true ∧ (paired 2 5 { election := 1 }).peerRole 0 = mPrincipal
      ∧ ((paired 2 5 { election := 1 }).setN pRed 0x080 2).triangulated = true
      ∧ ¬ ((paired 2 6 { election := 1 }).hbOk 0 = true ∧ (paired 2 6 { election := 1 }).peerRole 0 = mPrincipal) ∧ (paired 2 0 { election := 1 }).peerActive 0 = false
      ∧ ((paired 2 0 { election := 1 }).setN pRed 0x080 5).isPrimary = true ∧ (paired 2 0 { election := 2 }).red.election = 2
      ∧ (paired 2 0 { election := 1 }).isPrimary = false ∧ (paired 2 0 { election := 1 }).red.election ≠ 2
      ∧ ¬ ((paired 2 0 { election := 1 }).hbOk 0 = true ∧ (paired 2 0 { election := 1 }).peerRole 0 = mPrincipal)
      ∧ ∃ t, exec .electionTimeout (on lit) = .next t := by
  dsimp only [LiveCtl, Live]
  and_intros
  all_goals first | decide +kernel | exact ⟨_, rfl⟩

/-! ### Network ports -/

/-- NET0 enabled in mode `mode`, with its lane in state `st` and its link at `link`, having negotiated speed `v`. -/
def cabled (st mode : Nat) (link : Bool) (v : Nat) : Stage :=
  { (((lit.setFlag (pNet 0) 0x00C 0 true).setFld (pNet 0) 0x080 1 0 mode).setFld (pNet 0) 0x384 26 24 st).setFlag (pNet 0) 0x084 31 link with
    net := { neg := [(0, { up := true, full := true, speed := v })] } }

/-- A received frame of `n` zero bytes after Ethertype 0x88B5, to the port's own address, with its FCS or with a bad one. -/
def letter (n : Nat) (good : Bool) : List Byte :=
  let f := List.replicate 12 0#8 ++ [0x88#8, 0xB5#8] ++ List.replicate n 0#8
  f ++ (if good then fcs f else [0#8, 0#8, 0#8, 0#8])

/-- A descriptor of one channel of 16 bits, 12 samples a packet at 96 kHz: a talker or a listener, with DUP or not, to 10.0.0.1:5004. -/
def stream (talk dup : Bool) (count base : Nat) : List Nat :=
  [(if talk then 2 ^ 31 else 0) + (if dup then 2 ^ 29 else 0) + count, base, 0x0A000001, 0, 5004 * 65536 + 5004, 0x11223344, 0x5566, 64 * 65536 + 96, 7, 0]
    ++ List.replicate 6 0

/-- NET0 with a link, the contexts `ts` and `ls`, and the datum in boundary `n`. -/
def streamed (ts : Tab (Option Talker)) (ls : Tab (Option Listener)) (n : Nat) : Stage :=
  { cabled 5 0 true 3 with net := { talkers := ts, listeners := ls, drive := (some 0, none) }, datum := { index := n } }

/-- A listener's packet with sequence number 5 that starts at sample `k`, of version `v` (2 is sound). -/
def packet (k v : Nat) : List Byte :=
  onWire ((cabled 5 0 true 3).udpFrame 0 2 0 0 0x0A000001 5004 5004
    ([BitVec.ofNat 8 (v * 64), 96#8, 0#8, 5#8] ++ beBytes 4 k ++ beBytes 4 7 ++ List.replicate 12 1#8))

theorem witness_NetworkPorts :
    (∀ p ∈ [0, 7], Live (on lit) .net p ∧ lit.laneState (16 + p) = lnOff)
      ∧ (∀ st ∈ [1, 5], ∀ mode ∈ [0, 1, 2], ∀ link : Bool, Live (on (cabled st mode link 3)) .net 0 ∧ (cabled st mode link 3).laneState (16 + 0) ≠ lnOff
        ∧ (cabled st mode link 3).netMode 0 = mode ∧ (cabled st mode link 3).netLink 0 = link ∧ (cabled st mode link 3).netOn 0 = true)
      ∧ (cabled 5 0 true 3).netModeOk 0 = true ∧ (cabled 5 1 true 3).netModeOk 0 = false ∧ (cabled 5 0 true 3).flag (pNet 0) 0x080 31 = true := by
  dsimp only [Live]; and_intros <;> decide +kernel

theorem witness_NetworkPorts_frames :
    (∀ s ∈ [cabled 5 0 true 3], LiveNet (on s) 0 ∧ s.fate 0 (letter 46 true) = .firmware ∧ s.fate 0 (letter 46 false) = .discard true
        ∧ s.fate 0 (letter 45 true) = .discard false ∧ s.fate 0 (letter 46 true) ≠ .listener)
      ∧ (letter 1500 false).length = 1518 ∧ 1518 < (letter 1501 false).length := by
  dsimp only [LiveNet, Live]; and_intros <;> decide +kernel

/-- Samples 0 to 11 are sent in one packet. -/
theorem witness_NetworkPorts_talkers :
    (∀ s ∈ [streamed [(255, some { words := stream true true 1 0, start := 0 })] [] 0], Live (on s) .net 0
        ∧ (∃ w, s.talker 255 = some w ∧ s.talkerMay w 12 = true ∧ 0 ∈ dscPorts w.words ∧ 255 ∉ Tab.get [] s.net.shed 0)
        ∧ s.netLink 0 = true ∧ ∀ w, s.talker 255 = some w → s.talkerMay w 13 = false)
      ∧ ∀ w, lit.talker 0 = some w → lit.talkerMay w 0 = false := by
  refine ⟨?_, by decide +kernel⟩
  dsimp only [Live]
  intro s hs
  obtain rfl := List.mem_singleton.mp hs
  exact ⟨by decide +kernel, ⟨{ words := stream true true 1 0, start := 0 }, by decide +kernel⟩, by decide +kernel, by decide +kernel⟩

/-- A packet in time, one that is too late, one too far ahead, one of version 1, and one that a context has. -/
theorem witness_NetworkPorts_listeners :
    ∀ l ∈ [({ words := stream false false 1 0 } : Listener), { words := stream false true 1 0 },
        { words := stream false true 1 0, held := [{ k := 960, seq := 5, ts := 960, rows := [] }] }],
      ∀ s ∈ [streamed [] [(3, some l)] 1000], ∀ e ∈ [(937, 2), (936, 2), (5096, 2), (5097, 2), (960, 2), (960, 1)], ∀ u ∈ parseUdp ((packet e.1 e.2).take ((packet e.1 e.2).length - 4)),
        LiveNet (on s) 0 ∧ s.fate 0 (packet e.1 e.2) = .listener ∧ s.listenerOf 0 u = some (3, l) ∧ (rtpSound l.words u = true ↔ e.2 = 2)
          ∧ nearestMod (2 ^ 32) s.datum.index ((be u.data 4 4 + 2 ^ 32 - dsc l.words 9 31 0) % 2 ^ 32) = e.1
          ∧ (e.1 + dscPlayout l.words ≤ s.datum.index ↔ e.1 = 936) ∧ (s.datum.index + 4096 < e.1 ↔ e.1 = 5097)
          ∧ dscDup l.words = (l.held != [] || l.words != stream false false 1 0)
          ∧ (∀ h ∈ l.held, e.1 = 960 → h.seq = be u.data 2 2 ∧ h.ts = be u.data 4 4) := by
  dsimp only [LiveNet, Live]; decide +kernel

/-- There is such a packet. -/
theorem witness_NetworkPorts_packet : (parseUdp ((packet 960 2).take ((packet 960 2).length - 4))).isSome = true := by decide +kernel

/-- The Grid is locked, with one window of 64 KiB from Grid address `a` for class `cls`, reads and writes. -/
def windowed (cls a : Nat) (s : Stage) : Stage := { s with grid := { lock := true, wins := [(16 * cls, { base := a, size := 16, target := a, r := true, w := true })] } }

/-- The same part with descriptor `d` at the start of management memory. -/
def described (s : Stage) (d : List Nat) : Stage := ((upTo 16).zip d).foldl (fun s e => s.wr32 (0x10000000 + 4 * e.1) (Word.ofNat e.2)) (windowed 4 0x10000000 (s.setFld 0x000 0x088 2 0 3))

/-- What the order of checks makes of descriptor `d`. -/
def addBad (s : Stage) (d : List Nat) : Option (Nat × Nat) :=
  if s.freeContexts (dscTalker d) = [] then some (stNoContext, 0) else if dscCount d = 0 ∨ 64 < dscCount d then some (stRefused, 8)
  else if dscFormat d = false then some (stFailed, 2) else if dscRate d ≠ s.rateCode then some (stFailed, 3)
  else if 1440 < dscS d * dscCount d * dscBytes d then some (stFailed, 4) else if s.dscRangeBad d then some (stFailed, 6)
  else if s.dscTwice d then some (stFailed, 7) else if s.dscWide d then some (stFailed, 5) else none

/-- A descriptor at 96 kHz. -/
def fast (d : List Nat) : List Nat := d.modifyHead (· + 2 ^ 19)

/-- Every outcome of the checks, each with the part and the descriptor in which it comes. -/
def adds : List (Stage × List Nat × Option (Nat × Nat)) :=
  let n := cabled 5 0 true 3
  let full := streamed ((upTo 256).map fun i => (i, some { words := stream true false 1 0, start := 0 })) [] 0
  let one := streamed [] [(0, some { words := fast (stream false false 1 0) })] 0
  [(n, fast (stream true true 1 0), none), (n, fast (stream false false 60 1988), none), (full, fast (stream true false 1 0), some (stNoContext, 0)),
    (n, fast (stream true false 0 0), some (stRefused, 8)), (n, fast (stream true false 65 0), some (stRefused, 8)),
    (n, fast ((stream true false 1 0).set 10 1), some (stFailed, 2)), (n, stream true false 1 0, some (stFailed, 3)),
    (n, fast (stream true false 61 0), some (stFailed, 4)), (n, fast (stream false false 2 2047), some (stFailed, 6)), (one, fast (stream false false 1 0), some (stFailed, 6)),
    (one, fast (stream false false 1 1), some (stFailed, 7)), (n.setFld (pNet 0) 0x0A4 14 0 7500, fast (stream true false 1 0), some (stFailed, 5))]

theorem witness_NetworkPorts_add :
    (∀ e ∈ adds, ∀ s ∈ [described e.1 e.2.1], ∀ x ∈ [s.issued mgmt (pNet 0) 1 [Word.ofNat 0x10000000, Word.ofNat 0]],
        Ready (on s) (pNet 0) ∧ RingFree s ∧ 0x10000000 % 32 = 0
        ∧ ∃ d0 d1, (x.engineBeat { cls := 4, idx := 0 } 0x10000000 32).2 = some d0
          ∧ ((x.engineBeat { cls := 4, idx := 0 } 0x10000000 32).1.engineBeat { cls := 4, idx := 0 } (0x10000000 + 32) 32).2 = some d1
          ∧ ((x.engineBeat { cls := 4, idx := 0 } 0x10000000 32).1.engineBeat { cls := 4, idx := 0 } (0x10000000 + 32) 32).1.ecc = []
          ∧ (upTo 16).map (fun i => ofLeBytes (((d0 ++ d1).drop (4 * i)).take 4)) = e.2.1 ∧ addBad s e.2.1 = e.2.2)
      ∧ 0x10000004 % 32 ≠ 0 := by
  refine ⟨?_, by decide⟩
  dsimp only [Ready, RingFree]
  intro e he s hs x hx
  obtain rfl := List.mem_singleton.mp hs
  obtain rfl := List.mem_singleton.mp hx
  refine ⟨?_, ?_, rfl, (upTo 8).flatMap (fun i => leBytes 4 (e.2.1.getD i 0)), (upTo 8).flatMap (fun i => leBytes 4 (e.2.1.getD (8 + i) 0)), ?_⟩ <;>
    revert e <;> decide +kernel

theorem witness_NetworkPorts_remove :
    (∀ s ∈ [windowed 4 0 (streamed [(255, some { words := stream true true 1 0, start := 0 })] [(3, some { words := stream false false 1 0 })] 0)],
        Ready (on s) (pNet 0) ∧ RingFree s ∧ bit 511 8 = true ∧ 511 % 256 = 255 ∧ (s.talker 255).isSome = true ∧ bit 256 8 = true ∧ s.talker (256 % 256) = none
        ∧ bit 3 8 = false ∧ (s.listener (3 % 256)).isSome = true ∧ bit 0 8 = false ∧ s.listener 0 = none)
      ∧ (∀ v ∈ [1, 2, 3], LiveNet (on (cabled 5 2 true v)) 0 ∧ (cabled 5 2 true v).netMode 0 = 2 ∧ 1 ≤ v ∧ v ≤ 3)
      ∧ (∃ t, exec (.sgmiiSpeedChange 7 3) (on lit) = .next t) := by
  dsimp only [Ready, RingFree, LiveNet, Live]
  refine ⟨by decide +kernel, by decide +kernel, _, rfl⟩

/-! ### Control datagrams -/

/-- A secret of 32 bytes. -/
def secret : List Byte := List.replicate 32 0x5A#8

/-- NET0 with a link and the channel enabled, slot 0 holding the secret with rights `r`, and the messages `l` waiting. -/
def channel (r : Nat) (l : List CdgMsg) : Stage :=
  { ((cabled 5 0 true 3).setFlag (pNet 0) 0x11C 31 true).setN (pNet 0) 0x120 (2 ^ 31 + r) with net := { keys := [(0, secret)], cdg := l } }

/-- A datagram of magic number `mg` for slot `k`, with sequence number `q`, seconds `t` and code `c`; `bad` spoils its CRC (1) or its tag (2). -/
def gram (mg k q t c : Nat) (body : List Byte) (bad : Nat) : List Byte :=
  let head := beBytes 4 mg ++ [1#8, BitVec.ofNat 8 k] ++ beBytes 2 body.length ++ beBytes 8 q ++ beBytes 8 t ++ beBytes 4 0 ++ beBytes 2 0 ++ [BitVec.ofNat 8 c, 0#8] ++ body
  let m := head ++ beBytes 4 (if bad = 1 then 0 else crc32c head)
  m ++ (if bad = 2 then List.replicate 16 0#8 else (hmac256 secret m).take 16)

/-- The frame that brings it. -/
def sent (m : List Byte) : List Byte := onWire ((channel 0 []).udpFrame 0 1 0 0 0 1234 23058 m)

/-- Frame `f` sorts to the channel, which is enabled, and holds datagram `m`, of which the first check that fails is `n`. -/
def Checked (s : Stage) (m : List Byte) (n : Option Nat) : Prop :=
  LiveNet (on s) 0 ∧ s.fate 0 (sent m) = .cdg ∧ s.flag (pNet 0) 0x11C 31 = true ∧ (parseUdp ((sent m).take ((sent m).length - 4))).map Udp.data = some m ∧ s.cdgCheck m = n

theorem witness_ControlDatagrams :
    Checked (channel 15 []) (gram 0 0 1 0 1 [] 0) (some 1) ∧ Checked (channel 15 []) (gram cdgMagic 0 1 0 1 [] 1) (some 2)
      ∧ Checked (channel 15 []) (gram cdgMagic 1 1 0 1 [] 0) (some 3) ∧ Checked (channel 15 []) (gram cdgMagic 0 1 0 1 [] 2) (some 4)
      ∧ (cabled 5 0 true 3).flag (pNet 0) 0x11C 31 = false ∧ (channel 15 []).fate 0 (letter 46 true) ≠ .cdg := by
  dsimp only [Checked, LiveNet, Live]; and_intros <;> decide +kernel

theorem witness_ControlDatagrams_passed :
    Checked (channel 15 []) (gram cdgMagic 0 0 0 1 [] 0) (some 5) ∧ Checked (channel 15 []) (gram cdgMagic 0 1 9 1 [] 0) (some 6)
      ∧ Checked (channel 15 []) (gram cdgMagic 0 1 0 5 [7#8] 0) none ∧ be (gram cdgMagic 0 1 0 5 [7#8] 0) 30 1 = 5 ∧ cdgRight 5 = some 3
      ∧ bit ((channel 15 []).cdgRights 0) 3 = true ∧ bit ((channel 7 []).cdgRights 0) 3 = false
      ∧ Checked (channel 7 []) (gram cdgMagic 0 1 0 5 [7#8] 0) none ∧ Checked (channel 7 []) (gram cdgMagic 0 1 0 6 [] 0) none ∧ cdgRight 6 = none := by
  dsimp only [Checked, LiveNet, Live]; and_intros <;> decide +kernel

/-- A message of code `c` from port 0 under slot 0. -/
def note (c : Nat) (body : List Byte) : CdgMsg := { port := 0, mac := 1, vid := 0, ip := 2, udp := 1234, slot := 0, seq := 9, code := c, body := body }

/-- The book in mode `m` with CDG triggers enabled or not and message `x` in front. -/
def noted (m : Nat) (en : Bool) (x : CdgMsg) : Stage := { (book m 0).setFlag pPrompt 0x080 5 en with net := { keys := [(0, secret)], cdg := [x] } }

theorem witness_ControlDatagrams_go :
    (∀ e ∈ [(1, 4), (2, 18)], ∀ x ∈ [note e.1 (List.replicate e.2 0#8)], ∀ en : Bool, ∀ s ∈ [noted 4 en x], Live (on s) .net 0 ∧ s.net.cdg = x :: []
        ∧ x.code = e.1 ∧ x.body.length = e.2 ∧ be x.body 12 4 < 1000000000 ∧ s.flag pPrompt 0x080 5 = en ∧ bit (be x.body 0 4) 31 = false
        ∧ TakesCue s (x.code + 2) (bits (be x.body 0 4) 11 0) ∧ s.now ≤ timeOf x.body 4 + s.cuePre (bits (be x.body 0 4) 11 0))
      ∧ (∀ c ∈ [1, 2], ∀ s ∈ [noted 4 true (note c [0#8])], Live (on s) .net 0 ∧ s.net.cdg = [note c [0#8]] ∧ (note c [0#8]).body.length ≠ 4 ∧ (note c [0#8]).body.length ≠ 18)
      ∧ (∀ x ∈ [note 2 (List.replicate 12 0#8 ++ beBytes 4 1000000000 ++ [0#8, 0#8])], Live (on (noted 4 true x)) .net 0 ∧ x.code = 2 ∧ x.body.length = 18
        ∧ 1000000000 ≤ be x.body 12 4)
      ∧ (∀ e ∈ [1, 2, 3, 4, 5], Live (on (noted 4 true (note (e % 5 + 1) []))) .net 0 ∧ (note (e % 5 + 1) []).code ≠ e) := by
  dsimp only [Live, TakesCue]; and_intros <;> decide +kernel

/-- The body of a WRITE of `v` to register `off` of page `p`. -/
def written (p off v : Nat) : List Byte := beBytes 2 p ++ beBytes 2 off ++ beBytes 4 v

theorem witness_ControlDatagrams_write :
    (∀ s ∈ [noted 4 true (note 3 (written pPrompt 0x088 5)), noted 4 true (note 3 (written pPrompt 0x400 5))], Live (on s) .net 0 ∧ s.restarting = false ∧ (s.net.cdg.map fun m => m.code) = [3]
        ∧ (s.net.cdg.map fun m => m.body.length) = [8])
      ∧ (∀ b ∈ [written pPrompt 0x088 5], be b 0 2 = PageKind.page .prompt 0 ∧ be b 2 2 = 0x088 ∧ (rowOf .prompt 0 0x088).prot < 2
        ∧ Passes (on (noted 4 true (note 3 b))) mgmt .prompt 0 0x088 (be b 4 4) ∧ (noted 4 true (note 3 b)).winMap 0 (pPrompt * 4096 + 0x088) 4 true = some (pPrompt * 4096 + 0x088))
      ∧ pageOf pPower = some (.power, 0) ∧ 0x09C < 0x400 ∧ (regDef .power 0 0x09C).isSome = true ∧ 2 ≤ (rowOf .power 0 0x09C).prot
      ∧ (note 3 []).body.length ≠ 8 ∧ (hot.setFlag 0 0x0D8 31 true).restarting = true
      ∧ (∀ (x : Stage) old w, x.written .prompt 0 0x088 old w = x) := by
  dsimp only [Passes, Live]
  refine ⟨by decide +kernel, by decide +kernel, by decide +kernel, by decide +kernel, by decide +kernel, by decide +kernel, by decide +kernel, by decide +kernel, fun _ _ _ => rfl⟩

theorem witness_ControlDatagrams_read :
    (∀ e ∈ [(pPrompt, 0x088, Resp.okay), (0x0050, 0x088, Resp.fault)], ∀ b ∈ [beBytes 2 e.1 ++ beBytes 2 e.2.1], ∀ s ∈ [noted 4 true (note 4 b)],
        Live (on s) .net 0 ∧ s.restarting = false ∧ b.length = 4 ∧ be b 2 2 < 0x1000
        ∧ (({ s with net := { s.net with cdg := [] } } : Stage).gridReadCore mgmt 0 (be b 0 2 * 4096 + be b 2 2) 4 none).bus.resp = e.2.2)
      ∧ (∀ b ∈ [beBytes 2 pPrompt ++ beBytes 2 0x088], ∀ s ∈ [windowed 4 0 (noted 4 true (note 4 b))],
        Live (on s) .net 0 ∧ (({ s with net := { s.net with cdg := [] } } : Stage).gridReadCore mgmt 0 (be b 0 2 * 4096 + be b 2 2) 4 none).bus.resp = .denied)
      ∧ 0x1000 ≤ be (beBytes 2 pPrompt ++ beBytes 2 0x1000) 2 2 ∧ (note 4 []).body.length ≠ 4 := by
  dsimp only [Live]; and_intros <;> decide +kernel

theorem witness_ControlDatagrams_mailbox :
    (∀ b ∈ [[], [1#8]], ∀ x ∈ [note 5 b], Live (on (noted 4 true x)) .net 0 ∧ (noted 4 true x).net.cdg = [x] ∧ x.code = 5 ∧ (noted 4 true x).restarting = false)
      ∧ (note 5 []).body = [] ∧ (note 5 [1#8]).body ≠ [] ∧ ((noted 4 true (note 5 [1#8])).setFlag 0 0x0D8 31 true).restarting = true
      ∧ (∃ t, exec .cdgMailbox (on (noted 4 true (note 5 [1#8]))) = .next t) ∧ (∃ t, exec .cdgGo (on (noted 4 true (note 1 []))) = .next t)
      ∧ (∃ t, exec (.controlDatagramRx 7 []) (on lit) = .next t) := by
  dsimp only [Live]
  refine ⟨by decide +kernel, by decide +kernel, by decide +kernel, by decide +kernel, ⟨_, rfl⟩, ⟨_, rfl⟩, _, rfl⟩

/-! ### Rehearsal and the pool -/

/-- Bank 255 offered for loan in SOLO with every activity on, and with rehearsal at `r`. -/
def rehearsed (r : RehSt) : Stage := { (inMode 4 lit).setFlag pReh 0x0AC 31 true with reh := r }

/-- Bank 255 on loan at block `n`, the first background or the other. -/
def lent (n : Nat) (bg suspect recalled : Bool) : Stage := rehearsed { loans := [(255, some { block := n, bg := bg, suspect := suspect, recalled := recalled })] }

/-- An access to bank 255 of its owner that waits. -/
def held255 : Stage := { lent 3 false false false with grid := { stalled := [{ master := mgmt, id := 0, addr := 0x101FE0000, len := 4, wr := none, at' := 0 }] } }

/-- A handover of a port of bank 255 to the management core is pending. -/
def handing (p : Bool) : Stage := { rehearsed {} with pool := { pend := [(255, p, 0x43)] } }

theorem witness_RehearsalAndPool :
    (∀ s ∈ [lent 3 false false false], Passes (on s) mgmt .rehearsal 0 0x0AC 0 ∧ 0x0AC = 0x090 + 4 * (7 % 8) ∧ s.loanOffered (32 * (7 % 8) + 31) = true
        ∧ ((s.setN pReh 0x0AC 0)).loanOffered (32 * (7 % 8) + 31) = false ∧ (s.loan (32 * (7 % 8) + 31)).isSome = true
        ∧ (∀ v ∈ [0, 15], Passes (on s) mgmt .rehearsal 0 0x080 v) ∧ bit 0 0 = false ∧ bit 15 0 = true ∧ (s.loan 255).isSome = true)
      ∧ (∀ off ∈ [0x100, 0x1FC, 0x200, 0x20C], ∀ v ∈ [0, 0x46464646], Passes (on lit) mgmt .pool 0 off v ∧ ∀ f ∈ lit.ownerChanges off (regWord .pool 0 off v), lit.handingTo f.1 f.2.1 = none)
      ∧ (∀ s ∈ [handing false], Passes (on s) mgmt .pool 0 0x1FC 0 ∧ (255, false, 0) ∈ s.ownerChanges 0x1FC (regWord .pool 0 0x1FC 0) ∧ s.handingTo 255 false ≠ none)
      ∧ Passes (on (lit.setFlag pPool 0x00C 2 true)) mgmt .pool 0 0x400 0x80000000 ∧ Live (on lit) .pool 0 ∧ Ready (on lit) pReh ∧ RingFree lit := by
  dsimp only [Passes, Live, Ready, RingFree]; and_intros <;> decide +kernel

theorem witness_RehearsalAndPool_loans :
    (∀ r ∈ [({} : RehSt), { lastUse := [(255, 5)] }], ∀ s ∈ [rehearsed r, (rehearsed r).setFld pPool 0x1FC 31 24 0x45], s.dieUp = true ∧ s.rehOn 0 = true ∧ s.loanOffered 255 = true
        ∧ s.bankFailed 255 = false ∧ s.loan 255 = none ∧ Tab.get 0 s.reh.lastUse 255 + s.fld pReh 0x088 9 0 * 1000000 * unit ≤ 1000000000000000
        ∧ s.handingTo 255 false = none ∧ s.handingTo 255 true = none ∧ s.fld 0x2D0 0x090 8 8 = 1 ∧ s.flag 0x2D0 0x090 28 = false)
      ∧ ((rehearsed {}).setFld pPool 0x1FC 31 24 0x45).bankOwner 255 false = 0x45 ∧ lit.rehOn 0 = false ∧ (lent 0 false false false).loan 255 ≠ none ∧ lit.loan 0 = none
      ∧ ((rehearsed {}).setFlag pReh 0x0CC 31 true).bankFailed 255 = true ∧ ((rehearsed {}).setFlag pReh 0x0AC 31 false).loanOffered 255 = false
      ∧ (∀ n ∈ [0, 62, 63], ∀ bg x rc : Bool, (lent n bg x rc).loan 255 = some { block := n, bg := bg, suspect := x, recalled := rc } ∧ (lent n bg x rc).ecc = []
        ∧ (lent n bg x rc).grid.stalled = [])
      ∧ held255.dieUp = true ∧ held255.awaited 255 ≠ [] ∧ (held255.loan 255).isSome = true ∧ lit.awaited 0 = [] ∧ lit.grid.stalled = []
      ∧ (∀ p : Bool, ∀ s ∈ [handing p], s.dieUp = true ∧ s.grid.stalled = [] ∧ s.handingTo 255 p = some 0x43 ∧ s.loan 255 = none)
      ∧ lit.handingTo 0 false = none ∧ (∀ s ∈ [{ handing false with reh := (lent 0 false false false).reh }], s.loan 255 ≠ none ∧ s.grid.stalled = []) := by
  decide +kernel

/-- A write of the report to `a` is due. -/
def reporting (a : Nat) : Stage := { rehearsed { report := some (a, [1#8, 2#8, 3#8, 4#8]) } with grid := { lock := a / 2 ^ 32 = 1 } }

theorem witness_RehearsalAndPool_activities :
    (∀ s ∈ [rehearsed {}], s.dieUp = true ∧ s.rehOn 1 = true ∧ s.reh.scrubPos + 2097151 < 2097152 ∧ 2097152 ≤ s.reh.scrubPos + 2097152
        ∧ s.flips 0x100000000 = 0 ∧ 0 % 266 ≠ 265 % 266 ∧ s.reh.scrubPeriod = false ∧ rehMode s.mode = true ∧ s.flag pReh 0x080 4 = false
        ∧ (∀ k ∈ [0, 63], ∀ g ∈ [0, 63], Live (on s) .sp k ∧ s.segmentMay k = true ∧ (k, g) ∉ s.reh.rerun))
      ∧ lit.rehOn 1 = false ∧ rehMode lit.mode = false ∧ lit.reh.report = none ∧ (63, 63) ∈ (rehearsed { rerun := [(63, 63)] }).reh.rerun
      ∧ ((rehearsed {}).setFlag pReh 0x080 4 true).flag pReh 0x080 4 = true
      ∧ (∀ s ∈ [reporting 0x10000000], s.reh.report = some (0x10000000, [1#8, 2#8, 3#8, 4#8]) ∧ burstOk 0x10000000 4 = true ∧ s.winMap 3 0x10000000 4 true = some 0x10000000
        ∧ 0x10000000 + 4 ≤ 0x100F8000 ∧ s.ecc = [])
      ∧ (∀ s ∈ [reporting 0x100000000], s.dieUp = true ∧ s.reh.report = some (0x100000000, [1#8, 2#8, 3#8, 4#8]) ∧ burstOk 0x100000000 4 = true ∧ s.winMap 3 0x100000000 4 true = none)
      ∧ (∃ t, exec (.bankRecall 0) (on lit) = .next t) := by
  dsimp only [Live]
  and_intros
  all_goals first | decide +kernel | exact ⟨_, rfl⟩

/-! ### The Grid, the host and the system -/

/-- PCI Express is up, BAR2 is 64 KiB, and the host has one window at Grid address `a`, to BAR0 and BAR2 alike. -/
def hosted (a : Nat) : Stage := { (windowed 1 a lit).setFld 0x300 0x080 5 0 16 with host := { linkUp := true } }

/-- Four bytes of `v`, all enabled. -/
def four (v : Nat) : List (Byte × Bool) := (leBytes 4 v).map fun x => (x, true)

theorem witness_GridHostAndSystem :
    lit.dieUp = true ∧ (∀ id ∈ [0, 15], lit.masterHolds mgmt id = false ∧ (hosted 0).masterHolds hostMaster id = false ∧ (hosted 0).masterHolds mgmt id = false)
      ∧ (∀ n ∈ [0, 33, 544], burstOk 0x10000000 n = false) ∧ burstOk 0x10000FE0 64 = false ∧ burstOk 0x10000000 32 = true
      ∧ (hosted 0).winMap mgmt.cls 0x10000000 32 true = none ∧ (hosted 0).winMap mgmt.cls 0x10000000 32 false = none
      ∧ (∀ a ∈ [0x10000000, 0x100F7FFF], ∀ wr : Bool, lit.winMap mgmt.cls a 1 wr = some a ∧ PlainBeat lit a 1)
      ∧ PlainBeat lit 0x10000000 32 ∧ PlainBeat lit 0x100F7FE0 32 ∧ (four 5).length = 4
      ∧ (∀ k ∈ [PageKind.sys, .bat, .host], Live (on lit) k 0 ∧ (∀ wr : Bool, lit.winMap mgmt.cls (k.page 0 * 4096 + 0x018) 4 wr = some (k.page 0 * 4096 + 0x018))
        ∧ (regDef k 0 0x018).isSome = true) := by
  dsimp only [PlainBeat, Live]; and_intros <;> decide +kernel

/-- One transaction of `m` waits, through PCI Express or not. -/
def stalledBy (m : Master) (pcie : Bool) : Stage :=
  { lit with grid := { stalled := [{ master := m, id := 3, addr := 0x100000000, wr := none, len := 4, pcie := pcie }] } }

theorem witness_GridHostAndSystem_waits :
    (∀ x ∈ lit.grid.stalled, ¬ (x.master = mgmt ∧ x.id = 0))
      ∧ (∀ pcie : Bool, ∀ s ∈ [stalledBy hostMaster pcie], s.dieUp = true ∧ (s.grid.stalled.map fun x => (x.master, x.id, x.pcie, x.wr.isSome)) = [(hostMaster, 3, pcie, false)])
      ∧ (lit.grid.stalled.filter (fun x => x.master.cls == mgmt.cls && x.master.idx == mgmt.idx)).length + 0 = 0 ∧ mgmt.cls ≠ 7
      ∧ ((stalledBy { cls := 7, idx := 63 } false).grid.stalled.filter (fun x => x.master.cls == 7 && x.master.idx == 63)).length
          + ((stalledBy { cls := 7, idx := 63 } false).sp 63).far.length ≠ 0
      ∧ Passes (on lit) mgmt .grid 0 0x080 1 ∧ lit.grid.stalled = [] ∧ lit.catOk 0 = true ∧ (hosted 0).dieUp = true ∧ (hosted 0).catOk 0 = false
      ∧ (hosted 0).grid.lock = true ∧ lit.grid.lock = false ∧ 7 < 8 ∧ lit.catOk 2 = true ∧ lit.mode = mBoot ∧ lit.vmin ≤ lit.vmin ∧ lit.vmin ≤ lit.vmax
      ∧ (inMode 11 lit).mode = mService ∧ (inMode 11 lit).catOk 2 = true ∧ (96 : Nat) ≤ 96 ∧ (inMode 4 lit).mode ≠ mBoot ∧ (inMode 4 lit).mode ≠ mService := by
  dsimp only [Passes, Live]; and_intros <;> decide +kernel

theorem witness_GridHostAndSystem_pages :
    (∀ k ∈ [PageKind.grid, .sp, .host], Live (on lit) k 0 ∧ k ≠ .sys) ∧ Passes (on lit) mgmt .sys 0 0x0C4 0xFFFFFFFF ∧ lit.recStore = []
      ∧ (∀ s ∈ [{ lit.setN 0 0x0C0 1024 with recStore := [{ handle := 5, status := 0, cls := 0, result := 0#32, datum := 0 }] }], Passes (on s) mgmt .sys 0 0x0C4 1
        ∧ (s.recStore.map fun r => r.handle) = [5] ∧ s.recHeld = [] ∧ s.ecc = [] ∧ (s.fld 0 0x0C0 10 0 + 2048 - 1 % 2048) % 2048 < 1024)
      ∧ lit.host.linkUp = false ∧ (hosted 0).host.linkUp = true ∧ (hosted 0).grid.lock = true ∧ ({ hosted 0 with grid := {} } : Stage).grid.lock = false := by
  dsimp only [Passes, Live]; and_intros <;> decide +kernel

theorem witness_GridHostAndSystem_host :
    (∀ s ∈ [hosted 0x10000000], ∀ wr : Bool, s.dieUp = true ∧ s.host.linkUp = true ∧ s.grid.lock = true ∧ 24 ≠ 0 ∧ s.fld 0x300 0x080 5 0 = 16 ∧ 2 ^ 16 < 0xFFFF + 4
        ∧ burstOk 0x10000000 4 = true ∧ s.barMap true 0x20000 4 wr = none ∧ 0x20000 + 4 ≤ 2 ^ 24 ∧ s.barMap false 0xFFF0 4 wr = none ∧ 0xFFF0 + 4 ≤ 2 ^ 16)
      ∧ (∀ s ∈ [{ hosted 0 with grid := { lock := true, wins := [(16, { base := 0, size := 16, target := 0x10000000, r := true, w := true })] } }], ∀ wr : Bool,
        s.masterHolds hostMaster 0 = false ∧ s.barMap false 0xFFFC 4 wr = some 0x1000FFFC ∧ PlainBeat s 0x1000FFFC 4)
      ∧ (∀ s ∈ [hosted 0x2000], s.masterHolds hostMaster 0 = false ∧ Live (on s) .pool 0 ∧ s.barMap true (pPool * 4096 + 0x018) 4 true = some (pPool * 4096 + 0x018)
        ∧ burstOk (pPool * 4096 + 0x018) 4 = true ∧ (four 7).length = 4 ∧ pPool * 4096 + 0x018 + 4 ≤ 2 ^ 24)
      ∧ Ready (on lit) 0 ∧ RingFree lit ∧ (∀ e ∈ [(0, false), (0x280, false), (0x001, true)], (if e.1 % 4096 = 0 then calPages else calPages.filter (· == e.1 % 4096)) = [] ↔ e.2 = true)
      ∧ lit.mode ≠ mService ∧ Ready (on (inMode 11 lit)) 0 ∧ RingFree (inMode 11 lit) := by
  dsimp only [PlainBeat, Live, Ready, RingFree]; and_intros <;> decide +kernel

/-- The other slot holds a valid image, and a hot restart goes on or not, with FW_RESTART running or not. -/
def restarted (on' run : Bool) : Stage :=
  { (lit.setFlag 0 0x0D8 28 true).setFlag 0 0x0D8 31 on' with running := if run then [(0, some { seq := 1, cls := 0, idx := 0, code := 3, a0 := 0#32, a1 := 0#32, a2 := 0#32 })] else [] }

theorem witness_GridHostAndSystem_firmware :
    0x10000004 % 32 ≠ 0 ∧ 0x10000000 % 32 = 0
      ∧ (∃ x, (hosted 0).winSpan 0x10000000 (max 1 512) = .error x)
      ∧ (∃ a, lit.winSpan 0x10000000 (max 1 512) = .ok a) ∧ Ready (on (hosted 0)) 0 ∧ RingFree (hosted 0)
      ∧ lit.flag 0 0x0D8 28 = false ∧ Ready (on (restarted false false)) 0 ∧ (restarted false false).flag 0 0x0D8 28 = true
      ∧ Passes (on lit) mgmt .sys 0 0x0DC 1 ∧ lit.restarting = false
      ∧ (∀ run : Bool, Passes (on (restarted true run)) mgmt .sys 0 0x0DC 1 ∧ (restarted true run).restarting = true ∧ RingFree (restarted true run)
        ∧ ((restarted true run).runningCmd 0).isSome = run)
      ∧ (∃ t, exec (.masterReset mgmt) (on lit) = .next t) ∧ (∃ t, exec .pcieLinkDown (on lit) = .next t) := by
  dsimp only [Passes, Live, Ready, RingFree]
  and_intros
  all_goals first | decide +kernel | exact ⟨_, rfl⟩

/-! ### Power, resets and modes -/

/-- The supervisor at `u`. -/
def supplied (u : SupSt) : Stage := { lit with sup := u }

theorem witness_PowerAndModes :
    (∀ ov : Bool, ∀ c ∈ [0, 7], (supplied { state := .watch, vinOk := false, ovp := ov, cause := c }).sup.ovp = ov) ∧ lit.railsUp = true
      ∧ (supplied { state := .down 3 }).railsUp = false
      ∧ (∀ st ∈ [RailState.off, .watch], ∀ s ∈ [supplied { state := st, retry := true, wakeCfg := 1 }], s.railsOff = true ∧ s.sup.vinOk = true ∧ s.sup.ovp = false ∧ s.sup.keep = true
        ∧ s.sup.retry = true ∧ bit s.sup.wakeCfg 0 = true ∧ s.dieUp = false ∧ s.railsUp = false)
      ∧ (∀ s ∈ [supplied { state := .watch, vinOk := false, retry := true, wakeCfg := 1 }], s.sup.vinOk = false ∧ s.dieUp = false) ∧ lit.sup.retry = false
      ∧ bit lit.sup.wakeCfg 0 = false ∧ lit.dieUp = true ∧ (supplied { state := .held }).sup.state = .held ∧ lit.sup.state ≠ .held
      ∧ (lit.setFlag pPower 0x09C 31 true).flag pPower 0x09C 31 = true ∧ (lit.setFlag pPower 0x09C 31 true).restarting = false ∧ hot.restarting = true
      ∧ lit.flag pPower 0x09C 31 = false
      ∧ (∀ i ∈ [0, 4, 5], (supplied { state := .waitPg i }).sup.state = .waitPg i ∧ (supplied { state := .waitPg i }).railsUp = true ∧ bit lit.sup.pg i = true
        ∧ (supplied { state := .delayUp i }).sup.state = .delayUp i ∧ (supplied { state := .down i }).sup.state = .down i ∧ lit.sup.state ≠ .waitPg i ∧ lit.sup.state ≠ .down i)
      ∧ bit (supplied { pg := 0 }).sup.pg 5 = false ∧ 4 < 5 ∧ (supplied { state := .down 0, target := .off }).sup.target = .off := by
  decide +kernel

/-- With the die up, no sequence runs. -/
theorem witness_PowerAndModes_still : ∀ i, lit.sup.state ≠ .delayUp i ∧ lit.sup.state ≠ .down i := by
  intro i
  rw [show lit.sup.state = .up by decide +kernel]
  simp

theorem witness_PowerAndModes_boot :
    lit.dieUp = true ∧ lit.mode = mBoot ∧ (inMode 4 lit).mode ≠ mBoot
      ∧ (∀ x ∈ [(851 : Int), 850, 849, -400], ∀ s ∈ [lit.setFld pPower 0x098 7 0 85], (10 * (s.fld pPower 0x098 7 0 : Int) ≤ x ↔ 850 ≤ x) ∧ s.flag pPower 0x080 29 = false)
      ∧ (lit.setFlag pPower 0x080 29 true).flag pPower 0x080 29 = true ∧ 0 % 65536 < (lit.setN pPower 0x088 40000).fld pPower 0x088 15 0 ∧ lit.flag pPower 0x080 30 = false
      ∧ (∀ d ∈ [4, 11], (lit.setFlag pPower 0x090 (16 + d) true).flag pPower 0x090 (16 + d) = true ∧ lit.flag pPower 0x090 (16 + d) = false) := by
  decide +kernel

theorem witness_PowerAndModes_writes :
    (∀ v ∈ [0xE00, 0xD00 ], ∀ s ∈ [inMode 3 lit], Passes (on s) mgmt .power 0 0x08C v ∧ bit v 11 = true) ∧ Passes (on (inMode 3 lit)) mgmt .power 0 0x08C 0x500
      ∧ bit 0x500 9 = false ∧ (inMode 3 lit).domainHeld 9 (inMode 3 lit).mode = false
      ∧ Live (on lit) .power 0 ∧ bit 0xF00 8 = true ∧ lit.mode ≠ mDark
      ∧ (∀ s ∈ [(inMode 11 lit).setN pPower 0x08C 0xE00], Live (on s) .power 0 ∧ bit 0 9 = false ∧ s.flag pPower 0x08C 9 = true ∧ s.domainHeld 9 s.mode = true)
      ∧ Passes (on lit) mgmt .power 0 0x0A0 0xA5C3 ∧ 0xA5C2 % 65536 ≠ 0xA5C3 := by
  dsimp only [Passes, Live]; and_intros <;> decide +kernel

/-- The part of ROLE_CFG `c` in mode `m`, with a SET_MODE waiting or not. -/
def roled (m c : Nat) (busy : Bool) : Stage :=
  { (inMode m lit).setN 0x2A0 0x080 c with modeReq := if busy then some { cmd := { seq := 1, cls := 0, idx := 0, code := 1, a0 := 0#32, a1 := 0#32, a2 := 0#32 }, target := 0, c := 9 } else none }

/-- Every reason of SET_MODE, and a target that it takes. -/
theorem witness_PowerAndModes_setMode :
    ∀ e ∈ [((4, 0, false), 3, 0), ((3, 0, false), 4, 0), ((4, 0, false), 2, 1), ((4, 0, false), 11, 2), ((3, 1, false), 10, 3), ((4, 0, true), 3, 4), ((3, 7, false), 4, 5),
        ((4, 0, false), 4, 0)], ∀ s ∈ [roled e.1.1 e.1.2.1 e.1.2.2], Ready (on s) pPower ∧ RingFree s
      ∧ (if e.2.1 ∉ [0, 1, 3, 4, 10, 11] then 1 else if s.modeReq.isSome then 4 else if targetMet e.2.1 s.mode then 0
        else if modeTable s.mode e.2.1 = false then 2 else if (e.2.1 = 4 ∨ e.2.1 = 10) ∧ s.strapBad then 5
        else if e.2.1 = 10 ∧ s.roleCfg ≠ 0 then 3 else 0) = e.2.2 := by
  dsimp only [Ready, RingFree]; decide +kernel

theorem witness_PowerAndModes_frames :
    (∃ t, exec (.domainOn 4) (on lit) = .next t) ∧ (∃ t, exec (.powerDownPgFall 0) (on lit) = .next t) ∧ ∃ t, exec (.bootRomStart true 0 0 false 0) (on (inMode 4 lit)) = .next t :=
  ⟨⟨_, rfl⟩, ⟨_, rfl⟩, _, rfl⟩

/-! ### Ill-formed commands are refused -/

theorem test_wf_master : (Instr.cancelAll { cls := 8, idx := 0 }).wf = false ∧ (Instr.cancelAll { cls := 1, idx := 1 }).wf = false
    ∧ (Instr.cancelAll { cls := 4, idx := 8 }).wf = false ∧ (Instr.cancelAll mgmt).wf = true := by decide +kernel

theorem test_wf_word : (Instr.go mgmt (2 ^ 32)).wf = false ∧ (Instr.go mgmt (2 ^ 32 - 1)).wf = true := by decide +kernel

theorem test_wf_address : (Instr.gridRead mgmt 0 (2 ^ 36) 4 none).wf = false ∧ (Instr.gridRead mgmt 64 0 4 none).wf = false ∧ (Instr.gridRead mgmt 63 0 4 none).wf = true := by
  decide +kernel

theorem test_wf_burst : (Instr.gridRead mgmt 0 0 0 none).wf = false ∧ (Instr.gridRead mgmt 0 0 513 none).wf = false ∧ (Instr.gridRead mgmt 0 0 512 none).wf = true
    ∧ (Instr.gridWrite mgmt 0 0 [] [] false).wf = false := by decide +kernel

theorem test_wf_page : (Instr.softReset mgmt 0x0FF).wf = false ∧ (Instr.softReset mgmt 0x100).wf = true := by decide +kernel

theorem test_wf_index : (Instr.gatherWrite 64).wf = false ∧ (Instr.gatherWrite 63).wf = true ∧ (Instr.bridgeEdgeGap 8).wf = false ∧ (Instr.pgRise 6).wf = false
    ∧ (Instr.talkerPacketSend 256 0).wf = false ∧ (Instr.bankRecall 256).wf = false := by decide +kernel

theorem test_wf_ptp : ∀ g ∈ [{ ptp false false with ns := 1000000000 }, { ptp false false with domain := 256 }, { ptp false false with seq := 65536 },
    { ptp false false with sdo := 4096 }, { ptp false false with sec := 2 ^ 48 }], (Instr.followUpRx 0x240 g).wf = false := by decide +kernel

theorem test_wf_slots : (Instr.add 0 1 0 0 0 {}).wf = false ∧ (Instr.add 0 0 32 0 0 {}).wf = false ∧ (Instr.ld 0 false {} {}).wf = false
    ∧ (Instr.mac 0 false { lm := 1, lp := 12 } {}).wf = false ∧ (Instr.nop 0 true 7 {}).wf = false ∧ (Instr.nop 0 true 8 { a := { pred := 1 } }).wf = false
    ∧ (Instr.movs 0 0 0x4A 0 {}).wf = false ∧ (Instr.add 0 8 31 31 31 {}).wf = true := by decide +kernel

/-! ### Bundles -/

/-- The worked bundle of chapter 04. -/
theorem test_bundle_worked : decodeBundle 0x0046100108000201070150000000042A = some {
    m1 := { lm := 2, lp := 1, ld := 10 }, m2 := { op := .mpy, fs := true, sa := 1, sb := 10 }, a := { op := .extr 0 8 1 }, t := { op := .ldc 3 0 2 1 } } := by
  decide +kernel

theorem test_bundle_zero : decodeBundle 0 = some {} := by decide +kernel

/-- MOP 0b101, predicate 0b0001, a field that must be zero, and an A opcode without a row. -/
theorem test_bundle_illegal : ∀ w ∈ [5 * 2 ^ 25, 2 ^ 28, 2 ^ 16, 0x3F * 2 ^ (22 + 64), 2 ^ 96], decodeBundle w = none := by decide +kernel

/-- No word spells a command. -/
theorem test_decode_none : decodeTableWord 8 0 = none ∧ decodeTableWord 64 (2 ^ 64 - 1) = none := by decide +kernel

/-! ### Single steps -/

/-- What a register of a page reads after one command. -/
def after (c : Instr) (s : Stage) (p off : Nat) : Option Nat :=
  match exec c (on s) with
  | .next t => some (t.stage.regN p off)
  | _ => none

theorem test_reset_idle : State.reset.pending = [] := by decide +kernel

/-- -1 + 5 wraps to 4 in D31 one bundle later (R119). -/
theorem test_add_wraps : (match exec (.add 0 0 31 1 2 {}) (spWith sp0) with
    | .next t => ((t.stage.sp 0).pend.map fun l => (l.dest, l.val)) | _ => []) = [(.d 31, 4)] := by decide +kernel

/-- The largest number added to itself saturates (R119). -/
theorem test_adds_saturates : (match exec (.adds 0 0 31 3 3 {}) (spWith sp0) with
    | .next t => ((t.stage.sp 0).pend.map fun l => (l.dest, l.val)) | _ => []) = [(.d 31, 0x7FFFFFFF)] := by decide +kernel

/-- EVENT_FORCE sets what the page has (R557). -/
theorem test_event_force : after (.eventForceWrite mgmt pDatum 1) lit pDatum 0x014 = some 1 := by decide +kernel

/-- LINK of NET0 comes up over a lane in UP with SPEED 0b011 (R431). -/
theorem test_net_link : (after (.netLinkChange 0 true true true 3) (cabled 1 0 false 0) (pNet 0) 0x084).map (fun v => (bit v 31, v % 8)) = some (true, 3) := by decide +kernel

/-- A wrong key of WDOG_KICK is an access error (R656). -/
theorem test_wdog_kick : (after (.wdogKick mgmt 0) lit pPower 0x014).map (fun v => bit v 31) = some true := by decide +kernel

/-- GRID_LOCK is set by writing 1 (R544). -/
theorem test_grid_lock : after (.gridLockSet mgmt) lit 1 0x080 = some 1 := by decide +kernel

/-! ### Checks of stored bytes, against the check values of their standards -/

/-- The bytes "123456789" and "abc". -/
def digits : List Byte := [0x31#8, 0x32#8, 0x33#8, 0x34#8, 0x35#8, 0x36#8, 0x37#8, 0x38#8, 0x39#8]

theorem test_crc32c : crc32c digits = 0xE3069283 := by decide +kernel

theorem test_crc32 : crc32 digits = 0xCBF43926 := by decide +kernel

theorem test_sha256 : ofBeBytes (sha256 [0x61#8, 0x62#8, 0x63#8]) = 0xBA7816BF8F01CFEA414140DE5DAE2223B00361A396177A9CB410FF61F20015AD := by decide +kernel

end Sys2Proof.Tests
end

section
/-!
PROOF. Register writes that take effect at once (R7, R8, R105, R230, R246, R559, R562, R563): what a write that passes its tests
leaves in its register, what each register's own effect leaves of it, and the statement O45.
-/
namespace Sys2Proof.Machine

/-! ### Bits of a written word -/

theorem bit_eq_testBit (n i : Nat) : bit n i = n.testBit i := by
  rw [Nat.testBit_eq_decide_div_mod_eq, bit, beq_eq_decide]

theorem RegDef.masked_lt (d : RegDef) (n : Nat) : d.masked n < 2 ^ 32 :=
  Nat.lt_of_le_of_lt Nat.and_le_left (Nat.mod_lt _ (by decide))

theorem RegDef.merge_lt (d : RegDef) {old v : Nat} (ho : old < 2 ^ 32) (hv : v < 2 ^ 32) : d.merge old v < 2 ^ 32 :=
  Nat.or_lt_two_pow (Nat.lt_of_le_of_lt Nat.and_le_left hv) (Nat.lt_of_le_of_lt Nat.and_le_left ho)

/-- Of a written word the bits that the register takes are kept (R8). -/
theorem RegDef.bit_masked (d : RegDef) (n : Nat) {i : Nat} (hi : i < 32) :
    bit (d.masked n) i = (bit n i && (bit d.rw i || (bit d.w1c i || bit d.wo i))) := by
  simp only [bit_eq_testBit, RegDef.masked]
  change ((n % 2 ^ 32) &&& (d.rw ||| (d.w1c ||| d.wo))).testBit i = _
  simp only [Nat.testBit_and, Nat.testBit_or, Nat.testBit_mod_two_pow, hi, decide_true, Bool.true_and]

/-- A written bit is set, a W1C bit is cleared by a 1, and any other is kept (R7). -/
theorem RegDef.bit_merge (d : RegDef) (old v : Nat) {i : Nat} (hi : i < 32) :
    bit (d.merge old v) i = if bit d.rw i then bit v i else bit old i && !(bit v i && bit d.w1c i) := by
  simp only [bit_eq_testBit, RegDef.merge]
  change ((v &&& d.rw) ||| (old &&& ((2 ^ 32 - 1) ^^^ (d.rw ||| (v &&& d.w1c))))).testBit i = _
  simp only [Nat.testBit_or, Nat.testBit_and, Nat.testBit_xor, Nat.testBit_two_pow_sub_one, hi, decide_true, Bool.true_xor]
  cases d.rw.testBit i <;> simp

/-! ### Rows and pages -/

/-- The table lists each page under the index of its kind (R548). -/
theorem page_of_pageOf {p : Nat} {k : PageKind} {i : Nat} (h : pageOf p = some (k, i)) : k.page i = p := by
  unfold pageOf at h
  repeat
    rw [ite_eq_iff] at h
    rcases h with ⟨hc, h⟩ | ⟨-, h⟩
    · cases h
      simp only [PageKind.page]
      omega
  cases h

theorem rowOf_off (k : PageKind) (i off : Nat) : (rowOf k i off).off = off := by
  unfold rowOf
  cases h : regDef k i off with
  | none => rfl
  | some d => simpa using List.find?_some h

theorem regDef_eq_rowOf {k : PageKind} {i off : Nat} (h : (regDef k i off).isSome = true) : regDef k i off = some (rowOf k i off) := by
  obtain ⟨d, hd⟩ := Option.isSome_iff_exists.mp h
  rw [rowOf, hd, Option.getD_some]

/-! ### A register after the generic effect of a write -/

/-- The generic effect changes registers and nothing else. -/
theorem Stage.store_frame (s : Stage) (p off : Nat) (v : Word) : ∃ t, s.store p off v = { s with regs := t } := by
  unfold Stage.store
  split
  · exact ⟨_, rfl⟩
  · split
    · exact ⟨_, rfl⟩
    · exact ⟨_, rfl⟩

theorem Stage.regN_store_same (s : Stage) {k : PageKind} {i off : Nat} (v : Word) (hp : pageOf (k.page i) = some (k, i))
    (hd : (regDef k i off).isSome = true) :
    (s.store (k.page i) off v).regN (k.page i) off = (rowOf k i off).merge (s.regN (k.page i) off) v.toNat := by
  have hlt := (rowOf k i off).merge_lt (s.regN_lt (k.page i) off) v.isLt
  simp only [Stage.store, hp, regDef_eq_rowOf hd]
  rw [Stage.regN_setN_same, Nat.mod_eq_of_lt hlt]

theorem Stage.reg_store_other (s : Stage) {p o q x : Nat} (v : Word) (h : q * 4096 + x ≠ p * 4096 + o) :
    (s.store p o v).reg q x = s.reg q x := by
  unfold Stage.store
  split
  · rfl
  · split
    · rfl
    · exact Stage.reg_setN_other s _ h

theorem Stage.regN_congr {s t : Stage} {p o : Nat} (h : t.reg p o = s.reg p o) : t.regN p o = s.regN p o := by
  rw [Stage.regN, Stage.regN, h]

/-- A fold whose every step keeps a register keeps it. -/
theorem Stage.reg_foldl {α : Type} (f : Stage → α → Stage) (l : List α) (s : Stage) {q x : Nat}
    (h : ∀ t, ∀ a ∈ l, (f t a).reg q x = t.reg q x) : (l.foldl f s).reg q x = s.reg q x :=
  List.foldlRecOn l f (motive := fun t => t.reg q x = s.reg q x) rfl fun t ht a ha => (h t a ha).trans ht

theorem Stage.reg_bump_other (s : Stage) {p o q x : Nat} (h : q * 4096 + x ≠ p * 4096 + o) : (s.bump p o).reg q x = s.reg q x :=
  Stage.reg_setN_other s _ h

/-! ### A write that passes its tests (R562, R563) -/

/-- A register whose write goes through protection and value alone: no common register, argument or calibration, and no owner of a
pool bank. -/
def plainReg (k : PageKind) (off : Nat) : Bool :=
  decide (0x080 ≤ off ∧ off < 0xF00) && !(k == .bat && (off == 0x090 || off == 0x094)) && !(k == .pool && decide (0x100 ≤ off ∧ off < 0x300))

theorem plainReg_range {k : PageKind} {off : Nat} (h : plainReg k off = true) : 0x080 ≤ off ∧ off < 0xF00 := by
  simp only [plainReg, Bool.and_eq_true, decide_eq_true_eq] at h
  exact h.1.1

/-- The part once a write of `n` has gone into its register, before the effect of that register. -/
def Stage.wrote (s : Stage) (k : PageKind) (i off n : Nat) : Stage := s.store (k.page i) off (Word.ofNat (regWord k i off n))

theorem Stage.wrote_frame (s : Stage) (k : PageKind) (i off n : Nat) : ∃ t, s.wrote k i off n = { s with regs := t } :=
  s.store_frame _ _ _

theorem regWord_lt (k : PageKind) (i off n : Nat) : regWord k i off n < 2 ^ 32 := RegDef.masked_lt _ n

theorem Stage.regN_wrote {s : State} {m : Master} {k : PageKind} {i off n : Nat} (h : Passes s m k i off n) :
    (s.stage.wrote k i off n).regN (k.page i) off = (rowOf k i off).merge (s.stage.regN (k.page i) off) (regWord k i off n) := by
  obtain ⟨⟨-, hp, -⟩, hd, -, -⟩ := h
  rw [Stage.wrote, Stage.regN_store_same _ _ hp hd, Word.toNat_ofNat, Nat.mod_eq_of_lt (regWord_lt k i off n)]

theorem Passes.live {s : State} {m : Master} {k : PageKind} {i off n : Nat} (h : Passes s m k i off n) : Live s k i := h.1

/-- Such a write sets the register, has that register's effect and is answered OKAY. -/
theorem Stage.access_passes {s : State} {m : Master} {k : PageKind} {i off n : Nat} (h : Passes s m k i off n) (ho : plainReg k off = true) :
    s.stage.access m (k.page i) off n
      = ((s.stage.wrote k i off n).written k i off (s.stage.regN (k.page i) off) (regWord k i off n)).respond .okay := by
  obtain ⟨⟨-, hp, hpow⟩, hd, hv, hb⟩ := h
  have hput : s.stage.regPut m k i (rowOf k i off) (n % 2 ^ 32)
      = ((s.stage.wrote k i off n).written k i off (s.stage.regN (k.page i) off) (regWord k i off n)).respond .okay := by
    have hm : Nat.land (n % 2 ^ 32) (Nat.lor (rowOf k i off).rw (Nat.lor (rowOf k i off).w1c (rowOf k i off).wo)) = regWord k i off n := rfl
    have hpool : ¬ (k = .pool ∧ 0x100 ≤ off ∧ off < 0x300) := by
      rintro ⟨rfl, h1, h2⟩
      simp [plainReg, h1, h2] at ho
    simp only [Stage.regPut, hm, rowOf_off, hv, hb]
    simp [hpool, Stage.wrote]
  obtain ⟨hlo, hhi⟩ := plainReg_range ho
  have hb90 : ¬ (k = .bat ∧ off = 0x090) := by rintro ⟨rfl, rfl⟩; simp [plainReg] at ho
  have hb94 : ¬ (k = .bat ∧ off = 0x094) := by rintro ⟨rfl, rfl⟩; simp [plainReg] at ho
  have hne : ∀ o, o < 0x080 → off ≠ o := by omega
  simpa [Stage.access, Stage.regWrite, hp, hpow, hne, hb90, hb94, Nat.not_le.mpr hhi, regDef_eq_rowOf hd] using hput

/-- A command that makes such a write has a result `P` when the end of the write has it. -/
theorem done_passes {c : Instr} {s : State} {m : Master} {k : PageKind} {i off n : Nat} {P : Stage → Prop} (h : Passes s m k i off n)
    (ho : plainReg k off = true) (hc : exec c s = s.act fun t => t.access m (k.page i) off n)
    (hp : P (s.stage.ends (((s.stage.wrote k i off n).written k i off (s.stage.regN (k.page i) off) (regWord k i off n)).respond .okay))) :
    Done c s P :=
  done_act hc h.live.1 (by rwa [Stage.access_passes h ho])

@[simp] theorem Stage.reg_respond (s : Stage) (r : Resp) (q x : Nat) : (s.respond r).reg q x = s.reg q x := rfl

theorem Stage.ends_respond_resp (s t : Stage) (r : Resp) : (s.ends (t.respond r)).bus.resp = r := by rw [Stage.ends_bus]; rfl

/-- Where the effect of the register keeps what was written, the write leaves it. -/
theorem written_of_kept {s : State} {m : Master} {k : PageKind} {i off n : Nat} {t : Stage} (h : Passes s m k i off n)
    (ho : plainReg k off = true) (ht : t.reg (k.page i) off = (s.stage.wrote k i off n).reg (k.page i) off) :
    Written s k i off n (s.stage.ends (t.respond .okay)) := by
  have hoff := plainReg_range ho
  refine ⟨Stage.ends_respond_resp _ _ _, ?_⟩
  rw [Stage.ends_regN _ _ (by omega) (by omega), ← Stage.regN_wrote h]
  exact Stage.regN_congr ht

/-! ### FAST_CFG (R230): the clocks follow on the PORT pages alone -/

/-- A register that lies on no PORT page. -/
def offPorts (q x : Nat) : Prop := x < 4096 ∧ ∀ p, p < 32 → q ≠ pPort p

theorem offPorts.ne {q x p o : Nat} (h : offPorts q x) (hp : p < 32) (ho : o < 4096) : q * 4096 + x ≠ pPort p * 4096 + o := by
  have := h.1
  have := h.2 p hp
  omega

theorem Stage.reg_portFault (s : Stage) {p q x : Nat} (tx : Bool) (f cause : Nat) (hp : p < 32) (h : offPorts q x) :
    (s.portFault p tx f cause).reg q x = s.reg q x := by
  have hx : ∀ o, o < 4096 → q * 4096 + x ≠ pPort p * 4096 + o := fun _ ho => h.ne hp ho
  unfold Stage.portFault
  dsimp only
  split
  · rfl
  · split
    · rfl
    · rw [Stage.reg_raise_other _ _ (hx _ (by omega)), Stage.reg_bump_other _ (hx _ (by split <;> omega)),
        Stage.reg_setFld_other _ _ _ _ (hx _ (by omega))]
      rfl

theorem Stage.reg_clockFault (s : Stage) {q x : Nat} (g : Nat) (h : offPorts q x) : (s.clockFault g).reg q x = s.reg q x := by
  refine Stage.reg_foldl _ _ _ fun t p hm => ?_
  have hp : p < 32 := List.mem_range.mp (List.mem_filter.mp hm).1
  exact (Stage.reg_portFault _ true _ _ hp h).trans (Stage.reg_portFault _ false _ _ hp h)

theorem Stage.reg_cgJudge (s : Stage) {g q x : Nat} (hg : g < 32) (h : offPorts q x) : (s.cgJudge g).reg q x = s.reg q x := by
  unfold Stage.cgJudge
  split
  · rfl
  · rw [Stage.reg_clockFault _ g h, Stage.reg_raise_other _ _ (h.ne hg (by omega))]
    rfl

theorem Stage.reg_mclkJudge (s : Stage) {n q x : Nat} (w : Bool) (hn : n < 32) (h : offPorts q x) : (s.mclkJudge n w).reg q x = s.reg q x := by
  rw [Stage.mclkJudge, Stage.reg_raiseIf_other _ _ _ (h.ne hn (by omega)), Stage.reg_setFlag_other _ _ _ (h.ne hn (by omega))]

theorem Stage.reg_clocksJudge (s : Stage) {q x : Nat} (h : offPorts q x) : s.clocksJudge.reg q x = s.reg q x := by
  have hcg : ((upTo 8).foldl Stage.cgJudge s).reg q x = s.reg q x :=
    Stage.reg_foldl _ _ _ fun t g hg => t.reg_cgJudge (by have := List.mem_range.mp hg; omega) h
  rw [Stage.clocksJudge, ← hcg]
  exact Stage.reg_foldl _ _ _ fun t n hn => t.reg_mclkJudge false (by have := List.mem_range.mp hn; omega) h

theorem patch_offPorts {x : Nat} (h : x < 4096) : offPorts pPatch x := ⟨h, fun p hp => by unfold pPatch pPort; omega⟩

theorem fastCfgWrite_writes {s : State} {m : Master} {v : Nat} (h : Passes s m .patch 0 0x084 v) :
    Done (.fastCfgWrite m v) s (fun t => Written s .patch 0 0x084 v t) :=
  done_passes h rfl rfl (written_of_kept h rfl (Stage.reg_clocksJudge _ (patch_offPorts (by omega))))

/-! ### DBG_CTRL.BREAK_NOW (R105) -/

theorem Stage.sp_putSp_same (s : Stage) (k : Nat) (v : SpSt) : (s.putSp k v).sp k = v := by
  unfold Stage.putSp Stage.sp
  rw [Stage.raiseIf_sps]
  exact Tab.get_put_self ..

theorem Stage.reg_putSp_other (s : Stage) {k q x : Nat} (v : SpSt) (hx : x < 4096) (hn : x ≠ 0x014) : (s.putSp k v).reg q x = s.reg q x := by
  unfold Stage.putSp
  rw [Stage.reg_raiseIf_other _ _ _ (by omega)]
  rfl

theorem Stage.reg_breakNow_other (s : Stage) {k q x : Nat} (hx : x < 4096) (hn : x ≠ 0x014) : (s.breakNow k).reg q x = s.reg q x :=
  s.reg_putSp_other _ hx hn

theorem Stage.brk_breakNow (s : Stage) (k : Nat) : ((s.breakNow k).sp k).brk = true := by rw [Stage.breakNow, Stage.sp_putSp_same]

@[simp] theorem Stage.ends_sp (s t : Stage) (k : Nat) : (s.ends t).sp k = t.sp k := by
  rw [Stage.sp, Stage.ends_sps]; rfl

@[simp] theorem Stage.sp_respond (s : Stage) (r : Resp) (k : Nat) : (s.respond r).sp k = s.sp k := rfl

theorem dbgCtrl_row (k : Nat) : rowOf .sp k 0x400 = { off := 0x400, rst := 0, rw := 1, wo := 2, prot := 1 } := rfl

/-- Of a word with BREAK_NOW set, DBG_CTRL takes that bit and DEBUG. -/
theorem dbgCtrl_word (k v : Nat) :
    bit (regWord .sp k 0x400 (setBit v 1 true)) 1 = true ∧ bit (regWord .sp k 0x400 (setBit v 1 true)) 0 = bit v 0 := by
  rw [regWord, dbgCtrl_row]
  constructor
  · rw [RegDef.bit_masked _ _ (by omega), bit_setBit_same]; rfl
  · rw [RegDef.bit_masked _ _ (by omega), bit_setBit_other _ _ (by omega)]; exact Bool.and_true _

theorem breakNow_breaks {s : State} {m : Master} {k v : Nat} (h : Passes s m .sp k 0x400 (setBit v 1 true)) :
    Done (.breakNow m k v) s (fun t => t.bus.resp = .okay ∧ (t.sp k).brk = true ∧ t.flag (pSp k) 0x400 0 = bit v 0) := by
  obtain ⟨hbreak, hdebug⟩ := dbgCtrl_word k v
  have heff : ∀ (t : Stage) (old : Nat), t.written .sp k 0x400 old (regWord .sp k 0x400 (setBit v 1 true)) = t.breakNow k :=
    fun _ _ => if_pos hbreak
  refine done_passes h rfl rfl ?_
  rw [heff]
  obtain ⟨hresp, hreg⟩ := written_of_kept h rfl (Stage.reg_breakNow_other _ (k := k) (by omega) (by omega))
  refine ⟨hresp, ?_, ?_⟩
  · rw [Stage.ends_sp, Stage.sp_respond, Stage.brk_breakNow]
  · rw [dbgCtrl_row] at hreg
    rw [Stage.flag, ← hdebug]
    exact (congrArg (bit · 0) hreg).trans (RegDef.bit_merge _ _ _ (by omega))

/-! ### BR_CFG (R246) -/

@[simp] theorem Stage.bridge_putBridge_same (s : Stage) (b : Nat) (v : BridgeSt) : (s.putBridge b v).bridge b = v := Tab.get_put_self ..

@[simp] theorem Stage.bridge_respond (s : Stage) (r : Resp) (b : Nat) : (s.respond r).bridge b = s.bridge b := rfl

@[simp] theorem Stage.reg_putBridge (s : Stage) (b : Nat) (v : BridgeSt) (q x : Nat) : (s.putBridge b v).reg q x = s.reg q x := rfl

@[simp] theorem Stage.ends_bridge (s t : Stage) (b : Nat) : (s.ends t).bridge b = t.bridge b := by
  rw [Stage.bridge, Stage.ends_bridges]; rfl

theorem Stage.ends_brState (s t : Stage) (b : Nat) : (s.ends t).brState b = t.brState b := Stage.ends_fld s t 1 0 (by omega) (by omega)

@[simp] theorem Stage.brState_putBridge (s : Stage) (b c : Nat) (v : BridgeSt) : (s.putBridge c v).brState b = s.brState b := rfl

@[simp] theorem Stage.brState_respond (s : Stage) (r : Resp) (b : Nat) : (s.respond r).brState b = s.brState b := rfl

theorem Stage.brState_congr {s t : Stage} {b : Nat} (h : t.reg (pBridge b) 0x084 = s.reg (pBridge b) 0x084) : t.brState b = s.brState b :=
  Stage.fld_congr h 1 0

/-- A change of state keeps every register below BR_STAT. -/
theorem Stage.reg_setBr_other (s : Stage) {b st q x : Nat} (hx : x < 0x084) : (s.setBr b st).reg q x = s.reg q x := by
  unfold Stage.setBr
  dsimp only
  split
  · exact Stage.reg_setN_other _ _ (by omega)
  · rw [Stage.reg_setN_other _ _ (by omega), Stage.reg_setN_other _ _ (by omega), Stage.reg_setN_other _ _ (by omega),
      Stage.reg_setN_other _ _ (by omega)]

/-- NO_CLOCK is entered. -/
theorem Stage.brState_setBr_zero (s : Stage) (b : Nat) : (s.setBr b 0).brState b = 0 := by
  have hstat : (s.setBr b 0).regN (pBridge b) 0x084 = 0 := by
    unfold Stage.setBr
    rw [if_neg (by omega), Stage.regN_setN_other _ _ (by omega), Stage.regN_setN_other _ _ (by omega),
      Stage.regN_setN_other _ _ (by omega), Stage.regN_setN_same, Nat.zero_mod]
  rw [Stage.brState, Stage.fld, hstat]
  rfl

/-- The N of a fade is read from BR_CFG and the engine rate. -/
theorem Stage.brN_congr {s t : Stage} {b : Nat} (hc : t.reg (pBridge b) 0x080 = s.reg (pBridge b) 0x080) (hr : t.reg 0x000 0x088 = s.reg 0x000 0x088) :
    t.brN b = s.brN b := by
  have hfs : t.fs = s.fs := congrArg fsOf (Stage.fld_congr hr 2 0)
  rw [Stage.brN, Stage.brN, hfs, Stage.fld_congr hc 6 0]

/-- A write of BR_CFG keeps the state of its bridge until the effect of the write. -/
theorem Stage.wrote_brCfg_keeps (s : Stage) (b v : Nat) :
    (s.wrote .bridge b 0x080 v).brState b = s.brState b ∧ (s.wrote .bridge b 0x080 v).bridge b = s.bridge b := by
  refine ⟨Stage.brState_congr (s.reg_store_other _ ?_), ?_⟩
  · simp only [PageKind.page, pBridge]; omega
  · obtain ⟨r, hr⟩ := s.wrote_frame .bridge b 0x080 v
    rw [hr]; rfl

theorem Stage.reg_brLeave_other (s : Stage) {b dst q x : Nat} (hx : x < 0x0A8) : (s.brLeave b dst).reg q x = s.reg q x := by
  unfold Stage.brLeave
  dsimp only
  rw [Stage.reg_bump_other _ (by omega), Stage.reg_putBridge]

@[simp] theorem Stage.bridge_brLeave (s : Stage) (b dst : Nat) : (s.brLeave b dst).bridge b
    = { s.bridge b with fade := some { down := true, j := 0, n := s.brN b }, after := dst, window := none } := by
  unfold Stage.brLeave
  rw [Stage.bridge, Stage.bump_bridges]
  exact Stage.bridge_putBridge_same ..

/-- The effect of a write of BR_CFG keeps BR_CFG. -/
theorem Stage.reg_brCfgWritten (s : Stage) {b q x : Nat} (hx : x < 0x084) : (s.brCfgWritten b).reg q x = s.reg q x := by
  unfold Stage.brCfgWritten
  split
  · split
    · rfl
    · exact Stage.reg_brLeave_other s (by omega)
  · rw [Stage.reg_putBridge, Stage.reg_setBr_other s hx]

section
variable {s : State} {m : Master} {b v : Nat} (h : Passes s m .bridge b 0x080 v)
include h

/-- A write of BR_CFG that passes leaves the register written, beside what its effect makes of the bridge. -/
theorem done_brCfgWrite {P : Stage → Prop}
    (hp : P (s.stage.ends (((s.stage.wrote .bridge b 0x080 v).brCfgWritten b).respond .okay))) :
    Done (.brCfgWrite m b v) s (fun t => Written s .bridge b 0x080 v t ∧ P t) :=
  done_passes h rfl rfl ⟨written_of_kept h rfl (Stage.reg_brCfgWritten _ (by omega)), hp⟩

theorem brCfgWrite_unlocked (hst : s.stage.brState b ≠ 2) :
    Done (.brCfgWrite m b v) s (fun t => Written s .bridge b 0x080 v t ∧ t.brState b = 0 ∧ (t.bridge b).window = none) := by
  refine done_brCfgWrite h ?_
  rw [← (s.stage.wrote_brCfg_keeps b v).1] at hst
  rw [Stage.brCfgWritten, if_neg hst]
  refine ⟨?_, ?_⟩
  · rw [Stage.ends_brState, Stage.brState_respond, Stage.brState_putBridge, Stage.brState_setBr_zero]
  · rw [Stage.ends_bridge, Stage.bridge_respond, Stage.bridge_putBridge_same]

theorem brCfgWrite_locked (hst : s.stage.brState b = 2) (hl : (s.stage.bridge b).leaving = false) :
    Done (.brCfgWrite m b v) s (fun t => Written s .bridge b 0x080 v t
      ∧ t.brState b = 2 ∧ (t.bridge b).fade = some { down := true, j := 0, n := t.brN b } ∧ (t.bridge b).after = 0) := by
  refine done_brCfgWrite h ?_
  obtain ⟨hs, hb⟩ := s.stage.wrote_brCfg_keeps b v
  set x := s.stage.wrote .bridge b 0x080 v
  have hkeep : ∀ q o, o < 0x0A8 → o ≠ 0x014 → (s.stage.ends ((x.brLeave b 0).respond .okay)).reg q o = x.reg q o := by
    intro q o ho hn
    rw [Stage.ends_reg _ _ (by omega) hn, Stage.reg_respond, Stage.reg_brLeave_other x ho]
  have hbr : (s.stage.ends ((x.brLeave b 0).respond .okay)).bridge b
      = { x.bridge b with fade := some { down := true, j := 0, n := x.brN b }, after := 0, window := none } := by
    rw [Stage.ends_bridge, Stage.bridge_respond, Stage.bridge_brLeave]
  rw [Stage.brCfgWritten, if_pos (hs.trans hst), hb, hl, if_neg (by decide), hbr]
  refine ⟨?_, ?_, rfl⟩
  · exact (Stage.brState_congr (hkeep _ _ (by omega) (by omega))).trans (hs.trans hst)
  · rw [Stage.brN_congr (hkeep _ _ (by omega) (by omega)) (hkeep _ _ (by omega) (by omega))]

theorem brCfgWrite_leaving (hst : s.stage.brState b = 2) (hl : (s.stage.bridge b).leaving = true) :
    Done (.brCfgWrite m b v) s (fun t => Written s .bridge b 0x080 v t
      ∧ (t.bridge b).after = 0 ∧ (t.bridge b).fade = (s.stage.bridge b).fade) := by
  refine done_brCfgWrite h ?_
  obtain ⟨hs, hb⟩ := s.stage.wrote_brCfg_keeps b v
  rw [Stage.brCfgWritten, if_pos (hs.trans hst), hb, if_pos hl, Stage.ends_bridge, Stage.bridge_respond,
    Stage.bridge_putBridge_same]
  exact ⟨rfl, rfl⟩

end

/-! ### CTRL.ENABLE (R559) -/

@[simp] theorem Stage.reg_putPort (s : Stage) (p : Nat) (v : PortSt) (q x : Nat) : (s.putPort p v).reg q x = s.reg q x := rfl

@[simp] theorem Stage.reg_putDir (s : Stage) (p : Nat) (tx : Bool) (d : PortDir) (q x : Nat) : (s.putDir p tx d).reg q x = s.reg q x := rfl

theorem Stage.reg_enterAcq (s : Stage) (p : Nat) (tx : Bool) {q x : Nat} (hx : x < 0x084) : (s.enterAcq p tx).reg q x = s.reg q x := by
  unfold Stage.enterAcq
  dsimp only
  split
  all_goals
    split
    · exact Stage.reg_setN_other _ _ (by omega)
    · rfl

theorem Stage.reg_dirFollow (p : Nat) (s : Stage) {q x : Nat} (tx : Bool) (hx : x < 0x084) : (Stage.dirFollow p s tx).reg q x = s.reg q x := by
  unfold Stage.dirFollow
  split
  · split
    · exact s.reg_enterAcq p tx hx
    · rfl
  · cases tx with
    | false => rfl
    | true => exact Stage.reg_setFlag_other _ _ _ (by omega)

theorem Stage.reg_portEnabled (s : Stage) (p : Nat) (was : Bool) {q x : Nat} (hx : x < 0x084) (hn : x ≠ 0x014) :
    (s.portEnabled p was).reg q x = s.reg q x := by
  unfold Stage.portEnabled
  dsimp only
  rw [Stage.portFollow, Stage.reg_foldl _ _ _ fun t tx _ => Stage.reg_dirFollow p t tx hx]
  split
  · rw [Stage.reg_raiseIf_other _ _ _ (by omega), Stage.reg_raiseIf_other _ _ _ (by omega)]
    rfl
  · rfl

theorem Stage.reg_brEnabled (s : Stage) (b : Nat) (was : Bool) {q x : Nat} (hx : x < 0x084) (hn : x ≠ 0x014) :
    (s.brEnabled b was).reg q x = s.reg q x := by
  have hs : ∀ v, ((s.setBr b 0).putBridge b v).reg q x = s.reg q x := fun v => by rw [Stage.reg_putBridge, Stage.reg_setBr_other s hx]
  unfold Stage.brEnabled
  dsimp only
  split
  · split
    · rfl
    · rw [Stage.reg_raiseIf_other _ _ _ (by omega), hs]
  · split
    · rw [Stage.reg_bump_other _ (by omega), hs]
    · exact hs _

theorem Stage.reg_netJudge (s : Stage) (p : Nat) {q x : Nat} (hx : x < 0x084) (hn : x ≠ 0x014) : (s.netJudge p).reg q x = s.reg q x := by
  unfold Stage.netJudge
  dsimp only
  rw [Stage.reg_raiseIf_other _ _ _ (by omega), Stage.reg_raiseIf_other _ _ _ (by omega), Stage.reg_setFld_other _ _ _ _ (by omega),
    Stage.reg_setFlag_other _ _ _ (by omega)]
  split <;> rfl

theorem Stage.reg_netEnabled (s : Stage) (p : Nat) (was : Bool) {q x : Nat} (hx : x < 0x084) (hn : x ≠ 0x014) :
    (s.netEnabled p was).reg q x = s.reg q x := by
  rw [Stage.netEnabled, Stage.reg_netJudge _ p hx hn, Stage.reg_raiseIf_other _ _ _ (by omega)]

theorem ctrl_row (k : PageKind) (i : Nat) :
    rowOf k i 0x00C = { off := 0x00C, rst := if enableRW k then 0 else 1, rw := if enableRW k then 5 else 4, wo := 2 } := rfl

/-- A write of CTRL without a soft reset leaves in CTRL what the generic effect leaves. -/
theorem Stage.reg_ctrlWrite (s : Stage) (k : PageKind) (i : Nat) {v : Nat} (hv : bit v 1 = false) :
    (s.ctrlWrite k i v).reg (k.page i) 0x00C = (s.store (k.page i) 0x00C (Word.ofNat v)).reg (k.page i) 0x00C := by
  unfold Stage.ctrlWrite
  dsimp only
  rw [if_neg (by rw [hv]; exact Bool.false_ne_true)]
  split
  · cases k with
    | port => exact Stage.reg_portEnabled _ i _ (by omega) (by omega)
    | bridge => exact Stage.reg_brEnabled _ i _ (by omega) (by omega)
    | net => exact Stage.reg_netEnabled _ i _ (by omega) (by omega)
    | _ => rfl
  · rfl

/-- ENABLE after such a write: as written on PORT, BRIDGE and NET pages, as it was on the others. -/
theorem Stage.flag_ctrlWrite_enable (s : Stage) {k : PageKind} {i v : Nat} (hp : pageOf (k.page i) = some (k, i)) (hlt : v < 2 ^ 32)
    (hv : bit v 1 = false) :
    (s.ctrlWrite k i v).flag (k.page i) 0x00C 0 = if enableRW k then bit v 0 else s.flag (k.page i) 0x00C 0 := by
  rw [Stage.flag_congr (s.reg_ctrlWrite k i hv), Stage.flag, Stage.regN_store_same s _ hp rfl, Word.toNat_ofNat, Nat.mod_eq_of_lt hlt,
    RegDef.bit_merge _ _ _ (by omega), ctrl_row]
  cases enableRW k with
  | true => rfl
  | false => simp [bit, Stage.flag]

theorem exec_ctrlEnableWrite (m : Master) (p : Nat) (en : Bool) (s : State) : exec (.ctrlEnableWrite m p en) s
    = s.act fun t => t.access m p 0x00C (setBit (setBit (t.regN p 0x00C) 1 false) 0 en) := rfl

theorem ctrlEnableWrite_enables {s : State} {m : Master} {p : Nat} {k : PageKind} {i : Nat} (en : Bool) (hd : s.stage.dieUp = true)
    (hp : pageOf p = some (k, i)) (hpow : s.stage.powered p = true) :
    Done (.ctrlEnableWrite m p en) s (fun t => t.bus.resp = .okay
      ∧ t.flag p 0x00C 0 = if enableRW k then en else s.stage.flag p 0x00C 0) := by
  obtain rfl := page_of_pageOf hp
  set v := setBit (setBit (s.stage.regN (k.page i) 0x00C) 1 false) 0 en with hv
  have hlt : v < 2 ^ 32 := setBit_lt _ _ _ _ (by omega) (setBit_lt _ _ _ _ (by omega) (s.stage.regN_lt _ _))
  have hv0 : bit v 0 = en := bit_setBit_same _ _ _
  have hv1 : bit v 1 = false := by rw [hv, bit_setBit_other _ _ (by omega), bit_setBit_same]
  have hmod : v % 4294967296 = v := Nat.mod_eq_of_lt hlt
  have hacc : s.stage.access m (k.page i) 0x00C v = (s.stage.ctrlWrite k i v).respond .okay := by
    simp [Stage.access, Stage.regWrite, hp, hpow, hmod]
  refine done_act (exec_ctrlEnableWrite m _ en s) hd ?_
  rw [← hv, hacc]
  refine ⟨Stage.ends_respond_resp _ _ _, ?_⟩
  rw [Stage.ends_flag _ _ _ (by omega) (by omega), ← hv0]
  exact Stage.flag_ctrlWrite_enable _ hp hlt hv1

/-! ### A page without power -/

/-- What a command leaves as it is stays so through the end of the command. -/
theorem Part.same_ends {s t u : Stage} {x : Part} (h : x.same s t) : x.same s (u.ends t) := by
  cases x <;> simpa [Part.same] using h

theorem Keeps.ends {pages : List Nat} {parts : List Part} {s t u : Stage} (h : Keeps pages parts s t) : Keeps pages parts s (u.ends t) := by
  obtain ⟨hreg, hev, hpart⟩ := h
  refine ⟨fun p off hp ho hn => ?_, fun p b hb => Stage.ends_event _ _ (hev p b hb), fun x hx => Part.same_ends (hpart x hx)⟩
  rw [Stage.ends_reg _ _ ho hn, hreg p off hp ho hn]

/-- An answer changes the bus alone. -/
theorem Stage.keeps_respond (s : Stage) (r : Resp) : Keeps [] [.bus] s (s.respond r) := by
  refine ⟨fun _ _ _ _ _ => rfl, fun _ _ h => h, fun x hx => ?_⟩
  cases x with
  | bus => exact absurd (List.mem_singleton_self _) hx
  | _ => simp [Part.same]

/-- A write of a page that has no power, or of none, is answered FAULT (R562). -/
theorem Stage.regWrite_unpowered (s : Stage) (m : Master) {p : Nat} (off n : Nat) (h : s.powered p = false) :
    s.regWrite m p off n = s.respond .fault := by
  unfold Stage.regWrite
  split
  · rfl
  · simp [h]

theorem ctrlEnableWrite_unpowered {s : State} {m : Master} {p : Nat} (en : Bool) (hd : s.stage.dieUp = true) (h : s.stage.powered p = false) :
    Done (.ctrlEnableWrite m p en) s (fun t => t.bus.resp = .fault ∧ Keeps [] [.bus] s.stage t) := by
  refine done_act (exec_ctrlEnableWrite m _ en s) hd ?_
  rw [Stage.access, if_neg (by omega), Stage.regWrite_unpowered _ m _ _ h]
  exact ⟨Stage.ends_respond_resp _ _ _, (s.stage.keeps_respond .fault).ends⟩

/-- Settles O45, by the write that passes its tests (`done_passes`) for FAST_CFG, DBG_CTRL and BR_CFG, and by what a write of CTRL leaves in CTRL. -/
theorem plainWrites : Obligations.PlainWrites := fun _ _ =>
  ⟨fun _ h => fastCfgWrite_writes h, fun _ _ h => breakNow_breaks h,
    fun _ _ h => ⟨brCfgWrite_unlocked h, brCfgWrite_locked h, brCfgWrite_leaving h⟩,
    fun _ _ _ en hd hp hpow => ctrlEnableWrite_enables en hd hp hpow, fun _ en hd h => ctrlEnableWrite_unpowered en hd h⟩

end Sys2Proof.Machine
end

section
/-!
PROOF. Boundary-applied writes (R20, R22 to R24): a write that passes its tests and finds room takes a place, a change of memory that is
due takes effect, and the statement O44.
-/
namespace Sys2Proof.Machine

/-! ### What a waiting write goes through -/

/-- From `s` to `t` nothing has changed but registers, the links and what has left the part. -/
def Stage.Sent (s t : Stage) : Prop := ∃ r l o, t = { s with regs := r, links := l, outs := o }

theorem Stage.Sent.refl (s : Stage) : s.Sent s := ⟨s.regs, s.links, s.outs, rfl⟩

theorem Stage.Sent.trans {s t u : Stage} (h : s.Sent t) (h' : t.Sent u) : s.Sent u := by
  obtain ⟨_, _, _, rfl⟩ := h
  obtain ⟨_, _, _, rfl⟩ := h'
  exact ⟨_, _, _, rfl⟩

theorem Stage.sent_foldl {α : Type} {f : Stage → α → Stage} (hf : ∀ (s : Stage) (a : α), s.Sent (f s a)) (l : List α) (s : Stage) :
    s.Sent (l.foldl f s) :=
  List.foldlRecOn l f (motive := s.Sent) (.refl s) fun t ht a _ => ht.trans (hf t a)

theorem Stage.sent_setN (s : Stage) (p o n : Nat) : s.Sent (s.setN p o n) := ⟨_, s.links, s.outs, rfl⟩

theorem Stage.sent_putLink (s : Stage) (n : Nat) (l : LinkSt) : s.Sent (s.putLink n l) := ⟨s.regs, _, s.outs, rfl⟩

theorem Stage.sent_linkWake (s : Stage) (n : Nat) : s.Sent (s.linkWake n) := by
  refine Stage.sent_foldl (fun t k => ?_) _ s
  split
  · exact t.sent_setN _ _ _
  · exact .refl t

theorem Stage.sent_ctlPump (n k : Nat) : ∀ s : Stage, s.Sent (s.ctlPump n k) := by
  induction k with
  | zero => exact .refl
  | succ k ih =>
    intro s
    unfold Stage.ctlPump
    dsimp only
    split
    · exact .refl s
    · split
      · exact .refl s
      · exact Stage.Sent.trans ⟨s.regs, _, _, rfl⟩ (ih _)

theorem Stage.sent_ctlSend (s : Stage) (n : Nat) (m : CtlMsg) : s.Sent (s.ctlSend n m) := by
  unfold Stage.ctlSend
  dsimp only
  split
  · exact ((s.sent_linkWake n).trans (Stage.sent_putLink _ n _)).trans (Stage.sent_ctlPump n 32 _)
  · exact .refl s

theorem Stage.sent_forward (s : Stage) (b : Nat) (r : FwdRec) : s.Sent (s.forward b r) := by
  unfold Stage.forward
  split
  · exact s.sent_ctlSend _ _
  · exact .refl s

theorem Stage.sent_forwardWait (s : Stage) (m : Master) (recs : List FwdRec) : s.Sent (s.forwardWait m recs) := by
  unfold Stage.forwardWait
  split
  · split
    · exact Stage.sent_foldl (fun t r => t.sent_forward _ r) recs s
    · exact .refl s
  · exact .refl s

theorem Stage.sent_waitTaken (s : Stage) (k : PageKind) (i off v x : Nat) : s.Sent (s.waitTaken k i off v x) := by
  unfold Stage.waitTaken
  dsimp only
  split
  · exact s.sent_setN _ _ _
  · split
    · exact s.sent_setN _ _ _
    · split
      · split
        · exact s.sent_setN _ _ _
        · exact .refl s
      · exact .refl s

theorem Stage.sent_oneShot (s : Stage) (cls : Nat) : s.Sent (s.oneShot cls) := by
  unfold Stage.oneShot
  split
  all_goals
    split
    · exact s.sent_setN _ _ _
    · exact .refl s

/-- A tag that is taken changes registers (R22, R28). -/
theorem Stage.sent_dueFor (s : Stage) (cls : Nat) : s.Sent (s.dueFor cls).2 := by
  unfold Stage.dueFor
  split
  · exact .refl s
  · dsimp only
    split
    · exact s.sent_oneShot cls
    · exact ((s.sent_oneShot cls).trans (Stage.sent_setN _ _ _ _)).trans (Stage.sent_setN _ _ _ _)

/-! ### A write that takes its place (R22, R23) -/

/-- A change of class `cls` that takes a place of its own at `s`, due as R22 sets it. -/
def Stage.newWait (s : Stage) (cls : Nat) (k : WKind) : WWrite :=
  { due := (s.dueFor cls).1, cls := cls, kind := k, ord := s.order, place := true }

/-- From `s` to `t` change `k` has taken its place, answered OKAY; beside it no change has come or gone. -/
def Stage.Waits (s : Stage) (cls : Nat) (k : WKind) (t : Stage) : Prop :=
  t.bus.resp = .okay ∧ t.waiting = s.waiting ++ [s.newWait cls k]

theorem Stage.Waits.sent {s t u : Stage} {cls : Nat} {k : WKind} (h : s.Waits cls k t) (h' : t.Sent u) : s.Waits cls k u := by
  obtain ⟨_, _, _, rfl⟩ := h'
  exact h

/-- Outside a transaction a change takes a place of its own where there is room. -/
theorem Stage.wait_waits {s : Stage} (cls : Nat) (k : WKind) (ht : s.txn = none) (hr : s.places < 4096) : s.Waits cls k (s.wait cls k) := by
  have hj : s.joined = none := by rw [Stage.joined, ht]
  obtain ⟨r, l, o, h⟩ := s.sent_dueFor cls
  unfold Stage.wait
  rw [hj]
  dsimp only
  rw [if_neg (by omega), h]
  exact ⟨rfl, rfl⟩

/-- An access to a plain register of a live page is the write of that register. -/
theorem Stage.access_regPut {s : State} {k : PageKind} {i off : Nat} (m : Master) (n : Nat) (hl : Live s k i)
    (hd : (regDef k i off).isSome = true) (ho : plainReg k off = true) :
    s.stage.access m (k.page i) off n = s.stage.regPut m k i (rowOf k i off) (n % 2 ^ 32) := by
  obtain ⟨-, hp, hpow⟩ := hl
  obtain ⟨hlo, hhi⟩ := plainReg_range ho
  have hb90 : ¬ (k = .bat ∧ off = 0x090) := by rintro ⟨rfl, rfl⟩; simp [plainReg] at ho
  have hb94 : ¬ (k = .bat ∧ off = 0x094) := by rintro ⟨rfl, rfl⟩; simp [plainReg] at ho
  have hne : ∀ o, o < 0x080 → off ≠ o := by omega
  simp [Stage.access, Stage.regWrite, hp, hpow, hne, hb90, hb94, Nat.not_le.mpr hhi, regDef_eq_rowOf hd]

/-- A boundary-applied register write that passes its tests takes its place. -/
theorem Stage.access_waits {s : State} {m : Master} {k : PageKind} {i off n x : Nat} (h : Places s m k i off n x) (ho : plainReg k off = true) :
    s.stage.Waits m.cls (.reg (k.page i * 4096 + off) x (Word.ofNat (regWord k i off n))) (s.stage.access m (k.page i) off n) := by
  obtain ⟨hl, hd, hv, hb, hown, htag, htxn, hroom⟩ := h
  have hm : Nat.land (n % 2 ^ 32) (Nat.lor (rowOf k i off).rw (Nat.lor (rowOf k i off).w1c (rowOf k i off).wo)) = regWord k i off n := rfl
  have hw := (Stage.wait_waits m.cls (.reg (k.page i * 4096 + off) x (Word.ofNat (regWord k i off n))) htxn hroom).sent
    (Stage.sent_forwardWait _ m [regRecord k m (k.page i * 4096 + off) x (Word.ofNat (regWord k i off n))])
  rw [Stage.access_regPut m n hl hd ho]
  simp only [Stage.regPut, hm, rowOf_off, hv, hb, hown, htag]
  simpa [hw.1] using hw.sent (Stage.sent_waitTaken _ k i off _ x)

/-- A command that makes such a write leaves it among the waiting writes. -/
theorem done_places {c : Instr} {s : State} {m : Master} {k : PageKind} {i off n x : Nat} (h : Places s m k i off n x)
    (ho : plainReg k off = true) (hc : exec c s = s.act fun t => t.access m (k.page i) off n) : Done c s (Placed s m k i off n x) := by
  obtain ⟨hresp, hwait⟩ := Stage.access_waits h ho
  refine done_act hc h.1.1 ⟨?_, s.stage.newWait m.cls _, ?_, rfl, rfl, rfl, rfl⟩
  · rw [Stage.ends_bus, hresp]
  · rw [Stage.ends_waiting, hwait]

theorem plainReg_of_range {k : PageKind} {off : Nat} (hb : k ≠ .bat) (hp : k ≠ .pool) (hlo : 0x080 ≤ off) (hhi : off < 0xF00) :
    plainReg k off = true := by
  simp [plainReg, hb, hp, hlo, hhi]

/-! ### A change of memory at its boundary (R24, R137) -/

/-- From `s` to `t` nothing has changed but registers, the battens and the count of draws. -/
def Stage.Ramped (s t : Stage) : Prop := ∃ r b n, t = { s with regs := r, bats := b, fresh := n }

theorem Stage.Ramped.refl (s : Stage) : s.Ramped s := ⟨s.regs, s.bats, s.fresh, rfl⟩

theorem Stage.Ramped.trans {s t u : Stage} (h : s.Ramped t) (h' : t.Ramped u) : s.Ramped u := by
  obtain ⟨_, _, _, rfl⟩ := h
  obtain ⟨_, _, _, rfl⟩ := h'
  exact ⟨_, _, _, rfl⟩

theorem Stage.ramped_foldl {α : Type} {f : Stage → α → Stage} (hf : ∀ (s : Stage) (a : α), s.Ramped (f s a)) (l : List α) (s : Stage) :
    s.Ramped (l.foldl f s) :=
  List.foldlRecOn l f (motive := s.Ramped) (.refl s) fun t ht a _ => ht.trans (hf t a)

theorem Stage.ramped_putBat (s : Stage) (k : Nat) (b : BatSt) : s.Ramped (s.putBat k b) := ⟨s.regs, _, s.fresh, rfl⟩

theorem Stage.ramped_raiseIf (s : Stage) (c : Bool) (p b : Nat) : s.Ramped (s.raiseIf c p b) := by
  unfold Stage.raiseIf
  split
  · exact ⟨_, s.bats, s.fresh, rfl⟩
  · exact .refl s

theorem Stage.ramped_rampStart (n k : Nat) (s : Stage) (q : RampReq) : s.Ramped (Stage.rampStart n k s q) := by
  unfold Stage.rampStart
  dsimp only
  split
  · exact s.ramped_putBat _ _
  · split
    · exact ⟨s.regs, _, _, rfl⟩
    · exact (s.ramped_putBat _ _).trans (Stage.ramped_raiseIf _ _ _ _)

theorem Stage.ramped_rampsDue (s : Stage) (n k o : Nat) : s.Ramped (s.rampsDue n k o) := by
  unfold Stage.rampsDue
  dsimp only
  exact ((s.ramped_putBat _ _).trans (Stage.ramped_foldl (Stage.ramped_rampStart n k) _ _)).trans (Stage.ramped_putBat _ _ _)

theorem Stage.ramped_rampsCut (s : Stage) (k : Nat) (p : Nat → Bool) : s.Ramped (s.rampsCut k p) := by
  unfold Stage.rampsCut
  dsimp only
  split
  · exact s.ramped_putBat _ _
  · exact .refl s

theorem Stage.rd8_wr8_same (s : Stage) {a : Nat} (v : Byte) (h : s.lost a = false) : (s.wr8 a v).rd8 a = v := by
  have hl : (s.wr8 a v).lost a = false := by rw [Stage.lost, Stage.flips, Stage.wr8_ecc]; exact h
  rw [Stage.rd8, hl, Stage.wr8, h]
  exact Tab.get_put_self ..

/-- A byte that takes effect is read from then on; nothing comes to wait. -/
theorem Stage.applyMem_byte (s : Stage) (b ord : Nat) {a : Nat} (v : Byte) (h : s.lost a = false) :
    (s.applyMem b ord [(a, v)]).waiting = s.waiting ∧ (s.applyMem b ord [(a, v)]).rd8 a = v := by
  unfold Stage.applyMem
  extract_lets bats t
  obtain ⟨r, x, n, ht⟩ : s.Ramped t :=
    Stage.ramped_foldl (fun u k => (u.ramped_rampsDue _ _ _).trans (Stage.ramped_rampsCut _ _ _)) _ _
  have hl : t.lost a = false := by rw [ht]; exact h
  refine ⟨?_, Stage.rd8_wr8_same t v hl⟩
  change (t.wr8 a v).waiting = s.waiting
  rw [Stage.wr8_waiting, ht]

section
variable {s : Stage} {b a : Nat} {v : Byte} {w : WWrite} (hw : s.waiting = [w])
include hw

theorem Stage.applyDue_late (hb : b < w.due) : s.applyDue b = s := by
  have hgo : ¬ w.due ≤ b := by omega
  have hs : { s with waiting := [w] } = s := by rw [← hw]
  simpa [Stage.applyDue, hw, hgo, List.filter_cons] using hs

theorem Stage.applyDue_byte (hk : w.kind = .mem [(a, v)]) (hb : w.due ≤ b) (hheld : s.heldBack w.kind = false)
    (hreach : s.reaches w.kind = true) (hlost : s.lost a = false) : (s.applyDue b).waiting = [] ∧ (s.applyDue b).rd8 a = v := by
  have hdue : s.applyDue b = Stage.applyMem { s with waiting := [] } b w.ord [(a, v)] := by
    have hreach' : Stage.reaches { s with waiting := [] } (.mem [(a, v)]) = true := hk ▸ hreach
    rw [hk] at hheld
    simp [Stage.applyDue, hw, hk, hb, hheld, WKind.isSwap, Stage.applyKind, hreach']
  rw [hdue]
  exact Stage.applyMem_byte { s with waiting := [] } b w.ord v hlost

end

/-- Settles O44, by the write that takes its place (`done_places`) and by what a change of memory leaves (`Stage.applyMem_byte`). -/
theorem writesWait : Obligations.WritesWait :=
  ⟨fun _ _ _ _ _ => ⟨fun h => done_places h rfl rfl, fun h => done_places h rfl rfl, fun h => done_places h rfl rfl,
      fun h => done_places h rfl rfl, fun h => done_places h rfl rfl,
      fun _ h => done_places h (plainReg_of_range nofun nofun (by omega) (by omega)) rfl,
      fun _ h => done_places h (plainReg_of_range nofun nofun (by split <;> omega) (by split <;> omega)) rfl,
      fun h => done_places h rfl rfl,
      fun _ h => done_places h (plainReg_of_range nofun nofun (by split <;> omega) (by split <;> omega)) rfl,
      fun _ h => done_places h (plainReg_of_range nofun nofun (by omega) (by omega)) rfl⟩,
    fun _ _ _ _ _ hw hk => ⟨Stage.applyDue_byte hw hk, Stage.applyDue_late hw⟩⟩

end Sys2Proof.Machine
end

section
/-!
PROOF. Requests of a batten (R141 to R152): the requests that wait for a boundary, the ramp requests, the bounds of a crossfade's gain, and the
statement O36.
-/
namespace Sys2Proof.Machine

/-! ### Changes one after another -/

theorem Part.same_refl (x : Part) (s : Stage) : x.same s s := by
  cases x <;> simp [Part.same]

theorem Part.same_trans {s t u : Stage} {x : Part} (h : x.same s t) (h' : x.same t u) : x.same s u := by
  cases x <;> simp_all [Part.same]

theorem Keeps.refl (s : Stage) : Keeps [] [] s s := ⟨fun _ _ _ _ _ => rfl, fun _ _ h => h, fun x _ => x.same_refl s⟩

/-- What two changes one after another name together is all that has changed. -/
theorem Keeps.trans {ps ps' : List Nat} {xs xs' : List Part} {s t u : Stage} (h : Keeps ps xs s t) (h' : Keeps ps' xs' t u) :
    Keeps (ps ++ ps') (xs ++ xs') s u := by
  obtain ⟨hreg, hev, hpart⟩ := h
  obtain ⟨hreg', hev', hpart'⟩ := h'
  refine ⟨fun p o hp ho hn => ?_, fun p b hb => hev' p b (hev p b hb), fun x hx => ?_⟩
  · rw [List.mem_append, not_or] at hp
    rw [hreg' p o hp.2 ho hn, hreg p o hp.1 ho hn]
  · rw [List.mem_append, not_or] at hx
    exact Part.same_trans (hpart x hx.1) (hpart' x hx.2)

/-- A change outside the registers of one part alone. -/
theorem keeps_of_part {s t : Stage} {y : Part} (hreg : t.regs = s.regs) (h : ∀ x, x ≠ y → x.same s t) : Keeps [] [y] s t := by
  have hsame : ∀ p o, t.reg p o = s.reg p o := fun p o => by rw [Stage.reg, hreg]; rfl
  exact ⟨fun p o _ _ _ => hsame p o, fun p b hb => (Stage.flag_congr (hsame p 0x014) b).trans hb,
    fun x hx => h x fun he => hx (he ▸ List.mem_singleton_self _)⟩

theorem Stage.keeps_setArg (s : Stage) (p : Nat) (m : Master) (j : Nat) (v : Word) : Keeps [] [.cmds] s (s.setArg p m j v) :=
  keeps_of_part rfl fun x hx => by cases x <;> simp_all [Part.same]

/-- A command that ends with an answer alone. -/
theorem done_respond {c : Instr} {s : State} {f : Stage → Stage} {r : Resp} (hc : exec c s = s.act f) (hd : s.stage.dieUp = true)
    (hf : f s.stage = s.stage.respond r) : Done c s (fun t => t.bus.resp = r ∧ Keeps [] [.bus] s.stage t) :=
  done_act hc hd (by rw [hf]; exact ⟨Stage.ends_respond_resp _ _ _, (s.stage.keeps_respond r).ends⟩)

/-! ### RAMP_REQ_LO and RAMP_REQ_HI (R150 to R152) -/

@[simp] theorem Stage.ends_bat (s t : Stage) (k : Nat) : (s.ends t).bat k = t.bat k := by
  rw [Stage.bat, Stage.ends_bats]; rfl

theorem Stage.Sent.bat {s t : Stage} (h : s.Sent t) (k : Nat) : t.bat k = s.bat k := by
  obtain ⟨_, _, _, rfl⟩ := h
  rfl

/-- A request that finds room enters at the end of the queue. -/
theorem Stage.queue_rampSubmit (s : Stage) {k : Nat} (due : Nat) (lo : Word) (hi : Nat) (hq : (s.bat k).queue.length < 64) :
    ((s.rampSubmit k due lo hi).1.bat k).queue = (s.bat k).queue ++ [{ due := due, ord := s.order, lo := lo, hi := hi, deferred := false }] := by
  unfold Stage.rampSubmit
  dsimp only
  rw [if_neg (Nat.not_le.mpr hq)]
  exact congrArg BatSt.queue (Tab.get_put_self ..)

/-- One that finds none is refused and counted. -/
theorem Stage.rampSubmit_full (s : Stage) {k : Nat} (due : Nat) (lo : Word) (hi : Nat) (hq : 64 ≤ (s.bat k).queue.length) :
    (s.rampSubmit k due lo hi).1 = (s.bump (pBat k) 0x09C).raise (pBat k) 1 := by
  unfold Stage.rampSubmit
  dsimp only
  rw [if_pos hq]

/-- A counter stops at its top. -/
theorem Stage.regN_bump_same (s : Stage) (p o : Nat) : (s.bump p o).regN p o = min 0xFFFFFFFF (s.regN p o + 1) := by
  have hlt := s.regN_lt p o
  rw [Stage.bump, Stage.regN_setN_same, satInc]
  split <;> omega

section
variable {s : State} {k : Nat} (m : Master) (v : Nat) (h : Live s .bat k)
include h

theorem Stage.access_rampLo : s.stage.access m (pBat k) 0x090 v = (s.stage.setArg (pBat k) m 4 (Word.ofNat (v % 2 ^ 32))).respond .okay := by
  obtain ⟨-, hp, hpow⟩ := h
  change pageOf (pBat k) = _ at hp
  change s.stage.powered (pBat k) = _ at hpow
  simp [Stage.access, Stage.regWrite, hp, hpow]

theorem Stage.access_rampHi : s.stage.access m (pBat k) 0x094 v = s.stage.rampWrite m k (v % 2 ^ 32) := by
  obtain ⟨-, hp, hpow⟩ := h
  change pageOf (pBat k) = _ at hp
  change s.stage.powered (pBat k) = _ at hpow
  simp [Stage.access, Stage.regWrite, hp, hpow]

theorem rampReqLoWrite_keeps_arg : Done (.rampReqLoWrite m k v) s
    (fun t => t.bus.resp = .okay ∧ t.arg (pBat k) m 4 = Word.ofNat v ∧ Keeps [] [.cmds, .bus] s.stage t) := by
  have hv : Word.ofNat (v % 2 ^ 32) = Word.ofNat v := BitVec.eq_of_toNat_eq (by simp)
  refine done_act (f := fun t => t.access m (pBat k) 0x090 v) rfl h.1 ?_
  rw [Stage.access_rampLo m v h, hv]
  refine ⟨Stage.ends_respond_resp _ _ _, ?_, ((s.stage.keeps_setArg _ m 4 _).trans (Stage.keeps_respond _ _)).ends⟩
  rw [Stage.arg, Stage.ends_args]
  exact Tab.get_put_self ..

/-- In the modes that hold the host and the management core back their requests are denied (R461). -/
theorem rampReqHiWrite_denied (hm : heldMode s.stage.mode = true) (hc : m.cls < 2) :
    Done (.rampReqHiWrite m k v) s (fun t => t.bus.resp = .denied ∧ Keeps [] [.bus] s.stage t) := by
  refine done_respond (f := fun t => t.access m (pBat k) 0x094 v) rfl h.1 ?_
  have hpow : s.stage.powered (pBat k) = true := h.2.2
  rw [Stage.access_rampHi m v h, Stage.rampWrite, hpow, hm, decide_eq_true hc]
  rfl

section
variable (hm : ¬ (heldMode s.stage.mode = true ∧ m.cls < 2)) (hl : rampLegal s.stage.highRate (v % 2 ^ 32) = true)
  (ht : s.stage.tagTooFar m.cls = false)
include hm hl ht

/-- What RAMP_REQ_HI does with a request that is legal and not denied. -/
theorem Stage.rampWrite_legal : s.stage.rampWrite m k (v % 2 ^ 32)
    = if 64 ≤ (s.stage.bat k).queue.length then (s.stage.rampSubmit k 0 0#32 0).1.respond .refused
      else
        let t := ((s.stage.dueFor m.cls).2.rampSubmit k (s.stage.dueFor m.cls).1 (s.stage.rampLo k m) (v % 2 ^ 32)).1
        (if m.cls < 2 then t.forward (s.stage.dueFor m.cls).1 (.ramp k (s.stage.rampLo k m) (v % 2 ^ 32)) else t).respond .okay := by
  have hpow : s.stage.powered (pBat k) = true := h.2.2
  have hheld : (heldMode s.stage.mode && decide (m.cls < 2)) = false := by
    rw [← Bool.not_eq_true, Bool.and_eq_true, decide_eq_true_eq]
    exact hm
  rw [Stage.rampWrite, hpow, hheld, hl, ht]
  rfl

theorem rampReqHiWrite_queued (hq : (s.stage.bat k).queue.length < 64) : Done (.rampReqHiWrite m k v) s (fun t => t.bus.resp = .okay
    ∧ (t.bat k).queue = (s.stage.bat k).queue
      ++ [{ due := (s.stage.dueFor m.cls).1, ord := s.stage.order, lo := s.stage.arg (pBat k) m 4, hi := v % 2 ^ 32, deferred := false }]) := by
  refine done_act (f := fun t => t.access m (pBat k) 0x094 v) rfl h.1 ?_
  rw [Stage.access_rampHi m v h, Stage.rampWrite_legal m v h hm hl ht, if_neg (by omega)]
  refine ⟨Stage.ends_respond_resp _ _ _, ?_⟩
  have hsub := Stage.queue_rampSubmit (s.stage.dueFor m.cls).2 (s.stage.dueFor m.cls).1 (s.stage.rampLo k m) (v % 2 ^ 32)
    (by rw [(s.stage.sent_dueFor m.cls).bat k]; exact hq)
  obtain ⟨r, l, o, hdue⟩ := s.stage.sent_dueFor m.cls
  dsimp only
  rw [Stage.ends_bat]
  change (Stage.bat (if _ then _ else _) k).queue = _
  split
  · rw [(Stage.sent_forward _ _ _).bat, hsub, hdue]; rfl
  · rw [hsub, hdue]; rfl

theorem rampReqHiWrite_refused (hq : 64 ≤ (s.stage.bat k).queue.length) : Done (.rampReqHiWrite m k v) s (fun t => t.bus.resp = .refused
    ∧ t.bat k = s.stage.bat k ∧ Raises (pBat k) 1 t ∧ t.regN (pBat k) 0x09C = min 0xFFFFFFFF (s.stage.regN (pBat k) 0x09C + 1)) := by
  refine done_act (f := fun t => t.access m (pBat k) 0x094 v) rfl h.1 ?_
  rw [Stage.access_rampHi m v h, Stage.rampWrite_legal m v h hm hl ht, if_pos hq, Stage.rampSubmit_full _ _ _ _ hq]
  refine ⟨Stage.ends_respond_resp _ _ _, Stage.ends_bat _ _ _, Stage.ends_event _ _ (Stage.raise_sets _ _ _ (by omega)), ?_⟩
  rw [Stage.ends_regN _ _ (by omega) (by omega), ← Stage.regN_bump_same]
  exact Stage.regN_congr (Stage.reg_raise_other _ _ (by omega))

end
end

/-! ### Gains of a crossfade (R141 to R143) -/

theorem xfMix_zero (a b : Word) : xfMix a b 0 = a.toInt := by
  simp [xfMix]

theorem xfMix_full (a b : Word) : xfMix a b 32768 = b.toInt := by
  rw [xfMix, Int.mul_fdiv_cancel _ (by decide)]
  omega

/-- A gain between the planes lies between theirs. -/
theorem xfMix_between (a b : Word) {x : Int} (h0 : 0 ≤ x) (h1 : x ≤ 32768) :
    min a.toInt b.toInt ≤ xfMix a b x ∧ xfMix a b x ≤ max a.toInt b.toInt := by
  rw [xfMix, Int.fdiv_eq_ediv_of_nonneg _ (by decide)]
  generalize a.toInt = p, b.toInt = q
  rcases le_total p q with h | h
  · have hlo : 0 ≤ (q - p) * x := mul_nonneg (by omega) h0
    have hhi : (q - p) * x ≤ (q - p) * 32768 := mul_le_mul_of_nonneg_left h1 (by omega)
    omega
  · have hlo : (q - p) * x ≤ 0 := mul_nonpos_of_nonpos_of_nonneg (by omega) h0
    have hhi : (q - p) * 32768 ≤ (q - p) * x := mul_le_mul_of_nonpos_left h1 (by omega)
    omega

/-- The linear curve runs from 0 to unity without falling. -/
theorem Stage.curveEntry_linear (s : Stage) (k i : Nat) : s.curveEntry k 0 i = (65536 * (i : Int) + 1023) / 2046 := by
  rw [Stage.curveEntry, roundHalfUp, Int.fdiv_eq_ediv_of_nonneg _ (by decide)]
  congr 1
  ring

theorem Stage.alpha_linear (s : Stage) (k kk n : Nat) : 0 ≤ s.alpha k 0 kk n ∧ s.alpha k 0 kk n ≤ 32768 := by
  unfold Stage.alpha
  split
  · omega
  · split
    · omega
    · rename_i hk hn
      dsimp only
      have hpos : kk * 1023 * 65536 / n < 1023 * 65536 := by
        rw [Nat.div_lt_iff_lt_mul (by omega)]
        nlinarith
      have hi : kk * 1023 * 65536 / n / 65536 ≤ 1022 := by omega
      generalize kk * 1023 * 65536 / n / 65536 = i at hi
      have hf : kk * 1023 * 65536 / n % 65536 < 65536 := Nat.mod_lt _ (by decide)
      generalize kk * 1023 * 65536 / n % 65536 = f at hf
      rw [Stage.curveEntry_linear, Stage.curveEntry_linear, Int.fdiv_eq_ediv_of_nonneg _ (by decide)]
      push_cast
      set p : Int := (65536 * (i : Int) + 1023) / 2046 with hp
      set q : Int := (65536 * ((i : Int) + 1) + 1023) / 2046 with hq
      have hpq : p ≤ q := by omega
      have hlo : 0 ≤ (q - p) * f := mul_nonneg (by omega) (by omega)
      have hhi : (q - p) * f ≤ (q - p) * 65536 := mul_le_mul_of_nonneg_left (by omega) (by omega)
      omega

/-- Settles O36, by the write that takes its place (`done_places`), by what RAMP_REQ_HI does with a legal request
(`Stage.rampWrite_legal`), and by the bounds of a crossfade's gain. -/
theorem crossfadeRequests : Obligations.CrossfadeRequests :=
  ⟨fun _ _ _ _ _ => ⟨fun h => done_places h rfl rfl, fun h => done_places h rfl rfl, fun h => done_places h rfl rfl,
      fun h => done_places h rfl rfl, fun h => done_places h rfl rfl⟩,
    fun _ m _ v h => ⟨rampReqLoWrite_keeps_arg m v h,
      fun hm hl ht => ⟨rampReqHiWrite_queued m v h hm hl ht, rampReqHiWrite_refused m v h hm hl ht⟩, rampReqHiWrite_denied m v h⟩,
    fun a b => ⟨xfMix_zero a b, xfMix_full a b⟩, fun a b _ => xfMix_between a b, Stage.alpha_linear⟩

end Sys2Proof.Machine
end

section
/-!
PROOF. The strobe of a part at rest (R250, R277): in the reset state but for its datum every part of a boundary leaves the part as it is, and the datum
goes on to the boundary.
-/
namespace Sys2Proof.Machine

/-- A fold whose every step keeps a state keeps it. -/
theorem foldl_eq_self {α β : Type} {f : β → α → β} {l : List α} {s : β} (h : ∀ a ∈ l, f s a = s) : l.foldl f s = s :=
  List.foldlRecOn l f (motive := (· = s)) rfl fun _ ht a ha => ht ▸ h a ha

/-- The part in its reset state but for datum `d` and the boundaries `e` that the exchange has counted. -/
def atRest (d : DatumSt) (e : Nat) : Stage := { datum := d, exch := { tick := e } }

section
variable (d : DatumSt) (e : Nat)

/-- A part at rest reads every register as after a reset. -/
theorem atRest_regN (p o : Nat) : (atRest d e).regN p o = (regReset (p * 4096 + o)).toNat := rfl

/-- A write of the reset value changes nothing. -/
theorem atRest_setN {p o n : Nat} (h : Word.ofNat n = regReset (p * 4096 + o)) : (atRest d e).setN p o n = atRest d e := by
  unfold Stage.setN Stage.setReg Tab.put
  rw [if_pos h]
  rfl

theorem atRest_mode : (atRest d e).mode = mBoot := by
  change bits (regReset (0 * 4096 + 0x0E0)).toNat 3 0 = mBoot
  decide +kernel

theorem atRest_roleCfg : (atRest d e).roleCfg = 0 := by
  change bits (regReset (0x2A0 * 4096 + 0x080)).toNat 1 0 = 0
  decide +kernel

theorem atRest_bridgesClose : (atRest d e).bridgesClose = atRest d e := by
  have hst : ∀ b ∈ upTo 8, ({} : Stage).brState b ≠ 2 := by decide +kernel
  exact foldl_eq_self fun b hb => if_pos (hst b hb)

theorem atRest_redSample (n : Nat) : (atRest d e).redSample n = atRest d e := by
  unfold Stage.redSample
  rw [if_pos (.inl (atRest_roleCfg d e))]
  rfl

theorem atRest_linkPresent (b : Nat) : (upTo 4).foldl (Stage.linkPresent b) (atRest d e) = atRest d e := by
  have hen : ∀ n ∈ upTo 4, ({} : Stage).linkEn n = false := by decide +kernel
  exact foldl_eq_self fun n hn => if_pos (.inl (hen n hn))

theorem atRest_follow (b : Nat) : (upTo 4).foldl (Stage.follow b) (atRest d e) = atRest d e := by
  have hoff : ∀ n ∈ upTo 4, bit (({} : Stage).regN 0x2A0 (0x0D0 + 8 * n)) 31 = false := by decide +kernel
  refine foldl_eq_self fun n hn => if_pos ?_
  change (!bit (({} : Stage).regN 0x2A0 (0x0D0 + 8 * n)) 31) = true
  rw [hoff n hn]
  rfl

theorem atRest_linksPresent (b : Nat) : (atRest d e).linksPresent b = atRest d e := by
  unfold Stage.linksPresent
  change (upTo 4).foldl _ ((upTo 4).foldl (Stage.follow b) ((upTo 4).foldl (Stage.linkPresent b) (atRest d e))) = _
  rw [atRest_linkPresent, atRest_follow]
  exact foldl_eq_self fun _ _ => rfl

theorem atRest_sampleClose (n : Nat) : (atRest d e).sampleClose n [] none none = atRest d e := by
  have hclose : Stage.decsClose (((atRest d e).batsUsed.foldl Stage.batHold (atRest d e)).bridgesClose) n [] = atRest d e :=
    congrArg (Stage.decsClose · n []) (atRest_bridgesClose d e)
  have hoff : ¬ (atRest d e).patch.patchOn = true := nofun
  unfold Stage.sampleClose
  dsimp only
  rw [hclose, if_neg hoff, atRest_redSample, if_neg hoff]

theorem atRest_activeSample : (atRest d e).activeSample 0 = atRest d e := by
  have hset : ∀ n ∈ upTo 2, Word.ofNat (setBit (({} : Stage).regN pRed 0x084) (30 - n) false) = regReset (pRed * 4096 + 0x084) := by
    decide +kernel
  unfold Stage.activeSample
  rw [foldl_eq_self]
  · rfl
  · intro n hn
    have hlow : bit 0 n = false := by simp [bit]
    rw [hlow]
    split
    · exact atRest_setN d e (hset n hn)
    · rfl

theorem atRest_redBoundary (b : Nat) : (atRest d e).redBoundary b 0 = atRest d e := by
  have hset : Word.ofNat (setBit (({} : Stage).regN pRed 0x084) 26 false) = regReset (pRed * 4096 + 0x084) := by decide +kernel
  have hflag : (atRest d e).setFlag pRed 0x084 26 false = atRest d e := atRest_setN d e hset
  have hmode := atRest_mode d e
  unfold Stage.redBoundary
  extract_lets was s0 s1 s2 s3 s4 s5 s6 s7 leaving s8 s9
  have h1 : s1 = atRest d e := atRest_activeSample d e
  have h2 : s2 = atRest d e := by simp only [s2, h1, hmode]; rfl
  have h3 : s3 = atRest d e := by simp only [s3, h2, hmode]; rfl
  have h7 : s7 = atRest d e := by simp only [s7, s6, s5, s4, h3]; rfl
  have h8 : s8 = atRest d e := by
    have hleave : leaving = false := by simp only [leaving, h7]; rfl
    simp only [s8, hleave, h7, hmode, hflag]
    rfl
  simp only [s9, h8]
  rfl

theorem atRest_redAfter (b : Nat) : (atRest d e).redAfter b = atRest d e := by
  unfold Stage.redAfter
  rw [atRest_mode]
  rfl

theorem atRest_ownDrop (b : Nat) : (atRest d e).ownDrop b = atRest d e := by
  unfold Stage.ownDrop
  rw [atRest_mode, if_neg]
  simp [mBoot, mCatchUp]

theorem atRest_changesAt (b : Nat) : (atRest d e).changesAt b = atRest d e := by
  have hdrop : ((atRest d e).ownDrop b).graphBoundary b = atRest d e := congrArg (Stage.graphBoundary · b) (atRest_ownDrop d e b)
  have htick : Stage.syncInstant (atRest d e) d.raw = atRest d e := by
    change atRest { d with raw := max d.raw d.raw } e = atRest d e
    rw [max_self]
  unfold Stage.changesAt
  extract_lets bats s1 s2 s3 s4 s5 s6
  have h2 : s2 = atRest d e := hdrop
  have h3 : s3 = atRest d e := by simp only [s3, h2]; exact htick
  have h6 : s6 = atRest d e := by simp only [s6, s5, s4, h3]; rfl
  rw [h6]
  rfl

theorem atRest_domainJudge : (atRest d e).domainJudge = atRest d e := by
  have hodd : (upTo 32).filter ({} : Stage).oddPort = [] := by decide +kernel
  have hodd' : (upTo 32).filter (atRest d e).oddPort = [] := hodd
  unfold Stage.domainJudge
  rw [hodd']
  rfl

theorem atRest_patchBoundary : (atRest d e).patchBoundary = atRest d e := by
  change (atRest d e).domainJudge.interpJudge = _
  rw [atRest_domainJudge]
  rfl

theorem atRest_starts (i : Nat) : (atRest d e).starts i = false := by
  rw [Stage.starts, atRest_mode]
  rfl

theorem atRest_startAll (b : Nat) : (atRest d e).startAll b = atRest d e :=
  foldl_eq_self fun i _ => if_neg (by rw [atRest_starts]; decide)

theorem atRest_linkBeat (b w : Nat) : (upTo 4).foldl (Stage.linkBeat b w) (atRest d e) = atRest d e := by
  have hst : ∀ n ∈ upTo 4, ({} : Stage).linkState n < 2 := by decide +kernel
  exact foldl_eq_self fun n hn => if_pos (hst n hn)

theorem atRest_netDrive (b : Nat) (x : Bool) : (atRest d e).netDrive b x = atRest d e := by
  unfold Stage.netDrive
  rw [atRest_mode]
  rfl

theorem atRest_portBoundary (b : Nat) : (upTo 32).foldl (Stage.portBoundary b) (atRest d e) = atRest d e :=
  foldl_eq_self fun _ _ => rfl

theorem atRest_stepNow (hr : d.stepReady = []) : (atRest d e).stepNow = atRest d e := by
  have hd : { d with stepReady := [] } = d := by rw [← hr]
  have happly : (atRest d e).stepsApply = atRest d e := by
    unfold Stage.stepsApply
    change List.foldl _ (atRest { d with stepReady := [] } e) d.stepReady = _
    rw [hd, hr]
    rfl
  unfold Stage.stepNow
  rw [happly]
  exact if_pos hr

/-- The datum after the strobe of a part at rest. -/
def strobed (d : DatumSt) (e : Nat) : DatumSt :=
  { d with raw := max d.raw ((atRest d e).strobeRaw (d.index + 1)), index := d.index + 1, stepReq := [], stepReady := d.stepReq }

/-- A part at rest goes on to the next boundary, and nothing but its datum and the count of the exchange moves. -/
theorem atRest_strobe (hs : d.started = true) (hr : d.stepReady = []) :
    (atRest d e).strobe [] none none 0 = atRest (strobed d e) (e + 1) := by
  unfold Stage.strobe
  rw [if_neg (by change ¬ (!d.started) = true; rw [hs]; decide)]
  extract_lets s1 n b s2 s3 s4 d4 s5 s6 s7 s8 s9 s10 s11 s12 s13 s14 s15 s16
  have h1 : s1 = atRest d e := atRest_stepNow d e hr
  have h2 : s2 = atRest { d with raw := (strobed d e).raw } e := by simp only [s2, b, n, h1]; rfl
  have h3 : s3 = atRest { d with raw := (strobed d e).raw } e := by simp only [s3, h2, atRest_sampleClose]; rfl
  have h5 : s5 = atRest (strobed d e) (e + 1) := by simp only [s5, s4, d4, b, n, h3, h1]; rfl
  have h6 : s6 = atRest (strobed d e) (e + 1) := by simp only [s6, h5]; rfl
  have h7 : s7 = atRest (strobed d e) (e + 1) := by simp only [s7, h6, atRest_linksPresent]; rfl
  have h8 : s8 = atRest (strobed d e) (e + 1) := by simp only [s8, h7]; rfl
  have h9 : s9 = atRest (strobed d e) (e + 1) := by simp only [s9, h8, atRest_redBoundary]
  have h10 : s10 = atRest (strobed d e) (e + 1) := by simp only [s10, h9, atRest_changesAt, atRest_redAfter]
  have h12 : s12 = atRest (strobed d e) (e + 1) := by simp only [s12, s11, h10, atRest_patchBoundary, atRest_portBoundary]
  have h14 : s14 = atRest (strobed d e) (e + 1) := by simp only [s14, s13, h12]; rfl
  have h16 : s16 = atRest (strobed d e) (e + 1) := by simp only [s16, s15, h14, atRest_startAll, atRest_linkBeat]
  simp only [h16, atRest_netDrive]
  rfl

end

end Sys2Proof.Machine
end

section
/-!
PROOF. A change of the engine rate (R27): what it discards, and that the domains switched off, the clocks and the PDM clocks that follow it leave the graph,
the datum, ENGINE_RATE and GRAPH_ID as they are.
-/
namespace Sys2Proof.Machine

/-! ### What a change of the engine rate reads and writes -/

/-- A fold whose every step keeps `g` keeps it. -/
theorem foldl_keeps {α γ : Type} (g : Stage → γ) {f : Stage → α → Stage} {l : List α} (s : Stage)
    (h : ∀ t, ∀ a ∈ l, g (f t a) = g t) : g (l.foldl f s) = g s :=
  List.foldlRecOn l f (motive := fun t => g t = g s) rfl fun t ht a ha => (h t a ha).trans ht

theorem Tab.get_keep {α : Type} (d : α) {p : Nat → Bool} (t : Tab α) {k : Nat} (h : p k = true) : Tab.get d (Tab.keep p t) k = Tab.get d t k := by
  have hfind : Tab.find (Tab.keep p t) k = Tab.find t k := by
    induction t with
    | nil => rfl
    | cons x t ih =>
      obtain ⟨j, v⟩ := x
      simp only [Tab.keep] at ih ⊢
      by_cases hj : j = k
      · subst hj
        rw [List.filter_cons_of_pos (by exact h)]
        simp [Tab.find]
      · rw [Tab.find, if_neg hj, ← ih, List.filter_cons]
        split
        · rw [Tab.find, if_neg hj]
        · rfl
  rw [Tab.get, Tab.get, hfind]

/-- The graph, the datum, ENGINE_RATE and GRAPH_ID. -/
def Stage.core (s : Stage) : GraphSt × DatumSt × Word × Nat := (s.graph, s.datum, s.reg 0 0x088, s.graphId)

/-- Registers of two pages have two addresses. -/
theorem address_ne {p o q x : Nat} (hx : x < 4096) (ho : o < 4096) (h : q ≠ p) : q * 4096 + x ≠ p * 4096 + o := by
  omega

/-- A register of none of them is written. -/
theorem Stage.core_setN (s : Stage) {p o : Nat} (n : Nat) (ho : o < 4096) (hrate : p ≠ 0 ∨ o ≠ 0x088) (hgraph : 0x2F0 ≠ p) :
    (s.setN p o n).core = s.core := by
  have hid : (s.setN p o n).graphId = s.graphId := by
    rw [Stage.graphId, Stage.reg64, Stage.regN_setN_other _ _ (address_ne (by omega) ho hgraph),
      Stage.regN_setN_other _ _ (address_ne (by omega) ho hgraph)]
    rfl
  rw [Stage.core, hid, Stage.reg_setN_other _ _ (by omega)]
  rfl

theorem Stage.core_putRecord (s : Stage) (r : CRec) : (s.putRecord r).core = s.core := by
  unfold Stage.putRecord
  split
  · obtain ⟨m, h⟩ := s.ringWrite_frame r
    rw [h, Stage.core_setN _ _ (by omega) (by omega) (by omega)]
    rfl
  · have hraise : (s.raise 0 0).core = s.core := s.core_setN _ (by omega) (by omega) (by omega)
    dsimp only
    split
    · exact hraise
    · exact hraise

theorem Stage.core_trigAbort (s : Stage) (t : Trig) : (s.trigAbort t).core = s.core := by
  unfold Stage.trigAbort
  exact Stage.core_putRecord _ _

/-! ### A domain that is switched off (R638) -/

theorem Stage.core_abortQueue (s : Stage) (p : Nat) : (s.abortQueue p).core = s.core :=
  foldl_keeps Stage.core _ fun t _ _ => t.core_putRecord _

theorem Stage.core_pageOff (s : Stage) {p : Nat} (hsys : p ≠ 0) (hgraph : p ≠ 0x2F0) : (s.pageOff p).core = s.core := by
  unfold Stage.pageOff
  extract_lets t u
  have hu : u.core = s.core := by
    have ht : t.core = s.core := s.core_abortQueue p
    rw [← ht]
    change Stage.core (match t.runningCmd p with | some c => _ | none => _) = _
    split
    · exact Stage.core_putRecord _ _
    · rfl
  have hreg : ∀ q x, q ≠ p → x < 4096 →
      Tab.get (regReset (q * 4096 + x)) (Tab.keep (fun a => a / 4096 != p) u.regs) (q * 4096 + x) = u.reg q x := by
    intro q x hq hx
    refine Tab.get_keep _ _ ?_
    have : (q * 4096 + x) / 4096 = q := by omega
    simpa [this] using hq
  have hword : ∀ x, x < 4096 → (Tab.get (regReset (0x2F0 * 4096 + x)) (Tab.keep (fun a => a / 4096 != p) u.regs) (0x2F0 * 4096 + x)).toNat
      = u.regN 0x2F0 x := fun x hx => congrArg BitVec.toNat (hreg _ x hgraph.symm hx)
  rw [← hu, Stage.core, Stage.core, Stage.graphId, Stage.graphId, Stage.reg64, Stage.reg64, ← hword _ (by omega), ← hword _ (by omega),
    ← hreg 0 0x088 hsys.symm (by omega)]
  rfl

theorem domainPages_ne {d p : Nat} (hd : d ≠ 3) (hp : p ∈ domainPages d) : p ≠ 0 ∧ p ≠ 0x2F0 := by
  have hk := (List.mem_filter.mp hp).2
  constructor
  · rintro rfl
    exact absurd (by simpa [pageOf, pageDomain] using hk) hd.symm
  · rintro rfl
    exact absurd (by simpa [pageOf, pageDomain] using hk) hd.symm

theorem Stage.core_domainMem (s : Stage) (d : Nat) : (s.domainMem d).core = s.core := by
  unfold Stage.domainMem
  split_ifs <;> rfl

/-- The domains of the strip processors and of the battens hold none of them. -/
theorem Stage.core_domainClear (s : Stage) {d : Nat} (hd : 4 ≤ d ∧ d ≤ 7) : (s.domainClear d).core = s.core := by
  have hpages : ((domainPages d).foldl Stage.pageOff s).core = s.core :=
    foldl_keeps Stage.core s fun u p hp => u.core_pageOff (domainPages_ne (by omega) hp).1 (domainPages_ne (by omega) hp).2
  unfold Stage.domainClear
  extract_lets u v w
  have hw : w.core = s.core := by
    have hu : u = s := if_neg (by omega)
    rw [← hpages, ← hu]
    exact v.core_domainMem d
  rw [← hw, if_neg (c := d = 9) (by omega), if_neg (c := d = 10) (by omega), if_neg (c := d = 11) (by omega)]
  split_ifs <;> rfl

theorem Stage.core_domainOff (s : Stage) {d : Nat} (hd : 4 ≤ d ∧ d ≤ 7) : (s.domainOff d).core = s.core := by
  have hflag : ∀ (t : Stage) i b, (t.setFlag pPower 0x090 i b).core = t.core := fun t i b =>
    t.core_setN _ (by omega) (.inl (by decide)) (by decide)
  unfold Stage.domainOff
  split
  · rw [Stage.core_domainClear _ hd, hflag, hflag]
  · rfl

/-! ### The clocks that follow the engine rate (R230, R328, R362) -/

/-- The graph and the datum. -/
def Stage.held (s : Stage) : GraphSt × DatumSt := (s.graph, s.datum)

theorem Stage.held_raiseIf (s : Stage) (c : Bool) (p b : Nat) : (s.raiseIf c p b).held = s.held := by
  rw [Stage.held, Stage.raiseIf_graph, Stage.raiseIf_datum]; rfl

theorem Stage.held_setFlag (s : Stage) (p o i : Nat) (b : Bool) : (s.setFlag p o i b).held = s.held := rfl

theorem Stage.held_portFault (s : Stage) (p : Nat) (tx : Bool) (f cause : Nat) : (s.portFault p tx f cause).held = s.held := by
  unfold Stage.portFault
  dsimp only
  split
  · rfl
  · split <;> rfl

theorem Stage.held_clockFault (s : Stage) (g : Nat) : (s.clockFault g).held = s.held :=
  foldl_keeps Stage.held s fun t p _ => (Stage.held_portFault _ p true _ _).trans (t.held_portFault p false _ _)

theorem Stage.held_cgJudge (s : Stage) (g : Nat) : (s.cgJudge g).held = s.held := by
  unfold Stage.cgJudge
  split
  · rfl
  · exact Stage.held_clockFault _ g

theorem Stage.held_mclkJudge (s : Stage) (n : Nat) (w : Bool) : (s.mclkJudge n w).held = s.held := by
  rw [Stage.mclkJudge, Stage.held_raiseIf, Stage.held_setFlag]

theorem Stage.held_clocksJudge (s : Stage) : s.clocksJudge.held = s.held := by
  have hcg : ((upTo 8).foldl Stage.cgJudge s).held = s.held := foldl_keeps Stage.held s fun t g _ => t.held_cgJudge g
  rw [← hcg]
  exact foldl_keeps Stage.held _ fun t n _ => t.held_mclkJudge n false

theorem Stage.core_clocksJudge (s : Stage) : s.clocksJudge.core = s.core := by
  have hoff : ∀ q x, q < 0x200 ∨ 0x220 ≤ q → x < 4096 → s.clocksJudge.reg q x = s.reg q x := fun q x hq hx =>
    s.reg_clocksJudge ⟨hx, fun p hp => by unfold pPort; omega⟩
  obtain ⟨hgraph, hdatum⟩ := Prod.mk.inj s.held_clocksJudge
  rw [Stage.core, Stage.core, Stage.graphId, Stage.graphId, Stage.reg64, Stage.reg64, hgraph, hdatum, hoff _ _ (by omega) (by omega),
    Stage.regN_congr (hoff 0x2F0 0x094 (by omega) (by omega)), Stage.regN_congr (hoff 0x2F0 (0x094 + 4) (by omega) (by omega))]

theorem Stage.core_pdmJudge (s : Stage) : s.pdmJudge.core = s.core := by
  refine foldl_keeps Stage.core s fun t k hk => ?_
  have hk : k < 4 := List.mem_range.mp hk
  dsimp only
  split
  · rw [Stage.raise, Stage.setFlag, Stage.core_setN _ _ (by omega) (.inl (by decide)) (by decide)]
    exact t.core_setN _ (by omega) (.inl (by decide)) (by decide)
  · rfl

/-! ### ENGINE_RATE (R27) -/

/-- A discard leaves no committed graph and no staged image, and the datum and ENGINE_RATE as they were. -/
theorem Stage.core_graphDiscard (s : Stage) : ∃ g, s.graphDiscard.core = (g, s.datum, s.reg 0 0x088, 0) ∧ g.staged = none ∧ g.map = [] := by
  unfold Stage.graphDiscard
  split
  · rename_i h
    obtain ⟨hid, hmap, hstaged⟩ := h
    exact ⟨s.graph, by rw [Stage.core, hid], hstaged, hmap⟩
  · extract_lets g t u v
    refine ⟨u.graph, ?_, rfl, rfl⟩
    have hu : u.core = (u.graph, s.datum, s.reg 0 0x088, 0) := by
      have hrate : (t.unstage.set64 0x2F0 0x094 0).reg 0 0x088 = s.reg 0 0x088 := by
        rw [Stage.set64, Stage.reg_setN_other _ _ (address_ne (by omega) (by omega) (by decide)),
          Stage.reg_setN_other _ _ (address_ne (by omega) (by omega) (by decide))]
        rfl
      have hid : (t.unstage.set64 0x2F0 0x094 0).graphId = 0 := by
        rw [Stage.graphId, Stage.reg64, Stage.set64, Stage.regN_setN_same, Stage.regN_setN_other _ _ (by decide), Stage.regN_setN_same]
        rfl
      exact congrArg₂ (fun w n => (u.graph, s.datum, w, n)) hrate hid
    have hv : v.core = u.core := by
      rw [← foldl_keeps Stage.core u fun x a _ => x.core_trigAbort a]
      exact Stage.core_setN _ _ (by omega) (.inl (by decide)) (by decide)
    rw [← hu, ← hv]
    split
    · simp only [List.foldl_cons, List.foldl_nil]
      rw [Stage.core_domainOff _ (by omega), Stage.core_domainOff _ (by omega), Stage.core_domainOff _ (by omega),
        Stage.core_domainOff _ (by omega)]
    · rfl

/-- A new rate over another discards both, and the index is that of the datum at the new rate. -/
theorem Stage.core_rateWritten (s : Stage) {old : Nat} (h : s.rateCode ≠ old) :
    ∃ g, (s.rateWritten old).core
        = (g, { s.datum with index := if s.datum.started then indexAt s.now s.fs else 0 }, s.reg 0 0x088, 0)
      ∧ g.staged = none ∧ g.map = [] := by
  obtain ⟨g, hcore, hstaged, hmap⟩ := s.core_graphDiscard
  refine ⟨g, ?_, hstaged, hmap⟩
  simp only [Stage.core, Prod.mk.injEq] at hcore
  obtain ⟨hgraph, hdatum, hrate, hid⟩ := hcore
  have hnow : s.graphDiscard.now = s.now := by rw [Stage.now, hdatum]; rfl
  have hfs : s.graphDiscard.fs = s.fs := congrArg fsOf (Stage.fld_congr hrate 2 0)
  unfold Stage.rateWritten
  rw [if_neg h]
  extract_lets t d u v
  have hu : u.core = (g, { s.datum with index := if s.datum.started then indexAt s.now s.fs else 0 }, s.reg 0 0x088, 0) := by
    have hindex : u.datum = { s.datum with index := if s.datum.started then indexAt s.now s.fs else 0 } := by
      simp only [u, d, t, hdatum, hnow, hfs]
    change (s.graphDiscard.graph, u.datum, s.graphDiscard.reg 0 0x088, s.graphDiscard.graphId) = _
    rw [hgraph, hindex, hrate, hid]
  rw [Stage.core_pdmJudge, Stage.core_clocksJudge, ← hu]
  simp only [v]
  split
  · exact Stage.core_setN _ _ (by omega) (.inl (by decide)) (by decide)
  · rfl

end Sys2Proof.Machine
end

section
/-!
PROOF. The strobe, the engine rate and the reads that latch (R25, R27, R250, R256, R277, R552), and the statement O33.
-/
namespace Sys2Proof.Machine

/-! ### SAMPLE_BOUNDARY (R250, R277) -/

/-- Before the raw counter runs there is no strobe. -/
theorem sampleBoundary_unstarted (s : State) (pdm : List (Nat × List Bool)) (a b : Option Nat) (x : Nat)
    (h : s.stage.datum.started = false) : Done (.sampleBoundary pdm a b x) s (fun t => Keeps [] [] s.stage t) := by
  have hs : s.stage.strobe pdm a b x = s.stage := if_pos (by rw [h]; rfl)
  have hc : exec (.sampleBoundary pdm a b x) s = s.act fun t => t.strobe pdm a b x := rfl
  cases hd : s.stage.dieUp with
  | true => exact done_act hc hd (by rw [hs]; exact (Keeps.refl s.stage).ends)
  | false => exact ⟨s, hc.trans (s.act_down _ hd), rfl, Keeps.refl s.stage⟩

/-- A part at rest goes on to the next boundary with the strobe. -/
theorem sampleBoundary_atRest (d : DatumSt) (l : List Instr) (hs : d.started = true) (hr : d.stepReady = []) :
    Done (.sampleBoundary [] none none 0) { stage := { datum := d }, pending := l } (fun t => t.datum.index = d.index + 1
      ∧ t.datum.raw = max d.raw (({ datum := d } : Stage).strobeRaw (d.index + 1))) := by
  have hstrobe : Stage.strobe { datum := d } [] none none 0 = atRest (strobed d 0) 1 := atRest_strobe d 0 hs hr
  refine done_act (f := fun t => t.strobe [] none none 0) rfl rfl ?_
  rw [Stage.ends_datum, hstrobe]
  exact ⟨rfl, rfl⟩

/-! ### Changes that registers alone see -/

/-- What names more says less. -/
theorem Keeps.mono {ps ps' : List Nat} {xs xs' : List Part} {s t : Stage} (h : Keeps ps xs s t) (hp : ps ⊆ ps') (hx : xs ⊆ xs') :
    Keeps ps' xs' s t := by
  obtain ⟨hreg, hev, hpart⟩ := h
  exact ⟨fun p o hn => hreg p o fun hm => hn (hp hm), hev, fun x hn => hpart x fun hm => hn (hx hm)⟩

/-- A change of one register that is no EVENT register changes at most its page. -/
theorem keeps_of_regs {s t : Stage} {p o : Nat} (hf : ∃ r, t = { s with regs := r })
    (hreg : ∀ q x, q * 4096 + x ≠ p * 4096 + o → t.reg q x = s.reg q x) (ho : o < 4096) (hn : o ≠ 0x014) : Keeps [p] [] s t := by
  refine ⟨fun q x hq hx _ => hreg q x (address_ne hx ho (by simpa using hq)), fun q b hb => ?_, fun x _ => ?_⟩
  · rw [Stage.flag_congr (hreg q 0x014 (by omega)), hb]
  · obtain ⟨r, rfl⟩ := hf
    cases x <;> simp [Part.same]

theorem Stage.keeps_setN (s : Stage) {p o : Nat} (n : Nat) (ho : o < 4096) (hn : o ≠ 0x014) : Keeps [p] [] s (s.setN p o n) :=
  keeps_of_regs ⟨_, rfl⟩ (fun _ _ h => s.reg_setN_other n h) ho hn

theorem Stage.keeps_wrote (s : Stage) (k : PageKind) (i : Nat) {o : Nat} (n : Nat) (ho : o < 4096) (hn : o ≠ 0x014) :
    Keeps [k.page i] [] s (s.wrote k i o n) :=
  keeps_of_regs (s.wrote_frame k i o n) (fun _ _ h => s.reg_store_other _ h) ho hn

theorem Stage.keeps_answer (s : Stage) (v : Word) : Keeps [] [.bus] s (s.answer v) :=
  keeps_of_part rfl fun x hx => by cases x <;> simp_all [Part.same]

/-! ### ENGINE_RATE (R26, R27) -/

theorem rate_row : rowOf .sys 0 0x088 = { off := 0x088, rst := 0x1, rw := 0x7, rng := [(2, 0, 0, 5)] } := rfl

/-- Where the low bits of a register can all be written, they read as written. -/
theorem bits_merge_low (d : RegDef) (old n w : Nat) (hw : w < 32) (hd : ∀ i, i ≤ w → bit d.rw i = true) :
    bits (d.merge old (d.masked n)) w 0 = bits n w 0 := by
  rw [bits, bits, Nat.pow_zero, Nat.div_one, Nat.div_one]
  refine Nat.eq_of_testBit_eq fun i => ?_
  rw [Nat.testBit_mod_two_pow, Nat.testBit_mod_two_pow]
  by_cases hi : i < w + 1 - 0
  · rw [← bit_eq_testBit, ← bit_eq_testBit, d.bit_merge _ _ (by omega), hd i (by omega), if_pos rfl, d.bit_masked _ (by omega), hd i (by omega)]
    simp
  · rw [decide_eq_false hi, Bool.false_and, Bool.false_and]

section
variable {s : State} {m : Master} {v : Nat} (h : Passes s m .sys 0 0x088 v)
include h

theorem Stage.rateCode_wrote : (s.stage.wrote .sys 0 0x088 v).rateCode = bits v 2 0 := by
  rw [Stage.rateCode, Stage.fld]
  change bits ((s.stage.wrote .sys 0 0x088 v).regN (PageKind.sys.page 0) 0x088) 2 0 = _
  rw [Stage.regN_wrote h, regWord]
  exact bits_merge_low _ _ _ _ (by omega) (by rw [rate_row]; decide)

/-- Such a write ends in what a write over the rate code before it makes of the part. -/
theorem done_engineRateWrite {P : Stage → Prop}
    (hp : P (s.stage.ends (((s.stage.wrote .sys 0 0x088 v).rateWritten s.stage.rateCode).respond .okay))) : Done (.engineRateWrite m v) s P :=
  done_passes h rfl rfl hp

/-- A change of the rate discards graph and staged image, and takes the sample index afresh. -/
theorem engineRateWrite_changes (hne : bits v 2 0 ≠ s.stage.rateCode) : Done (.engineRateWrite m v) s (fun t => t.bus.resp = .okay
    ∧ t.rateCode = bits v 2 0 ∧ t.graphId = 0 ∧ t.graph.staged = none ∧ t.graph.map = []
    ∧ t.datum.index = if s.stage.datum.started then indexAt s.stage.now t.fs else 0) := by
  refine done_engineRateWrite h ?_
  have hrate := Stage.rateCode_wrote h
  obtain ⟨r, hw⟩ := s.stage.wrote_frame .sys 0 0x088 v
  generalize s.stage.wrote .sys 0 0x088 v = w at hrate hw ⊢
  have hdatum : w.datum = s.stage.datum := by rw [hw]
  obtain ⟨g, hcore, hstaged, hmap⟩ := w.core_rateWritten (old := s.stage.rateCode) (by rw [hrate]; exact hne)
  generalize w.rateWritten s.stage.rateCode = u at hcore ⊢
  simp only [Stage.core, Prod.mk.injEq] at hcore
  obtain ⟨hgraph, hindex, hreg, hid⟩ := hcore
  have hcode : (s.stage.ends (u.respond .okay)).rateCode = w.rateCode :=
    (Stage.ends_fld _ _ _ _ (by omega) (by omega)).trans (Stage.fld_congr hreg 2 0)
  refine ⟨Stage.ends_respond_resp _ _ _, hcode.trans hrate, ?_, ?_, ?_, ?_⟩
  · rw [← hid, Stage.graphId, Stage.reg64, Stage.ends_regN _ _ (by omega) (by omega), Stage.ends_regN _ _ (by omega) (by omega)]
    rfl
  · rw [Stage.ends_graph, ← hstaged, ← hgraph]; rfl
  · rw [Stage.ends_graph, ← hmap, ← hgraph]; rfl
  · have hfs : (s.stage.ends (u.respond .okay)).fs = w.fs := congrArg fsOf hcode
    rw [hfs, Stage.now, ← hdatum, Stage.ends_datum]
    exact congrArg DatumSt.index hindex

/-- A write of the present rate keeps them. -/
theorem engineRateWrite_keeps (he : bits v 2 0 = s.stage.rateCode) :
    Done (.engineRateWrite m v) s (fun t => t.bus.resp = .okay ∧ Keeps [0] [.bus] s.stage t) := by
  have hsame : (s.stage.wrote .sys 0 0x088 v).rateWritten s.stage.rateCode = s.stage.wrote .sys 0 0x088 v :=
    if_pos ((Stage.rateCode_wrote h).trans he)
  refine done_engineRateWrite h ⟨Stage.ends_respond_resp _ _ _, ?_⟩
  rw [hsame]
  exact ((s.stage.keeps_wrote .sys 0 v (by omega) (by omega)).trans (Stage.keeps_respond _ _)).ends

end

/-! ### Reads that latch (R25, R256, R552) -/

/-- A read of a register of a live page answers with its value, after what the read latches. -/
theorem Stage.regRead_live {s : State} {k : PageKind} {i : Nat} (m : Master) (off : Nat) (h : Live s k i) : s.stage.regRead m (k.page i) off
    = (s.stage.readEffect k i off).answer (Word.ofNat ((s.stage.readEffect k i off).readReg m (k.page i) off)) := by
  obtain ⟨-, hpage, hpow⟩ := h
  simp [Stage.regRead, hpage, hpow]

/-- A command that makes such a read has a result `P` when the end of the read has it. -/
theorem done_read {c : Instr} {s : State} {k : PageKind} {i : Nat} {m : Master} {off : Nat} {P : Stage → Prop} (h : Live s k i)
    (hc : exec c s = s.act fun t => t.regRead m (k.page i) off)
    (hp : P (s.stage.ends ((s.stage.readEffect k i off).answer
      (Word.ofNat ((s.stage.readEffect k i off).readReg m (k.page i) off))))) : Done c s P :=
  done_act hc h.1 (Stage.regRead_live m off h ▸ hp)

theorem Stage.ends_answer_bus (s t : Stage) (n : Nat) :
    (s.ends (t.answer (Word.ofNat n))).bus = { resp := .okay, data := leBytes 4 (n % 2 ^ 32) } := by
  rw [Stage.ends_bus, Stage.answer, Word.toNat_ofNat]

theorem sampleIndexLoRead_latches {s : State} (m : Master) (h : Live s .sys 0) : Done (.sampleIndexLoRead m) s (fun t => t.bus.resp = .okay
    ∧ t.bus.data = leBytes 4 (s.stage.datum.index % 2 ^ 32) ∧ t.regN 0 0x084 = s.stage.datum.index / 2 ^ 32 % 2 ^ 32
    ∧ Keeps [0] [.bus] s.stage t) := by
  have hval : (s.stage.readEffect .sys 0 0x080).readReg m (PageKind.sys.page 0) 0x080 = s.stage.datum.index % 2 ^ 32 % 2 ^ 32 := rfl
  refine done_read (m := m) (off := 0x080) h rfl ?_
  rw [hval, Stage.ends_answer_bus, Nat.mod_mod, Nat.mod_mod]
  refine ⟨rfl, rfl, ?_, ((s.stage.keeps_setN _ (by omega) (by omega)).trans (Stage.keeps_answer _ _)).ends⟩
  rw [Stage.ends_regN _ _ (by omega) (by omega)]
  exact Stage.regN_setN_same _ _ _ _

theorem lastErrLoRead_latches {s : State} (m : Master) (h : Live s .grid 0) : Done (.lastErrLoRead m) s (fun t => t.bus.resp = .okay
    ∧ t.bus.data = leBytes 4 (s.stage.grid.lastErr.1 % 2 ^ 32) ∧ t.regN 1 0x0B4 = s.stage.grid.lastErr.1 % 2 ^ 32
    ∧ t.regN 1 0x0B8 = s.stage.grid.lastErr.2 % 2 ^ 32 ∧ Keeps [1] [.bus] s.stage t) := by
  have hval : (s.stage.readEffect .grid 0 0x0B4).readReg m (PageKind.grid.page 0) 0x0B4 = s.stage.grid.lastErr.1 % 2 ^ 32 := rfl
  have hkeep : Keeps [1] [] s.stage (s.stage.readEffect .grid 0 0x0B4) :=
    ((s.stage.keeps_setN _ (by omega) (by omega)).trans (Stage.keeps_setN _ _ (by omega) (by omega))).mono (by simp) (by simp)
  refine done_read (m := m) (off := 0x0B4) h rfl ?_
  rw [hval, Stage.ends_answer_bus, Nat.mod_mod]
  refine ⟨rfl, rfl, ?_, ?_, (hkeep.trans (Stage.keeps_answer _ _)).ends⟩
  · rw [Stage.ends_regN _ _ (by omega) (by omega)]
    exact (Stage.regN_setN_other _ _ (by decide)).trans (Stage.regN_setN_same _ _ _ _)
  · rw [Stage.ends_regN _ _ (by omega) (by omega)]
    exact Stage.regN_setN_same _ _ _ _

/-- A change of the datum is one of its part. -/
theorem Stage.keeps_datum (s : Stage) (d : DatumSt) : Keeps [] [.datum] s { s with datum := d } :=
  keeps_of_part rfl fun x hx => by cases x <;> simp_all [Part.same]

theorem Live.tick {s : State} {k : PageKind} {i : Nat} (h : Live s k i) (r : Nat) : Live { s with stage := s.stage.tick r } k i := h

theorem nowFracRead_latches {s : State} (m : Master) (r : Nat) (h : Live s .datum 0) : Done (.nowFracRead m r) s (fun t => t.bus.resp = .okay
    ∧ t.datum.raw = max s.stage.datum.raw r ∧ t.datum.nowRaw = t.datum.raw ∧ t.datum.nowDatum = t.now
    ∧ Keeps [] [.bus, .datum] s.stage t) := by
  have hread : (s.stage.tick r).regRead m pDatum 0x088 = (s.stage.tick r).latchNow.answer _ := Stage.regRead_live m 0x088 (h.tick r)
  have hkeep : Keeps [] [.datum] s.stage (s.stage.tick r).latchNow := s.stage.keeps_datum _
  refine done_act (f := fun t => (t.tick r).regRead m pDatum 0x088) rfl h.1 ?_
  rw [hread, Stage.now, Stage.ends_bus, Stage.ends_datum]
  exact ⟨rfl, rfl, rfl, rfl, ((hkeep.trans (Stage.keeps_answer _ _)).mono (by simp) (by simp)).ends⟩

/-- Settles O33, by the strobe of a part at rest (`atRest_strobe`), by what a write of ENGINE_RATE keeps and clears
(`Stage.core_rateWritten`), and by what each read latches. -/
theorem sampleStrobe : Obligations.SampleStrobe :=
  ⟨fun s pdm a b x h => sampleBoundary_unstarted s pdm a b x h, sampleBoundary_atRest,
    fun _ _ _ h => ⟨engineRateWrite_changes h, engineRateWrite_keeps h⟩, fun _ m h => sampleIndexLoRead_latches m h,
    fun _ m r h => nowFracRead_latches m r h, fun _ m h => lastErrLoRead_latches m h⟩

end Sys2Proof.Machine
end

section
/-!
PROOF. The frame of a command of the Stage die, and the frame of a register write that is not boundary-applied (R562, R563).
-/
namespace Sys2Proof.Machine

/-! ### Changes within one frame -/

/-- Two changes within a frame, one after another, stay within it. -/
theorem Keeps.comp {ps : List Nat} {xs : List Part} {s t u : Stage} (h : Keeps ps xs s t) (h' : Keeps ps xs t u) : Keeps ps xs s u :=
  (h.trans h').mono (by simp) (by simp)

/-- Raising an event is within every frame. -/
theorem Stage.keeps_raise (s : Stage) (p : Nat) {b : Nat} (hb : b < 32) : Keeps [] [] s (s.raise p b) :=
  ⟨fun _ _ _ _ _ => s.reg_raise_other b (by omega), fun q c h => s.flag_raise_mono p b q c hb h,
    fun x _ => by cases x <;> simp [Part.same]⟩

theorem Stage.keeps_emit (s : Stage) (o : Out) : Keeps [] [] s (s.emit o) :=
  ⟨fun _ _ _ _ _ => rfl, fun _ _ h => h, fun x _ => by cases x <;> simp [Part.same]⟩

/-- A fold whose every step is within a frame is within it. -/
theorem keeps_foldl {α : Type} {ps : List Nat} {xs : List Part} {f : Stage → α → Stage} {l : List α}
    (h : ∀ t, ∀ a ∈ l, Keeps ps xs t (f t a)) (s : Stage) : Keeps ps xs s (l.foldl f s) :=
  List.foldlRecOn l f (motive := Keeps ps xs s) ((Keeps.refl s).mono (by simp) (by simp)) fun t ht a ha => ht.comp (h t a ha)

/-! ### Frames of commands -/

/-- A command of the Stage die whose effect is within a frame is within it. -/
theorem frame_act {c : Instr} {f : Stage → Stage} {ps : List Nat} {xs : List Part} (hc : ∀ s, exec c s = s.act f)
    (hf : ∀ s, Keeps ps xs s (f s)) : Frame [c] ps xs := by
  rintro _ hmem s t ht
  obtain rfl := List.mem_singleton.mp hmem
  rw [hc] at ht
  cases hd : s.stage.dieUp with
  | true =>
    rw [s.act_up f hd] at ht
    cases ht
    exact ⟨rfl, (hf s.stage).ends⟩
  | false =>
    rw [s.act_down f hd] at ht
    cases ht
    exact ⟨rfl, (Keeps.refl _).mono (by simp) (by simp)⟩

theorem frame_cons {c : Instr} {cs : List Instr} {ps : List Nat} {xs : List Part} (h : Frame [c] ps xs) (h' : Frame cs ps xs) :
    Frame (c :: cs) ps xs :=
  List.forall_mem_cons.mpr ⟨h c (List.mem_singleton_self c), h'⟩

/-! ### The frame of a register write -/

theorem Stage.keeps_badWrite (s : Stage) (cls p o : Nat) (mem : Bool) : Keeps [0] [.bus] s (s.badWrite cls p o mem) := by
  have hraise : Keeps [0] [] s (s.raise p 31) := (s.keeps_raise p (by omega)).mono (by simp) (by simp)
  have hcount : Keeps [0] [] (s.raise p 31) ((s.raise p 31).bump 0 0x0D0) := Stage.keeps_setN _ _ (by omega) (by omega)
  exact ((hraise.comp hcount).comp (Stage.keeps_setN _ _ (by omega) (by omega))).trans (Stage.keeps_respond _ _)

section
variable (s : Stage) (m : Master) {k : PageKind} {i off : Nat}

/-- What a write of a register that stands in a row of its page's table may be answered. -/
theorem Stage.access_cases (n : Nat) (hp : pageOf (k.page i) = some (k, i)) (ho : plainReg k off = true) :
    s.access m (k.page i) off n = s.respond .fault ∨ s.access m (k.page i) off n = s.respond .okay
      ∨ s.access m (k.page i) off n = s.regPut m k i (rowOf k i off) (n % 2 ^ 32) := by
  obtain ⟨hlo, hhi⟩ := plainReg_range ho
  have hb90 : ¬ (k = .bat ∧ off = 0x090) := by rintro ⟨rfl, rfl⟩; simp [plainReg] at ho
  have hb94 : ¬ (k = .bat ∧ off = 0x094) := by rintro ⟨rfl, rfl⟩; simp [plainReg] at ho
  have hne : ∀ o, o < 0x080 → off ≠ o := by omega
  cases hpow : s.powered (k.page i) with
  | false => exact .inl (by simp [Stage.access, Stage.regWrite, hp, hpow, hne])
  | true =>
    cases hd : regDef k i off with
    | none => exact .inr (.inl (by simp [Stage.access, Stage.regWrite, hp, hpow, hne, hb90, hb94, Nat.not_le.mpr hhi, hd]))
    | some d =>
      have hrow : rowOf k i off = d := by rw [rowOf, hd]; rfl
      refine .inr (.inr ?_)
      simp [Stage.access, Stage.regWrite, hp, hpow, hne, hb90, hb94, Nat.not_le.mpr hhi, hd, hrow]

/-- What such a write does where it is not boundary-applied: protection or value stops it, or it has its effect. -/
theorem Stage.regPut_cases (n : Nat) (ho : plainReg k off = true) (hsel : ∀ v, s.boundarySel k i off v = none) :
    s.regPut m k i (rowOf k i off) n = s.respond .denied
      ∨ s.regPut m k i (rowOf k i off) n = s.badWrite m.cls (k.page i) off false
      ∨ ∃ old v, s.regPut m k i (rowOf k i off) n = ((s.store (k.page i) off (Word.ofNat v)).written k i off old v).respond .okay := by
  have hpool : ¬ (k = .pool ∧ 0x100 ≤ off ∧ off < 0x300) := by
    rintro ⟨rfl, h1, h2⟩
    simp [plainReg, h1, h2] at ho
  simp only [Stage.regPut, rowOf_off, hsel]
  cases hv : s.regVerdict m.cls k i (rowOf k i off) (Nat.land n (Nat.lor (rowOf k i off).rw (Nat.lor (rowOf k i off).w1c (rowOf k i off).wo))) with
  | denied => exact .inl (by simp)
  | bad => exact .inr (.inl (by simp))
  | go => exact .inr (.inr ⟨_, _, by simp [hpool]; rfl⟩)

/-- A write of a register that is not boundary-applied stays within a frame that holds SYS and the bus, where its effect does. -/
theorem Stage.keeps_access {ps : List Nat} {xs : List Part} (n : Nat) (hp : pageOf (k.page i) = some (k, i)) (ho : plainReg k off = true)
    (hsel : ∀ v, s.boundarySel k i off v = none) (hsys : 0 ∈ ps) (hbus : .bus ∈ xs)
    (heff : ∀ old v, Keeps ps xs s ((s.store (k.page i) off (Word.ofNat v)).written k i off old v)) :
    Keeps ps xs s (s.access m (k.page i) off n) := by
  have hans : ∀ (t : Stage) (r : Resp), Keeps ps xs t (t.respond r) := fun t r => (t.keeps_respond r).mono (by simp) (by simpa using hbus)
  rcases s.access_cases m n hp ho with h | h | h
  · exact h ▸ hans s _
  · exact h ▸ hans s _
  · rcases s.regPut_cases m (n % 2 ^ 32) ho hsel with h' | h' | ⟨old, v, h'⟩
    · exact h ▸ h' ▸ hans s _
    · exact h ▸ h' ▸ (s.keeps_badWrite _ _ _ _).mono (by simpa using hsys) (by simpa using hbus)
    · exact h ▸ h' ▸ (heff old v).comp (hans _ _)

end

end Sys2Proof.Machine
end

section
/-!
PROOF. The operations of the levelling loop (R37 to R47): what each leaves of the loop and of the registers of LEVEL, and that none changes more
than those.
-/
namespace Sys2Proof.Machine

/-! ### What the loop reads -/

theorem bits_lt (n hi lo : Nat) : bits n hi lo < 2 ^ (hi + 1 - lo) := Nat.mod_lt _ (Nat.two_pow_pos _)

section
variable {s t : Stage}

theorem Stage.vcoreNow_congr (h : t.reg pLevel 0x090 = s.reg pLevel 0x090) : t.vcoreNow = s.vcoreNow := Stage.fld_congr h 6 0

theorem Stage.vmax_congr (h : t.reg pLevel 0x088 = s.reg pLevel 0x088) : t.vmax = s.vmax := Stage.fld_congr h 22 16

theorem Stage.vmin_congr (h : t.reg pLevel 0x088 = s.reg pLevel 0x088) : t.vmin = s.vmin := Stage.fld_congr h 6 0

theorem Stage.mode_congr (h : t.reg 0 0x0E0 = s.reg 0 0x0E0) : t.mode = s.mode := Stage.fld_congr h 3 0

theorem Stage.resting_congr (h : t.reg 0 0x0E0 = s.reg 0 0x0E0) (h' : t.reg pLevel 0x080 = s.reg pLevel 0x080) : t.resting = s.resting := by
  rw [Stage.resting, Stage.resting, Stage.mode_congr h, Stage.frozen, Stage.flag_congr h']
  rfl

end

section
variable (s : Stage)

theorem Stage.vmax_lt : s.vmax < 128 := bits_lt _ 22 16

theorem Stage.vmin_lt : s.vmin < 128 := bits_lt _ 6 0

theorem Stage.vcoreNow_lt : s.vcoreNow < 128 := bits_lt _ 6 0

theorem Stage.startCode_lt : s.startCode < 128 := by
  have := s.vmin_lt
  have := s.vmax_lt
  rw [Stage.startCode]
  omega

@[simp] theorem Stage.ends_vcoreNow (t : Stage) : (s.ends t).vcoreNow = t.vcoreNow :=
  Stage.vcoreNow_congr (Stage.ends_reg s t (by decide) (by decide))

/-! ### Calibration and the state of the loop -/

/-- The part with the loop at `l`. -/
def Stage.putLevel (l : LevelSt) : Stage := { s with level := l }

@[simp] theorem Stage.putLevel_level (l : LevelSt) : (s.putLevel l).level = l := rfl

@[simp] theorem Stage.reg_putLevel (l : LevelSt) (q x : Nat) : (s.putLevel l).reg q x = s.reg q x := rfl

/-- Calibration changes the offset of the VCORE code, and may raise CAL_BAD on SYS. -/
theorem Stage.calApply_level : ∃ c x, s.calApply pLevel = (s.raiseIf c 0 2).putLevel { s.level with trim := x } := by
  set c := !calSound (s.calBytes pLevel false)
  have h : s.calApply pLevel = (s.raiseIf c 0 2).putLevel
      { (s.raiseIf c 0 2).level with trim := sext 32 ((s.raiseIf c 0 2).regN pLevel (calOff c)) } := rfl
  rw [Stage.raiseIf_level] at h
  exact ⟨_, _, h⟩

/-- The loop enters `l`: beside that, at most the offset of the VCORE code and the events of SYS have changed. -/
theorem Stage.setLoop_cases (l : LoopState) : ∃ c x, s.setLoop l = (s.raiseIf c 0 2).putLevel { s.level with loop := l, trim := x } := by
  unfold Stage.setLoop
  dsimp only
  split
  · obtain ⟨c, x, h⟩ := (s.putLevel { s.level with loop := l }).calApply_level
    have hraise : ∀ t, (s.putLevel t).raiseIf c 0 2 = (s.raiseIf c 0 2).putLevel t := fun t => by cases c <;> rfl
    exact ⟨c, x, h.trans (by rw [hraise]; rfl)⟩
  · exact ⟨false, s.level.trim, rfl⟩

/-- The loop after it enters `l`. -/
theorem Stage.level_setLoop (l : LoopState) : ∃ x, (s.setLoop l).level = { s.level with loop := l, trim := x } := by
  obtain ⟨c, x, h⟩ := s.setLoop_cases l
  exact ⟨x, congrArg Stage.level h⟩

@[simp] theorem Stage.loop_setLoop (l : LoopState) : (s.setLoop l).level.loop = l := by
  obtain ⟨x, h⟩ := s.level_setLoop l
  rw [h]

theorem Stage.reg_setLoop_other (l : LoopState) {q x : Nat} (h : q * 4096 + x ≠ 0x014) : (s.setLoop l).reg q x = s.reg q x := by
  obtain ⟨c, y, hs⟩ := s.setLoop_cases l
  rw [hs]
  exact s.reg_raiseIf_other c 2 (by omega)

/-! ### Frames of the regulator bus (R40, R42) -/

@[simp] theorem Stage.avsSend_level : s.avsSend.level = s.level := by
  unfold Stage.avsSend
  split <;> rfl

@[simp] theorem Stage.reg_avsSend (q x : Nat) : s.avsSend.reg q x = s.reg q x := by
  unfold Stage.avsSend
  split <;> rfl

/-- A frame that joins the queue changes the frames and, on an idle bus, the count of attempts. -/
theorem Stage.level_avsQueue (f : AvsCmd) (first : Bool) : ∃ l n, (s.avsQueue f first).level = { s.level with frames := l, attempts := n }
    ∧ (first = false → l = s.level.frames ++ [f]) := by
  unfold Stage.avsQueue
  split
  · rename_i h
    exact ⟨[f], 0, Stage.avsSend_level _, fun _ => by rw [h]; rfl⟩
  · rename_i x t h
    exact ⟨_, s.level.attempts, rfl, fun hf => by rw [h, hf]; rfl⟩

@[simp] theorem Stage.reg_avsQueue (f : AvsCmd) (first : Bool) (q x : Nat) : (s.avsQueue f first).reg q x = s.reg q x := by
  unfold Stage.avsQueue
  split
  · exact Stage.reg_avsSend _ q x
  · rfl

/-- The frame joins the end of the queue. -/
@[simp] theorem Stage.frames_avsQueue (f : AvsCmd) : (s.avsQueue f false).level.frames = s.level.frames ++ [f] := by
  obtain ⟨l, n, h, hl⟩ := s.level_avsQueue f false
  rw [h, hl rfl]

section
variable (f : AvsCmd) (first : Bool)

@[simp] theorem Stage.loop_avsQueue : (s.avsQueue f first).level.loop = s.level.loop := by
  obtain ⟨l, n, h, -⟩ := s.level_avsQueue f first
  rw [h]

@[simp] theorem Stage.winMin_avsQueue : (s.avsQueue f first).level.winMin = s.level.winMin := by
  obtain ⟨l, n, h, -⟩ := s.level_avsQueue f first
  rw [h]

@[simp] theorem Stage.downBar_avsQueue : (s.avsQueue f first).level.downBar = s.level.downBar := by
  obtain ⟨l, n, h, -⟩ := s.level_avsQueue f first
  rw [h]

@[simp] theorem Stage.readDeferred_avsQueue : (s.avsQueue f first).level.readDeferred = s.level.readDeferred := by
  obtain ⟨l, n, h, -⟩ := s.level_avsQueue f first
  rw [h]

@[simp] theorem Stage.low_avsQueue : (s.avsQueue f first).level.low = s.level.low := by
  obtain ⟨l, n, h, -⟩ := s.level_avsQueue f first
  rw [h]

end

/-- On an idle bus it is sent at once. -/
theorem Stage.avsQueue_idle (f : AvsCmd) (first : Bool) (h : s.level.frames = []) :
    s.avsQueue f first = { s with level := { s.level with frames := [f], attempts := 0 } }.avsSend := by
  unfold Stage.avsQueue
  split
  · rfl
  · simp_all

/-! ### Commands of the loop (R43, R53) -/

theorem Stage.reg_command_other (c : Nat) (e : Bool) {q x : Nat} (h : q * 4096 + x ≠ pLevel * 4096 + 0x090) :
    (s.command c e).reg q x = s.reg q x := by
  rw [Stage.command, Stage.reg_avsQueue, Stage.reg_setFld_other _ _ _ _ h]

theorem Stage.vcoreNow_command {c : Nat} (e : Bool) (h : c < 128) : (s.command c e).vcoreNow = c := by
  have hreg := (s.setFld pLevel 0x090 6 0 c).reg_avsQueue (.voltageWrite c e) e pLevel 0x090
  rw [Stage.command, Stage.vcoreNow_congr hreg, Stage.vcoreNow, Stage.fld_setFld_same _ _ _ _ _ _ (by omega) (by omega)]
  exact Nat.mod_eq_of_lt h

@[simp] theorem Stage.frames_command (c : Nat) : (s.command c false).level.frames = s.level.frames ++ [.voltageWrite c false] :=
  (s.setFld pLevel 0x090 6 0 c).frames_avsQueue _

section
variable (c : Nat) (e : Bool)

@[simp] theorem Stage.loop_command : (s.command c e).level.loop = s.level.loop := Stage.loop_avsQueue _ _ e

@[simp] theorem Stage.winMin_command : (s.command c e).level.winMin = s.level.winMin := Stage.winMin_avsQueue _ _ e

@[simp] theorem Stage.downBar_command : (s.command c e).level.downBar = s.level.downBar := Stage.downBar_avsQueue _ _ e

end

end

/-! ### What none of them goes beyond -/

/-- From `s` to `t` nothing has changed but registers of LEVEL, the loop, events and what has left the part. -/
def Stage.Levels (s t : Stage) : Prop := Keeps [pLevel] [.level] s t

theorem Stage.Levels.refl (s : Stage) : s.Levels s := (Keeps.refl s).mono (by simp) (by simp)

theorem Stage.Levels.trans {s t u : Stage} (h : s.Levels t) (h' : t.Levels u) : s.Levels u := Keeps.comp h h'

theorem Stage.Levels.event {s t : Stage} (h : s.Levels t) {p b : Nat} (hr : Raises p b s) : Raises p b t := h.2.1 p b hr

section
variable (s : Stage)

theorem Stage.levels_level (l : LevelSt) : s.Levels (s.putLevel l) :=
  have h : Keeps [] [.level] s (s.putLevel l) := keeps_of_part rfl fun x hx => by cases x <;> simp_all [Part.same, Stage.putLevel]
  h.mono (by simp) (by simp)

theorem Stage.levels_setN {o : Nat} (n : Nat) (ho : o < 4096) (hn : o ≠ 0x014) : s.Levels (s.setN pLevel o n) :=
  (s.keeps_setN n ho hn).mono (by simp) (by simp)

theorem Stage.levels_raise (p : Nat) {b : Nat} (hb : b < 32) : s.Levels (s.raise p b) := (s.keeps_raise p hb).mono (by simp) (by simp)

theorem Stage.levels_setLoop (l : LoopState) : s.Levels (s.setLoop l) := by
  obtain ⟨c, x, h⟩ := s.setLoop_cases l
  have hraise : s.Levels (s.raiseIf c 0 2) := by
    cases c with
    | true => exact s.levels_raise 0 (by omega)
    | false => exact .refl s
  rw [h]
  exact hraise.trans (Stage.levels_level _ _)

theorem Stage.levels_avsSend : s.Levels s.avsSend := by
  unfold Stage.avsSend
  split
  · exact .refl s
  · exact (s.keeps_emit _).mono (by simp) (by simp)

theorem Stage.levels_avsQueue (f : AvsCmd) (first : Bool) : s.Levels (s.avsQueue f first) := by
  unfold Stage.avsQueue
  split
  · exact (s.levels_level _).trans (Stage.levels_avsSend _)
  · exact s.levels_level _

theorem Stage.levels_command (c : Nat) (e : Bool) : s.Levels (s.command c e) :=
  (s.levels_setN _ (by omega) (by omega)).trans (Stage.levels_avsQueue _ _ e)

end

end Sys2Proof.Machine
end

section
/-!
PROOF. Level windows, settling, the bar of downward steps and the read-back (R38 to R41, R44, R46, R47, R53), and the statement O30.
-/
namespace Sys2Proof.Machine

/-! ### A level window (R39) -/

/-- The part once the minimum of the window stands in SLACK_MIN and the next window has begun. -/
def Stage.published (s : Stage) : Stage :=
  match s.level.winMin with
  | some (p, ns) => (s.putLevel { s.level with winMin := none }).setN pLevel 0x09C (slackWord p ns)
  | none => s.putLevel { s.level with winMin := none }

section
variable (s : Stage)

@[simp] theorem Stage.level_published : s.published.level = { s.level with winMin := none } := by
  unfold Stage.published
  split <;> rfl

theorem Stage.reg_published_other {q x : Nat} (h : q * 4096 + x ≠ pLevel * 4096 + 0x09C) : s.published.reg q x = s.reg q x := by
  unfold Stage.published
  split
  · exact Stage.reg_setN_other _ _ h
  · rfl

@[simp] theorem Stage.vcoreNow_published : s.published.vcoreNow = s.vcoreNow := Stage.vcoreNow_congr (s.reg_published_other (by decide))

theorem slackWord_lt (p ns : Int) : slackWord p ns < 2 ^ 32 := by
  have h : ∀ z, toBits 16 z < 65536 := fun z => by rw [toBits]; omega
  have := h p
  have := h ns
  rw [slackWord]
  omega

theorem Stage.slackMin_published {p ns : Int} (h : s.level.winMin = some (p, ns)) : s.published.regN pLevel 0x09C = slackWord p ns := by
  rw [Stage.published, h]
  exact (Stage.regN_setN_same _ _ _ _).trans (Nat.mod_eq_of_lt (slackWord_lt p ns))

theorem Stage.levels_published : s.Levels s.published := by
  unfold Stage.published
  split
  · exact (s.levels_level _).trans (Stage.levels_setN _ _ (by omega) (by omega))
  · exact s.levels_level _

/-- In FAULT the last code is sent again (R44). -/
theorem Stage.levelWindow_fault (h : s.level.loop = .fault) : s.levelWindow = s.published.avsQueue (.voltageWrite s.vcoreNow false) false := by
  rw [← s.vcoreNow_published]
  unfold Stage.levelWindow Stage.published
  cases hw : s.level.winMin <;> simp [h, Stage.putLevel]

/-- In LEVEL the code steps by at most one towards the hysteresis band, within the limits (R39). -/
theorem Stage.levelWindow_level {p ns : Int} (h : s.level.loop = .level) (hw : s.level.winMin = some (p, ns)) : s.levelWindow =
    if p < (s.fld pLevel 0x084 9 0 : Int) - (s.fld pLevel 0x084 25 16 : Int) then
      (if s.vmax ≤ s.vcoreNow then s.published.raise pLevel 1 else s.published.command (s.vcoreNow + 1) false)
    else if (s.fld pLevel 0x084 9 0 : Int) + (s.fld pLevel 0x084 25 16 : Int) < p then
      (if s.vcoreNow ≤ s.vmin then s.published.raise pLevel 5
       else if s.level.downBar then s.published else s.published.command (s.vcoreNow - 1) false)
    else s.published := by
  have hcfg : ∀ a b, s.published.fld pLevel 0x084 a b = s.fld pLevel 0x084 a b := Stage.fld_congr (s.reg_published_other (by decide))
  rw [← hcfg, ← hcfg, ← s.vcoreNow_published, ← Stage.vmax_congr (s.reg_published_other (by decide)),
    ← Stage.vmin_congr (s.reg_published_other (by decide))]
  unfold Stage.levelWindow Stage.published
  simp [h, hw, Stage.putLevel]

/-- Else nothing is sent. -/
theorem Stage.levelWindow_rest (h : s.level.loop ≠ .fault) (h' : s.level.loop = .level → s.level.winMin = none) :
    s.levelWindow = s.published := by
  unfold Stage.levelWindow Stage.published
  cases hl : s.level.loop <;> cases hw : s.level.winMin <;> simp_all [Stage.putLevel]

/-- Whatever a window does, it first publishes its minimum and begins the next. -/
theorem Stage.levelWindow_cases : s.levelWindow = s.published ∨ (∃ b, b < 32 ∧ s.levelWindow = s.published.raise pLevel b)
    ∨ (∃ c, s.levelWindow = s.published.command c false) ∨ ∃ f, s.levelWindow = s.published.avsQueue f false := by
  by_cases hf : s.level.loop = .fault
  · exact .inr (.inr (.inr ⟨_, s.levelWindow_fault hf⟩))
  · by_cases hl : s.level.loop = .level
    · cases hw : s.level.winMin with
      | none => exact .inl (s.levelWindow_rest hf fun _ => hw)
      | some w =>
        rw [s.levelWindow_level hl hw]
        split_ifs
        · exact .inr (.inl ⟨1, by omega, rfl⟩)
        · exact .inr (.inr (.inl ⟨_, rfl⟩))
        · exact .inr (.inl ⟨5, by omega, rfl⟩)
        · exact .inl rfl
        · exact .inr (.inr (.inl ⟨_, rfl⟩))
        · exact .inl rfl
    · exact .inl (s.levelWindow_rest hf fun h => absurd h hl)

theorem Stage.winMin_levelWindow : s.levelWindow.level.winMin = none := by
  rcases s.levelWindow_cases with h | ⟨b, -, h⟩ | ⟨c, h⟩ | ⟨f, h⟩ <;> rw [h] <;> simp

theorem Stage.slackMin_levelWindow : s.levelWindow.reg pLevel 0x09C = s.published.reg pLevel 0x09C := by
  rcases s.levelWindow_cases with h | ⟨b, -, h⟩ | ⟨c, h⟩ | ⟨f, h⟩ <;> rw [h]
  · exact Stage.reg_raise_other _ _ (by decide)
  · exact Stage.reg_command_other _ _ _ (by decide)
  · exact Stage.reg_avsQueue _ _ _ _ _

theorem Stage.levels_levelWindow : s.Levels s.levelWindow := by
  refine s.levels_published.trans ?_
  rcases s.levelWindow_cases with h | ⟨b, hb, h⟩ | ⟨c, h⟩ | ⟨f, h⟩ <;> rw [h]
  · exact .refl _
  · exact Stage.levels_raise _ _ hb
  · exact Stage.levels_command _ _ _
  · exact Stage.levels_avsQueue _ _ _

/-! ### The emergency raise (R40, R41) -/

/-- The part once an emergency raise is counted and bars downward steps. -/
def Stage.barred : Stage :=
  let t := (s.bump pLevel 0x0A4).raise pLevel 0
  t.putLevel { t.level with downBar := true }

@[simp] theorem Stage.level_barred : s.barred.level = { s.level with downBar := true } := rfl

theorem Stage.raises_barred : Raises pLevel 0 s.barred := Stage.raise_sets (s.bump pLevel 0x0A4) pLevel 0 (by omega)

theorem Stage.reg_barred_other {q x : Nat} (hx : x < 4096) (h : q ≠ pLevel ∨ x ≠ 0x0A4 ∧ x ≠ 0x014) : s.barred.reg q x = s.reg q x := by
  change ((s.bump pLevel 0x0A4).raise pLevel 0).reg q x = _
  rw [Stage.reg_raise_other _ _ (by omega), Stage.reg_bump_other _ (by omega)]

theorem Stage.emergCount_barred : s.barred.regN pLevel 0x0A4 = min 0xFFFFFFFF (s.regN pLevel 0x0A4 + 1) := by
  rw [← Stage.regN_bump_same]
  exact Stage.regN_congr (Stage.reg_raise_other _ _ (by decide))

theorem Stage.levels_barred : s.Levels s.barred :=
  ((s.levels_setN _ (by omega) (by omega)).trans (Stage.levels_raise _ _ (by omega))).trans (Stage.levels_level _ _)

theorem Stage.emergencyRaise_eq : s.emergencyRaise
    = if s.vmax ≤ s.vcoreNow then (s.barred.raise pLevel 1).setLoop .settle
      else (s.barred.setLoop .emergency).command (min (s.vcoreNow + 10) s.vmax) true := by
  rw [← Stage.vcoreNow_congr (s.reg_barred_other (by decide) (.inr (by decide))),
    ← Stage.vmax_congr (s.reg_barred_other (by decide) (.inr (by decide)))]
  rfl

theorem Stage.levels_emergencyRaise : s.Levels s.emergencyRaise := by
  rw [Stage.emergencyRaise_eq]
  split
  · exact (s.levels_barred.trans (Stage.levels_raise _ _ (by omega))).trans (Stage.levels_setLoop _ _)
  · exact (s.levels_barred.trans (Stage.levels_setLoop _ _)).trans (Stage.levels_command _ _ _)

/-! ### The read-back (R46) -/

theorem Stage.readBack_reads (h : s.level.loop ≠ .emergency) (h' : s.level.loop ≠ .settle) :
    s.readBack = ((s.putLevel { s.level with readDeferred := false }).avsQueue .voltageRead false).avsQueue .currentRead false := by
  unfold Stage.readBack
  split
  · contradiction
  · contradiction
  · rfl

theorem Stage.readBack_defers (h : s.level.loop = .emergency ∨ s.level.loop = .settle) :
    s.readBack = s.putLevel { s.level with readDeferred := true } := by
  unfold Stage.readBack
  split
  · rfl
  · rfl
  · simp_all

theorem Stage.levels_readBack : s.Levels s.readBack := by
  by_cases h : s.level.loop = .emergency ∨ s.level.loop = .settle
  · rw [s.readBack_defers h]
    exact s.levels_level _
  · rw [not_or] at h
    rw [s.readBack_reads h.1 h.2]
    exact ((s.levels_level _).trans (Stage.levels_avsQueue _ _ _)).trans (Stage.levels_avsQueue _ _ _)

/-! ### The end of EMERG_SETTLE (R41, R47) -/

theorem Stage.resting_cases : s.resting = .level ∨ s.resting = .hold := by
  unfold Stage.resting
  split
  · exact .inl rfl
  · exact .inr rfl

/-- The part at rest after EMERG_SETTLE, with the reads made that were deferred. -/
def Stage.rested : Stage :=
  let t := s.setLoop s.resting
  if t.level.readDeferred then t.readBack else t

theorem Stage.settleEnd_settle (h : s.level.loop = .settle) :
    s.settleEnd = if s.rested.level.low && isLevelling s.rested.mode then s.rested.emergencyRaise else s.rested := by
  unfold Stage.settleEnd
  rw [h]
  rfl

theorem Stage.settleEnd_else (h : s.level.loop ≠ .settle) : s.settleEnd = s := by
  unfold Stage.settleEnd
  split
  · contradiction
  · rfl

theorem Stage.level_rested : s.rested.level.loop = s.resting ∧ s.rested.level.low = s.level.low ∧ s.rested.level.readDeferred = false := by
  obtain ⟨x, h⟩ := s.level_setLoop s.resting
  unfold Stage.rested
  dsimp only
  split
  · have hne : (s.setLoop s.resting).level.loop ≠ .emergency ∧ (s.setLoop s.resting).level.loop ≠ .settle := by
      rw [h]
      rcases s.resting_cases with hr | hr <;> simp [hr]
    rw [Stage.readBack_reads _ hne.1 hne.2]
    simp [h]
  · simp_all

theorem Stage.reg_readBack (q x : Nat) : s.readBack.reg q x = s.reg q x := by
  by_cases h : s.level.loop = .emergency ∨ s.level.loop = .settle
  · rw [s.readBack_defers h]
    rfl
  · rw [not_or] at h
    rw [s.readBack_reads h.1 h.2, Stage.reg_avsQueue, Stage.reg_avsQueue]
    rfl

theorem Stage.reg_rested_other {q x : Nat} (h : q * 4096 + x ≠ 0x014) : s.rested.reg q x = s.reg q x := by
  unfold Stage.rested
  dsimp only
  split
  · rw [Stage.reg_readBack, Stage.reg_setLoop_other _ _ h]
  · exact s.reg_setLoop_other _ h

theorem Stage.levels_rested : s.Levels s.rested := by
  unfold Stage.rested
  dsimp only
  split
  · exact (s.levels_setLoop _).trans (Stage.levels_readBack _)
  · exact s.levels_setLoop _

theorem Stage.levels_settleEnd : s.Levels s.settleEnd := by
  by_cases h : s.level.loop = .settle
  · rw [s.settleEnd_settle h]
    split
    · exact s.levels_rested.trans (Stage.levels_emergencyRaise _)
    · exact s.levels_rested
  · rw [s.settleEnd_else h]
    exact .refl s

end

end Sys2Proof.Machine
end

section
/-!
PROOF. The responses of the regulator bus and its alert (R41 to R47), and the statement O31.
-/
namespace Sys2Proof.Machine

/-! ### A frame that succeeds (R41, R44 to R47) -/

/-- The part once the value `v` that frame `f` read stands in its register. -/
def Stage.avsStored (s : Stage) (f : AvsCmd) (v : Nat) : Stage :=
  match f with
  | .voltageRead => s.setFld pLevel 0x0B0 15 0 v
  | .currentRead => s.setFld pLevel 0x0B4 15 0 v
  | .statusRead => (s.setFld pLevel 0x0B8 15 0 v).raise pLevel 3
  | .voltageWrite _ _ => s

section
variable (s : Stage) (f : AvsCmd) (v : Nat)

@[simp] theorem Stage.level_avsStored : (s.avsStored f v).level = s.level := by
  cases f <;> rfl

theorem Stage.reg_avsStored_other {q x : Nat} (hx : x < 4096) (hn : x ≠ 0x014) (h : q ≠ pLevel ∨ x < 0x0B0) :
    (s.avsStored f v).reg q x = s.reg q x := by
  cases f with
  | voltageRead => exact Stage.reg_setFld_other _ _ _ _ (by omega)
  | currentRead => exact Stage.reg_setFld_other _ _ _ _ (by omega)
  | statusRead => exact (Stage.reg_raise_other _ _ (by omega)).trans (Stage.reg_setFld_other _ _ _ _ (by omega))
  | voltageWrite c e => rfl

theorem Stage.levels_avsStored : s.Levels (s.avsStored f v) := by
  cases f with
  | voltageRead => exact s.levels_setN _ (by omega) (by omega)
  | currentRead => exact s.levels_setN _ (by omega) (by omega)
  | statusRead => exact (s.levels_setN _ (by omega) (by omega)).trans (Stage.levels_raise _ _ (by omega))
  | voltageWrite c e => exact .refl s

/-- What a read brings stands in VCORE_READ, IOUT_READ or REG_STATUS. -/
theorem Stage.fld_avsStored : (s.avsStored .voltageRead v).fld pLevel 0x0B0 15 0 = v % 65536
    ∧ (s.avsStored .currentRead v).fld pLevel 0x0B4 15 0 = v % 65536 ∧ (s.avsStored .statusRead v).fld pLevel 0x0B8 15 0 = v % 65536 := by
  refine ⟨Stage.fld_setFld_same _ _ _ _ _ _ (by omega) (by omega), Stage.fld_setFld_same _ _ _ _ _ _ (by omega) (by omega), ?_⟩
  have hraise := (s.setFld pLevel 0x0B8 15 0 v).reg_raise_other (p := pLevel) (q := pLevel) (x := 0x0B8) 3 (by decide)
  exact (Stage.fld_congr hraise 15 0).trans (Stage.fld_setFld_same _ _ _ _ _ _ (by omega) (by omega))

theorem Stage.resting_avsStored : (s.avsStored f v).resting = s.resting :=
  Stage.resting_congr (s.reg_avsStored_other f v (by decide) (by decide) (.inl (by decide)))
    (s.reg_avsStored_other f v (by decide) (by decide) (.inr (by decide)))

theorem Stage.avsOk_emergency {c : Nat} (h : s.level.loop = .emergency) :
    s.avsOk (.voltageWrite c true) v = s.setLoop .settle := by
  simp [Stage.avsOk, h]

theorem Stage.avsOk_fault (h : s.level.loop = .fault) : s.avsOk f v = (s.avsStored f v).setLoop s.resting := by
  rw [← s.resting_avsStored f v]
  unfold Stage.avsOk Stage.avsStored
  cases f <;> simp [h]

theorem Stage.avsOk_else (h : s.level.loop ≠ .fault) (h' : s.level.loop = .emergency → ∀ c, f ≠ .voltageWrite c true) :
    s.avsOk f v = s.avsStored f v := by
  unfold Stage.avsOk Stage.avsStored
  cases f with
  | voltageWrite c e => cases e <;> cases hl : s.level.loop <;> simp_all
  | _ => cases hl : s.level.loop <;> simp_all

/-- A frame that succeeds stores what it read, and then at most moves the loop. -/
theorem Stage.avsOk_cases : s.avsOk f v = s.avsStored f v ∨ ∃ l, s.avsOk f v = (s.avsStored f v).setLoop l := by
  by_cases hf : s.level.loop = .fault
  · exact .inr ⟨_, s.avsOk_fault f v hf⟩
  · by_cases he : s.level.loop = .emergency ∧ ∃ c, f = .voltageWrite c true
    · obtain ⟨hl, c, rfl⟩ := he
      exact .inr ⟨_, s.avsOk_emergency v hl⟩
    · exact .inl (s.avsOk_else f v hf fun hl c hc => he ⟨hl, c, hc⟩)

theorem Stage.queue_avsOk : (s.avsOk f v).level.frames = s.level.frames ∧ (s.avsOk f v).level.attempts = s.level.attempts := by
  rcases s.avsOk_cases f v with h | ⟨l, h⟩
  · rw [h, Stage.level_avsStored]
    exact ⟨rfl, rfl⟩
  · obtain ⟨x, hx⟩ := (s.avsStored f v).level_setLoop l
    rw [h, hx, Stage.level_avsStored]
    exact ⟨rfl, rfl⟩

theorem Stage.reg_avsOk {q x : Nat} (h : q * 4096 + x ≠ 0x014) : (s.avsOk f v).reg q x = (s.avsStored f v).reg q x := by
  rcases s.avsOk_cases f v with h' | ⟨l, h'⟩
  · rw [h']
  · rw [h', Stage.reg_setLoop_other _ _ h]

theorem Stage.levels_stored_avsOk : (s.avsStored f v).Levels (s.avsOk f v) := by
  rcases s.avsOk_cases f v with h | ⟨l, h⟩ <;> rw [h]
  · exact .refl _
  · exact Stage.levels_setLoop _ l

end

/-! ### The response of a frame (R44) -/

/-- The part with the frame on the bus taken off, and `l` left of the queue. -/
def Stage.popped (s : Stage) (l : List AvsCmd) : Stage := s.putLevel { s.level with frames := l, attempts := 0 }

section
variable (s : Stage) {f : AvsCmd} {l : List AvsCmd} (h : s.level.frames = f :: l)
include h

theorem Stage.avsResponse_ok (v : Nat) : s.avsResponse true v = ((s.popped l).avsOk f v).avsSend := by
  unfold Stage.avsResponse
  rw [h]
  rfl

/-- A failed frame is put on the bus again. -/
theorem Stage.avsResponse_again (v : Nat) (ha : s.level.attempts < 3) :
    s.avsResponse false v = (s.putLevel { s.level with attempts := s.level.attempts + 1 }).avsSend := by
  unfold Stage.avsResponse
  rw [h]
  exact if_pos ha

/-- After the fourth failure the next frame follows, in FAULT. -/
theorem Stage.avsResponse_lost (v : Nat) (ha : 3 ≤ s.level.attempts) :
    s.avsResponse false v = (((s.popped l).raise pLevel 4).setLoop .fault).avsSend := by
  unfold Stage.avsResponse
  rw [h]
  exact if_neg (Nat.not_lt.mpr ha)

end

theorem Stage.avsResponse_idle (s : Stage) (ok : Bool) (v : Nat) (h : s.level.frames = []) : s.avsResponse ok v = s := by
  unfold Stage.avsResponse
  rw [h]

theorem Stage.levels_avsResponse (s : Stage) (ok : Bool) (v : Nat) : s.Levels (s.avsResponse ok v) := by
  have hpop : ∀ l, s.Levels (s.popped l) := fun l => s.levels_level _
  cases h : s.level.frames with
  | nil => rw [s.avsResponse_idle ok v h]; exact .refl s
  | cons f l =>
    cases ok with
    | true =>
      rw [s.avsResponse_ok h]
      exact (((hpop l).trans (Stage.levels_avsStored _ f v)).trans (Stage.levels_stored_avsOk _ f v)).trans (Stage.levels_avsSend _)
    | false =>
      by_cases ha : s.level.attempts < 3
      · rw [s.avsResponse_again h v ha]
        exact (s.levels_level _).trans (Stage.levels_avsSend _)
      · rw [s.avsResponse_lost h v (Nat.not_lt.mp ha)]
        exact (((hpop l).trans (Stage.levels_raise _ _ (by omega))).trans (Stage.levels_setLoop _ _)).trans (Stage.levels_avsSend _)

/-! ### The alert of the regulator (R45) -/

theorem Stage.regAlert_busy (s : Stage) {f : AvsCmd} {l : List AvsCmd} (h : s.level.frames = f :: l) : s.regAlert = s := by
  unfold Stage.regAlert
  rw [h]

theorem Stage.regAlert_idle (s : Stage) (h : s.level.frames = []) : s.regAlert = s.avsQueue .statusRead false := by
  unfold Stage.regAlert
  rw [h]

theorem Stage.levels_regAlert (s : Stage) : s.Levels s.regAlert := by
  cases h : s.level.frames with
  | nil => rw [s.regAlert_idle h]; exact s.levels_avsQueue _ _
  | cons f l => rw [s.regAlert_busy h]; exact .refl s

/-! ### The responses as commands -/

section
variable {s : State} {f : AvsCmd} {l : List AvsCmd} (hd : s.stage.dieUp = true) (h : s.stage.level.frames = f :: l)
include hd h

theorem avsFrameResponse_pops (v : Nat) : Done (.avsFrameResponse true v) s (fun t => t.level.frames = l ∧ t.level.attempts = 0
    ∧ (f = .voltageRead → t.fld pLevel 0x0B0 15 0 = v % 65536) ∧ (f = .currentRead → t.fld pLevel 0x0B4 15 0 = v % 65536)
    ∧ (f = .statusRead → t.fld pLevel 0x0B8 15 0 = v % 65536 ∧ Raises pLevel 3 t)) := by
  refine done_act (f := fun t => t.avsResponse true v) rfl hd ?_
  rw [s.stage.avsResponse_ok h]
  set u := s.stage.popped l
  obtain ⟨hframes, hattempts⟩ := u.queue_avsOk f v
  have hfld : ∀ x, 0x080 ≤ x → x < 4096 → (s.stage.ends (u.avsOk f v).avsSend).fld pLevel x 15 0 = (u.avsStored f v).fld pLevel x 15 0 := by
    intro x hlo hhi
    rw [Stage.ends_fld _ _ _ _ hhi (by omega), Stage.fld_congr (Stage.reg_avsSend _ _ _), Stage.fld_congr (u.reg_avsOk f v (by omega))]
  obtain ⟨hvoltage, hcurrent, hstatus⟩ := u.fld_avsStored v
  rw [Stage.ends_level, Stage.avsSend_level, hframes, hattempts]
  refine ⟨rfl, rfl, ?_, ?_, ?_⟩
  · rintro rfl
    rw [hfld _ (by omega) (by omega), hvoltage]
  · rintro rfl
    rw [hfld _ (by omega) (by omega), hcurrent]
  · rintro rfl
    rw [hfld _ (by omega) (by omega), hstatus]
    refine ⟨rfl, Stage.ends_event _ _ ((u.levels_stored_avsOk _ v).trans (Stage.levels_avsSend _) |>.event ?_)⟩
    exact Stage.raise_sets _ _ _ (by omega)

/-- The loop after a frame that succeeds. -/
theorem avsFrameResponse_loop (v : Nat) {x : LoopState} (hx : ((s.stage.popped l).avsOk f v).level.loop = x) :
    Done (.avsFrameResponse true v) s (fun t => t.level.loop = x) := by
  refine done_act (f := fun t => t.avsResponse true v) rfl hd ?_
  rw [s.stage.avsResponse_ok h, Stage.ends_level, Stage.avsSend_level, hx]

theorem avsFrameResponse_settles (v : Nat) {c : Nat} (hf : f = .voltageWrite c true) (hl : s.stage.level.loop = .emergency) :
    Done (.avsFrameResponse true v) s (fun t => t.level.loop = .settle) := by
  subst hf
  refine avsFrameResponse_loop hd h v ?_
  rw [(s.stage.popped l).avsOk_emergency v hl, Stage.loop_setLoop]

theorem avsFrameResponse_recovers (v : Nat) (hl : s.stage.level.loop = .fault) :
    Done (.avsFrameResponse true v) s (fun t => t.level.loop = s.stage.resting) := by
  refine avsFrameResponse_loop hd h v ?_
  rw [(s.stage.popped l).avsOk_fault f v hl, Stage.loop_setLoop]
  rfl

theorem avsFrameResponse_stays (v : Nat) (he : s.stage.level.loop ≠ .emergency) (hf : s.stage.level.loop ≠ .fault) :
    Done (.avsFrameResponse true v) s (fun t => t.level.loop = s.stage.level.loop) := by
  refine avsFrameResponse_loop hd h v ?_
  rw [(s.stage.popped l).avsOk_else f v hf fun hl => absurd hl he, Stage.level_avsStored]
  rfl

theorem avsFrameResponse_again (v : Nat) (ha : s.stage.level.attempts < 3) : Done (.avsFrameResponse false v) s (fun t =>
    t.level.frames = f :: l ∧ t.level.attempts = s.stage.level.attempts + 1 ∧ t.level.loop = s.stage.level.loop) := by
  refine done_act (f := fun t => t.avsResponse false v) rfl hd ?_
  rw [s.stage.avsResponse_again h v ha, Stage.ends_level, Stage.avsSend_level]
  exact ⟨h, rfl, rfl⟩

theorem avsFrameResponse_lost (v : Nat) (ha : 3 ≤ s.stage.level.attempts) : Done (.avsFrameResponse false v) s (fun t =>
    t.level.frames = l ∧ t.level.attempts = 0 ∧ t.level.loop = .fault ∧ Raises pLevel 4 t) := by
  refine done_act (f := fun t => t.avsResponse false v) rfl hd ?_
  rw [s.stage.avsResponse_lost h v ha]
  have hraise : Raises pLevel 4 (((s.stage.popped l).raise pLevel 4).setLoop .fault).avsSend :=
    ((Stage.levels_setLoop _ _).trans (Stage.levels_avsSend _)).event (Stage.raise_sets _ _ _ (by omega))
  obtain ⟨x, hx⟩ := ((s.stage.popped l).raise pLevel 4).level_setLoop .fault
  rw [Stage.ends_level, Stage.avsSend_level, hx]
  exact ⟨rfl, rfl, rfl, Stage.ends_event _ _ hraise⟩

theorem regAlert_waits : Done .regAlert s (fun t => t.level = s.stage.level) := by
  refine done_act (f := Stage.regAlert) rfl hd ?_
  rw [s.stage.regAlert_busy h, Stage.ends_level]

end

section
variable {s : State} (hd : s.stage.dieUp = true) (h : s.stage.level.frames = [])
include hd h

theorem regAlert_reads : Done .regAlert s (fun t => t.level.frames = [.statusRead] ∧ t.level.loop = s.stage.level.loop
    ∧ Out.avs (s.stage.fld pLevel 0x0AC 11 8) .statusRead 0 ∈ t.outs) := by
  refine done_act (f := Stage.regAlert) rfl hd ?_
  rw [s.stage.regAlert_idle h, Stage.avsQueue_idle _ _ _ h, Stage.ends_level]
  exact ⟨rfl, rfl, Stage.ends_outs _ _ (List.mem_cons_self ..)⟩

theorem avsFrameResponse_none (ok : Bool) (v : Nat) : Done (.avsFrameResponse ok v) s (fun t => t.level = s.stage.level) := by
  refine done_act (f := fun t => t.avsResponse ok v) rfl hd ?_
  rw [s.stage.avsResponse_idle ok v h, Stage.ends_level]

end

/-- Settles O31, by what a frame that succeeds stores and where it moves the loop (`Stage.avsOk_cases`), and by the response of each outcome. -/
theorem regulatorBus : Obligations.RegulatorBus :=
  ⟨by decide, fun _ hd => ⟨fun _ _ h => ⟨avsFrameResponse_pops hd h, fun v _ hf => avsFrameResponse_settles hd h v hf,
      avsFrameResponse_recovers hd h, avsFrameResponse_stays hd h, avsFrameResponse_again hd h, avsFrameResponse_lost hd h,
      regAlert_waits hd h⟩,
    regAlert_reads hd, fun ok v h => avsFrameResponse_none hd h ok v⟩⟩

end Sys2Proof.Machine
end

section
/-!
PROOF. The levelling loop's windows, settling, bar and read-back as commands (R38 to R41, R44, R46, R47, R53), and the statement O30.
-/
namespace Sys2Proof.Machine

section
variable {s : State} (hd : s.stage.dieUp = true)
include hd

/-! ### A level window -/

theorem levelWindow_restarts : Done .levelWindow s (fun t => t.level.winMin = none) := by
  refine done_act (f := Stage.levelWindow) rfl hd ?_
  rw [Stage.ends_level, Stage.winMin_levelWindow]

theorem levelWindow_publishes {p ns : Int} (hw : s.stage.level.winMin = some (p, ns)) :
    Done .levelWindow s (fun t => t.regN pLevel 0x09C = slackWord p ns) := by
  refine done_act (f := Stage.levelWindow) rfl hd ?_
  rw [Stage.ends_regN _ _ (by decide) (by decide), Stage.regN_congr s.stage.slackMin_levelWindow, s.stage.slackMin_published hw]

/-- A window that commands code `c`. -/
theorem levelWindow_commands {c : Nat} (hc : c < 128) (h : s.stage.levelWindow = s.stage.published.command c false) :
    Done .levelWindow s (fun t => t.vcoreNow = c ∧ t.level.frames = s.stage.level.frames ++ [.voltageWrite c false]) := by
  refine done_act (f := Stage.levelWindow) rfl hd ?_
  rw [h, Stage.ends_vcoreNow, Stage.vcoreNow_command _ _ hc, Stage.ends_level, Stage.frames_command, Stage.level_published]
  exact ⟨rfl, rfl⟩

/-- A window that raises event `b`. -/
theorem levelWindow_raises {b : Nat} (hb : b < 32) (h : s.stage.levelWindow = s.stage.published.raise pLevel b) :
    Done .levelWindow s (fun t => t.vcoreNow = s.stage.vcoreNow ∧ Raises pLevel b t) := by
  refine done_act (f := Stage.levelWindow) rfl hd ?_
  have hnow : (s.stage.published.raise pLevel b).vcoreNow = s.stage.published.vcoreNow :=
    Stage.vcoreNow_congr (Stage.reg_raise_other _ _ (by decide))
  rw [h, Stage.ends_vcoreNow, hnow, Stage.vcoreNow_published]
  exact ⟨rfl, Stage.ends_event _ _ (Stage.raise_sets _ _ _ hb)⟩

/-- A window that does no more than publish. -/
theorem levelWindow_idles (h : s.stage.levelWindow = s.stage.published) :
    Done .levelWindow s (fun t => t.vcoreNow = s.stage.vcoreNow ∧ t.level.frames = s.stage.level.frames) := by
  refine done_act (f := Stage.levelWindow) rfl hd ?_
  rw [h, Stage.ends_vcoreNow, Stage.vcoreNow_published, Stage.ends_level, Stage.level_published]
  exact ⟨rfl, rfl⟩

theorem levelWindow_resends (hl : s.stage.level.loop = .fault) : Done .levelWindow s (fun t => t.vcoreNow = s.stage.vcoreNow
    ∧ t.level.frames = s.stage.level.frames ++ [.voltageWrite s.stage.vcoreNow false]) := by
  refine done_act (f := Stage.levelWindow) rfl hd ?_
  rw [s.stage.levelWindow_fault hl, Stage.ends_vcoreNow, Stage.vcoreNow_congr (Stage.reg_avsQueue _ _ _ _ _), Stage.vcoreNow_published,
    Stage.ends_level, Stage.frames_avsQueue, Stage.level_published]
  exact ⟨rfl, rfl⟩

/-! ### The end of EMERG_SETTLE -/

theorem emergSettleEnd_rests (hl : s.stage.level.loop = .settle) (hlow : (s.stage.level.low && isLevelling s.stage.mode) = false) :
    Done .emergSettleEnd s (fun t => t.level.loop = s.stage.resting ∧ t.vcoreNow = s.stage.vcoreNow ∧ t.level.readDeferred = false) := by
  obtain ⟨hloop, hsame, hread⟩ := s.stage.level_rested
  have hmode : s.stage.rested.mode = s.stage.mode := Stage.mode_congr (s.stage.reg_rested_other (by decide))
  refine done_act (f := Stage.settleEnd) rfl hd ?_
  rw [s.stage.settleEnd_settle hl, hsame, hmode, hlow, if_neg Bool.false_ne_true, Stage.ends_level, Stage.ends_vcoreNow, hloop, hread,
    Stage.vcoreNow_congr (s.stage.reg_rested_other (by decide))]
  exact ⟨rfl, rfl, rfl⟩

section
variable (hl : s.stage.level.loop = .settle) (hlow : s.stage.level.low = true) (hmode : isLevelling s.stage.mode = true)
include hl hlow hmode

/-- A slack that is still low raises VCORE again. -/
theorem done_emergencyAgain {P : Stage → Prop} (hp : P (s.stage.ends s.stage.rested.emergencyRaise)) : Done .emergSettleEnd s P := by
  have hmode' : s.stage.rested.mode = s.stage.mode := Stage.mode_congr (s.stage.reg_rested_other (by decide))
  refine done_act (f := Stage.settleEnd) rfl hd ?_
  rwa [s.stage.settleEnd_settle hl, s.stage.level_rested.2.1, hmode', hlow, hmode, Bool.and_self, if_pos rfl]

theorem emergSettleEnd_raises (hv : s.stage.vcoreNow < s.stage.vmax) : Done .emergSettleEnd s (fun t => t.level.loop = .emergency
    ∧ t.vcoreNow = min (s.stage.vcoreNow + 10) s.stage.vmax ∧ t.level.downBar = true ∧ Raises pLevel 0 t
    ∧ t.regN pLevel 0x0A4 = min 0xFFFFFFFF (s.stage.regN pLevel 0x0A4 + 1)) := by
  refine done_emergencyAgain hd hl hlow hmode ?_
  have hnow := Stage.vcoreNow_congr (s.stage.reg_rested_other (q := pLevel) (x := 0x090) (by decide))
  have hmax := Stage.vmax_congr (s.stage.reg_rested_other (q := pLevel) (x := 0x088) (by decide))
  have hcount := Stage.regN_congr (s.stage.reg_rested_other (q := pLevel) (x := 0x0A4) (by decide))
  have hlt := s.stage.vmax_lt
  rw [Stage.emergencyRaise_eq, hnow, hmax, if_neg (Nat.not_le.mpr hv)]
  set u := s.stage.rested
  set c := min (s.stage.vcoreNow + 10) s.stage.vmax
  have hreg : ((u.barred.setLoop .emergency).command c true).reg pLevel 0x0A4 = u.barred.reg pLevel 0x0A4 :=
    (Stage.reg_command_other _ _ _ (by decide)).trans (Stage.reg_setLoop_other _ _ (by decide))
  have hraise : Raises pLevel 0 ((u.barred.setLoop .emergency).command c true) :=
    ((Stage.levels_setLoop _ _).trans (Stage.levels_command _ _ _)).event u.raises_barred
  obtain ⟨x, hx⟩ := u.barred.level_setLoop .emergency
  rw [Stage.ends_level, Stage.ends_vcoreNow, Stage.vcoreNow_command _ _ (by omega), Stage.loop_command, Stage.downBar_command, hx,
    Stage.ends_regN _ _ (by decide) (by decide), Stage.regN_congr hreg, Stage.emergCount_barred, hcount]
  exact ⟨rfl, rfl, rfl, Stage.ends_event _ _ hraise, rfl⟩

theorem emergSettleEnd_ceiling (hv : s.stage.vmax ≤ s.stage.vcoreNow) : Done .emergSettleEnd s (fun t => t.level.loop = .settle
    ∧ t.vcoreNow = s.stage.vcoreNow ∧ Raises pLevel 0 t ∧ Raises pLevel 1 t) := by
  refine done_emergencyAgain hd hl hlow hmode ?_
  have hnow := Stage.vcoreNow_congr (s.stage.reg_rested_other (q := pLevel) (x := 0x090) (by decide))
  have hmax := Stage.vmax_congr (s.stage.reg_rested_other (q := pLevel) (x := 0x088) (by decide))
  rw [Stage.emergencyRaise_eq, hnow, hmax, if_pos hv]
  set u := s.stage.rested
  have hreg : ((u.barred.raise pLevel 1).setLoop .settle).reg pLevel 0x090 = u.reg pLevel 0x090 := by
    rw [Stage.reg_setLoop_other _ _ (by decide), Stage.reg_raise_other _ _ (by decide), Stage.reg_barred_other _ (by decide) (.inr (by decide))]
  have hset := Stage.levels_setLoop (u.barred.raise pLevel 1) .settle
  have hraise : Raises pLevel 0 (u.barred.raise pLevel 1) := (Stage.levels_raise _ _ (by omega)).event u.raises_barred
  rw [Stage.ends_level, Stage.loop_setLoop, Stage.ends_vcoreNow, Stage.vcoreNow_congr hreg, hnow]
  exact ⟨rfl, rfl, Stage.ends_event _ _ (hset.event hraise), Stage.ends_event _ _ (hset.event (Stage.raise_sets _ _ _ (by omega)))⟩

end

theorem emergSettleEnd_else (hl : s.stage.level.loop ≠ .settle) : Done .emergSettleEnd s (fun t => t.level = s.stage.level) := by
  refine done_act (f := Stage.settleEnd) rfl hd ?_
  rw [s.stage.settleEnd_else hl, Stage.ends_level]

/-! ### The bar of downward steps and the read-back -/

theorem downstepBarEnd_lifts : Done .downstepBarEnd s (fun t => t.level = { s.stage.level with downBar := false }) :=
  done_act (f := Stage.downBarEnd) rfl hd (Stage.ends_level _ _)

theorem vcoreReadback_reads (he : s.stage.level.loop ≠ .emergency) (hs : s.stage.level.loop ≠ .settle) :
    Done .vcoreReadback s (fun t => t.level.frames = s.stage.level.frames ++ [.voltageRead, .currentRead]) := by
  refine done_act (f := Stage.readBack) rfl hd ?_
  rw [s.stage.readBack_reads he hs, Stage.ends_level, Stage.frames_avsQueue, Stage.frames_avsQueue, Stage.putLevel_level, List.append_assoc]
  rfl

theorem vcoreReadback_defers (h : s.stage.level.loop = .emergency ∨ s.stage.level.loop = .settle) :
    Done .vcoreReadback s (fun t => t.level.readDeferred = true ∧ t.level.frames = s.stage.level.frames) := by
  refine done_act (f := Stage.readBack) rfl hd ?_
  rw [s.stage.readBack_defers h, Stage.ends_level]
  exact ⟨rfl, rfl⟩

end

/-- In LEVEL a window steps towards the hysteresis band. -/
theorem levelWindow_steps {s : State} (hd : s.stage.dieUp = true) (p ns tg h : Int) (hw : s.stage.level.winMin = some (p, ns))
    (hl : s.stage.level.loop = .level) (ht : tg = s.stage.fld pLevel 0x084 9 0) (hh : h = s.stage.fld pLevel 0x084 25 16) :
    (p < tg - h → s.stage.vcoreNow < s.stage.vmax → Done .levelWindow s (fun t => t.vcoreNow = s.stage.vcoreNow + 1
      ∧ t.level.frames = s.stage.level.frames ++ [.voltageWrite (s.stage.vcoreNow + 1) false])) ∧
    (p < tg - h → s.stage.vmax ≤ s.stage.vcoreNow → Done .levelWindow s (fun t => t.vcoreNow = s.stage.vcoreNow ∧ Raises pLevel 1 t)) ∧
    (tg + h < p → s.stage.vmin < s.stage.vcoreNow → s.stage.level.downBar = false →
      Done .levelWindow s (fun t => t.vcoreNow = s.stage.vcoreNow - 1
        ∧ t.level.frames = s.stage.level.frames ++ [.voltageWrite (s.stage.vcoreNow - 1) false])) ∧
    (tg + h < p → s.stage.vmin < s.stage.vcoreNow → s.stage.level.downBar = true →
      Done .levelWindow s (fun t => t.vcoreNow = s.stage.vcoreNow ∧ t.level.frames = s.stage.level.frames)) ∧
    (tg + h < p → s.stage.vcoreNow ≤ s.stage.vmin → Done .levelWindow s (fun t => t.vcoreNow = s.stage.vcoreNow ∧ Raises pLevel 5 t)) ∧
    (tg - h ≤ p → p ≤ tg + h → Done .levelWindow s (fun t => t.vcoreNow = s.stage.vcoreNow ∧ t.level.frames = s.stage.level.frames)) := by
  have hstep := s.stage.levelWindow_level hl hw
  have hband : 0 ≤ h := by omega
  have hmax := s.stage.vmax_lt
  have hnow := s.stage.vcoreNow_lt
  rw [← ht, ← hh] at hstep
  refine ⟨fun hp hv => ?_, fun hp hv => ?_, fun hp hv hb => ?_, fun hp hv hb => ?_, fun hp hv => ?_, fun hp hp' => ?_⟩
  · exact levelWindow_commands hd (by omega) (by rw [hstep, if_pos hp, if_neg (by omega)])
  · exact levelWindow_raises hd (by omega) (by rw [hstep, if_pos hp, if_pos hv])
  · exact levelWindow_commands hd (by omega) (by rw [hstep, if_neg (by omega), if_pos hp, if_neg (by omega), hb, if_neg Bool.false_ne_true])
  · exact levelWindow_idles hd (by rw [hstep, if_neg (by omega), if_pos hp, if_neg (by omega), hb, if_pos rfl])
  · exact levelWindow_raises hd (by omega) (by rw [hstep, if_neg (by omega), if_pos hp, if_pos hv])
  · exact levelWindow_idles hd (by rw [hstep, if_neg (by omega), if_neg (by omega)])

/-- None of the loop's commands changes more than the LEVEL page and the loop. -/
theorem levelSteps_frame (ok : Bool) (v : Nat) :
    Frame [.levelWindow, .emergSettleEnd, .downstepBarEnd, .vcoreReadback, .regAlert, .avsFrameResponse ok v] [pLevel] [.level] :=
  frame_cons (frame_act (fun _ => rfl) Stage.levels_levelWindow) <|
  frame_cons (frame_act (fun _ => rfl) Stage.levels_settleEnd) <|
  frame_cons (frame_act (f := Stage.downBarEnd) (fun _ => rfl) fun s => s.levels_level _) <|
  frame_cons (frame_act (fun _ => rfl) Stage.levels_readBack) <|
  frame_cons (frame_act (fun _ => rfl) Stage.levels_regAlert) <|
  frame_act (f := fun t => t.avsResponse ok v) (fun _ => rfl) fun s => s.levels_avsResponse ok v

/-- Settles O30, by the step of a window in LEVEL (`Stage.levelWindow_level`), the emergency raise (`Stage.emergencyRaise_eq`), and by what each
operation of the loop leaves as it is. -/
theorem levelSteps : Obligations.LevelSteps :=
  ⟨fun _ hd => ⟨levelWindow_restarts hd, fun _ _ hw => levelWindow_publishes hd hw, levelWindow_steps hd, levelWindow_resends hd,
      emergSettleEnd_rests hd, emergSettleEnd_raises hd, emergSettleEnd_ceiling hd, emergSettleEnd_else hd, downstepBarEnd_lifts hd,
      vcoreReadback_reads hd, vcoreReadback_defers hd⟩,
    levelSteps_frame⟩

end Sys2Proof.Machine
end

section
/-!
PROOF. Writes of LVL_CFG, VCORE_LIMITS and VCORE_START (R47, R53, R54, R56, R562, R563), and the statement O32.
-/
namespace Sys2Proof.Machine

/-! ### What such a write does beside its register -/

section
variable (s : Stage)

theorem Stage.levelWritten_cfg_level (h : s.level.loop = .level) : s.levelWritten 0x080 = if s.frozen then s.setLoop .hold else s := by
  simp [Stage.levelWritten, h]

theorem Stage.levelWritten_cfg_hold (h : s.level.loop = .hold) :
    s.levelWritten 0x080 = if !s.frozen && isLevelling s.mode then s.setLoop .level else s := by
  simp [Stage.levelWritten, h]

theorem Stage.levelWritten_cfg_else (h : s.level.loop ≠ .level) (h' : s.level.loop ≠ .hold) : s.levelWritten 0x080 = s := by
  unfold Stage.levelWritten
  rw [if_pos rfl]
  split
  · contradiction
  · contradiction
  · rfl

theorem Stage.levelWritten_limits : s.levelWritten 0x088
    = if s.vmax < s.vcoreNow then s.command s.vmax false else if s.vcoreNow < s.vmin then s.command s.vmin false else s := rfl

theorem Stage.levelWritten_start : s.levelWritten 0x08C
    = if s.level.loop = .hold ∧ s.frozen = false then s.command s.startCode false else s := by
  change (match s.level.loop with | .hold => if s.frozen then s else s.command s.startCode false | _ => s) = _
  cases s.level.loop <;> cases s.frozen <;> rfl

theorem Stage.levelWritten_else {off : Nat} (hc : off ≠ 0x080) (hl : off ≠ 0x088) (hs : off ≠ 0x08C) : s.levelWritten off = s := by
  rw [Stage.levelWritten, if_neg hc, if_neg hl, if_neg hs]

/-- Beside its register a write at most moves the loop or commands a code. -/
theorem Stage.levelWritten_cases (off : Nat) :
    s.levelWritten off = s ∨ (∃ l, s.levelWritten off = s.setLoop l) ∨ ∃ c, s.levelWritten off = s.command c false := by
  by_cases hc : off = 0x080
  · subst hc
    by_cases hl : s.level.loop = .level
    · rw [s.levelWritten_cfg_level hl]
      split_ifs
      · exact .inr (.inl ⟨_, rfl⟩)
      · exact .inl rfl
    · by_cases hh : s.level.loop = .hold
      · rw [s.levelWritten_cfg_hold hh]
        split_ifs
        · exact .inr (.inl ⟨_, rfl⟩)
        · exact .inl rfl
      · exact .inl (s.levelWritten_cfg_else hl hh)
  · by_cases hl : off = 0x088
    · subst hl
      rw [Stage.levelWritten_limits]
      split_ifs
      · exact .inr (.inr ⟨_, rfl⟩)
      · exact .inr (.inr ⟨_, rfl⟩)
      · exact .inl rfl
    · by_cases hs : off = 0x08C
      · subst hs
        rw [Stage.levelWritten_start]
        split_ifs
        · exact .inr (.inr ⟨_, rfl⟩)
        · exact .inl rfl
      · exact .inl (s.levelWritten_else hc hl hs)

theorem Stage.reg_levelWritten_other (off : Nat) {q x : Nat} (h : q * 4096 + x ≠ 0x014) (h' : q * 4096 + x ≠ pLevel * 4096 + 0x090) :
    (s.levelWritten off).reg q x = s.reg q x := by
  rcases s.levelWritten_cases off with e | ⟨l, e⟩ | ⟨c, e⟩ <;> rw [e]
  · exact s.reg_setLoop_other l h
  · exact s.reg_command_other c false h'

theorem Stage.levels_levelWritten (off : Nat) : s.Levels (s.levelWritten off) := by
  rcases s.levelWritten_cases off with e | ⟨l, e⟩ | ⟨c, e⟩ <;> rw [e]
  · exact .refl s
  · exact s.levels_setLoop l
  · exact s.levels_command c false

end

/-! ### A write that passes its tests -/

/-- A write of a register of LEVEL keeps the loop and every other register until its effect. -/
theorem Stage.wrote_level_keeps (s : Stage) (off v : Nat) : (s.wrote .level 0 off v).level = s.level
    ∧ ∀ q x, q * 4096 + x ≠ pLevel * 4096 + off → (s.wrote .level 0 off v).reg q x = s.reg q x := by
  obtain ⟨r, hr⟩ := s.wrote_frame .level 0 off v
  exact ⟨by rw [hr], fun _ _ hx => s.reg_store_other _ hx⟩

/-- After such a write its register and every one but VCORE_NOW and the events of SYS read as it was written. -/
theorem reg_levelWrite (s w : Stage) (off : Nat) {x : Nat} (hx : x < 4096) (hn : x ≠ 0x014) (hnow : x ≠ 0x090) :
    (s.ends ((w.levelWritten off).respond .okay)).reg pLevel x = w.reg pLevel x := by
  rw [Stage.ends_reg _ _ hx hn]
  exact w.reg_levelWritten_other off (by unfold pLevel; omega) (by omega)

section
variable {s : State} {m : Master} {v : Nat}

/-- A write that passes goes into its register, whatever its effect is. -/
theorem done_levelWrite {off : Nat} {c : Instr} {P : Stage → Prop} (h : Passes s m .level 0 off v) (ho : plainReg .level off = true)
    (hn : off ≠ 0x090) (hc : exec c s = s.act fun t => t.access m pLevel off v)
    (hp : P (s.stage.ends (((s.stage.wrote .level 0 off v).levelWritten off).respond .okay))) :
    Done c s (fun t => Written s .level 0 off v t ∧ P t) := by
  have hoff := plainReg_range ho
  have hkeep := (s.stage.wrote .level 0 off v).reg_levelWritten_other off (q := pLevel) (x := off) (by unfold pLevel; omega) (by omega)
  exact done_passes h ho hc ⟨written_of_kept h ho hkeep, hp⟩

/-- FREEZE moves LEVEL to HOLD; without it HOLD gives way to LEVEL in a levelling mode. -/
theorem lvlCfgWrite_freezes (h : Passes s m .level 0 0x080 v) : Done (.lvlCfgWrite m v) s (fun t => Written s .level 0 0x080 v t
    ∧ (s.stage.level.loop = .level → t.level.loop = if t.frozen then .hold else .level)
    ∧ (s.stage.level.loop = .hold → t.level.loop = if !t.frozen && isLevelling s.stage.mode then .level else .hold)
    ∧ (s.stage.level.loop ≠ .level → s.stage.level.loop ≠ .hold → t.level.loop = s.stage.level.loop)
    ∧ t.vcoreNow = s.stage.vcoreNow) := by
  refine done_levelWrite h rfl (by omega) rfl ?_
  obtain ⟨hlevel, hreg⟩ := s.stage.wrote_level_keeps 0x080 v
  have hmode := Stage.mode_congr (hreg 0 0x0E0 (by decide))
  set w := s.stage.wrote .level 0 0x080 v
  have hfrozen : (s.stage.ends ((w.levelWritten 0x080).respond .okay)).frozen = w.frozen :=
    Stage.flag_congr (reg_levelWrite _ w 0x080 (by decide) (by decide) (by decide)) 0
  have hloop : (s.stage.ends ((w.levelWritten 0x080).respond .okay)).level.loop = (w.levelWritten 0x080).level.loop := by
    rw [Stage.ends_level]; rfl
  have hnow : (w.levelWritten 0x080).reg pLevel 0x090 = w.reg pLevel 0x090 := by
    by_cases hl : w.level.loop = .level
    · rw [w.levelWritten_cfg_level hl]
      split
      · exact w.reg_setLoop_other _ (by decide)
      · rfl
    · by_cases hh : w.level.loop = .hold
      · rw [w.levelWritten_cfg_hold hh]
        split
        · exact w.reg_setLoop_other _ (by decide)
        · rfl
      · rw [w.levelWritten_cfg_else hl hh]
  rw [hfrozen, hloop, ← hlevel, ← hmode, Stage.ends_vcoreNow]
  refine ⟨fun hl => ?_, fun hl => ?_, fun hl hh => ?_, Stage.vcoreNow_congr (hnow.trans (hreg _ _ (by decide)))⟩
  · rw [w.levelWritten_cfg_level hl]
    split
    · exact w.loop_setLoop _
    · exact hl
  · rw [w.levelWritten_cfg_hold hl]
    split
    · exact w.loop_setLoop _
    · exact hl
  · rw [w.levelWritten_cfg_else hl hh]

/-- Limits that the present code lies beyond bring it to the limit. -/
theorem vcoreLimitsWrite_holds (h : Passes s m .level 0 0x088 v) : Done (.vcoreLimitsWrite m v) s (fun t => Written s .level 0 0x088 v t
    ∧ t.vcoreNow = (if t.vmax < s.stage.vcoreNow then t.vmax else if s.stage.vcoreNow < t.vmin then t.vmin else s.stage.vcoreNow)) := by
  refine done_levelWrite h rfl (by omega) rfl ?_
  obtain ⟨-, hreg⟩ := s.stage.wrote_level_keeps 0x088 v
  have hnow := Stage.vcoreNow_congr (hreg pLevel 0x090 (by decide))
  set w := s.stage.wrote .level 0 0x088 v
  have hlimit := reg_levelWrite s.stage w 0x088 (x := 0x088) (by decide) (by decide) (by decide)
  have hend : (s.stage.ends ((w.levelWritten 0x088).respond .okay)).vcoreNow = (w.levelWritten 0x088).vcoreNow := s.stage.ends_vcoreNow _
  rw [Stage.vmax_congr hlimit, Stage.vmin_congr hlimit, hend, ← hnow, Stage.levelWritten_limits]
  split_ifs
  · exact w.vcoreNow_command _ w.vmax_lt
  · exact w.vcoreNow_command _ w.vmin_lt
  · rfl

/-- In HOLD without FREEZE a new VCORE_START is commanded. -/
theorem vcoreStartWrite_commands (h : Passes s m .level 0 0x08C v) : Done (.vcoreStartWrite m v) s (fun t => Written s .level 0 0x08C v t
    ∧ t.vcoreNow = (if s.stage.level.loop = .hold ∧ s.stage.frozen = false then t.startCode else s.stage.vcoreNow)) := by
  refine done_levelWrite h rfl (by omega) rfl ?_
  obtain ⟨hlevel, hreg⟩ := s.stage.wrote_level_keeps 0x08C v
  have hnow := Stage.vcoreNow_congr (hreg pLevel 0x090 (by decide))
  have hfrozen : (s.stage.wrote .level 0 0x08C v).frozen = s.stage.frozen := Stage.flag_congr (hreg pLevel 0x080 (by decide)) 0
  set w := s.stage.wrote .level 0 0x08C v
  have hlimit := reg_levelWrite s.stage w 0x08C (x := 0x088) (by decide) (by decide) (by decide)
  have hcode : (s.stage.ends ((w.levelWritten 0x08C).respond .okay)).startCode = w.startCode := by
    rw [Stage.startCode, Stage.startCode, Stage.vmax_congr hlimit, Stage.vmin_congr hlimit,
      Stage.fld_congr (reg_levelWrite s.stage w 0x08C (x := 0x08C) (by decide) (by decide) (by decide))]
  have hend : (s.stage.ends ((w.levelWritten 0x08C).respond .okay)).vcoreNow = (w.levelWritten 0x08C).vcoreNow := s.stage.ends_vcoreNow _
  rw [hcode, hend, ← hnow, ← hfrozen, ← hlevel, Stage.levelWritten_start]
  split_ifs
  · exact w.vcoreNow_command _ w.startCode_lt
  · rfl

end

/-! ### The frame of such a write -/

theorem Stage.levels_store (s : Stage) {off : Nat} (v : Word) (ho : off < 4096) (hn : off ≠ 0x014) : s.Levels (s.store pLevel off v) :=
  (keeps_of_regs (s.store_frame pLevel off v) (fun _ _ h => s.reg_store_other v h) ho hn).mono (by simp) (by simp)

/-- Any write of a register of LEVEL changes at most that page, the loop, what it is answered and the record of a bad write. -/
theorem Stage.keeps_levelWrite (s : Stage) (m : Master) {off : Nat} (v : Nat) (ho : plainReg .level off = true) :
    Keeps [0, pLevel] [.level, .bus] s (s.access m pLevel off v) := by
  have hoff := plainReg_range ho
  refine s.keeps_access (k := .level) (i := 0) m v rfl ho (fun _ => rfl) (by simp) (by simp) fun old n => ?_
  have heff := (s.levels_store (Word.ofNat n) (off := off) (by omega) (by omega)).trans (Stage.levels_levelWritten _ off)
  exact Keeps.mono heff (by simp) (by simp)

theorem levelRegisters_frame (m : Master) (v : Nat) :
    Frame [.lvlCfgWrite m v, .vcoreLimitsWrite m v, .vcoreStartWrite m v] [0, pLevel] [.level, .bus] :=
  frame_cons (frame_act (f := fun t => t.access m pLevel 0x080 v) (fun _ => rfl) fun s => s.keeps_levelWrite m v rfl) <|
  frame_cons (frame_act (f := fun t => t.access m pLevel 0x088 v) (fun _ => rfl) fun s => s.keeps_levelWrite m v rfl) <|
  frame_act (f := fun t => t.access m pLevel 0x08C v) (fun _ => rfl) fun s => s.keeps_levelWrite m v rfl

/-- Settles O32, by the write that passes its tests (`done_passes`) and by what each register's effect makes of the loop
(`Stage.levelWritten_cfg_level`, `Stage.levelWritten_limits`, `Stage.levelWritten_start`). -/
theorem levelRegisters : Obligations.LevelRegisters :=
  ⟨fun _ _ _ => ⟨lvlCfgWrite_freezes, vcoreLimitsWrite_holds, vcoreStartWrite_commands⟩, levelRegisters_frame⟩

end Sys2Proof.Machine
end

section
/-!
PROOF. What a batten's sums pass through (R14, R17, R31, R132, R133, R161, R463, R526 to R529): the exchange, the errors of memory, the spare lane, and
the frames of each.
-/
namespace Sys2Proof.Machine

/-! ### Saturation -/

theorem clampI_eq {lo hi : Int} (z : Int) (h : lo ≤ hi) : clampI lo hi z = max lo (min hi z) := by
  unfold clampI
  split_ifs <;> omega

theorem satI_32 (z : Int) : satI 32 z = max (-(2 ^ 31)) (min (2 ^ 31 - 1) z) := clampI_eq z (by decide)

theorem satI_72 (z : Int) : satI 72 z = max (-(2 ^ 71)) (min (2 ^ 71 - 1) z) := clampI_eq z (by decide)

/-- A value out of range is changed by saturation. -/
theorem satI_ne {z : Int} (h : ¬ InRange 32 z) : satI 32 z ≠ z := by
  unfold InRange at h
  rw [satI_32]
  omega

/-! ### The exchange (R14, R17) -/

section
variable (s : Stage)

/-- The part with `t` written for the next sample. -/
def Stage.putNext (t : Tab Wr) : Stage := { s with exch := { s.exch with nxt := t } }

theorem Stage.keeps_putNext (t : Tab Wr) : Keeps [] [.exch] s (s.putNext t) :=
  keeps_of_part rfl fun x hx => by cases x <;> simp_all [Part.same, Stage.putNext]

/-- The only producer of a slot writes it. -/
theorem Stage.exchWrite_own {rank slot : Nat} (v : Word) (hs : slot < 0x3000) (ho : ∀ w, Tab.find s.exch.nxt slot = some w → w.rank = rank) :
    s.exchWrite rank slot v = s.putNext (Tab.ins s.exch.nxt slot { rank := rank, v := v }) := by
  unfold Stage.exchWrite
  rw [if_neg (by omega)]
  dsimp only
  split
  · rfl
  · rename_i w h
    exact if_pos (ho w h)

theorem Stage.keeps_exchWrite (rank slot : Nat) (v : Word) : Keeps [0] [.exch] s (s.exchWrite rank slot v) := by
  have hput : ∀ t : Stage, Keeps [0] [.exch] t (t.putNext (Tab.ins t.exch.nxt slot { rank := rank, v := v })) := fun t =>
    (t.keeps_putNext _).mono (by simp) (by simp)
  have hself : Keeps [0] [.exch] s s := (Keeps.refl s).mono (by simp) (by simp)
  have hclash : Keeps [0] [.exch] s ((s.bump 0 0x0B4).raise 0 5) :=
    ((s.keeps_setN (p := 0) _ (by omega) (by omega)).trans (Stage.keeps_raise _ 0 (by omega))).mono (by simp) (by simp)
  unfold Stage.exchWrite
  split
  · exact hself
  · dsimp only
    split
    · exact hput s
    · split
      · exact hput s
      · split
        · exact hclash.comp (hput _)
        · exact hclash

/-! ### Errors of memory (R526 to R529, R463) -/

theorem Stage.keeps_pool (p : PoolSt) : Keeps [] [.pool] s { s with pool := p } :=
  keeps_of_part rfl fun x hx => by cases x <;> simp_all [Part.same]

theorem Stage.keeps_reh (r : RehSt) : Keeps [] [.reh] s { s with reh := r } :=
  keeps_of_part rfl fun x hx => by cases x <;> simp_all [Part.same]

theorem Stage.keeps_ecc (t : Tab Nat) : Keeps [] [.ecc] s { s with ecc := t } :=
  keeps_of_part rfl fun x hx => by cases x <;> simp_all [Part.same]

theorem Stage.keeps_red (r : RedSt) : Keeps [] [.red] s { s with red := r } :=
  keeps_of_part rfl fun x hx => by cases x <;> simp_all [Part.same]

theorem Stage.keeps_sdCause (c : Nat) : Keeps [0x2A0] [.red] s (s.sdCause c) := by
  have hset : ∀ (t : Stage) (o n : Nat), o < 4096 → o ≠ 0x014 → Keeps [0x2A0] [.red] t (t.setN 0x2A0 o n) := fun t o n ho hn =>
    (t.keeps_setN n ho hn).mono (by simp) (by simp)
  have hraise : ∀ t : Stage, Keeps [0x2A0] [.red] t (t.raise 0x2A0 8) := fun t => (t.keeps_raise _ (by omega)).mono (by simp) (by simp)
  unfold Stage.sdCause
  split
  · exact (hset _ _ _ (by omega) (by omega)).comp (hraise _)
  · split
    · exact (((hset _ _ _ (by omega) (by omega)).comp (hset _ _ _ (by omega) (by omega))).comp (hraise _)).comp
        ((Stage.keeps_red _ _).mono (by simp) (by simp))
    · exact (Keeps.refl s).mono (by simp) (by simp)

theorem Stage.keeps_eccLatch (addr mem : Nat) (audio ue : Bool) : Keeps [pPool] [.pool] s (s.eccLatch addr mem audio ue) := by
  unfold Stage.eccLatch
  split
  · exact (Keeps.refl s).mono (by simp) (by simp)
  · exact (((s.keeps_pool _).trans (Stage.keeps_setN _ _ (by omega) (by omega))).trans (Stage.keeps_setN _ _ (by omega) (by omega))).mono
      (by simp) (by simp)

theorem Stage.keeps_eccOne (page : Option Nat) (addr mem : Nat) (audio : Bool) : Keeps [pPool] [.pool, .reh] s (s.eccOne page addr mem audio) := by
  have hcount : Keeps [pPool] [.pool, .reh] s ((s.eccLatch addr mem audio false).bump pPool 0x094) :=
    ((s.keeps_eccLatch _ _ _ _).trans (Stage.keeps_setN _ _ (by omega) (by omega))).mono (by simp) (by simp)
  have hreh : ∀ (t : Stage) (r : RehSt), Keeps [pPool] [.pool, .reh] t { t with reh := r } := fun t r => (t.keeps_reh r).mono (by simp) (by simp)
  unfold Stage.eccOne
  dsimp only
  split
  · exact hcount.comp (hreh _ _)
  · exact hcount.comp (hreh _ _)

theorem Stage.keeps_eccTwo (addr mem : Nat) (audio : Bool) :
    Keeps [pPool, 0x2A0] [.red, .pool, .reh] s (s.eccTwo addr mem audio) := by
  have hcount : Keeps [pPool, 0x2A0] [.red, .pool, .reh] s ((s.eccLatch addr mem audio true).bump pPool 0x098) :=
    ((s.keeps_eccLatch _ _ _ _).trans (Stage.keeps_setN _ _ (by omega) (by omega))).mono (by simp) (by simp)
  have hreh : ∀ (t : Stage) (r : RehSt), Keeps [pPool, 0x2A0] [.red, .pool, .reh] t { t with reh := r } := fun t r =>
    (t.keeps_reh r).mono (by simp) (by simp)
  have hraise : ∀ (t : Stage) (b : Nat), b < 32 → Keeps [pPool, 0x2A0] [.red, .pool, .reh] t (t.raise pPool b) := fun t b hb =>
    (t.keeps_raise _ hb).mono (by simp) (by simp)
  unfold Stage.eccTwo
  dsimp only
  split
  · exact (((hcount.comp (hreh _ _)).comp (hreh _ _)).comp (hraise _ _ (by omega))).comp
      ((Stage.keeps_sdCause _ 1).mono (by simp) (by simp))
  · exact (hcount.comp (hreh _ _)).comp (hraise _ _ (by omega))

theorem Stage.keeps_eccRead (a own : Nat) : Keeps [pPool, 0x2A0] [.red, .ecc, .pool, .reh] s (s.eccRead a own) := by
  unfold Stage.eccRead
  dsimp only
  split
  · exact (Keeps.refl s).mono (by simp) (by simp)
  · split
    · exact (s.keeps_eccTwo _ _ _).mono (by simp) (by simp)
    · exact ((s.keeps_ecc _).trans (Stage.keeps_eccOne _ _ _ _ _)).mono (by simp) (by simp)

/-! ### The batten, its block and the spare lane (R31, R161) -/

theorem Stage.keeps_putBat (k : Nat) (b : BatSt) : Keeps [] [.bats] s (s.putBat k b) :=
  keeps_of_part rfl fun x hx => by cases x <;> simp_all [Part.same, Stage.putBat]

theorem Stage.keeps_setBlk (b : Nat) (v : Blk) : Keeps [] [.blocks] s (s.setBlk b v) :=
  keeps_of_part rfl fun x hx => by cases x <;> simp_all [Part.same, Stage.setBlk]

@[simp] theorem Stage.bat_putBat_same (k : Nat) (b : BatSt) : (s.putBat k b).bat k = b := Tab.get_put_self ..

@[simp] theorem Stage.blk_setBlk_same (b : Nat) (v : Blk) : (s.setBlk b v).blk b = v := Tab.get_put_self ..

/-- The comparison of the spare changes at most the mismatch count, events and what the batten knows of its spare. -/
theorem Stage.rehearse_cases (k : Nat) (agree : Bool) : ∃ b, b.held = (s.bat k).held
    ∧ (s.rehearse k agree = s.putBat k b ∨ s.rehearse k agree = ((s.bump (pBat k) 0x0BC).raise (pBat k) 7).putBat k b) := by
  unfold Stage.rehearse
  extract_lets b seen b' b'' u
  refine ⟨{ b'' with verdict := some agree }, rfl, ?_⟩
  cases agree with
  | true => exact .inl rfl
  | false => exact .inr rfl

theorem Stage.keeps_rehearse (k : Nat) (agree : Bool) : Keeps [pBat k] [.bats] s (s.rehearse k agree) := by
  obtain ⟨b, -, h | h⟩ := s.rehearse_cases k agree <;> rw [h]
  · exact (s.keeps_putBat k b).mono (by simp) (by simp)
  · exact (((s.keeps_setN _ (by omega) (by omega)).trans (Stage.keeps_raise _ _ (by omega))).trans (Stage.keeps_putBat _ k b)).mono
      (by simp) (by simp)

theorem Stage.held_rehearse (k : Nat) (agree : Bool) : ((s.rehearse k agree).bat k).held = (s.bat k).held := by
  obtain ⟨b, hb, h | h⟩ := s.rehearse_cases k agree <;> rw [h, Stage.bat_putBat_same, hb]

theorem Stage.reg_rehearse_other (k : Nat) (agree : Bool) {q x : Nat} (hx : x < 0x0BC) (hn : x ≠ 0x014) :
    (s.rehearse k agree).reg q x = s.reg q x := by
  obtain ⟨b, -, h | h⟩ := s.rehearse_cases k agree <;> rw [h]
  · rfl
  · exact (Stage.reg_raise_other _ _ (by omega)).trans (Stage.reg_bump_other _ (by omega))

end

end Sys2Proof.Machine
end

section
/-!
PROOF. The sums of a batten (R31, R129, R132, R133, R158, R161, R163, R166), and the statement O35.
-/
namespace Sys2Proof.Machine

/-! ### The sums on the bus (R129, R133) -/

/-- The sums `f` of the destinations `l` of BAT `k` on their bus slots, saturated to 32 bits. -/
def Stage.sumsOut (s : Stage) (k : Nat) (l : List Nat) (f : Nat → Int) : Stage :=
  l.foldl (fun s d => s.exchWrite (rankBat k) (s.busSlot k d) (Word.ofInt (satI 32 (f d)))) s

/-- Which sums of the destinations `l` saturate, beside those in `m`. -/
def satsOf (f : Nat → Int) (m : Nat) (l : List Nat) : Nat := l.foldl (fun m d => if satI 32 (f d) = f d then m else m + 2 ^ d) m

theorem le_satsOf (f : Nat → Int) (l : List Nat) : ∀ m, m ≤ satsOf f m l := by
  induction l with
  | nil => exact fun m => le_refl m
  | cons x l ih =>
    intro m
    refine le_trans ?_ (ih _)
    dsimp only
    split
    · exact le_refl m
    · exact Nat.le_add_right m _

/-- A sum that saturates is among those that do. -/
theorem satsOf_pos {f : Nat → Int} {d : Nat} (hs : satI 32 (f d) ≠ f d) {l : List Nat} (hd : d ∈ l) : ∀ m, 0 < satsOf f m l := by
  induction l with
  | nil => exact absurd hd List.not_mem_nil
  | cons x l ih =>
    intro m
    rcases List.mem_cons.mp hd with rfl | hd
    · refine lt_of_lt_of_le ?_ (le_satsOf f l _)
      dsimp only
      rw [if_neg hs]
      exact Nat.add_pos_right m (Nat.two_pow_pos d)
    · exact ih hd _

theorem mem_upTo {d n : Nat} : d ∈ upTo n ↔ d < n := List.mem_range

theorem Stage.busSlot_low (s : Stage) (k d : Nat) (h : s.highRate = false) : s.busSlot k d = 0x1800 + 8 * k + d := by
  rw [Stage.busSlot, h]
  rfl

/-- What BAT `k` writes on its bus slot `d`. -/
def busWrite (k : Nat) (f : Nat → Int) (d : Nat) : Wr := { rank := rankBat k, v := Word.ofInt (satI 32 (f d)) }

/-- Up to 96 kHz a batten that alone writes its slots leaves its sums there, and nothing else changes. -/
theorem Stage.sumsOut_low {k : Nat} (f : Nat → Int) (hk : k < 64) {l : List Nat} (hl : ∀ d ∈ l, d < 8) : ∀ s : Stage, s.highRate = false →
    (∀ d w, Tab.find s.exch.nxt (0x1800 + 8 * k + d) = some w → w.rank = rankBat k) → ∃ t, s.sumsOut k l f = s.putNext t
      ∧ ∀ d, Tab.find t (0x1800 + 8 * k + d) = if d ∈ l then some (busWrite k f d) else Tab.find s.exch.nxt (0x1800 + 8 * k + d) := by
  induction l with
  | nil => exact fun s _ _ => ⟨s.exch.nxt, rfl, fun _ => rfl⟩
  | cons x l ih =>
    intro s hr hown
    have hx : x < 8 := hl x (List.mem_cons_self ..)
    have hslot : 0x1800 + 8 * k + x < 0x3000 := by omega
    set n := Tab.ins s.exch.nxt (0x1800 + 8 * k + x) (busWrite k f x)
    have hwrite : s.sumsOut k (x :: l) f = (s.putNext n).sumsOut k l f := by
      rw [Stage.sumsOut, List.foldl_cons, s.busSlot_low k x hr, s.exchWrite_own _ hslot (hown x)]
      rfl
    have hfind : ∀ d, Tab.find n (0x1800 + 8 * k + d) = if d = x then some (busWrite k f x) else Tab.find s.exch.nxt (0x1800 + 8 * k + d) := by
      intro d
      split
      · rename_i h
        rw [h]
        exact Tab.find_ins_self ..
      · exact Tab.find_ins_other _ _ (by omega)
    have hown' : ∀ d w, Tab.find n (0x1800 + 8 * k + d) = some w → w.rank = rankBat k := by
      intro d w hw
      rw [hfind] at hw
      split at hw
      · cases hw; rfl
      · exact hown d w hw
    obtain ⟨t, ht, hfinds⟩ := ih (fun d hd => hl d (List.mem_cons_of_mem x hd)) (s.putNext n) hr hown'
    refine ⟨t, hwrite.trans ht, fun d => (hfinds d).trans ?_⟩
    change (if d ∈ l then _ else Tab.find n _) = _
    rw [hfind]
    by_cases hd : d ∈ l
    · simp [hd]
    · by_cases he : d = x <;> simp [hd, he]

/-! ### The parts of the end of a sample (R31, R133, R158, R166) -/

/-- LANE_STICKY takes `m`, SAT_COUNT counts where a sum saturated (`sats`), and WORK_COUNT is `words`. -/
def Stage.sumsCounted (s : Stage) (k m sats words : Nat) : Stage :=
  let s := s.setN (pBat k) 0x0B0 (Nat.lor (s.regN (pBat k) 0x0B0) m)
  let s := if sats = 0 then s else (s.bump (pBat k) 0x0AC).raise (pBat k) 6
  s.setN (pBat k) 0x0A8 words

/-- BAT `k` reaches its done point with `words` of work. -/
def Stage.batDone (s : Stage) (k words : Nat) : Stage :=
  let s := s.putBat k { s.bat k with held := none }
  s.setBlk (64 + k) { s.blk (64 + k) with busy := false, done := some s.datum.raw, exec := words }

/-- The results of the lanes of BAT `k` in the sample it works on: accumulators, overflows and words read. -/
def Stage.laneResult (s : Stage) (k : Nat) : List Int × Nat × Nat :=
  (s.bat k).held.getD ((s.batLanes k).acc, (s.batLanes k).av, (s.batLanes k).words)

/-- The sum of destination `d` of BAT `k` up to 96 kHz, rounded and not yet saturated (R133). -/
def Stage.laneSum (s : Stage) (k d : Nat) : Int := roundHalfEven (satI 72 ((s.laneResult k).1.getD d 0)) (2 ^ 27)

/-- The part once the lanes of BAT `k` have finished at `t` and the errors of the words they read are known. -/
def Stage.lanesRead (s : Stage) (k t : Nat) : Stage := ((s.tick t).laneErrs k).foldl (fun s a => s.eccRead a 0) (s.tick t)

theorem Stage.batSum_idle (s : Stage) (k t : Nat) (e : List (Nat × Int)) (h : (s.blk (64 + k)).busy = false) : s.batSum k t e = s.tick t := by
  have hb : ((s.tick t).blk (64 + k)).busy = false := h
  unfold Stage.batSum
  dsimp only
  rw [hb]
  rfl

/-- A batten that works on a sample puts its sums on the bus, counts them and is done, and its spare may compare. -/
theorem Stage.batSum_busy (s : Stage) (k t : Nat) (e : List (Nat × Int)) (h : (s.blk (64 + k)).busy = true) : ∃ n f m x,
    x = (((s.lanesRead k t).sumsOut k (upTo n) f).sumsCounted k m (satsOf f 0 (upTo n)) (s.laneResult k).2.2).batDone k (s.laneResult k).2.2
    ∧ (s.batSum k t e = x ∨ ∃ a, s.batSum k t e = x.rehearse k a)
    ∧ (e = [] → (s.lanesRead k t).highRate = false → n = 8 ∧ f = s.laneSum k) := by
  unfold Stage.batSum
  extract_lets s1 b
  have hb : (s1.blk (64 + k)).busy = true := h
  rw [if_neg (by rw [hb]; decide)]
  split
  rename_i u out n on r acc av words hacc
  extract_lets lane total av' sum sats
  have hres : s.laneResult k = (acc, av, words) := by
    rw [← hacc]
    change (s1.bat k).held.getD _ = _
    cases (s1.bat k).held <;> rfl
  rw [hres]
  refine ⟨n, sum, av' * 256 + sats, _, rfl, ?_, ?_⟩
  · split
    · exact .inr ⟨_, rfl⟩
    · exact .inl rfl
  · rintro rfl hlow
    change u.highRate = false at hlow
    have hlane : ∀ d, lane d = acc.getD d 0 := fun d => by
      change (match b.spare with | .subst l => if d = l then acc.getD d 0 else acc.getD d 0 | _ => acc.getD d 0) = _
      cases b.spare <;> simp
    refine ⟨if_neg (by rw [hlow]; decide), funext fun d => ?_⟩
    have htotal : total d = acc.getD d 0 := (if_neg (by rw [hlow]; decide)).trans (hlane d)
    change roundHalfEven (satI 72 (total d)) (2 ^ 27) = _
    rw [htotal, Stage.laneSum, hres]

/-! ### What the end of the sample leaves -/

/-- Where memory holds no error the lanes read none. -/
theorem Stage.lanesRead_clean (s : Stage) (k t : Nat) (h : s.ecc = []) : s.lanesRead k t = s.tick t := by
  have hnone : (s.tick t).laneErrs k = [] := by simp [Stage.laneErrs, h]
  rw [Stage.lanesRead, hnone]
  rfl

section
variable (s : Stage) (k m sats words : Nat)

/-- Counting the sums changes registers of the batten. -/
theorem Stage.sumsCounted_frame : ∃ r, s.sumsCounted k m sats words = { s with regs := r } := by
  unfold Stage.sumsCounted
  dsimp only
  split <;> exact ⟨_, rfl⟩

theorem Stage.workCount_sumsCounted : (s.sumsCounted k m sats words).reg (pBat k) 0x0A8 = Word.ofNat words := Stage.reg_setReg_same ..

/-- A sum that saturated is counted once and raises SAT. -/
theorem Stage.sat_sumsCounted (h : sats ≠ 0) : Raises (pBat k) 6 (s.sumsCounted k m sats words)
    ∧ (s.sumsCounted k m sats words).regN (pBat k) 0x0AC = min 0xFFFFFFFF (s.regN (pBat k) 0x0AC + 1) := by
  set u := s.setN (pBat k) 0x0B0 (Nat.lor (s.regN (pBat k) 0x0B0) m)
  have hu : s.sumsCounted k m sats words = ((u.bump (pBat k) 0x0AC).raise (pBat k) 6).setN (pBat k) 0x0A8 words := by
    unfold Stage.sumsCounted
    dsimp only
    rw [if_neg h]
  have hold : u.regN (pBat k) 0x0AC = s.regN (pBat k) 0x0AC := Stage.regN_setN_other s _ (by omega)
  rw [hu]
  constructor
  · exact (Stage.flag_congr (Stage.reg_setN_other _ _ (by omega)) 6).trans (Stage.raise_sets _ _ _ (by omega))
  · rw [Stage.regN_setN_other _ _ (by omega), Stage.regN_congr (Stage.reg_raise_other _ _ (by omega)), Stage.regN_bump_same, hold]

theorem Stage.keeps_sumsCounted : Keeps [pBat k] [] s (s.sumsCounted k m sats words) := by
  have hset : ∀ (t : Stage) (o n : Nat), o < 4096 → o ≠ 0x014 → Keeps [pBat k] [] t (t.setN (pBat k) o n) := fun t _ n ho hn =>
    t.keeps_setN n ho hn
  unfold Stage.sumsCounted
  extract_lets u v
  have hsticky : Keeps [pBat k] [] s u := hset _ _ _ (by omega) (by omega)
  have hsat : Keeps [pBat k] [] u v := by
    simp only [v]
    split
    · exact (Keeps.refl u).mono (by simp) (by simp)
    · exact (hset u 0x0AC _ (by omega) (by omega)).comp ((Stage.keeps_raise _ _ (by omega)).mono (by simp) (by simp))
  exact (hsticky.comp hsat).comp (hset v _ _ (by omega) (by omega))

theorem Stage.blk_batDone : (s.batDone k words).blk (64 + k) = { s.blk (64 + k) with busy := false, done := some s.datum.raw, exec := words } :=
  Stage.blk_setBlk_same ..

theorem Stage.held_batDone : ((s.batDone k words).bat k).held = none :=
  congrArg BatSt.held (s.bat_putBat_same k { s.bat k with held := none })

theorem Stage.keeps_batDone : Keeps [] [.blocks, .bats] s (s.batDone k words) :=
  ((s.keeps_putBat k _).trans (Stage.keeps_setBlk _ _ _)).mono (by simp) (by simp)

end

/-- What a spare's comparison, if one is made, leaves of what the end of the sample has set. -/
theorem Stage.rehearsed_keeps {s y : Stage} {k : Nat} (h : y = s ∨ ∃ a, y = s.rehearse k a) : y.exch = s.exch ∧ y.blk (64 + k) = s.blk (64 + k)
    ∧ (y.bat k).held = (s.bat k).held ∧ (∀ q x, x < 0x0BC → x ≠ 0x014 → y.reg q x = s.reg q x)
    ∧ ∀ p b, Raises p b s → Raises p b y := by
  rcases h with rfl | ⟨a, rfl⟩
  · exact ⟨rfl, rfl, rfl, fun _ _ _ _ => rfl, fun _ _ h => h⟩
  · obtain ⟨-, hevent, hpart⟩ := s.keeps_rehearse k a
    have hblocks : (s.rehearse k a).blocks = s.blocks := hpart .blocks (by simp)
    exact ⟨hpart .exch (by simp), by rw [Stage.blk, hblocks]; rfl, s.held_rehearse k a,
      fun _ _ hx hn => s.reg_rehearse_other k a hx hn, hevent⟩

/-! ### The end of a batten's sample as a command -/

/-- There are 64 battens. -/
theorem bat_lt_of_page {k : Nat} (h : pageOf (pBat k) = some (.bat, k)) : k < 64 := by
  unfold pageOf pBat at h
  repeat
    rw [ite_eq_iff] at h
    rcases h with ⟨hc, h⟩ | ⟨-, h⟩
    · simp at h <;> omega
  cases h

/-- The end of a sample up to 96 kHz, in a part whose memory holds no error and whose exchange nothing has been written to. -/
theorem Stage.batSum_low (s : Stage) {k : Nat} (t : Nat) (hk : k < 64) (hecc : s.ecc = []) (hrate : s.highRate = false)
    (hbusy : (s.blk (64 + k)).busy = true) (hnext : s.exch.nxt = []) : ∃ nxt m x,
      x = (((s.tick t).putNext nxt).sumsCounted k m (satsOf (s.laneSum k) 0 (upTo 8)) (s.laneResult k).2.2).batDone k (s.laneResult k).2.2
      ∧ (s.batSum k t [] = x ∨ ∃ a, s.batSum k t [] = x.rehearse k a)
      ∧ ∀ d, d < 8 → Tab.find nxt (0x1800 + 8 * k + d) = some (busWrite k (s.laneSum k) d) := by
  obtain ⟨n, f, m, x, hx, hy, hlow⟩ := s.batSum_busy k t [] hbusy
  have hrate' : (s.tick t).highRate = false := hrate
  rw [s.lanesRead_clean k t hecc] at hx hlow
  obtain ⟨rfl, rfl⟩ := hlow rfl hrate'
  have hown : ∀ d w, Tab.find (s.tick t).exch.nxt (0x1800 + 8 * k + d) = some w → w.rank = rankBat k := fun d w hw => by
    change Tab.find s.exch.nxt _ = _ at hw
    rw [hnext] at hw
    cases hw
  obtain ⟨nxt, hout, hfind⟩ := Stage.sumsOut_low (s.laneSum k) hk (fun d hd => mem_upTo.mp hd) (s.tick t) hrate' hown
  rw [hout] at hx
  exact ⟨nxt, m, x, hx, hy, fun d hd => (hfind d).trans (if_pos (mem_upTo.mpr hd))⟩

section
variable {s : State} {k t : Nat} (h : Live s .bat k)
include h

theorem battenSumWrite_sums (hecc : s.stage.ecc = []) (hrate : s.stage.highRate = false) (hbusy : (s.stage.blk (64 + k)).busy = true)
    (hnext : s.stage.exch.nxt = []) : Done (.battenSumWrite k t []) s (fun x =>
      (∀ d, d < 8 → Tab.find x.exch.nxt (0x1800 + 8 * k + d) = some (busWrite k (s.stage.laneSum k) d))
      ∧ (x.blk (64 + k)).busy = false ∧ (x.blk (64 + k)).done = some (max s.stage.datum.raw t)
      ∧ (x.blk (64 + k)).exec = (s.stage.laneResult k).2.2 ∧ x.reg (pBat k) 0x0A8 = Word.ofNat (s.stage.laneResult k).2.2
      ∧ (x.bat k).held = none
      ∧ ((∃ d, d < 8 ∧ ¬ InRange 32 (s.stage.laneSum k d)) →
          Raises (pBat k) 6 x ∧ x.regN (pBat k) 0x0AC = min 0xFFFFFFFF (s.stage.regN (pBat k) 0x0AC + 1))) := by
  refine done_act (f := fun u => u.block .bat k fun u => u.batSum k t []) rfl h.1 ?_
  rw [Stage.block_live s .bat k _ h]
  obtain ⟨nxt, m, x, hx, hy, hfind⟩ := s.stage.batSum_low t (bat_lt_of_page h.2.1) hecc hrate hbusy hnext
  generalize s.stage.batSum k t [] = y at hy
  obtain ⟨hexch, hblk, hheld, hreg, hevent⟩ := Stage.rehearsed_keeps hy
  set words := (s.stage.laneResult k).2.2
  set u := (s.stage.tick t).putNext nxt
  set v := u.sumsCounted k m (satsOf (s.stage.laneSum k) 0 (upTo 8)) words
  obtain ⟨g, hg⟩ : ∃ g, v = { u with regs := g } := u.sumsCounted_frame k m _ words
  have hnxt : x.exch.nxt = nxt := by rw [hx]; change v.exch.nxt = nxt; rw [hg]; rfl
  have hdone : x.blk (64 + k) = { v.blk (64 + k) with busy := false, done := some (max s.stage.datum.raw t), exec := words } := by
    rw [hx, Stage.blk_batDone, hg]; rfl
  have hends : (s.stage.ends y).blk (64 + k) = y.blk (64 + k) := by rw [Stage.blk, Stage.ends_blocks]; rfl
  have hxreg : ∀ o, x.reg (pBat k) o = v.reg (pBat k) o := fun o => by rw [hx]; rfl
  rw [Stage.ends_exch, hends, hexch, hnxt, hblk, hdone, Stage.ends_bat, hheld]
  refine ⟨hfind, rfl, rfl, rfl, ?_, ?_, ?_⟩
  · rw [Stage.ends_reg _ _ (by omega) (by omega), hreg _ _ (by omega) (by omega), hxreg]
    exact u.workCount_sumsCounted ..
  · rw [hx, Stage.held_batDone]
  · rintro ⟨d, hd, hsat⟩
    obtain ⟨hraise, hcount⟩ := u.sat_sumsCounted k m _ words (Nat.ne_of_gt (satsOf_pos (satI_ne hsat) (mem_upTo.mpr hd) 0))
    refine ⟨Stage.ends_event _ _ (hevent _ _ ((Stage.flag_congr (hxreg _) 6).trans hraise)), ?_⟩
    rw [Stage.ends_regN _ _ (by omega) (by omega), Stage.regN_congr (hreg _ _ (by omega) (by omega)), Stage.regN_congr (hxreg _), hcount]
    rfl

/-- A batten that works on no sample changes the raw count alone. -/
theorem battenSumWrite_idle (e : List (Nat × Int)) (hbusy : (s.stage.blk (64 + k)).busy = false) :
    Done (.battenSumWrite k t e) s (fun x => Keeps [] [.datum] s.stage x) := by
  refine done_act (f := fun u => u.block .bat k fun u => u.batSum k t e) rfl h.1 ?_
  rw [Stage.block_live s .bat k _ h, s.stage.batSum_idle k t e hbusy]
  exact (s.stage.keeps_datum _).ends

end

/-! ### The frame of the end of a sample -/

/-- Within the frame of the sums of BAT `k`. -/
def Stage.Sums (k : Nat) (s t : Stage) : Prop :=
  Keeps [0, pPool, 0x2A0, pBat k] [.exch, .blocks, .bats, .datum, .red, .ecc, .pool, .reh] s t

theorem Stage.sums_batSum (s : Stage) (k t : Nat) (e : List (Nat × Int)) : Stage.Sums k s (s.batSum k t e) := by
  have htick : Stage.Sums k s (s.tick t) := (s.keeps_datum _).mono (by simp) (by simp)
  cases hb : (s.blk (64 + k)).busy with
  | false => rw [s.batSum_idle k t e hb]; exact htick
  | true =>
    obtain ⟨n, f, m, x, hx, hy, -⟩ := s.batSum_busy k t e hb
    have hread : Stage.Sums k (s.tick t) (s.lanesRead k t) :=
      keeps_foldl (fun u a _ => (u.keeps_eccRead a 0).mono (by simp) (by simp)) _
    have hout : ∀ u : Stage, Stage.Sums k u (u.sumsOut k (upTo n) f) := fun u =>
      keeps_foldl (fun w d _ => (w.keeps_exchWrite _ _ _).mono (by simp) (by simp)) u
    have hcount : ∀ u : Stage, Stage.Sums k u (u.sumsCounted k m (satsOf f 0 (upTo n)) (s.laneResult k).2.2) := fun u =>
      (u.keeps_sumsCounted _ _ _ _).mono (by simp) (by simp)
    have hdone : ∀ u : Stage, Stage.Sums k u (u.batDone k (s.laneResult k).2.2) := fun u => (u.keeps_batDone _ _).mono (by simp) (by simp)
    have hsum : Stage.Sums k s x := by
      rw [hx]
      exact Keeps.comp (Keeps.comp (Keeps.comp (htick.comp hread) (hout _)) (hcount _)) (hdone _)
    rcases hy with h | ⟨a, h⟩ <;> rw [h]
    · exact hsum
    · exact hsum.comp ((x.keeps_rehearse k a).mono (by simp) (by simp))

/-- Where the part has no BAT `k`, nothing changes. -/
theorem battenSumWrite_frame (k t : Nat) (e : List (Nat × Int)) : Frame [.battenSumWrite k t e]
    (if k < 64 then [0, pPool, 0x2A0, pBat k] else []) [.exch, .blocks, .bats, .datum, .red, .ecc, .pool, .reh] := by
  refine frame_act (f := fun u => u.block .bat k fun u => u.batSum k t e) (fun _ => rfl) fun s => ?_
  by_cases h : pageOf (pBat k) = some (.bat, k) ∧ s.powered (pBat k) = true
  · have hb : s.block .bat k (fun u => u.batSum k t e) = s.batSum k t e := if_pos h
    rw [if_pos (bat_lt_of_page h.1), hb]
    exact s.sums_batSum k t e
  · have hb : s.block .bat k (fun u => u.batSum k t e) = s := if_neg h
    rw [hb]
    exact (Keeps.refl s).mono (by simp) (by simp)

theorem rehCtrlWrite_writes {s : State} {m : Master} {k v : Nat} (h : Passes s m .bat k 0x0B4 v) :
    Done (.rehCtrlWrite m k v) s (fun t => Written s .bat k 0x0B4 v t) :=
  done_passes h rfl rfl (written_of_kept h rfl rfl)

/-- Settles O35, by the parts of the end of a batten's sample (`Stage.batSum_busy`): the sums on the bus (`Stage.sumsOut_low`), what is counted and
the done point. -/
theorem battenSums : Obligations.BattenSums :=
  ⟨fun s k t h hecc hrate hbusy hnext r hr => by
      have hsum : ∀ d, roundHalfEven (max (-(2 ^ 71)) (min (2 ^ 71 - 1) (r.1.getD d 0))) (2 ^ 27) = s.stage.laneSum k d := fun d => by
        rw [hr, ← satI_72]; rfl
      simp only [hsum, ← satI_32]
      exact hr ▸ battenSumWrite_sums h hecc hrate hbusy hnext,
    fun _ _ _ e h hbusy => battenSumWrite_idle h e hbusy, fun _ _ _ _ h => rehCtrlWrite_writes h, battenSumWrite_frame⟩

end Sys2Proof.Machine
end

section
/-!
PROOF. The registers of a strip processor (R66, R67, R87, R107, R109): what each special register reads after a write, what a sticky flag changes, and
what the fields of the loop and status registers hold.
-/
namespace Sys2Proof.Machine

/-! ### Bits under a mask -/

theorem bit_land (n m i : Nat) : bit (Nat.land n m) i = (bit n i && bit m i) := by
  rw [bit_eq_testBit, bit_eq_testBit, bit_eq_testBit]
  exact Nat.testBit_and n m i

theorem testBit_bits (n hi lo i : Nat) : (bits n hi lo).testBit i = (decide (i < hi + 1 - lo) && n.testBit (lo + i)) := by
  rw [bits, Nat.testBit_mod_two_pow, Nat.testBit_div_two_pow, Nat.add_comm i]

/-- A field that lies under ones of the mask is kept. -/
theorem bits_land {m hi lo : Nat} (n : Nat) (h : bits m hi lo = 2 ^ (hi + 1 - lo) - 1) : bits (Nat.land n m) hi lo = bits n hi lo := by
  refine Nat.eq_of_testBit_eq fun i => ?_
  have hm := testBit_bits m hi lo i
  rw [h, Nat.testBit_two_pow_sub_one] at hm
  rw [testBit_bits, testBit_bits]
  have hl : (Nat.land n m).testBit (lo + i) = (n.testBit (lo + i) && m.testBit (lo + i)) := Nat.testBit_and n m _
  rw [hl]
  cases hw : decide (i < hi + 1 - lo) with
  | false => rfl
  | true =>
    rw [hw, Bool.true_and] at hm
    rw [← hm, Bool.and_true]

theorem land_ones {n w : Nat} (h : n < 2 ^ w) : Nat.land n (2 ^ w - 1) = n :=
  (Nat.and_two_pow_sub_one_eq_mod n w).trans (Nat.mod_eq_of_lt h)

/-! ### A special register after a write (R66) -/

theorem SpSt.sreg_setSreg_same (sp : SpSt) (c v : Nat) : (sp.setSreg c v).sreg c = Nat.land v (srMask c) := by
  unfold SpSt.sreg SpSt.setSreg
  rw [Tab.get_put_self]
  exact (Nat.and_assoc ..).trans (congrArg _ (Nat.and_self _))

theorem SpSt.sreg_setSreg_other (sp : SpSt) {c e : Nat} (v : Nat) (h : e ≠ c) : (sp.setSreg c v).sreg e = sp.sreg e :=
  congrArg (Nat.land · (srMask e)) (Tab.get_put_other _ _ _ _ h)

theorem SpSt.sreg_le (sp : SpSt) (c : Nat) : sp.sreg c ≤ srMask c := Nat.and_le_right

/-- A field of a special register after a write, where the register holds every bit of the field. -/
theorem SpSt.bits_setSreg (sp : SpSt) {c hi lo : Nat} (v : Nat) (h : bits (srMask c) hi lo = 2 ^ (hi + 1 - lo) - 1) :
    bits ((sp.setSreg c v).sreg c) hi lo = bits v hi lo := by rw [SpSt.sreg_setSreg_same, bits_land _ h]

/-- A bit of a special register after a write, where the register holds it. -/
theorem SpSt.bit_setSreg (sp : SpSt) {c i : Nat} (v : Nat) (h : bit (srMask c) i = true) : bit ((sp.setSreg c v).sreg c) i = bit v i := by
  rw [SpSt.sreg_setSreg_same, bit_land, h, Bool.and_true]

@[simp] theorem SpSt.setSreg_inHandler (sp : SpSt) (c v : Nat) : (sp.setSreg c v).inHandler = sp.inHandler := rfl

/-! ### What the registers hold (R67, R109) -/

theorem SpSt.rrb_lt (sp : SpSt) : sp.rrb < 16 := Nat.lt_succ_of_le (sp.sreg_le rRRB)

theorem SpSt.lc_lt (sp : SpSt) {v : Nat} (h : v < 2) : sp.lc v < 65536 := by
  have := sp.sreg_le (rLC v)
  unfold SpSt.lc
  interval_cases v <;> exact Nat.lt_succ_of_le this

theorem SpSt.start_lt (sp : SpSt) (v : Nat) : sp.start v < 2048 := by
  rw [SpSt.start, bits, show 16 * v + 10 + 1 - 16 * v = 11 by omega]
  exact Nat.mod_lt _ (by norm_num)

theorem SpSt.flags_lt (sp : SpSt) : sp.sreg rFLAGS < 16 := Nat.lt_succ_of_le (sp.sreg_le rFLAGS)

/-! ### Sticky flags (R107) -/

/-- SPSTAT holds the six sticky flags. -/
theorem bit_spstatMask {f : Nat} (h : f < 6) : bit (srMask rSPSTAT) f = true := by interval_cases f <;> rfl

theorem SpSt.stick_sets (sp : SpSt) {f : Nat} (h : f < 6) : bit ((sp.stick f).sreg rSPSTAT) f = true := by
  rw [SpSt.stick, SpSt.bit_setSreg _ _ (bit_spstatMask h), bit_setBit_same]

theorem SpSt.stick_other (sp : SpSt) {f g : Nat} (h : g ≠ f) : bit ((sp.stick f).sreg rSPSTAT) g = bit (sp.sreg rSPSTAT) g := by
  rw [SpSt.stick, SpSt.sreg_setSreg_same, bit_land, bit_setBit_other _ _ h]
  rw [SpSt.sreg, bit_land]
  cases bit (srMask rSPSTAT) g <;> simp

theorem SpSt.sreg_stick (sp : SpSt) (f : Nat) {c : Nat} (h : c ≠ rSPSTAT) : (sp.stick f).sreg c = sp.sreg c :=
  sp.sreg_setSreg_other _ h

end Sys2Proof.Machine
end

section
/-!
PROOF. Names and landings of a strip processor (R67, R76, R78): what reaches a register when results land, and the statements O9 and O10.
-/
namespace Sys2Proof.Machine

/-! ### Register names (R67) -/

theorem SpSt.phys_low (sp : SpSt) {n : Nat} (h : n < 16) : sp.phys n = n := if_pos h

theorem SpSt.phys_high (sp : SpSt) {n : Nat} (h : 16 ≤ n) : (sp.phys n : Int) = 16 + ((n : Int) - 16 - sp.rrb) % 16 := by
  have := sp.rrb_lt
  rw [SpSt.phys, if_neg (by omega)]
  omega

/-- After a rotation the next name names the same register. -/
theorem SpSt.phys_rotate {sp tp : SpSt} {n : Nat} (h : 16 ≤ n) (hr : tp.rrb = (sp.rrb + 1) % 16) : tp.phys (n + 1) = sp.phys n := by
  have := sp.rrb_lt
  have := tp.rrb_lt
  rw [SpSt.phys, SpSt.phys, if_neg (by omega), if_neg (by omega)]
  omega

/-! ### One result (R76, R78) -/

/-- From `s` to `t` results have landed: registers and the results in flight alone have changed. -/
def SpSt.Lands (s t : SpSt) : Prop := ∃ d a r p, t = { s with d := d, ac := a, sr := r, pend := p }

theorem SpSt.Lands.refl (s : SpSt) : s.Lands s := ⟨s.d, s.ac, s.sr, s.pend, rfl⟩

theorem SpSt.Lands.trans {s t u : SpSt} (h : s.Lands t) (h' : t.Lands u) : s.Lands u := by
  obtain ⟨_, _, _, _, rfl⟩ := h
  obtain ⟨_, _, _, _, rfl⟩ := h'
  exact ⟨_, _, _, _, rfl⟩

theorem SpSt.lands_setSreg (sp : SpSt) (c v : Nat) : sp.Lands (sp.setSreg c v) := ⟨sp.d, sp.ac, _, sp.pend, rfl⟩

theorem SpSt.lands_landOne (sp : SpSt) (l : Land) : sp.Lands (sp.landOne l) := by
  unfold SpSt.landOne
  split
  · exact ⟨_, sp.ac, sp.sr, sp.pend, rfl⟩
  · exact ⟨sp.d, _, sp.sr, sp.pend, rfl⟩
  · exact sp.lands_setSreg _ _
  · dsimp only
    split
    · exact (sp.lands_setSreg _ _).trans (SpSt.lands_setSreg _ _ _)
    · exact sp.lands_setSreg _ _

theorem SpSt.lands_landIn (all : List Land) (sp : SpSt) (l : Land) : sp.Lands (SpSt.landIn all sp l) := by
  unfold SpSt.landIn
  split
  · exact sp.lands_setSreg _ _
  · exact sp.lands_landOne l

theorem SpSt.lands_landAt (sp : SpSt) (n : Nat) : sp.Lands (sp.landAt n) := by
  have key : ∀ (all l : List Land) (s : SpSt), s.Lands (l.foldl (SpSt.landIn all) s) := by
    intro all l
    induction l with
    | nil => exact SpSt.Lands.refl
    | cons m l ih => exact fun s => (SpSt.lands_landIn all s m).trans (ih _)
  exact SpSt.Lands.trans ⟨sp.d, sp.ac, sp.sr, _, rfl⟩ (key _ _ _)

theorem SpSt.lands_landNow (sp : SpSt) : sp.Lands sp.landNow := sp.lands_landAt sp.iss

theorem SpSt.lands_landAll (sp : SpSt) : sp.Lands sp.landAll :=
  ((sp.lands_landAt _).trans (SpSt.lands_landAt _ _)).trans (SpSt.lands_landAt _ _)

/-- A special register that no result is meant for is left as it is; FLAGS is meant by a flag, and ISTAT follows a move into LC (R87). -/
theorem SpSt.sreg_landOne_other (sp : SpSt) {l : Land} {c : Nat} (hc : l.dest ≠ .sr c) (hf : c = rFLAGS → ∀ i, l.dest ≠ .flag i) (hi : c ≠ rISTAT) :
    (sp.landOne l).sreg c = sp.sreg c := by
  unfold SpSt.landOne
  split
  · rfl
  · rfl
  · rename_i i h
    exact sp.sreg_setSreg_other _ fun hc => hf hc i h
  · rename_i e h
    have he : c ≠ e := fun hce => hc (by rw [h, hce])
    dsimp only
    split
    · rw [SpSt.sreg_setSreg_other _ _ hi, sp.sreg_setSreg_other _ he]
    · exact sp.sreg_setSreg_other _ he

theorem SpSt.d_landOne_same (sp : SpSt) {l : Land} {i : Nat} (h : l.dest = .d i) : Tab.get 0#32 (sp.landOne l).d i = Word.ofInt l.val := by
  unfold SpSt.landOne
  rw [h]
  exact Tab.get_put_self ..

theorem SpSt.d_landOne_other (sp : SpSt) {l : Land} {i : Nat} (h : l.dest ≠ .d i) : Tab.get 0#32 (sp.landOne l).d i = Tab.get 0#32 sp.d i := by
  unfold SpSt.landOne
  split
  · rename_i j hj
    exact Tab.get_put_other _ _ _ _ fun e => h (by rw [hj, e])
  · rfl
  · rfl
  · dsimp only; split <;> rfl

theorem SpSt.ac_landOne_same (sp : SpSt) {l : Land} {i : Nat} (h : l.dest = .ac i) : Tab.get 0 (sp.landOne l).ac i = l.val := by
  unfold SpSt.landOne
  rw [h]
  exact Tab.get_put_self ..

theorem SpSt.ac_landOne_other (sp : SpSt) {l : Land} {i : Nat} (h : l.dest ≠ .ac i) : Tab.get 0 (sp.landOne l).ac i = Tab.get 0 sp.ac i := by
  unfold SpSt.landOne
  split
  · rfl
  · rename_i j hj
    exact Tab.get_put_other _ _ _ _ fun e => h (by rw [hj, e])
  · rfl
  · dsimp only; split <;> rfl

theorem bit_flagsMask {i : Nat} (h : i < 4) : bit (srMask rFLAGS) i = true := by interval_cases i <;> rfl

theorem SpSt.fl_landOne_same (sp : SpSt) {l : Land} {i : Nat} (hi : i < 4) (h : l.dest = .flag i) : (sp.landOne l).fl i = (l.val != 0) := by
  unfold SpSt.landOne
  rw [h]
  exact (sp.bit_setSreg _ (bit_flagsMask hi)).trans (bit_setBit_same ..)

theorem SpSt.fl_landOne_other (sp : SpSt) {l : Land} {i : Nat} (hi : i < 4) (h : l.dest ≠ .flag i) (hc : l.dest ≠ .sr rFLAGS) :
    (sp.landOne l).fl i = sp.fl i := by
  by_cases hf : ∃ j, l.dest = .flag j
  · obtain ⟨j, hj⟩ := hf
    unfold SpSt.landOne
    rw [hj]
    exact (sp.bit_setSreg _ (bit_flagsMask hi)).trans (bit_setBit_other _ _ fun e => h (by rw [hj, e]))
  · exact congrArg (bit · i) (sp.sreg_landOne_other hc (fun _ j hj => hf ⟨j, hj⟩) (by decide))

/-! ### Results that meet (R78) -/

theorem Land.beats_iff (a b : Land) : a.beats b = true ↔ b.rank < a.rank ∨ (a.rank = b.rank ∧ b.iss < a.iss) := by
  simp [Land.beats]

theorem Land.beats_asymm {a b : Land} (h : a.beats b = true) : b.beats a = false := by
  rw [Land.beats_iff] at h
  rw [Bool.eq_false_iff, Ne, Land.beats_iff]
  omega

theorem Land.meets_iff (a b : Land) : a.meets b = true ↔ a.due = b.due ∧ a.dest = b.dest := by simp [Land.meets]

/-- `l` beats every other result of `all` that meets it. -/
def Land.Wins (l : Land) (all : List Land) : Prop := ∀ m ∈ all, m.meets l = true → m = l ∨ l.beats m = true

theorem Land.Wins.landIn {l : Land} {all : List Land} (h : l.Wins all) (sp : SpSt) : SpSt.landIn all sp l = sp.landOne l := by
  refine if_neg fun hb => ?_
  obtain ⟨m, hm, hb⟩ := List.any_eq_true.mp hb
  obtain ⟨hmeet, hbeat⟩ := Bool.and_eq_true_iff.mp hb
  rcases h m hm hmeet with rfl | hl
  · exact absurd hbeat (by rw [Land.beats_asymm hbeat]; decide)
  · exact absurd hbeat (by rw [Land.beats_asymm hl]; decide)

/-- A result that a meeting one beats is discarded, and WR_CONF is set. -/
theorem SpSt.landIn_beaten (sp : SpSt) {l m : Land} {all : List Land} (hl : l ∈ all) (hmeet : m.meets l = true) (hbeat : l.beats m = true) :
    SpSt.landIn all sp m = sp.stick fCONF := by
  rw [Land.meets_iff] at hmeet
  exact if_pos (List.any_eq_true.mpr ⟨l, hl, by rw [hbeat, Bool.and_true, Land.meets_iff, hmeet.1, hmeet.2]; exact ⟨rfl, rfl⟩⟩)

/-- Any result is either discarded or reaches its register. -/
theorem SpSt.landIn_cases (sp : SpSt) (all : List Land) (m : Land) : SpSt.landIn all sp m = sp.stick fCONF ∨ SpSt.landIn all sp m = sp.landOne m := by
  unfold SpSt.landIn
  split
  · exact .inl rfl
  · exact .inr rfl

/-- What one element of a list brings about and no other undoes holds after the fold. -/
theorem foldl_settles {α σ : Type} {f : σ → α → σ} {p : σ → Prop} {l : List α} {a : α} (ha : a ∈ l) (hset : ∀ s, p (f s a))
    (hkeep : ∀ m ∈ l, ∀ s, p s → p (f s m)) (s : σ) : p (l.foldl f s) := by
  have keep : ∀ (l' : List α), (∀ m ∈ l', ∀ s, p s → p (f s m)) → ∀ s, p s → p (l'.foldl f s) := by
    intro l'
    induction l' with
    | nil => exact fun _ _ h => h
    | cons b l' ih =>
      exact fun hk s hs => ih (fun m hm => hk m (List.mem_cons_of_mem _ hm)) _ (hk b (List.mem_cons_self ..) s hs)
  obtain ⟨l₁, l₂, rfl⟩ := List.append_of_mem ha
  rw [List.foldl_append, List.foldl_cons]
  exact keep l₂ (fun m hm => hkeep m (by simp [hm])) _ (hset _)

/-- The winner of a register decides what is read there (`p`) after the landing, where no result for another register undoes it. -/
theorem SpSt.landAt_winner {sp : SpSt} {l : Land} {p : SpSt → Prop} (hl : l ∈ sp.pend) (hw : l.Wins sp.pend) (hone : ∀ s : SpSt, p (s.landOne l))
    (hstick : ∀ s : SpSt, p s → p (s.stick fCONF)) (hother : ∀ m ∈ sp.pend, m.due = l.due → m.dest ≠ l.dest → ∀ s : SpSt, p s → p (s.landOne m)) :
    p (sp.landAt l.due) := by
  have hin : ∀ m, m ∈ sp.pend.filter (fun m => m.due == l.due) → m ∈ sp.pend ∧ m.due = l.due := fun m hm => by
    simpa using List.mem_filter.mp hm
  have hnow : l ∈ sp.pend.filter (fun m => m.due == l.due) := List.mem_filter.mpr ⟨hl, by simp⟩
  have hwin : l.Wins (sp.pend.filter (fun m => m.due == l.due)) := fun m hm => hw m (hin m hm).1
  refine foldl_settles hnow (fun s => by rw [hwin.landIn]; exact hone s) (fun m hm s hs => ?_) _
  obtain ⟨hmp, hdue⟩ := hin m hm
  by_cases hd : m.dest = l.dest
  · rcases hw m hmp ((Land.meets_iff m l).mpr ⟨hdue, hd⟩) with rfl | hb
    · rw [hwin.landIn]; exact hone s
    · rw [s.landIn_beaten hnow ((Land.meets_iff m l).mpr ⟨hdue, hd⟩) hb]; exact hstick s hs
  · rcases s.landIn_cases _ m with h | h <;> rw [h]
    · exact hstick s hs
    · exact hother m hmp hdue hd s hs

section
variable {sp : SpSt} {l : Land} (hl : l ∈ sp.pend) (hw : l.Wins sp.pend)
include hl hw

theorem SpSt.d_landAt {i : Nat} (h : l.dest = .d i) : Tab.get 0#32 (sp.landAt l.due).d i = Word.ofInt l.val :=
  SpSt.landAt_winner (p := fun s => Tab.get 0#32 s.d i = Word.ofInt l.val) hl hw (fun s => s.d_landOne_same h) (fun _ hs => hs)
    fun _ _ _ hd s hs => (s.d_landOne_other (h ▸ hd)).trans hs

theorem SpSt.ac_landAt {i : Nat} (h : l.dest = .ac i) : Tab.get 0 (sp.landAt l.due).ac i = l.val :=
  SpSt.landAt_winner (p := fun s => Tab.get 0 s.ac i = l.val) hl hw (fun s => s.ac_landOne_same h) (fun _ hs => hs)
    fun _ _ _ hd s hs => (s.ac_landOne_other (h ▸ hd)).trans hs

theorem SpSt.fl_landAt {i : Nat} (hi : i < 4) (h : l.dest = .flag i) (hc : ∀ m ∈ sp.pend, m.due = l.due → m.dest ≠ .sr rFLAGS) :
    (sp.landAt l.due).fl i = (l.val != 0) :=
  SpSt.landAt_winner (p := fun s => s.fl i = (l.val != 0)) hl hw (fun s => s.fl_landOne_same hi h)
    (fun s hs => (congrArg (bit · i) (s.sreg_stick fCONF (by decide))).trans hs)
    fun m hm hdue hd s hs => (s.fl_landOne_other hi (h ▸ hd) (hc m hm hdue)).trans hs

end

/-- Where a result is beaten by one it meets, WR_CONF is set after the landing, unless SPSTAT itself is written. -/
theorem SpSt.conf_landAt {sp : SpSt} {l m : Land} (hl : l ∈ sp.pend) (hm : m ∈ sp.pend) (hmeet : m.meets l = true) (hbeat : l.beats m = true)
    (hc : ∀ x ∈ sp.pend, x.due = l.due → x.dest ≠ .sr rSPSTAT) : bit ((sp.landAt l.due).sreg rSPSTAT) fCONF = true := by
  have hnow : l ∈ sp.pend.filter (fun m => m.due == l.due) := List.mem_filter.mpr ⟨hl, by simp⟩
  have hmnow : m ∈ sp.pend.filter (fun m => m.due == l.due) := List.mem_filter.mpr ⟨hm, by simp [((Land.meets_iff m l).mp hmeet).1]⟩
  refine foldl_settles (p := fun s : SpSt => bit (s.sreg rSPSTAT) fCONF = true) hmnow
    (fun s => by rw [s.landIn_beaten hnow hmeet hbeat]; exact s.stick_sets (by decide)) (fun x hx s hs => ?_) _
  obtain ⟨hxp, hdue⟩ := List.mem_filter.mp hx
  rcases s.landIn_cases (sp.pend.filter fun m => m.due == l.due) x with h | h <;> rw [h]
  · exact s.stick_sets (by decide)
  · rw [s.sreg_landOne_other (hc x hxp (by simpa using hdue)) (fun h => absurd h (by decide)) (by decide)]
    exact hs

/-- Settles O9, by the arithmetic of names and by the landing of a result that no other meets (`SpSt.d_landAt`). -/
theorem namesRotate : Obligations.NamesRotate :=
  ⟨fun sp _ h => sp.phys_low h, fun sp _ h _ => sp.phys_high h, fun _ _ _ h _ hr => SpSt.phys_rotate h hr,
    fun sp _ _ rr hl hd hw => SpSt.d_landAt (sp := sp.setSreg rRRB rr) hl (fun m hm hmeet => .inl (hw m hm hmeet)) hd⟩

/-- Settles O10, by what the winner of a landing leaves (`SpSt.landAt_winner`) and what a beaten result leaves (`SpSt.conf_landAt`). -/
theorem resultsMeet : Obligations.ResultsMeet :=
  ⟨fun _ _ hl hw => ⟨fun _ h => SpSt.d_landAt hl hw h, fun _ h => SpSt.ac_landAt hl hw h, fun _ hi h hc => SpSt.fl_landAt hl hw hi h hc,
    fun _ hm hmeet hbeat hc => SpSt.conf_landAt hl hm hmeet hbeat hc⟩, Land.beats_iff⟩

end Sys2Proof.Machine
end

section
/-!
PROOF. The slots of a bundle (R68, R69, R73, R76, R111 to R125): while they issue, sticky flags alone change and results are added to those on
their way.
-/
namespace Sys2Proof.Machine

/-! ### Sticky flags alone -/

/-- From `a` to `b` sticky flags have been set, AV only under SPMODE.ACS, and nothing else has changed. -/
def SpSt.Sticks (a b : SpSt) : Prop :=
  (∃ t, b = { a with sr := t }) ∧ (∀ c, c ≠ rSPSTAT → b.sreg c = a.sreg c)
    ∧ (∀ f, bit (a.sreg rSPSTAT) f = true → bit (b.sreg rSPSTAT) f = true)
    ∧ (a.acs = false → bit (b.sreg rSPSTAT) fAV = bit (a.sreg rSPSTAT) fAV)

theorem SpSt.Sticks.refl (a : SpSt) : a.Sticks a := ⟨⟨a.sr, rfl⟩, fun _ _ => rfl, fun _ h => h, fun _ => rfl⟩

theorem SpSt.Sticks.acs {a b : SpSt} (h : a.Sticks b) : b.acs = a.acs := congrArg (bit · 0) (h.2.1 rSPMODE (by decide))

theorem SpSt.Sticks.trans {a b c : SpSt} (h : a.Sticks b) (h' : b.Sticks c) : a.Sticks c := by
  have hacs := h.acs
  obtain ⟨⟨_, rfl⟩, hr, hf, hv⟩ := h
  obtain ⟨⟨_, rfl⟩, hr', hf', hv'⟩ := h'
  exact ⟨⟨_, rfl⟩, fun e he => (hr' e he).trans (hr e he), fun f hb => hf' f (hf f hb), fun ha => (hv' (hacs.trans ha)).trans (hv ha)⟩

theorem SpSt.sticks_stick (a : SpSt) {f : Nat} (hf : f < 6) (h : f ≠ fAV ∨ a.acs = true) : a.Sticks (a.stick f) := by
  refine ⟨⟨_, rfl⟩, fun c hc => a.sreg_stick f hc, fun g hg => ?_, fun ha => ?_⟩
  · by_cases hgf : g = f
    · rw [hgf]; exact a.stick_sets hf
    · rw [a.stick_other hgf]; exact hg
  · rcases h with h | h
    · exact a.stick_other (Ne.symm h)
    · rw [h] at ha; cases ha

theorem SpSt.sticks_stickIf (a : SpSt) (c : Bool) {f : Nat} (hf : f < 6) (h : f ≠ fAV) : a.Sticks (a.stickIf c f) := by
  unfold SpSt.stickIf
  split
  · exact a.sticks_stick hf (.inl h)
  · exact .refl a

/-! What a slot reads does not depend on the sticky flags. -/

section
variable {a b : SpSt} (h : a.Sticks b)
include h

theorem SpSt.Sticks.iss : b.iss = a.iss := by obtain ⟨⟨_, rfl⟩, -⟩ := h; rfl
theorem SpSt.Sticks.acc (c : Nat) : b.acc c = a.acc c := by obtain ⟨⟨_, rfl⟩, -⟩ := h; rfl
theorem SpSt.Sticks.macView (c : Nat) : b.macView c = a.macView c := by obtain ⟨⟨_, rfl⟩, -⟩ := h; rfl

theorem SpSt.Sticks.phys (n : Nat) : b.phys n = a.phys n := by
  rw [SpSt.phys, SpSt.phys, SpSt.rrb, SpSt.rrb, h.2.1 _ (by decide)]

theorem SpSt.Sticks.dReg (n : Nat) : b.dReg n = a.dReg n := by
  have hd : b.d = a.d := by obtain ⟨⟨_, rfl⟩, -⟩ := h; rfl
  rw [SpSt.dReg, SpSt.dReg, h.phys, hd]

theorem SpSt.Sticks.dInt (n : Nat) : b.dInt n = a.dInt n := congrArg BitVec.toInt (h.dReg n)

theorem SpSt.Sticks.holds (p : Nat) : b.holds p = a.holds p := by
  rw [SpSt.holds, SpSt.holds, SpSt.fl, SpSt.fl, h.2.1 _ (by decide)]

theorem SpSt.Sticks.p {i : Nat} (hi : i < 16) : b.p i = a.p i := h.2.1 _ (by unfold rSPSTAT; omega)

theorem SpSt.Sticks.n {i : Nat} (hi : i < 16) : b.n i = a.n i := by
  rw [SpSt.n, SpSt.n, h.2.1 _ (by unfold rSPSTAT; omega)]

theorem SpSt.Sticks.postMod {i : Nat} (hi : i < 16) (z : Int) : b.postMod i z = a.postMod i z := by
  rw [SpSt.postMod, SpSt.postMod, h.p hi, SpSt.b, SpSt.b, SpSt.l, SpSt.l, h.2.1 (0x20 + i) (by unfold rSPSTAT; omega),
    h.2.1 (0x30 + i) (by unfold rSPSTAT; omega)]

end

/-! ### Results on their way -/

/-- From `x` to `y` sticky flags have been set and results sent. -/
def SlotRun.Grows (x y : SlotRun) : Prop := x.sp.Sticks y.sp ∧ ∃ l, y.lands = x.lands ++ l

theorem SlotRun.Grows.refl (x : SlotRun) : x.Grows x := ⟨.refl _, [], (List.append_nil _).symm⟩

theorem SlotRun.Grows.trans {x y z : SlotRun} (h : x.Grows y) (h' : y.Grows z) : x.Grows z := by
  obtain ⟨hs, l, hl⟩ := h
  obtain ⟨hs', l', hl'⟩ := h'
  exact ⟨hs.trans hs', l ++ l', by rw [hl', hl, List.append_assoc]⟩

theorem SlotRun.Grows.mem {x y : SlotRun} (h : x.Grows y) {l : Land} (hl : l ∈ x.lands) : l ∈ y.lands := by
  obtain ⟨-, m, hm⟩ := h
  rw [hm]
  exact List.mem_append_left m hl

/-- The flags and the results decide; stores, penalties and the words seen do not. -/
theorem SlotRun.grows_sp {x y : SlotRun} (hs : x.sp.Sticks y.sp) (hl : y.lands = x.lands) : x.Grows y := ⟨hs, [], by rw [hl, List.append_nil]⟩

section
variable (x : SlotRun)

theorem SlotRun.grows_put (lat r : Nat) (d : Dest) (v : Int) : x.Grows (x.put lat r d v) := ⟨.refl _, _, rfl⟩

theorem SlotRun.mem_put (lat r : Nat) (d : Dest) (v : Int) :
    ({ due := x.sp.iss + lat, rank := r, iss := x.sp.iss, dest := d, val := v } : Land) ∈ (x.put lat r d v).lands :=
  List.mem_append_right _ (List.mem_singleton.mpr rfl)

theorem SlotRun.grows_foldl {α : Type} {f : SlotRun → α → SlotRun} (hf : ∀ x a, SlotRun.Grows x (f x a)) (l : List α) : x.Grows (l.foldl f x) := by
  induction l generalizing x with
  | nil => exact .refl x
  | cons a l ih => exact (hf x a).trans (ih _)

theorem SlotRun.grows_post (r i : Nat) (z : Int) : x.Grows (x.post r i z) := by
  unfold SlotRun.post
  dsimp only
  split
  · exact (x.grows_put ..).trans (SlotRun.grows_sp (SpSt.sticks_stick _ (by decide) (.inl (by decide))) rfl)
  · exact x.grows_put ..

theorem SlotRun.grows_touch (m : Space) (a : Nat) : x.Grows (x.touch m a) :=
  SlotRun.grows_sp (x.sp.sticks_stickIf _ (by decide) (by decide)) rfl

/-! ### Saturation (R69, R120) -/

theorem SpSt.sticks_sat32 (sp : SpSt) (z : Int) : sp.Sticks (sp.sat32 z).2 := sp.sticks_stickIf _ (by decide) (by decide)

theorem SpSt.sticks_sat72 (sp : SpSt) (z : Int) : sp.Sticks (sp.sat72 z).2 := by
  unfold SpSt.sat72
  split
  · exact .refl sp
  · split
    · rename_i h
      exact sp.sticks_stick (by decide) (.inr h)
    · exact .refl sp

theorem SpSt.sticks_extr (sp : SpSt) (a sc : Int) : sp.Sticks (sp.extr a sc).2 := sp.sticks_sat32 _

/-! ### Multiply slots (R116, R117) -/

theorem SlotRun.grows_sat72 (z : Int) (lat r : Nat) (d : Dest) : x.Grows ({ x with sp := (x.sp.sat72 z).2 }.put lat r d (x.sp.sat72 z).1) :=
  SlotRun.Grows.trans (y := { x with sp := (x.sp.sat72 z).2 }) (SlotRun.grows_sp (x.sp.sticks_sat72 z) rfl) (SlotRun.grows_put ..)

theorem SlotRun.grows_mul (r : Nat) (m : MSlot) : x.Grows (x.mul r m) := by
  unfold SlotRun.mul
  dsimp only
  split
  · exact .refl x
  · exact x.grows_put ..
  · exact x.grows_put ..
  · exact x.grows_sat72 ..
  · exact x.grows_sat72 ..

variable (s : Stage) (k : Nat)

theorem SlotRun.grows_mload (mem : Space) (r : Nat) (m : MSlot) : x.Grows (SlotRun.mload s k mem x r m) := by
  unfold SlotRun.mload
  dsimp only
  have hload : ∀ (l : List Nat) (n : Nat) (v : Word), x.Grows ({ x.touch mem (x.sp.p m.lp) with seen := l }.putD 2 r n v) := fun l n v =>
    (x.grows_touch mem _).trans (SlotRun.Grows.trans (SlotRun.grows_sp (.refl _) rfl) (SlotRun.grows_put ..))
  split
  · exact .refl x
  · split
    · exact hload ..
    · exact (hload ..).trans (SlotRun.grows_post ..)

theorem SlotRun.grows_mslot (mem : Space) (r : Nat) (m : MSlot) : x.Grows (x.mslot s k mem r m) := by
  unfold SlotRun.mslot
  split
  · exact (x.grows_mul r m).trans (SlotRun.grows_mload ..)
  · exact .refl x

/-! ### The A slot (R119) -/

theorem SlotRun.grows_aSat (dd : Nat) (z : Int) : x.Grows (x.aSat dd z) :=
  SlotRun.Grows.trans (y := { x with sp := (x.sp.sat32 z).2 }) (SlotRun.grows_sp (x.sp.sticks_sat32 z) rfl) (SlotRun.grows_put ..)

theorem SlotRun.grows_aAcc (c : Nat) (z : Int) : x.Grows (x.aAcc c z) := x.grows_sat72 ..

theorem SlotRun.grows_aop (op : AOp) : x.Grows (x.aop op) := by
  cases op
  case nop => exact .refl x
  case adds | subs | neg | abs | shv | shlsi => exact x.grows_aSat ..
  case aclr | amov | aadd | asub | aneg | ashi | ashd | dtoa | awr => exact x.grows_aAcc ..
  case norm => exact (x.grows_put ..).trans (SlotRun.grows_put ..)
  case extr k dd s6 =>
    exact SlotRun.Grows.trans (y := { x with sp := (x.sp.extr (x.sp.acc k) (sext 6 s6)).2 }) (SlotRun.grows_sp (x.sp.sticks_extr _ _) rfl)
      (SlotRun.grows_put ..)
  all_goals exact x.grows_put ..

theorem SlotRun.grows_aslot (a : ASlot) : x.Grows (x.aslot a) := by
  unfold SlotRun.aslot
  split
  · exact x.grows_aop _
  · exact .refl x

/-! ### The T slot (R123 to R125) -/

theorem SlotRun.grows_tm (p am imm : Nat) : x.Grows (x.tm p am imm).2 := by
  unfold SlotRun.tm
  split
  · exact .refl x
  · exact x.grows_post ..
  · exact x.grows_post ..
  · dsimp only
    split
    · exact SlotRun.grows_sp (x.sp.sticks_stick (by decide) (.inl (by decide))) rfl
    · exact .refl x

theorem SlotRun.grows_store (mem : Space) (dr p am imm : Nat) : x.Grows (SlotRun.store k mem x dr p am imm) :=
  (x.grows_tm p am imm).trans ((SlotRun.grows_touch _ mem _).trans (SlotRun.grows_sp (.refl _) rfl))

theorem SlotRun.grows_movs (c v : Nat) : x.Grows (x.movs c v) := by
  unfold SlotRun.movs
  split
  · exact x.grows_foldl (fun x i => x.grows_put ..) _
  · exact x.grows_put ..

theorem SlotRun.grows_top (sp0 : SpSt) (op : TOp) : x.Grows (SlotRun.top s k sp0 x op) := by
  cases op
  case ldc dr p am imm =>
    exact (x.grows_tm p am imm).trans ((SlotRun.grows_touch _ .c _).trans
      (SlotRun.Grows.trans (SlotRun.grows_sp (.refl _) rfl) (SlotRun.grows_put ..)))
  case stx | sty | stc => exact x.grows_store ..
  case modp => exact x.grows_tm ..
  case far p am imm =>
    refine (x.grows_tm p am imm).trans (SlotRun.grows_foldl (x.tm p am imm).2 ?_ (upTo 4))
    exact fun y i => (y.grows_touch .y _).trans (SlotRun.grows_sp (.refl _) rfl)
  case movs | movsi => exact x.grows_movs ..
  case movi | movhi | movr | mbrd => exact x.grows_put ..
  all_goals exact .refl x

/-- The T slot under its predicate, as `runSlots` ends with it. -/
theorem SlotRun.grows_tslot (sp0 : SpSt) (t : TSlot) : x.Grows (if x.sp.holds t.pred then SlotRun.top s k sp0 x t.op else x) := by
  split
  · exact SlotRun.grows_top ..
  · exact .refl x

end

/-! ### A slot of a bundle, among the others -/

section
variable (s : Stage) (k : Nat) (sp : SpSt) (o : Bundle)

/-- What the slots of a bundle change of the processor. -/
theorem sticks_runSlots (b : Bundle) : sp.Sticks (runSlots s k sp b).sp :=
  SlotRun.Grows.trans (x := { sp := sp }) ((SlotRun.grows_mslot ..).trans ((SlotRun.grows_mslot ..).trans (SlotRun.grows_aslot ..)))
    (SlotRun.grows_tslot ..) |>.1

/-- A multiply slot whose predicate holds acts on a processor that sticky flags alone tell from the one at issue. -/
theorem runSlots_withM {second : Bool} {m : MSlot} (h : sp.holds m.pred = true) : ∃ y : SlotRun, sp.Sticks y.sp
    ∧ SlotRun.Grows (SlotRun.mload s k (if second then .y else .x) (y.mul (if second then 1 else 0) m) (if second then 1 else 0) m)
        (runSlots s k sp (o.withM second m)) := by
  have hslot : ∀ (y : SlotRun) (mem : Space) (r : Nat), sp.Sticks y.sp → y.mslot s k mem r m = SlotRun.mload s k mem (y.mul r m) r m :=
    fun y _ _ hy => if_pos (by rw [hy.holds, h])
  cases second with
  | false =>
    refine ⟨{ sp := sp }, .refl sp, ?_⟩
    have h1 := hslot { sp := sp } .x 0 (.refl sp)
    change SlotRun.Grows (SlotRun.mload s k .x (SlotRun.mul _ 0 m) 0 m) _
    rw [← h1]
    exact (SlotRun.grows_mslot ..).trans ((SlotRun.grows_aslot ..).trans (SlotRun.grows_tslot ..))
  | true =>
    have hm1 : sp.Sticks (SlotRun.mslot s k .x 0 o.m1 { sp := sp }).sp := (SlotRun.grows_mslot { sp := sp } s k .x 0 o.m1).1
    refine ⟨_, hm1, ?_⟩
    have h2 := hslot _ .y 1 hm1
    change SlotRun.Grows (SlotRun.mload s k .y (SlotRun.mul _ 1 m) 1 m) _
    rw [← h2]
    exact (SlotRun.grows_aslot ..).trans (SlotRun.grows_tslot ..)

/-- The A slot, likewise. -/
theorem runSlots_withA {pred : Nat} {op : AOp} (h : sp.holds pred = true) :
    ∃ y : SlotRun, sp.Sticks y.sp ∧ (y.aop op).Grows (runSlots s k sp (o.withA pred op)) := by
  have hm : SlotRun.Grows { sp := sp } (({ sp := sp : SlotRun }.mslot s k .x 0 o.m1).mslot s k .y 1 o.m2) :=
    (SlotRun.grows_mslot ..).trans (SlotRun.grows_mslot ..)
  refine ⟨_, hm.1, ?_⟩
  have ha : SlotRun.aslot { pred := pred, op := op } (({ sp := sp : SlotRun }.mslot s k .x 0 o.m1).mslot s k .y 1 o.m2)
      = (({ sp := sp : SlotRun }.mslot s k .x 0 o.m1).mslot s k .y 1 o.m2).aop op := if_pos (by rw [hm.1.holds, h])
  rw [← ha]
  exact SlotRun.grows_tslot ..

/-- The T slot, likewise; it is the last. -/
theorem runSlots_withT {pred : Nat} {op : TOp} (h : sp.holds pred = true) :
    ∃ y : SlotRun, sp.Sticks y.sp ∧ runSlots s k sp (o.withT pred op) = SlotRun.top s k sp y op := by
  have hm : SlotRun.Grows { sp := sp } (SlotRun.aslot o.a (({ sp := sp : SlotRun }.mslot s k .x 0 o.m1).mslot s k .y 1 o.m2)) :=
    (SlotRun.grows_mslot ..).trans ((SlotRun.grows_mslot ..).trans (SlotRun.grows_aslot ..))
  exact ⟨_, hm.1, if_pos (by rw [← h]; exact hm.1.holds pred)⟩

end

end Sys2Proof.Machine
end

section
/-!
PROOF. The issue of a bundle (R62 to R65, R76 to R82, R98, R112): what a command that issues a bundle leaves of its strip processor, in three parts:
what its slots send, what its control instruction decides, and where the processor goes on.
-/
namespace Sys2Proof.Machine

/-! ### The three parts of an execution -/

/-- The processor once the slots of bundle `b` have issued. -/
def Stage.spSlots (s : Stage) (k : Nat) (sp : SpSt) (b : Bundle) : SpSt :=
  let x := runSlots s k sp b
  let hit := s.flag (pSp k) 0x400 0 && s.regN (pSp k) 0x404 == s.spBank k * 2048 + sp.pc
  { x.sp with pend := sp.pend ++ x.lands, e := sp.e + (1 + sp.penalty sp.pc b x), brk := sp.brk || hit }

/-- The same with a FAR's transfer begun and the mailbox read. -/
def Stage.spSent (s : Stage) (k : Nat) (sp : SpSt) (b : Bundle) : SpSt :=
  match b.t.op with
    | .far p am imm => if sp.holds b.t.pred then s.farStart k (s.spSlots k sp b) (({ sp := sp : SlotRun }.tm p am imm).1) else s.spSlots k sp b
    | .mbrd _ => if sp.holds b.t.pred then { s.spSlots k sp b with mbox := false, unread := false } else s.spSlots k sp b
    | _ => s.spSlots k sp b

/-- The control instruction of bundle `b`: the processor after it, and what follows the delay bundle. -/
def Stage.spSteered (s : Stage) (k : Nat) (sp : SpSt) (b : Bundle) : SpSt × Option After :=
  s.control k (s.spBank k) (s.spSent k sp b) sp.pc b

/-- The processor before it goes on to its next bundle. -/
def Stage.spCounted (s : Stage) (k : Nat) (sp : SpSt) (b : Bundle) : SpSt :=
  { (s.spSteered k sp b).1 with iss := sp.iss + 1, delay := (s.spSteered k sp b).2 }

/-- The processor after bundle `b` has executed. -/
def Stage.spNext (s : Stage) (k : Nat) (sp : SpSt) (b : Bundle) : SpSt :=
  if sp.holds b.t.pred && b.isDone then (s.spCounted k sp b).finish else (s.spCounted k sp b).advance (s.spBank k) sp.pc sp.delay

/-- The part after bundle `b` has executed, but for MBWR: the words read and written, the processor, DBG_PC and what a return makes of the block. -/
def Stage.spWritten (s : Stage) (k : Nat) (sp : SpSt) (b : Bundle) : Stage :=
  let x := runSlots s k sp b
  let s1 := x.stores.foldl (fun s e => s.wr32 e.1 e.2) (x.seen.foldl (fun s a => s.eccRead a k) s)
  ((s1.putSp k (s.spNext k sp b)).setN (pSp k) 0x408 (s.spBank k * 2048 + sp.pc)).spReturns k sp.run (s.spNext k sp b).run

theorem Stage.spExecute_eq (s : Stage) (k : Nat) (sp : SpSt) (b : Bundle) : s.spExecute k sp b
    = match b.t.op with
      | .mbwr d => if sp.holds b.t.pred then ((s.spWritten k sp b).setReg (pSp k) 0x0A8 (sp.dReg d)).raise (pSp k) 2 else s.spWritten k sp b
      | _ => s.spWritten k sp b := rfl

/-- MBWR writes MBOX_OUT beside what every bundle writes (R91). -/
theorem Stage.spExecute_cases (s : Stage) (k : Nat) (sp : SpSt) (b : Bundle) : s.spExecute k sp b = s.spWritten k sp b
    ∨ ∃ d, b.t.op = .mbwr d ∧ s.spExecute k sp b = ((s.spWritten k sp b).setReg (pSp k) 0x0A8 (sp.dReg d)).raise (pSp k) 2 := by
  rw [Stage.spExecute_eq]
  split
  · split
    · exact .inr ⟨_, ‹_›, rfl⟩
    · exact .inl rfl
  · exact .inl rfl

/-- A return changes blocks alone (R30, R88). -/
theorem Stage.spReturns_frame (s : Stage) (k : Nat) (old new : SpRun) : ∃ t, s.spReturns k old new = { s with blocks := t } := by
  unfold Stage.spReturns
  dsimp only
  split
  · exact ⟨_, rfl⟩
  · split
    · exact ⟨_, rfl⟩
    · exact ⟨_, rfl⟩

theorem Stage.sp_spWritten (s : Stage) (k : Nat) (sp : SpSt) (b : Bundle) : (s.spWritten k sp b).sp k = s.spNext k sp b := by
  unfold Stage.spWritten
  dsimp only
  obtain ⟨t, h⟩ := Stage.spReturns_frame _ k sp.run (s.spNext k sp b).run
  rw [h]
  exact Stage.sp_putSp_same ..

theorem Stage.sp_spExecute (s : Stage) (k : Nat) (sp : SpSt) (b : Bundle) : (s.spExecute k sp b).sp k = s.spNext k sp b := by
  rcases s.spExecute_cases k sp b with h | ⟨d, -, h⟩ <;> rw [h]
  · exact s.sp_spWritten k sp b
  · rw [Stage.sp, Stage.raise_sps, Stage.setReg_sps]
    exact s.sp_spWritten k sp b

/-! ### What the slots leave -/

/-- FAR by its descriptor. The match is reached through the constant itself: the kernel must not reduce a descriptor to compare two forms of it. -/
theorem Stage.farStart_decides : ∃ F : Stage → Nat → SpSt → Nat → SpSt, F = Stage.farStart ∧ ∀ s k sp a,
    (∀ f, s.farDesc k a = some f → F s k sp a = { sp with far := sp.far ++ [f] }) ∧ (s.farDesc k a = none → F s k sp a = sp.stick fFAR) := by
  refine ⟨?F, ?heq, ?h⟩
  case heq => delta Stage.farStart; exact rfl
  case h => exact fun s k sp a => ⟨fun f h => by rw [h], fun h => by rw [h]⟩

/-- A legal descriptor adds its transfer to those outstanding (R96). -/
theorem Stage.farStart_some {s : Stage} {k a : Nat} {f : Far} (sp : SpSt) (h : s.farDesc k a = some f) :
    s.farStart k sp a = { sp with far := sp.far ++ [f] } := by
  obtain ⟨_, rfl, hF⟩ := Stage.farStart_decides
  exact (hF s k sp a).1 f h

/-- Any other sets FAR_ERR. -/
theorem Stage.farStart_none {s : Stage} {k a : Nat} (sp : SpSt) (h : s.farDesc k a = none) : s.farStart k sp a = sp.stick fFAR := by
  obtain ⟨_, rfl, hF⟩ := Stage.farStart_decides
  exact (hF s k sp a).2 h

theorem Stage.farStart_cases (s : Stage) (k : Nat) (sp : SpSt) (a : Nat) :
    s.farStart k sp a = sp.stick fFAR ∨ ∃ f, s.farStart k sp a = { sp with far := f } := by
  cases h : s.farDesc k a with
  | none => exact .inl (Stage.farStart_none sp h)
  | some f => exact .inr ⟨_, Stage.farStart_some sp h⟩

section
variable (s : Stage) (k : Nat) (sp : SpSt) (b : Bundle)

theorem Stage.spSlots_frame : ∃ t e br, s.spSlots k sp b
    = { sp with sr := t, pend := sp.pend ++ (runSlots s k sp b).lands, e := e, brk := br } := by
  obtain ⟨⟨t, ht⟩, -⟩ := sticks_runSlots s k sp b
  refine ⟨t, (s.spSlots k sp b).e, (s.spSlots k sp b).brk, ?_⟩
  unfold Stage.spSlots
  dsimp only
  rw [ht]

/-- Beside the slots FAR and MBRD change the transfers, FAR_ERR and the mailbox. -/
theorem Stage.spSent_cases : s.spSent k sp b = (s.spSlots k sp b).stick fFAR
    ∨ ∃ f m u, s.spSent k sp b = { s.spSlots k sp b with far := f, mbox := m, unread := u } := by
  unfold Stage.spSent
  split
  · split
    · rcases s.farStart_cases k (s.spSlots k sp b) ({ sp := sp : SlotRun }.tm _ _ _).1 with h | ⟨f, h⟩
      · exact .inl h
      · exact .inr ⟨f, _, _, h⟩
    · exact .inr ⟨_, _, _, rfl⟩
  · split
    · exact .inr ⟨_, _, _, rfl⟩
    · exact .inr ⟨_, _, _, rfl⟩
  · exact .inr ⟨_, _, _, rfl⟩

/-- What the slots of a bundle leave alone: no D register or accumulator, and no part of the control state changes. -/
theorem Stage.spSent_frame : ∃ t e br far mb un, s.spSent k sp b
    = { sp with sr := t, pend := sp.pend ++ (runSlots s k sp b).lands, e := e, brk := br, far := far, mbox := mb, unread := un } := by
  obtain ⟨t, e, br, h⟩ := s.spSlots_frame k sp b
  rcases s.spSent_cases k sp b with h' | ⟨f, m, u, h'⟩ <;> rw [h', h]
  · exact ⟨_, _, _, _, _, _, rfl⟩
  · exact ⟨_, _, _, _, _, _, rfl⟩

/-- The special registers after the slots are those that the slots leave, with FAR_ERR for a descriptor out of range (R96). -/
theorem Stage.spSent_sr : (s.spSent k sp b).sr = (runSlots s k sp b).sp.sr ∨ (s.spSent k sp b).sr = ((runSlots s k sp b).sp.stick fFAR).sr := by
  rcases s.spSent_cases k sp b with h | ⟨f, m, u, h⟩ <;> rw [h]
  · exact .inr rfl
  · exact .inl rfl

theorem SpSt.sreg_congr {a b : SpSt} (h : b.sr = a.sr) (c : Nat) : b.sreg c = a.sreg c := by rw [SpSt.sreg, SpSt.sreg, h]

/-- Of the special registers only SPSTAT changes before the bundle's control instruction acts. -/
theorem Stage.sreg_spSent {c : Nat} (h : c ≠ rSPSTAT) : (s.spSent k sp b).sreg c = sp.sreg c := by
  have hx := (sticks_runSlots s k sp b).2.1 c h
  rcases s.spSent_sr k sp b with hs | hs
  · exact (SpSt.sreg_congr hs c).trans hx
  · exact (SpSt.sreg_congr hs c).trans ((SpSt.sreg_stick _ _ h).trans hx)

/-- But for FAR_ERR the sticky flags are those that the slots leave. -/
theorem Stage.flag_spSent {f : Nat} (h : f ≠ fFAR) : bit ((s.spSent k sp b).sreg rSPSTAT) f = bit ((runSlots s k sp b).sp.sreg rSPSTAT) f := by
  rcases s.spSent_sr k sp b with hs | hs <;> rw [SpSt.sreg_congr hs]
  exact SpSt.stick_other _ h

end

/-! ### Where the processor goes on -/

/-- From `a` to `b` the control state alone has changed: loops, the repeat cache, the return stack, the program counter and a fault to come. -/
def SpSt.Steers (a b : SpSt) : Prop :=
  (∃ t ca sv cp pc fl rs, b = { a with sr := t, cache := ca, serve := sv, capture := cp, pc := pc, flt := fl, rstack := rs })
    ∧ b.sreg rSPSTAT = a.sreg rSPSTAT

theorem SpSt.Steers.refl (a : SpSt) : a.Steers a := ⟨⟨_, _, _, _, _, _, _, rfl⟩, rfl⟩

theorem SpSt.Steers.trans {a b c : SpSt} (h : a.Steers b) (h' : b.Steers c) : a.Steers c := by
  obtain ⟨⟨_, _, _, _, _, _, _, rfl⟩, hs⟩ := h
  obtain ⟨⟨_, _, _, _, _, _, _, rfl⟩, hs'⟩ := h'
  exact ⟨⟨_, _, _, _, _, _, _, rfl⟩, hs'.trans hs⟩

theorem SpSt.steers_setReg (a : SpSt) {c : Nat} (v : Nat) (h : c ≠ rSPSTAT) : a.Steers (a.setSreg c v) :=
  ⟨⟨_, _, _, _, _, _, _, rfl⟩, a.sreg_setSreg_other v h.symm⟩

/-- The special registers left as they are. -/
theorem SpSt.steers_of_sr {a b : SpSt} (hr : b.sr = a.sr)
    (h : ∃ t ca sv cp pc fl rs, b = { a with sr := t, cache := ca, serve := sv, capture := cp, pc := pc, flt := fl, rstack := rs }) : a.Steers b :=
  ⟨h, SpSt.sreg_congr hr _⟩

theorem rLC_ne (v : Nat) (h : v < 2) : rLC v ≠ rSPSTAT := by unfold rLC rSPSTAT; omega

theorem SpSt.levels_lt (sp : SpSt) {v : Nat} (h : v ∈ sp.levels) : v < 2 := by
  have := (List.mem_filter.mp h).1
  simp at this
  omega

theorem SpSt.steers_iterate (sp : SpSt) {v : Nat} (h : v < 2) : sp.Steers (sp.iterate v) := by
  unfold SpSt.iterate
  dsimp only
  split
  · exact (sp.steers_setReg _ (rLC_ne v h)).trans (SpSt.steers_setReg _ _ (by decide))
  · exact sp.steers_setReg _ (rLC_ne v h)

/-- The repeat cache alone changes at the end of an iteration of a captured or served body. -/
theorem SpSt.cacheEnd_frame (sp : SpSt) (bank v pc : Nat) : ∃ ca sv cp, sp.cacheEnd bank v pc = { sp with cache := ca, serve := sv, capture := cp } := by
  unfold SpSt.cacheEnd
  dsimp only
  split <;> split <;> exact ⟨_, _, _, rfl⟩

theorem SpSt.steers_cacheEnd (sp : SpSt) (bank v pc : Nat) : sp.Steers (sp.cacheEnd bank v pc) := by
  obtain ⟨_, _, _, h⟩ := sp.cacheEnd_frame bank v pc
  rw [h]
  exact SpSt.steers_of_sr rfl ⟨_, _, _, _, _, _, _, rfl⟩

theorem SpSt.steers_endTest (sp : SpSt) (bank pc : Nat) : sp.Steers (sp.endTest bank pc).2 := by
  have hend : ∀ (a : SpSt) {v : Nat}, v < 2 → a.Steers ((a.iterate v).cacheEnd bank v pc) := fun a v hv =>
    (a.steers_iterate hv).trans (SpSt.steers_cacheEnd _ bank v pc)
  unfold SpSt.endTest
  split
  · exact .refl sp
  · rename_i v rest hl
    have hv : v < 2 := sp.levels_lt (by rw [hl]; exact List.mem_cons_self ..)
    dsimp only
    split
    · exact .refl sp
    · split
      · exact hend sp hv
      · split
        · exact hend sp hv
        · rename_i j tl
          have hj : j < 2 := sp.levels_lt (by rw [hl]; exact List.mem_cons_of_mem _ (List.mem_cons_self ..))
          split
          · exact hend sp hv
          · split
            · exact (hend sp hv).trans (hend _ hj)
            · exact (hend sp hv).trans (hend _ hj)

/-- After any bundle but the delay bundle of an IRET the processor goes on without touching what is on its way. -/
theorem SpSt.steers_advance (sp : SpSt) (bank pc : Nat) {was : Option After} (h : was ≠ some .iret) : sp.Steers (sp.advance bank pc was) := by
  have hgo : ∀ (a : SpSt) (n : Nat), a.Steers (if 0x7FF < n then { a with flt := some (cPC_END, 0x7FF) } else { a with pc := n }) := by
    intro a n
    split <;> exact SpSt.steers_of_sr rfl ⟨_, _, _, _, _, _, _, rfl⟩
  unfold SpSt.advance
  match was, h with
  | none, _ => exact (sp.steers_endTest bank pc).trans (hgo _ _)
  | some (.jump t), _ => exact hgo sp t
  | some .iret, h => exact absurd rfl h

theorem Stage.steers_takeLoop (s : Stage) (k bank : Nat) (sp : SpSt) (pc stop count : Nat) (rot : Bool) :
    sp.Steers (s.takeLoop k bank sp pc stop count rot).2 := by
  unfold Stage.takeLoop
  extract_lets v a b c d
  have hv : v < 2 := by unfold v; split <;> omega
  have hc : sp.Steers c := ((sp.steers_setReg _ (by decide)).trans (SpSt.steers_setReg _ _ (by decide))).trans (SpSt.steers_setReg _ _ (rLC_ne v hv))
  have hd : sp.Steers d := by
    unfold d
    split
    · exact hc.trans (SpSt.steers_setReg _ _ (by decide))
    · exact hc
  split
  · exact hd
  · split
    · exact hd
    · split <;> exact hd.trans (SpSt.steers_of_sr rfl ⟨_, _, _, _, _, _, _, rfl⟩)

theorem Stage.steers_control (s : Stage) (k bank : Nat) (sp : SpSt) (pc : Nat) (b : Bundle) : sp.Steers (s.control k bank sp pc b).1 := by
  unfold Stage.control
  split
  · split
    case h_1 => exact .refl sp
    case h_2 | h_3 => exact SpSt.steers_of_sr rfl ⟨_, _, _, _, _, _, _, rfl⟩
    case h_4 | h_5 => exact s.steers_takeLoop ..
    case h_6 =>
      split
      · exact .refl sp
      · rename_i v rest hl
        have hv : v < 2 := sp.levels_lt (by rw [hl]; exact List.mem_cons_self ..)
        exact (sp.steers_setReg 0 (rLC_ne v hv)).trans (SpSt.steers_of_sr rfl ⟨_, _, _, _, _, _, _, rfl⟩)
    case h_7 | h_8 => exact .refl sp
  · exact .refl sp

/-- A bundle without a control instruction decides nothing. -/
theorem Stage.control_none (s : Stage) (k bank : Nat) (sp : SpSt) (pc : Nat) {b : Bundle} (h : b.t.op.isControl = false) :
    s.control k bank sp pc b = (sp, none) := by
  unfold Stage.control
  split
  · split <;> simp_all [TOp.isControl]
  · rfl

theorem Stage.spSteered_none (s : Stage) (k : Nat) (sp : SpSt) {b : Bundle} (h : b.t.op.isControl = false) :
    s.spSteered k sp b = (s.spSent k sp b, none) := s.control_none _ _ _ _ h

section
variable (s : Stage) (k : Nat) {sp : SpSt} {b : Bundle} (hdone : (sp.holds b.t.pred && b.isDone) = false)
include hdone

theorem Stage.spNext_advance : s.spNext k sp b = (s.spCounted k sp b).advance (s.spBank k) sp.pc sp.delay := by
  unfold Stage.spNext
  rw [if_neg (by rw [hdone]; exact Bool.false_ne_true)]

variable (hiret : sp.delay ≠ some .iret)
include hiret

theorem Stage.steers_spNext : (s.spCounted k sp b).Steers (s.spNext k sp b) := by
  rw [s.spNext_advance k hdone]
  exact SpSt.steers_advance _ _ _ hiret

/-- What is on its way after a bundle: what was, and what its slots sent. -/
theorem Stage.pend_spNext : (s.spNext k sp b).pend = sp.pend ++ (runSlots s k sp b).lands := by
  obtain ⟨⟨_, _, _, _, _, _, _, hn⟩, -⟩ := s.steers_spNext k hdone hiret
  obtain ⟨⟨_, _, _, _, _, _, _, hc⟩, -⟩ := s.steers_control k (s.spBank k) (s.spSent k sp b) sp.pc b
  obtain ⟨_, _, _, _, _, _, hs⟩ := s.spSent_frame k sp b
  rw [hn, Stage.spCounted, Stage.spSteered, hc, hs]

/-- SPSTAT is as the slots and FAR leave it. -/
theorem Stage.spstat_spNext : (s.spNext k sp b).sreg rSPSTAT = (s.spSent k sp b).sreg rSPSTAT :=
  (s.steers_spNext k hdone hiret).2.trans (s.steers_control k (s.spBank k) (s.spSent k sp b) sp.pc b).2

theorem Stage.iss_spNext : (s.spNext k sp b).iss = sp.iss + 1 := by
  obtain ⟨⟨_, _, _, _, _, _, _, hn⟩, -⟩ := s.steers_spNext k hdone hiret
  rw [hn, Stage.spCounted]

theorem Stage.delay_spNext : (s.spNext k sp b).delay = (s.spSteered k sp b).2 := by
  obtain ⟨⟨_, _, _, _, _, _, _, hn⟩, -⟩ := s.steers_spNext k hdone hiret
  rw [hn, Stage.spCounted]

/-- No D register and no accumulator changes before a result lands. -/
theorem Stage.files_spNext : (s.spNext k sp b).d = sp.d ∧ (s.spNext k sp b).ac = sp.ac := by
  obtain ⟨⟨_, _, _, _, _, _, _, hn⟩, -⟩ := s.steers_spNext k hdone hiret
  obtain ⟨⟨_, _, _, _, _, _, _, hc⟩, -⟩ := s.steers_control k (s.spBank k) (s.spSent k sp b) sp.pc b
  obtain ⟨_, _, _, _, _, _, hs⟩ := s.spSent_frame k sp b
  rw [hn, Stage.spCounted, Stage.spSteered, hc, hs]
  exact ⟨rfl, rfl⟩

end

/-! ### A command that issues a bundle -/

/-- Every slot command issues its bundle. -/
theorem exec_slot {c : Instr} {k : Nat} {b : Bundle} (h : slotBundle c = some (k, b)) (s : State) :
    exec c s = s.act fun t => t.block .sp k fun t => t.issueBundle k b := by
  unfold slotBundle at h
  split at h
  case h_74 => cases h
  all_goals
    obtain ⟨rfl, rfl⟩ := Prod.mk.inj (Option.some.inj h)
    rfl

/-- A processor that may not issue, or whose next action is an interrupt entry, issues nothing (R86). -/
theorem Stage.issueBundle_idle (s : Stage) (k : Nat) (b : Bundle) (h : ((s.sp k).active && !(s.sp k).entryDue) = false) : s.issueBundle k b = s := by
  refine if_pos ?_
  revert h
  cases (s.sp k).active <;> cases (s.sp k).entryDue <;> decide

section
variable {s : Stage} {k : Nat} {b : Bundle} (ha : (s.sp k).active = true) (he : (s.sp k).entryDue = false)
include ha he

/-- A bundle with a fault does not execute (R112). -/
theorem Stage.issueBundle_faults {c : Nat} (h : (s.sp k).landNow.bundleFault (s.sp k).landNow.pc b = some c) :
    s.issueBundle k b = s.putSp k { (s.sp k).landNow with flt := some (c, (s.sp k).landNow.pc) } := by
  unfold Stage.issueBundle
  dsimp only
  rw [if_neg (by rw [ha, he]; decide), h]

variable (hf : (s.sp k).landNow.bundleFault (s.sp k).landNow.pc b = none)
include hf

/-- One that stalls changes nothing (R93). -/
theorem Stage.issueBundle_stalls (h : (s.sp k).landNow.stalls b = true) : s.issueBundle k b = s := by
  unfold Stage.issueBundle
  dsimp only
  rw [if_neg (by rw [ha, he]; decide), hf]
  exact if_pos h

/-- Any other executes, on what has landed. -/
theorem Stage.issueBundle_executes (h : (s.sp k).landNow.stalls b = false) : s.issueBundle k b = s.spExecute k (s.sp k).landNow b := by
  unfold Stage.issueBundle
  dsimp only
  rw [if_neg (by rw [ha, he]; decide), hf]
  exact if_neg (by rw [h]; exact Bool.false_ne_true)

end

/-- A bundle that issues has a result `P` when the end of its execution has it. -/
theorem done_issues {c : Instr} {s : State} {k : Nat} {b : Bundle} {P : Stage → Prop} (hc : slotBundle c = some (k, b)) (h : Issues s k b)
    (hp : P (s.stage.ends (s.stage.spExecute k (s.atIssue k) b))) : Done c s P := by
  refine done_act (exec_slot hc s) h.1.1 ?_
  obtain ⟨hl, ha, he, hf, hs⟩ := h
  rw [Stage.block_live s .sp k _ hl, Stage.issueBundle_executes ha he hf hs]
  exact hp

/-- The same for what is said of the processor alone. -/
theorem done_sp {c : Instr} {s : State} {k : Nat} {b : Bundle} {P : SpSt → Prop} (hc : slotBundle c = some (k, b)) (h : Issues s k b)
    (hp : P (s.stage.spNext k (s.atIssue k) b)) : Done c s (fun t => P (t.sp k)) := by
  refine done_issues hc h ?_
  rw [Stage.ends_sp, Stage.sp_spExecute]
  exact hp

/-- What is said of results on their way and of the sticky flags but FAR_ERR follows from what the slots leave. -/
theorem done_flows {c : Instr} {s : State} {k : Nat} {b : Bundle} {P : Stage → Prop} (hc : slotBundle c = some (k, b)) (h : Issues s k b)
    (hf : Flows s k b) (hp : ∀ t : Stage, (∀ l ∈ (runSlots s.stage k (s.atIssue k) b).lands, l ∈ (t.sp k).pend) →
      (∀ f, f ≠ fFAR → bit ((t.sp k).sreg rSPSTAT) f = bit ((runSlots s.stage k (s.atIssue k) b).sp.sreg rSPSTAT) f) → P t) : Done c s P := by
  refine done_issues hc h (hp _ (fun l hl => ?_) fun f hne => ?_) <;> rw [Stage.ends_sp, Stage.sp_spExecute]
  · rw [s.stage.pend_spNext k hf.1 hf.2]
    exact List.mem_append_right _ hl
  · rw [s.stage.spstat_spNext k hf.1 hf.2, s.stage.flag_spSent k _ b hne]

theorem State.atIssue_iss (s : State) (k : Nat) : (s.atIssue k).iss = (s.stage.sp k).iss := by
  obtain ⟨_, _, _, _, h⟩ := (s.stage.sp k).lands_landNow
  rw [State.atIssue, h]

end Sys2Proof.Machine
end

section
/-!
PROOF. Results on their way (R68, R69, R71, R76, R116, R117): what a slot sends arrives in flight after the bundle, the redundant sign bits that EXP
counts, and the statements O2 and O6.
-/
namespace Sys2Proof.Machine

/-! ### From a slot to the results in flight -/

/-- What slots `x` have sent, and the flags they have set, stand in processor `u`, which issued their bundle as `a`. -/
def SlotRun.Arrives (x : SlotRun) (a u : SpSt) : Prop :=
  (∀ l ∈ x.lands, l ∈ u.pend) ∧ (∀ f, f ≠ fFAR → bit (x.sp.sreg rSPSTAT) f = true → bit (u.sreg rSPSTAT) f = true)
    ∧ (a.acs = false → bit (u.sreg rSPSTAT) fAV = bit (a.sreg rSPSTAT) fAV)

/-- Whatever slots of an executed bundle have sent arrives. -/
theorem done_arrives {c : Instr} {s : State} {k pred : Nat} {b : Bundle} {x : SlotRun} {P : Stage → Prop} (hc : slotBundle c = some (k, b))
    (h : Runs s k b pred) (hx : x.Grows (runSlots s.stage k (s.atIssue k) b)) (hp : ∀ t : Stage, x.Arrives (s.atIssue k) (t.sp k) → P t) :
    Done c s P := by
  obtain ⟨hi, hf, -⟩ := h
  refine done_flows hc hi hf fun t hl hb => hp t ⟨fun l hm => hl l (hx.mem hm), fun f hne hs => ?_, fun ha => ?_⟩
  · rw [hb f hne]; exact hx.1.2.2.1 f hs
  · rw [hb fAV (by decide)]; exact (sticks_runSlots ..).2.2.2 ha

section
variable {s : State} {k : Nat} {y : SlotRun} (hy : (s.atIssue k).Sticks y.sp) {t : Stage}
include hy

theorem sends_put {lat r : Nat} {d : Dest} {v : Int} (h : (y.put lat r d v).Arrives (s.atIssue k) (t.sp k)) : Sends s k lat r d v t := by
  have hm := h.1 _ (y.mem_put lat r d v)
  rw [hy.iss, s.atIssue_iss] at hm
  exact hm

theorem sendsD_putD {lat r n : Nat} {v : Word} (h : (y.putD lat r n v).Arrives (s.atIssue k) (t.sp k)) : SendsD s k lat r n v t := by
  rw [SendsD, ← hy.phys n]
  exact sends_put hy h

/-- An accumulator result goes through SPMODE.ACS (R69, R120). -/
theorem sendsAcc_sat72 {lat r c : Nat} {z : Int}
    (h : ({ y with sp := (y.sp.sat72 z).2 }.put lat r (.ac c) (y.sp.sat72 z).1).Arrives (s.atIssue k) (t.sp k)) : SendsAcc s k lat r c z t := by
  have hsend : Sends s k lat r (.ac c) (y.sp.sat72 z).1 t :=
    sends_put (y := { y with sp := (y.sp.sat72 z).2 }) (hy.trans (y.sp.sticks_sat72 z)) h
  obtain ⟨-, hflag, hav⟩ := h
  have hacs := hy.acs
  have hsat := satI_72 z
  refine ⟨_, hsend, fun hr => ?_, fun hr ha => ?_, fun ha => ⟨?_, ?_, hav ha⟩⟩
  · have hz : satI 72 z = z := by rw [hsat]; unfold InRange at hr; omega
    rw [SpSt.sat72, if_pos hz]
  · have hz : satI 72 z ≠ z := by rw [hsat]; unfold InRange at hr; omega
    have hout : y.sp.sat72 z = (satI 72 z, y.sp.stick fAV) := by rw [SpSt.sat72, if_neg hz, if_pos (hacs.trans ha)]
    refine ⟨?_, hflag fAV (by decide) ?_⟩
    · rw [hout, hsat]
      unfold InRange at hr
      split <;> dsimp only <;> omega
    · change bit ((y.sp.sat72 z).2.sreg rSPSTAT) fAV = true
      rw [hout]
      exact y.sp.stick_sets (by decide)
  · unfold SpSt.sat72 InRange
    split
    · rename_i hz
      rw [hsat] at hz
      dsimp only
      omega
    · rw [if_neg (by rw [hacs, ha]; exact Bool.false_ne_true), sext, toBits]
      dsimp only
      split <;> omega
  · unfold SpSt.sat72
    split
    · dsimp only; omega
    · rw [if_neg (by rw [hacs, ha]; exact Bool.false_ne_true), sext, toBits]
      dsimp only
      split <;> omega

end

/-! ### Redundant sign bits (R71) -/

theorem Word.ofInt_natCast (n : Nat) : Word.ofInt (n : Int) = Word.ofNat n := BitVec.ofInt_natCast 32 n

/-- The bits of a number that do not repeat its sign. -/
def signMag (z : Int) : Nat := if z < 0 then (-z - 1).toNat else z.toNat

theorem signMag_bounds (z : Int) : -(signMag z : Int) - 1 ≤ z ∧ z ≤ signMag z := by
  unfold signMag
  split <;> omega

theorem expOf_eq (w : Nat) (z : Int) : expOf w z = w - 1 - bitLen (signMag z) := rfl

theorem lt_two_pow_bitLen (n : Nat) : n < 2 ^ bitLen n := by
  unfold bitLen
  split
  · rename_i h; subst h; exact Nat.one_pos
  · exact Nat.lt_log2_self

theorem bitLen_le {n j : Nat} (h : n < 2 ^ j) : bitLen n ≤ j := by
  unfold bitLen
  split
  · exact Nat.zero_le j
  · rename_i hn; exact (Nat.log2_lt hn).mpr h

/-- The highest bit that a number needs is one. -/
theorem testBit_bitLen {n : Nat} (h : 0 < bitLen n) : n.testBit (bitLen n - 1) = true := by
  unfold bitLen at h ⊢
  split at h
  · cases h
  · rename_i hn
    rw [if_neg hn]
    exact Nat.testBit_log2 hn

theorem signMag_lt {w : Nat} {z : Int} (h : InRange w z) : signMag z < 2 ^ (w - 1) := by
  obtain ⟨hlo, hhi⟩ := h
  have hp : ((2 ^ (w - 1) : Nat) : Int) = (2 : Int) ^ (w - 1) := by norm_cast
  unfold signMag
  split <;> omega

/-- A bit of a two's-complement word is the magnitude's bit, inverted for a negative number. -/
theorem bit_toBits {w j : Nat} {z : Int} (h : InRange w z) (hj : j < w) : bit (toBits w z) j = (decide (z < 0) ^^ (signMag z).testBit j) := by
  have hm := signMag_lt h
  have hw : (2 : Nat) ^ w = 2 * 2 ^ (w - 1) := by rw [← Nat.pow_succ']; congr 1; omega
  have hp : ((2 ^ w : Nat) : Int) = (2 : Int) ^ w := by norm_cast
  rw [bit_eq_testBit]
  by_cases hz : z < 0
  · have hv : toBits w z = 2 ^ w - (signMag z + 1) := by
      have hs : signMag z = (-z - 1).toNat := if_pos hz
      have hmod : z % 2 ^ w = z + 2 ^ w := by
        rw [← Int.add_emod_right]
        exact Int.emod_eq_of_lt (by omega) (by omega)
      rw [toBits, hmod]
      omega
    rw [hv, Nat.testBit_two_pow_sub_succ (by omega)]
    simp [hz, hj]
  · have hv : toBits w z = signMag z := by
      have hs : signMag z = z.toNat := if_neg hz
      rw [toBits, Int.emod_eq_of_lt (by omega) (by omega), hs]
    rw [hv]
    simp [hz]

section
variable {w : Nat} {z : Int} (hw : 2 ≤ w) (h : InRange w z)

include h in
theorem bitLen_signMag_le : bitLen (signMag z) ≤ w - 1 := bitLen_le (signMag_lt h)

include hw h

/-- The sign bit. -/
theorem bit_toBits_sign : bit (toBits w z) (w - 1) = decide (z < 0) := by
  rw [bit_toBits h (by omega), Nat.testBit_lt_two_pow (signMag_lt h), Bool.xor_false]

/-- That many bits below the sign repeat it. -/
theorem bit_toBits_redundant {i : Nat} (hi : i < expOf w z) : bit (toBits w z) (w - 2 - i) = bit (toBits w z) (w - 1) := by
  rw [expOf_eq] at hi
  have hle : 2 ^ bitLen (signMag z) ≤ 2 ^ (w - 2 - i) := Nat.pow_le_pow_right (by decide) (by omega)
  rw [bit_toBits_sign hw h, bit_toBits h (by omega), Nat.testBit_lt_two_pow (Nat.lt_of_lt_of_le (lt_two_pow_bitLen _) hle), Bool.xor_false]

/-- The next one does not. -/
theorem bit_toBits_significant (he : expOf w z < w - 1) : bit (toBits w z) (w - 2 - expOf w z) ≠ bit (toBits w z) (w - 1) := by
  have hle := bitLen_signMag_le h
  rw [expOf_eq] at he ⊢
  have hpos : 0 < bitLen (signMag z) := by omega
  rw [bit_toBits_sign hw h, show w - 2 - (w - 1 - bitLen (signMag z)) = bitLen (signMag z) - 1 by omega, bit_toBits h (by omega),
    testBit_bitLen hpos]
  cases decide (z < 0) <;> decide

omit hw in
/-- Shifted left by its redundant sign bits a number stays in range. -/
theorem inRange_normalized : InRange w (z * 2 ^ expOf w z) := by
  have hle := bitLen_signMag_le h
  have hlt := lt_two_pow_bitLen (signMag z)
  have hz : -(2 ^ bitLen (signMag z) : Int) ≤ z ∧ z < 2 ^ bitLen (signMag z) := by
    have hp : ((2 ^ bitLen (signMag z) : Nat) : Int) = (2 : Int) ^ bitLen (signMag z) := by norm_cast
    have hb := signMag_bounds z
    omega
  have hw : (2 : Int) ^ (w - 1) = 2 ^ bitLen (signMag z) * 2 ^ expOf w z := by
    rw [← pow_add, expOf_eq]; congr 1; omega
  have hpos : (0 : Int) < 2 ^ expOf w z := by positivity
  rw [InRange, hw, ← Int.neg_mul]
  exact ⟨Int.mul_le_mul_of_nonneg_right hz.1 hpos.le, Int.mul_lt_mul_of_pos_right hz.2 hpos⟩

end

/-! ### The A slot -/

/-- What an A slot whose predicate holds sends arrives. -/
theorem done_withA {c : Instr} {s : State} {k pred : Nat} {o : Bundle} {op : AOp} {P : Stage → Prop} (hc : slotBundle c = some (k, o.withA pred op))
    (h : Runs s k (o.withA pred op) pred)
    (hp : ∀ (y : SlotRun) (t : Stage), (s.atIssue k).Sticks y.sp → (y.aop op).Arrives (s.atIssue k) (t.sp k) → P t) : Done c s P := by
  obtain ⟨y, hy, hg⟩ := runSlots_withA s.stage k (s.atIssue k) o (op := op) h.2.2
  exact done_arrives hc h hg fun t ht => hp y t hy ht

theorem SlotRun.Arrives.of_grows {x y : SlotRun} {a u : SpSt} (h : y.Arrives a u) (hg : x.Grows y) : x.Arrives a u :=
  ⟨fun l hl => h.1 l (hg.mem hl), fun f hf hb => h.2.1 f hf (hg.1.2.2.1 f hb), h.2.2⟩

section
variable {s : State} {k pred dd : Nat} {o : Bundle}

theorem expa_sends {aca : Nat} (h : Runs s k (o.withA pred (.expa aca dd)) pred) :
    Done (.expa k pred aca dd o) s (SendsD s k 1 2 dd (Word.ofNat (expOf 72 ((s.atIssue k).acc aca)))) :=
  done_withA rfl h fun y t hy ht => by
    rw [← hy.acc, ← Word.ofInt_natCast]
    exact sendsD_putD hy ht

theorem expd_sends {da : Nat} (h : Runs s k (o.withA pred (.expd da dd)) pred) :
    Done (.expd k pred da dd o) s (SendsD s k 1 2 dd (Word.ofNat (expOf 32 ((s.atIssue k).dInt da)))) :=
  done_withA rfl h fun y t hy ht => by
    rw [← hy.dInt, ← Word.ofInt_natCast]
    exact sendsD_putD hy ht

theorem norm_sends {aca : Nat} (h : Runs s k (o.withA pred (.norm aca dd)) pred) :
    Done (.norm k pred aca dd o) s (fun t => Sends s k 1 2 (.ac aca) ((s.atIssue k).acc aca * 2 ^ expOf 72 ((s.atIssue k).acc aca)) t
      ∧ SendsD s k 1 2 dd (Word.ofNat (expOf 72 ((s.atIssue k).acc aca))) t) :=
  done_withA rfl h fun y t hy ht => by
    rw [← hy.acc, ← Word.ofInt_natCast]
    have hacc := y.grows_put 1 2 (.ac aca) (y.sp.acc aca * 2 ^ expOf 72 (y.sp.acc aca))
    exact ⟨sends_put hy (ht.of_grows (SlotRun.grows_put ..)), sendsD_putD (hy.trans hacc.1) ht⟩

end

/-- Settles O2, by what EXPA, EXPD and NORM send and by the bits of a number below its sign (`bit_toBits`). -/
theorem expAndNorm : Obligations.ExpAndNorm := by
  refine ⟨fun s k pred dd da aca o => ⟨expa_sends, expd_sends, norm_sends⟩, fun w z hw h => ?_, by decide, by decide, by decide, by decide⟩
  have hw : 2 ≤ w := by omega
  exact ⟨Nat.sub_le _ _, fun i => bit_toBits_redundant hw h, bit_toBits_significant hw h, inRange_normalized h⟩

/-! ### Multiply slots -/

/-- What a multiply slot whose predicate holds sends arrives. -/
theorem done_withM {c : Instr} {s : State} {k : Nat} {second : Bool} {m : MSlot} {o : Bundle} {P : Stage → Prop}
    (hc : slotBundle c = some (k, o.withM second m)) (h : Runs s k (o.withM second m) m.pred)
    (hp : ∀ (y : SlotRun) (t : Stage), (s.atIssue k).Sticks y.sp →
      (SlotRun.mload s.stage k (if second then .y else .x) (y.mul (if second then 1 else 0) m) (if second then 1 else 0) m).Arrives
        (s.atIssue k) (t.sp k) → P t) : Done c s P := by
  obtain ⟨y, hy, hg⟩ := runSlots_withM s.stage k (s.atIssue k) o (m := m) (second := second) h.2.2
  exact done_arrives hc h hg fun t ht => hp y t hy ht

/-- The multiply alone. -/
theorem done_mul {c : Instr} {s : State} {k : Nat} {second : Bool} {m : MSlot} {o : Bundle} {P : Stage → Prop}
    (hc : slotBundle c = some (k, o.withM second m)) (h : Runs s k (o.withM second m) m.pred)
    (hp : ∀ (y : SlotRun) (t : Stage), (s.atIssue k).Sticks y.sp →
      (y.mul (if second then 1 else 0) m).Arrives (s.atIssue k) (t.sp k) → P t) : Done c s P :=
  done_withM hc h fun y t hy ht => hp y t hy (ht.of_grows (SlotRun.grows_mload ..))

theorem mProduct_sticks {a b : SpSt} (h : a.Sticks b) (m : MSlot) : mProduct b m = mProduct a m := by
  rw [mProduct, mProduct, h.dInt, h.dInt]

section
variable {s : State} {k : Nat} {second : Bool} {m : MSlot} {o : Bundle}

theorem mac_sends (h : Runs s k (o.withM second { m with op := .mac }) m.pred) :
    Done (.mac k second m o) s
      (SendsAcc s k 2 (if second then 1 else 0) m.acc ((s.atIssue k).macView m.acc + mProduct (s.atIssue k) m)) :=
  done_mul (m := { m with op := .mac }) rfl h fun y t hy ht => by
    rw [← hy.macView, ← mProduct_sticks hy]
    exact sendsAcc_sat72 hy ht

theorem msu_sends (h : Runs s k (o.withM second { m with op := .msu }) m.pred) :
    Done (.msu k second m o) s
      (SendsAcc s k 2 (if second then 1 else 0) m.acc ((s.atIssue k).macView m.acc - mProduct (s.atIssue k) m)) :=
  done_mul (m := { m with op := .msu }) rfl h fun y t hy ht => by
    rw [← hy.macView, ← mProduct_sticks hy]
    exact sendsAcc_sat72 hy ht

theorem mpy_sends (h : Runs s k (o.withM second { m with op := .mpy }) m.pred) :
    Done (.mpy k second m o) s (Sends s k 2 (if second then 1 else 0) (.ac m.acc) (mProduct (s.atIssue k) m)) :=
  done_mul (m := { m with op := .mpy }) rfl h fun y t hy ht => by
    rw [← mProduct_sticks hy]
    exact sends_put hy ht

theorem mpyn_sends (h : Runs s k (o.withM second { m with op := .mpyn }) m.pred) :
    Done (.mpyn k second m o) s (Sends s k 2 (if second then 1 else 0) (.ac m.acc) (-mProduct (s.atIssue k) m)) :=
  done_mul (m := { m with op := .mpyn }) rfl h fun y t hy ht => by
    rw [← mProduct_sticks hy]
    exact sends_put hy ht

end

/-! ### Loads and post-modify (R73, R74, R117) -/

/-- The pointer of a post-modify as the statements give it. -/
theorem SpSt.postMod_fst (sp : SpSt) (i : Nat) (z : Int) : ((sp.postMod i z).1 : Int) = sp.stepped i z := by
  have h16 : ∀ x : Int, (toBits 16 x : Int) = x % 65536 := fun x => by rw [toBits]; omega
  unfold SpSt.postMod circ SpSt.stepped
  split
  · exact h16 _
  · exact h16 _

theorem sends_post {s : State} {k : Nat} {y : SlotRun} (hy : (s.atIssue k).Sticks y.sp) {t : Stage} {r i : Nat} {z : Int} (hi : i < 16)
    (h : (y.post r i z).Arrives (s.atIssue k) (t.sp k)) : Sends s k 1 r (.sr i) ((s.atIssue k).stepped i z) t := by
  rw [← SpSt.postMod_fst, ← hy.postMod hi]
  refine sends_put hy (h.of_grows ?_)
  unfold SlotRun.post
  dsimp only
  split
  · exact SlotRun.grows_sp (SpSt.sticks_stick _ (by decide) (.inl (by decide))) rfl
  · exact .refl _

/-- A legal bundle names a pointer in either multiply slot. -/
theorem lp_lt_of_legal {o : Bundle} {second : Bool} {m : MSlot} (h : (o.withM second m).legal = true) : m.lp < 12 := by
  have hm : m.legal = true := by
    cases second <;> simp_all [Bundle.legal, Bundle.withM]
  simp only [MSlot.legal, Bool.and_eq_true, decide_eq_true_eq] at hm
  omega

/-- A bundle that raises no fault is legal, and no control instruction in a delay slot or LOOP that ends too early (R112). -/
theorem SpSt.legal_of_noFault {sp : SpSt} {pc : Nat} {b : Bundle} (h : sp.bundleFault pc b = none) :
    b.legal = true ∧ (sp.delay.isSome && b.t.op.isControl) = false ∧ b.t.op.endBelow pc = false := by
  unfold SpSt.bundleFault at h
  split at h
  · cases h
  · rename_i hn
    simp only [Bool.or_eq_true, not_or, Bool.not_eq_true, Bool.not_eq_true'] at hn
    exact ⟨by simpa using hn.1.1, hn.1.2, hn.2⟩

/-- The first part of a load: the word loaded, with the access noted. -/
def SlotRun.loaded (x : SlotRun) (s : Stage) (k : Nat) (mem : Space) (r : Nat) (m : MSlot) : SlotRun :=
  { x.touch mem (x.sp.p m.lp) with seen := x.seen ++ [wordAddr k mem (x.sp.p m.lp)] }.putD 2 r m.ld (s.rd32 (wordAddr k mem (x.sp.p m.lp)))

theorem SlotRun.mload_eq (x : SlotRun) (s : Stage) (k : Nat) (mem : Space) (r : Nat) {m : MSlot} (h : m.lm ≠ 0) :
    SlotRun.mload s k mem x r m = if m.lm = 1 then x.loaded s k mem r m
      else (x.loaded s k mem r m).post r m.lp (if m.lm = 2 then (x.loaded s k mem r m).sp.n m.lp else 1) := if_neg h

theorem ld_sends {s : State} {k : Nat} {second : Bool} {m : MSlot} {o : Bundle} {r : Nat} (hr : r = if second then 1 else 0)
    (h : Runs s k (o.withM second m) m.pred) (hlm : m.lm ≠ 0) :
    Done (.ld k second m o) s (fun t =>
      SendsD s k 2 r m.ld (s.stage.rd32 (wordAddr k (if second then .y else .x) ((s.atIssue k).p m.lp))) t
        ∧ (m.lm = 2 → Sends s k 1 r (.sr m.lp) ((s.atIssue k).stepped m.lp ((s.atIssue k).n m.lp)) t)
        ∧ (m.lm = 3 → Sends s k 1 r (.sr m.lp) ((s.atIssue k).stepped m.lp 1) t)) := by
  have hlp : m.lp < 12 := lp_lt_of_legal (SpSt.legal_of_noFault h.1.2.2.2.1).1
  refine done_withM rfl h fun y t hy ht => ?_
  rw [← hr] at ht
  generalize (if second then Space.y else Space.x) = mem at ht ⊢
  set x := y.mul r m
  have hx : (s.atIssue k).Sticks x.sp := hy.trans (y.grows_mul r m).1
  rw [x.mload_eq s.stage k _ r hlm] at ht
  have htouch : (s.atIssue k).Sticks (x.touch mem (x.sp.p m.lp)).sp := hx.trans (x.grows_touch mem _).1
  have hload : (s.atIssue k).Sticks (x.loaded s.stage k mem r m).sp := htouch
  have hld : (x.loaded s.stage k mem r m).Arrives (s.atIssue k) (t.sp k) := by
    split at ht
    · exact ht
    · exact ht.of_grows (SlotRun.grows_post ..)
  refine ⟨?_, fun h2 => ?_, fun h3 => ?_⟩
  · rw [← hx.p (by omega)]
    exact sendsD_putD (y := { x.touch _ _ with seen := _ }) htouch hld
  · rw [if_neg (by omega), if_pos h2, hload.n (by omega)] at ht
    exact sends_post hload (by omega) ht
  · rw [if_neg (by omega), if_neg (by omega)] at ht
    exact sends_post hload (by omega) ht

/-! ### What a multiply adds to (R76) -/

/-- The result of a multiply of the bundle before to accumulator `c`. -/
def SpSt.Forwards (sp : SpSt) (c : Nat) (e : Land) : Prop := e.dest = .ac c ∧ e.rank < 2 ∧ e.iss + 1 = sp.iss

/-- The better of a result found so far and another one. -/
def SpSt.forward (sp : SpSt) (c : Nat) (best : Option Land) (e : Land) : Option Land :=
  if e.dest == .ac c && decide (e.rank < 2) && e.iss + 1 == sp.iss then
    (match best with
     | none => some e
     | some b => if b.rank < e.rank then some e else best)
  else best

theorem SpSt.macView_eq (sp : SpSt) (c : Nat) : sp.macView c = (sp.pend.foldl (sp.forward c) none).elim (sp.acc c) Land.val := rfl

theorem SpSt.forward_skips {sp : SpSt} {c : Nat} {e : Land} (best : Option Land) (h : ¬ sp.Forwards c e) : sp.forward c best e = best := by
  refine if_neg fun hb => h ?_
  simpa [SpSt.Forwards, and_assoc] using hb

theorem SpSt.forward_takes {sp : SpSt} {c : Nat} {e : Land} (best : Option Land) (h : sp.Forwards c e) :
    sp.forward c best e = match best with
      | none => some e
      | some b => if b.rank < e.rank then some e else some b := by
  have hb : (e.dest == .ac c && decide (e.rank < 2) && e.iss + 1 == sp.iss) = true := by simpa [SpSt.Forwards, and_assoc] using h
  unfold SpSt.forward
  rw [if_pos hb]
  cases best <;> rfl

theorem SpSt.macView_none {sp : SpSt} {c : Nat} (h : ∀ e ∈ sp.pend, ¬ sp.Forwards c e) : sp.macView c = sp.acc c := by
  have key : ∀ l : List Land, (∀ e ∈ l, ¬ sp.Forwards c e) → l.foldl (sp.forward c) none = none := by
    intro l
    induction l with
    | nil => exact fun _ => rfl
    | cons e l ih =>
      intro hl
      rw [List.foldl_cons, SpSt.forward_skips _ (hl e (List.mem_cons_self ..))]
      exact ih fun x hx => hl x (List.mem_cons_of_mem _ hx)
  rw [SpSt.macView_eq, key _ h]
  rfl

section
variable {sp : SpSt} {c : Nat} {l : Land} (hf : sp.Forwards c l)
include hf

/-- The highest result is taken over a lower one found so far. -/
theorem SpSt.forward_highest {best : Option Land} (hb : ∀ b, best = some b → b = l ∨ b.rank < l.rank) : sp.forward c best l = some l := by
  rw [SpSt.forward_takes _ hf]
  cases best with
  | none => rfl
  | some b =>
    rcases hb b rfl with rfl | hlt
    · exact if_neg (lt_irrefl _)
    · exact if_pos hlt

omit hf in
/-- Once found it stays. -/
theorem SpSt.forward_stays {e : Land} (he : sp.Forwards c e → e = l ∨ e.rank < l.rank) : sp.forward c (some l) e = some l := by
  by_cases hfe : sp.Forwards c e
  · rw [SpSt.forward_takes _ hfe]
    rcases he hfe with rfl | hlt
    · exact if_neg (lt_irrefl _)
    · exact if_neg (by omega)
  · exact SpSt.forward_skips _ hfe

omit hf in
/-- Nothing above it is ever found. -/
theorem SpSt.forward_below {best : Option Land} {e : Land} (he : sp.Forwards c e → e = l ∨ e.rank < l.rank)
    (hb : ∀ b, best = some b → b = l ∨ b.rank < l.rank) : ∀ b, sp.forward c best e = some b → b = l ∨ b.rank < l.rank := by
  by_cases hfe : sp.Forwards c e
  · rw [SpSt.forward_takes _ hfe]
    cases best with
    | none => exact fun b h => Option.some.inj h ▸ he hfe
    | some b' =>
      dsimp only
      split
      · exact fun b h => Option.some.inj h ▸ he hfe
      · exact fun b h => Option.some.inj h ▸ hb b' rfl
  · rw [SpSt.forward_skips _ hfe]
    exact hb

theorem SpSt.foldl_forward (L : List Land) : ∀ best : Option Land, (∀ e ∈ L, sp.Forwards c e → e = l ∨ e.rank < l.rank) →
    (∀ b, best = some b → b = l ∨ b.rank < l.rank) → (l ∈ L ∨ best = some l) → L.foldl (sp.forward c) best = some l := by
  induction L with
  | nil => exact fun best _ _ h => h.resolve_left (List.not_mem_nil)
  | cons e L ih =>
    intro best hL hb h
    have he := hL e (List.mem_cons_self ..)
    refine ih _ (fun x hx => hL x (List.mem_cons_of_mem _ hx)) (SpSt.forward_below he hb) ?_
    rcases h with h | rfl
    · rcases List.mem_cons.mp h with rfl | h
      · exact .inr (SpSt.forward_highest hf hb)
      · exact .inl h
    · exact .inr (SpSt.forward_stays he)

/-- Of the results forwarded the one of the highest slot is seen. -/
theorem SpSt.macView_best (hl : l ∈ sp.pend) (hw : ∀ e ∈ sp.pend, sp.Forwards c e → e = l ∨ e.rank < l.rank) : sp.macView c = l.val := by
  rw [SpSt.macView_eq, SpSt.foldl_forward hf sp.pend none hw (fun b hb => by cases hb) (.inl hl)]
  rfl

end

/-- Settles O6, by what each multiply and a load send (`done_withM`) and by what `macView` finds among the results in flight. -/
theorem multiplySlots : Obligations.MultiplySlots := by
  refine ⟨fun s k second m o p r hp hr => ?_, fun sp c => ⟨SpSt.macView_none, fun l hl hd hrank hiss hw =>
    SpSt.macView_best ⟨hd, hrank, hiss⟩ hl fun e he ⟨hd', hr', hi'⟩ => hw e he hd' hr' hi'⟩⟩
  have hprod : p = mProduct (s.atIssue k) m := hp
  rw [hprod, hr]
  exact ⟨mac_sends, msu_sends, mpy_sends, mpyn_sends, ld_sends rfl⟩

end Sys2Proof.Machine
end

section
/-!
PROOF. Loops (R79, R80, R81): how one is taken and what the end of its body brings, and the statements O12 and O13.
-/
namespace Sys2Proof.Machine

/-! ### What the loops are read from (R80, R87, R109) -/

/-- Two processors whose special registers but SPSTAT agree, in a handler or out of it alike, have the same loops. -/
def SpSt.SameLoops (a b : SpSt) : Prop := (∀ c, c ≠ rSPSTAT → b.sreg c = a.sreg c) ∧ b.inHandler = a.inHandler

section
variable {a b : SpSt} (h : a.SameLoops b)
include h

theorem SpSt.SameLoops.rrb : b.rrb = a.rrb := h.1 _ (by decide)

theorem SpSt.SameLoops.start (v : Nat) : b.start v = a.start v := by rw [SpSt.start, SpSt.start, h.1 _ (by decide)]
theorem SpSt.SameLoops.stop (v : Nat) : b.stop v = a.stop v := by rw [SpSt.stop, SpSt.stop, h.1 _ (by decide)]
theorem SpSt.SameLoops.rot (v : Nat) : b.rot v = a.rot v := by rw [SpSt.rot, SpSt.rot, h.1 _ (by decide)]
theorem SpSt.SameLoops.lc {v : Nat} (hv : v < 2) : b.lc v = a.lc v := h.1 _ (rLC_ne v hv)

theorem SpSt.SameLoops.suspended (v : Nat) : b.suspended v = a.suspended v := by
  rw [SpSt.suspended, SpSt.suspended, h.2, h.1 _ (by decide)]

theorem SpSt.SameLoops.holds (pred : Nat) : b.holds pred = a.holds pred := by
  have hf : ∀ i, b.fl i = a.fl i := fun i => by rw [SpSt.fl, SpSt.fl, h.1 _ (by decide)]
  rw [SpSt.holds, SpSt.holds, hf]

theorem SpSt.SameLoops.levels : b.levels = a.levels := by
  refine List.filter_congr fun v hv => ?_
  have hv : v < 2 := by simp at hv; omega
  rw [h.lc hv, h.suspended]

end

/-- Between issue and its control instruction a bundle leaves the loops as they are (R111). -/
theorem Stage.sameLoops_spSent (s : Stage) (k : Nat) (sp : SpSt) (b : Bundle) : sp.SameLoops (s.spSent k sp b) := by
  refine ⟨fun c => s.sreg_spSent k sp b, ?_⟩
  obtain ⟨_, _, _, _, _, _, h⟩ := s.spSent_frame k sp b
  rw [h]

theorem SpSt.mem_levels {sp : SpSt} {v : Nat} : v ∈ sp.levels ↔ v < 2 ∧ sp.lc v ≠ 0 ∧ sp.suspended v = false := by
  have h2 : v ∈ [1, 0] ↔ v < 2 := by simp; omega
  rw [SpSt.levels, List.mem_filter, h2]
  simp

/-! ### The end test (R80) -/

/-- Where no active level ends at `pc`, the bundle in sequence follows. -/
theorem SpSt.endTest_passes {sp : SpSt} (bank : Nat) {pc : Nat} (h : ∀ v ∈ sp.levels, pc ≠ sp.stop v) : sp.endTest bank pc = (pc + 1, sp) := by
  unfold SpSt.endTest
  split
  · rfl
  · rename_i v rest hl
    exact if_pos (h v (by rw [hl]; exact List.mem_cons_self ..))

theorem SpSt.lc_setSreg_same (sp : SpSt) {v n : Nat} (hv : v < 2) (hn : n < 65536) : (sp.setSreg (rLC v) n).lc v = n := by
  have hmask : srMask (rLC v) = 2 ^ 16 - 1 := by interval_cases v <;> rfl
  rw [SpSt.lc, SpSt.sreg_setSreg_same, hmask, land_ones hn]

/-- The end of an iteration counts LC down and changes RRB with a rotating loop; START and the other level stay. -/
theorem SpSt.lc_iterate (sp : SpSt) {v : Nat} (hv : v < 2) : (sp.iterate v).lc v = sp.lc v - 1 := by
  have hlt := sp.lc_lt hv
  unfold SpSt.iterate
  dsimp only
  split
  · exact (SpSt.sreg_setSreg_other _ _ (by unfold rLC rRRB; omega)).trans (sp.lc_setSreg_same hv (by omega))
  · exact sp.lc_setSreg_same hv (by omega)

theorem SpSt.rrb_iterate (sp : SpSt) {v : Nat} (hv : v < 2) : (sp.iterate v).rrb = if sp.rot v then (sp.rrb + 1) % 16 else sp.rrb := by
  have hrot : (sp.setSreg (rLC v) (sp.lc v - 1)).rot v = sp.rot v := by
    rw [SpSt.rot, SpSt.rot, SpSt.sreg_setSreg_other _ _ (by unfold rLC rLE; omega)]
  have hrrb : (sp.setSreg (rLC v) (sp.lc v - 1)).rrb = sp.rrb := SpSt.sreg_setSreg_other _ _ (by unfold rLC rRRB; omega)
  unfold SpSt.iterate
  dsimp only
  rw [hrot]
  split
  · rw [SpSt.rrb, SpSt.sreg_setSreg_same, hrrb]
    exact land_ones (w := 4) (Nat.mod_lt _ (by norm_num))
  · exact hrrb

theorem SpSt.start_iterate (sp : SpSt) {v : Nat} (hv : v < 2) : (sp.iterate v).start v = sp.start v := by
  have h1 : ∀ n, (sp.setSreg (rLC v) n).start v = sp.start v := fun n => by
    rw [SpSt.start, SpSt.start, SpSt.sreg_setSreg_other _ _ (by unfold rLC rLS; omega)]
  unfold SpSt.iterate
  dsimp only
  split
  · rw [SpSt.start, SpSt.sreg_setSreg_other _ _ (by decide)]
    exact h1 _
  · exact h1 _

/-- At the end of the innermost level, while its count is not spent, START follows. -/
theorem SpSt.endTest_iterates {sp : SpSt} (bank : Nat) {v : Nat} {l : List Nat} (hl : sp.levels = v :: l) (hlc : 1 < sp.lc v) :
    (sp.endTest bank (sp.stop v)).1 = sp.start v ∧ (sp.endTest bank (sp.stop v)).2.lc v = sp.lc v - 1
      ∧ (sp.endTest bank (sp.stop v)).2.rrb = if sp.rot v then (sp.rrb + 1) % 16 else sp.rrb := by
  have hv : v < 2 := sp.levels_lt (by rw [hl]; exact List.mem_cons_self ..)
  obtain ⟨ca, sv, cp, hc⟩ := (sp.iterate v).cacheEnd_frame bank v (sp.stop v)
  have hlc' : ((sp.iterate v).cacheEnd bank v (sp.stop v)).lc v = sp.lc v - 1 := by rw [hc]; exact sp.lc_iterate hv
  have hend : sp.endTest bank (sp.stop v)
      = (((sp.iterate v).cacheEnd bank v (sp.stop v)).start v, (sp.iterate v).cacheEnd bank v (sp.stop v)) := by
    unfold SpSt.endTest
    rw [hl]
    dsimp only
    rw [if_neg (by simp), if_pos (by omega)]
  rw [hend]
  refine ⟨?_, hlc', ?_⟩
  · rw [hc]; exact sp.start_iterate hv
  · rw [hc]; exact sp.rrb_iterate hv

/-- A bundle that is no delay bundle is followed as the end test says, up to the end of the program. -/
theorem SpSt.advance_none (sp : SpSt) (bank pc : Nat) (h : (sp.endTest bank pc).1 ≤ 0x7FF) :
    sp.advance bank pc none = { (sp.endTest bank pc).2 with pc := (sp.endTest bank pc).1 } :=
  if_neg (Nat.not_lt.mpr h)

/-! ### Bundles without a control instruction (O13) -/

section
variable {c : Instr} {s : State} {k : Nat} {b : Bundle} (hc : slotBundle c = some (k, b)) (h : Issues s k b)
  (hdone : ((s.atIssue k).holds b.t.pred && b.isDone) = false) (hctl : b.t.op.isControl = false)

include hctl in
theorem State.sameLoops_spCounted : (s.atIssue k).SameLoops (s.stage.spCounted k (s.atIssue k) b) := by
  have hs := s.stage.sameLoops_spSent k (s.atIssue k) b
  rw [Stage.spCounted, Stage.spSteered_none _ _ _ hctl]
  exact hs

include hc h hdone hctl

theorem iteration_ends (hdelay : (s.atIssue k).delay = none) {v : Nat} {l : List Nat} (hl : (s.atIssue k).levels = v :: l)
    (hpc : (s.atIssue k).pc = (s.atIssue k).stop v) (hlc : 1 < (s.atIssue k).lc v) :
    Done c s (fun t => (t.sp k).lc v + 1 = (s.atIssue k).lc v ∧ (t.sp k).pc = (s.atIssue k).start v
      ∧ (t.sp k).rrb = (if (s.atIssue k).rot v then ((s.atIssue k).rrb + 1) % 16 else (s.atIssue k).rrb)) := by
  have hsame := State.sameLoops_spCounted (s := s) (k := k) hctl
  have hv : v < 2 := (s.atIssue k).levels_lt (by rw [hl]; exact List.mem_cons_self ..)
  refine done_sp (P := fun u => u.lc v + 1 = _ ∧ u.pc = _ ∧ u.rrb = _) hc h ?_
  rw [s.stage.spNext_advance k hdone, hdelay]
  set u := s.stage.spCounted k (s.atIssue k) b
  obtain ⟨hn, hlc', hrrb⟩ := u.endTest_iterates (s.stage.spBank k) (hsame.levels.trans hl) (by rw [hsame.lc hv]; exact hlc)
  rw [hsame.stop, ← hpc] at hn hlc' hrrb
  have hlt := u.start_lt v
  rw [u.advance_none _ _ (by omega)]
  rw [hsame.lc hv] at hlc'
  rw [hsame.start] at hn
  rw [hsame.rot, hsame.rrb] at hrrb
  exact ⟨(congrArg (· + 1) hlc').trans (Nat.sub_add_cancel (by omega)), hn, hrrb⟩

theorem sequence_follows (hdelay : (s.atIssue k).delay = none) (hl : ∀ v ∈ (s.atIssue k).levels, (s.atIssue k).pc ≠ (s.atIssue k).stop v)
    (hpc : (s.atIssue k).pc < 0x7FF) :
    Done c s (fun t => (t.sp k).pc = (s.atIssue k).pc + 1 ∧ (t.sp k).lc 0 = (s.atIssue k).lc 0 ∧ (t.sp k).lc 1 = (s.atIssue k).lc 1) := by
  have hsame := State.sameLoops_spCounted (s := s) (k := k) hctl
  refine done_sp (P := fun u => u.pc = _ ∧ u.lc 0 = _ ∧ u.lc 1 = _) hc h ?_
  rw [s.stage.spNext_advance k hdone, hdelay]
  set u := s.stage.spCounted k (s.atIssue k) b
  have hend : u.endTest (s.stage.spBank k) (s.atIssue k).pc = ((s.atIssue k).pc + 1, u) :=
    u.endTest_passes _ fun v hv => by rw [hsame.stop]; exact hl v (hsame.levels ▸ hv)
  rw [u.advance_none _ _ (by rw [hend]; exact hpc), hend]
  exact ⟨rfl, hsame.lc (by decide), hsame.lc (by decide)⟩

end

/-- Settles O13, by the end test (`SpSt.endTest_iterates`, `SpSt.endTest_passes`) on loops that the slots leave as they were at issue. -/
theorem iterationsEnd : Obligations.IterationsEnd := fun _ _ _ _ hc h hdone hctl hdelay =>
  ⟨fun _ _ hl hpc hlc => iteration_ends hc h hdone hctl hdelay hl hpc hlc, fun hl hpc => sequence_follows hc h hdone hctl hdelay hl hpc⟩

/-! ### A LOOP takes a level (R79) -/

/-- The level that a LOOP takes. -/
def SpSt.freeLevel (sp : SpSt) : Nat := if sp.lc 0 = 0 then 0 else 1

theorem SpSt.freeLevel_lt (sp : SpSt) : sp.freeLevel < 2 := by
  unfold SpSt.freeLevel
  split <;> decide

/-- The loop registers once level `v` is taken. -/
def SpSt.takeLevel (sp : SpSt) (v pc stop count : Nat) (rot : Bool) : SpSt :=
  let sp := sp.setSreg rLS (setBits (sp.sreg rLS) (16 * v + 10) (16 * v) (pc + 2))
  let sp := sp.setSreg rLE (setBit (setBits (sp.sreg rLE) (16 * v + 10) (16 * v) stop) (16 * v + 15) rot)
  let sp := sp.setSreg (rLC v) count
  if sp.inHandler then sp.setSreg rISTAT (setBit (sp.sreg rISTAT) (13 + v) false) else sp

/-- A LOOP takes its level, prepares the repeat cache, and goes on at the body, or with a count of 0 after it. -/
theorem Stage.takeLoop_eq (s : Stage) (k bank : Nat) (sp : SpSt) (pc stop count : Nat) (rot : Bool) : ∃ sv cp,
    s.takeLoop k bank sp pc stop count rot
      = (if count = 0 then stop + 1 else pc + 2, { sp.takeLevel sp.freeLevel pc stop count rot with serve := sv, capture := cp }) := by
  unfold Stage.takeLoop
  extract_lets v a b c d
  change ∃ sv cp, _ = (_, { d with serve := sv, capture := cp })
  split
  · exact ⟨_, _, rfl⟩
  · split
    · exact ⟨_, _, rfl⟩
    · split
      · exact ⟨_, _, rfl⟩
      · exact ⟨_, _, rfl⟩

section
variable (sp : SpSt) {v : Nat} (hv : v < 2) (pc stop count : Nat) (rot : Bool)

/-- The registers that a taken level writes. -/
theorem SpSt.sreg_takeLevel (c : Nat) (hc : c ≠ rISTAT) : (sp.takeLevel v pc stop count rot).sreg c
    = ((((sp.setSreg rLS (setBits (sp.sreg rLS) (16 * v + 10) (16 * v) (pc + 2))).setSreg rLE
        (setBit (setBits (sp.sreg rLE) (16 * v + 10) (16 * v) stop) (16 * v + 15) rot)).setSreg (rLC v) count)).sreg c := by
  have hle : (sp.setSreg rLS (setBits (sp.sreg rLS) (16 * v + 10) (16 * v) (pc + 2))).sreg rLE = sp.sreg rLE :=
    SpSt.sreg_setSreg_other _ _ (by decide)
  unfold SpSt.takeLevel
  dsimp only
  rw [hle]
  split
  · exact SpSt.sreg_setSreg_other _ _ hc
  · rfl

include hv

theorem SpSt.sreg_takeLevel_LS : (sp.takeLevel v pc stop count rot).sreg rLS
    = (sp.setSreg rLS (setBits (sp.sreg rLS) (16 * v + 10) (16 * v) (pc + 2))).sreg rLS := by
  rw [SpSt.sreg_takeLevel _ _ _ _ _ _ (by decide), SpSt.sreg_setSreg_other _ _ (by unfold rLC rLS; omega), SpSt.sreg_setSreg_other _ _ (by decide)]

theorem SpSt.sreg_takeLevel_LE : (sp.takeLevel v pc stop count rot).sreg rLE
    = Nat.land (setBit (setBits (sp.sreg rLE) (16 * v + 10) (16 * v) stop) (16 * v + 15) rot) (srMask rLE) := by
  rw [SpSt.sreg_takeLevel _ _ _ _ _ _ (by decide), SpSt.sreg_setSreg_other _ _ (by unfold rLC rLE; omega), SpSt.sreg_setSreg_same]

theorem SpSt.lc_takeLevel_same (hcount : count < 65536) : (sp.takeLevel v pc stop count rot).lc v = count := by
  have h := SpSt.lc_setSreg_same ((sp.setSreg rLS (setBits (sp.sreg rLS) (16 * v + 10) (16 * v) (pc + 2))).setSreg rLE
    (setBit (setBits (sp.sreg rLE) (16 * v + 10) (16 * v) stop) (16 * v + 15) rot)) hv hcount
  rw [SpSt.lc] at h ⊢
  rw [SpSt.sreg_takeLevel _ _ _ _ _ _ (by unfold rLC rISTAT; omega), h]

omit hv in
theorem SpSt.lc_takeLevel_other {u : Nat} (hu : u < 2) (hne : u ≠ v) : (sp.takeLevel v pc stop count rot).lc u = sp.lc u := by
  rw [SpSt.lc, SpSt.sreg_takeLevel _ _ _ _ _ _ (by unfold rLC rISTAT; omega), SpSt.sreg_setSreg_other _ _ (by unfold rLC; omega),
    SpSt.sreg_setSreg_other _ _ (by unfold rLC rLE; omega), SpSt.sreg_setSreg_other _ _ (by unfold rLC rLS; omega), SpSt.lc]

/-- LS and LE hold the address and the rotate bit of either level. -/
theorem levelMask : bits (srMask rLS) (16 * v + 10) (16 * v) = 2 ^ (16 * v + 10 + 1 - 16 * v) - 1
    ∧ bits (srMask rLE) (16 * v + 10) (16 * v) = 2 ^ (16 * v + 10 + 1 - 16 * v) - 1 ∧ bit (srMask rLE) (16 * v + 15) = true := by
  interval_cases v <;> decide

theorem SpSt.start_takeLevel (hpc : pc + 2 < 2048) : (sp.takeLevel v pc stop count rot).start v = pc + 2 := by
  rw [SpSt.start, SpSt.sreg_takeLevel_LS sp hv, SpSt.bits_setSreg _ _ (levelMask hv).1, bits_setBits_same _ _ _ _ (by omega),
    show 16 * v + 10 + 1 - 16 * v = 11 by omega]
  exact Nat.mod_eq_of_lt hpc

theorem SpSt.stop_takeLevel_same (hstop : stop < 2048) : (sp.takeLevel v pc stop count rot).stop v = stop := by
  rw [SpSt.stop, SpSt.sreg_takeLevel_LE sp hv, bits_land _ (levelMask hv).2.1, setBit, bits_setBits_below _ _ _ _ _ _ (by omega) (by omega) (by omega),
    bits_setBits_same _ _ _ _ (by omega), show 16 * v + 10 + 1 - 16 * v = 11 by omega]
  exact Nat.mod_eq_of_lt hstop

theorem SpSt.rot_takeLevel : (sp.takeLevel v pc stop count rot).rot v = rot := by
  rw [SpSt.rot, SpSt.sreg_takeLevel_LE sp hv, bit_land, (levelMask hv).2.2, Bool.and_true, bit_setBit_same]

theorem SpSt.stop_takeLevel_other {u : Nat} (hu : u < 2) (hne : u ≠ v) : (sp.takeLevel v pc stop count rot).stop u = sp.stop u := by
  rw [SpSt.stop, SpSt.sreg_takeLevel_LE sp hv, bits_land _ (levelMask hu).2.1, setBit, SpSt.stop]
  rcases Nat.lt_or_gt_of_ne hne with h | h
  · rw [bits_setBits_below _ _ _ _ _ _ (by omega) (by omega) (by omega), bits_setBits_below _ _ _ _ _ _ (by omega) (by omega) (by omega)]
  · rw [bits_setBits_above _ _ _ _ _ _ (by omega) (by omega), bits_setBits_above _ _ _ _ _ _ (by omega) (by omega)]

/-- A level suspended in a handler stays so, but for the one that is taken (R87). -/
theorem SpSt.suspended_takeLevel_other {u : Nat} (hu : u < 2) (hne : u ≠ v) : (sp.takeLevel v pc stop count rot).suspended u = sp.suspended u := by
  have hmask : bit (srMask rISTAT) (13 + u) = true := by interval_cases u <;> rfl
  unfold SpSt.takeLevel SpSt.suspended
  dsimp only
  split
  · rename_i hh
    simp only [SpSt.setSreg_inHandler] at hh ⊢
    rw [hh, SpSt.bit_setSreg _ _ hmask, bit_setBit_other _ _ (by omega), SpSt.sreg_setSreg_other _ _ (by unfold rLC rISTAT; omega),
      SpSt.sreg_setSreg_other _ _ (by decide), SpSt.sreg_setSreg_other _ _ (by decide)]
  · rename_i hh
    simp only [SpSt.setSreg_inHandler] at hh ⊢
    rw [Bool.not_eq_true] at hh
    rw [hh, Bool.false_and, Bool.false_and]

/-- Where neither the taken level nor any other active one ends at `pc`, none does afterwards. -/
theorem SpSt.stop_ne_takeLevel (hstop : stop < 2048) (hpc : pc ≠ stop) (h : ∀ u ∈ sp.levels, pc ≠ sp.stop u) (u : Nat)
    (hu : u ∈ (sp.takeLevel v pc stop count rot).levels) : pc ≠ (sp.takeLevel v pc stop count rot).stop u := by
  obtain ⟨hu2, hlc, hsus⟩ := SpSt.mem_levels.mp hu
  by_cases hne : u = v
  · rw [hne, SpSt.stop_takeLevel_same sp hv _ _ _ _ hstop]; exact hpc
  · rw [SpSt.lc_takeLevel_other sp _ _ _ _ hu2 hne] at hlc
    rw [SpSt.suspended_takeLevel_other sp hv _ _ _ _ hu2 hne] at hsus
    rw [SpSt.stop_takeLevel_other sp hv _ _ _ _ hu2 hne]
    exact h u (SpSt.mem_levels.mpr ⟨hu2, hlc, hsus⟩)

end

/-! ### LOOP and LOOPD (O12) -/

/-- Where a bundle with a control instruction that must not end a loop body raises no fault, no active level ends there (R81). -/
theorem SpSt.stop_ne_of_noFault {sp : SpSt} {pc : Nat} {b : Bundle} (h : sp.bundleFault pc b = none) (hb : b.t.op.endBarred = true) :
    ∀ v ∈ sp.levels, pc ≠ sp.stop v := by
  intro v hv he
  unfold SpSt.bundleFault at h
  split at h
  · cases h
  · split at h
    · cases h
    · rename_i hn
      exact hn (by rw [hb, Bool.true_and]; exact List.any_eq_true.mpr ⟨v, hv, by simp [he]⟩)

/-- What a taken level leaves: its count, its first and last bundle, its rotate choice, and what follows the delay bundle. -/
def SpSt.Looping (u : SpSt) (v pc stop count : Nat) (rot : Bool) : Prop :=
  u.lc v = count ∧ u.start v = pc + 2 ∧ u.stop v = stop ∧ u.rot v = rot ∧ u.delay = some (.jump (if count = 0 then stop + 1 else pc + 2))

/-- A bundle whose control instruction takes a level leaves it taken. -/
theorem level_taken {c : Instr} {s : State} {k : Nat} {b : Bundle} {stop count : Nat} {rot : Bool} (hc : slotBundle c = some (k, b))
    (h : Issues s k b) (hflow : Flows s k b) (hctl : b.t.op.isControl = true) (hbar : b.t.op.endBarred = true)
    (hbelow : (s.atIssue k).pc + 2 ≤ stop) (hstop : stop < 2048) (hcount : count < 65536)
    (hsteer : s.stage.spSteered k (s.atIssue k) b
      = ((s.stage.takeLoop k (s.stage.spBank k) (s.stage.spSent k (s.atIssue k) b) (s.atIssue k).pc stop count rot).2,
        some (.jump (s.stage.takeLoop k (s.stage.spBank k) (s.stage.spSent k (s.atIssue k) b) (s.atIssue k).pc stop count rot).1))) :
    Done c s (fun t => (t.sp k).Looping (s.atIssue k).freeLevel (s.atIssue k).pc stop count rot) := by
  set sp := s.atIssue k
  have hsame := s.stage.sameLoops_spSent k sp b
  have hdelay : sp.delay = none := by
    have hd := (SpSt.legal_of_noFault h.2.2.2.1).2.1
    rw [hctl, Bool.and_true] at hd
    exact Option.not_isSome_iff_eq_none.mp (by rw [hd]; exact Bool.false_ne_true)
  obtain ⟨sv, cp, htake⟩ := s.stage.takeLoop_eq k (s.stage.spBank k) (s.stage.spSent k sp b) sp.pc stop count rot
  have hfree : (s.stage.spSent k sp b).freeLevel = sp.freeLevel := by rw [SpSt.freeLevel, SpSt.freeLevel, hsame.lc (by decide)]
  rw [htake, hfree] at hsteer
  have hv := sp.freeLevel_lt
  refine done_sp (P := fun u => u.Looping _ _ _ _ _) hc h ?_
  rw [s.stage.spNext_advance k hflow.1, hdelay]
  generalize hq : (s.stage.spSent k sp b).takeLevel sp.freeLevel sp.pc stop count rot = q at hsteer
  have hcounted : s.stage.spCounted k sp b
      = { q with serve := sv, capture := cp, iss := sp.iss + 1, delay := some (.jump (if count = 0 then stop + 1 else sp.pc + 2)) } := by
    rw [Stage.spCounted, hsteer]
  have hend : (s.stage.spCounted k sp b).endTest (s.stage.spBank k) sp.pc = (sp.pc + 1, s.stage.spCounted k sp b) := by
    refine SpSt.endTest_passes _ ?_
    rw [hcounted, ← hq]
    exact SpSt.stop_ne_takeLevel _ hv _ _ _ _ hstop (by omega) fun u hu => by
      rw [hsame.stop]
      exact SpSt.stop_ne_of_noFault h.2.2.2.1 hbar u (hsame.levels ▸ hu)
  rw [SpSt.advance_none _ _ _ (by rw [hend]; dsimp only; omega), hend, hcounted]
  refine ⟨?_, ?_, ?_, ?_, rfl⟩ <;> rw [← hq]
  · exact SpSt.lc_takeLevel_same _ hv _ _ _ _ hcount
  · exact SpSt.start_takeLevel _ hv _ _ _ _ (by omega)
  · exact SpSt.stop_takeLevel_same _ hv _ _ _ _ hstop
  · exact SpSt.rot_takeLevel _ hv _ _ _ _

section
variable {s : State} {k pred stop : Nat} {rot : Bool} {o : Bundle}

/-- Where the predicate holds at issue, the control instruction acts. -/
theorem State.holds_spSent (s : State) (k pred : Nat) (b : Bundle) :
    (s.stage.spSent k (s.atIssue k) b).holds pred = (s.atIssue k).holds pred := (s.stage.sameLoops_spSent k _ b).holds pred

/-- A bundle without a fault that names an end address names one after its delay bundle (R79). -/
theorem SpSt.le_of_endBelow {pc stop : Nat} (h : decide (stop < pc + 2) = false) : pc + 2 ≤ stop := Nat.not_lt.mp (of_decide_eq_false h)

theorem loop_takes {count : Nat} (h : Runs s k (o.withT pred (.loop rot stop count)) pred) : Done (.loop k pred rot stop count o) s
    (fun t => (t.sp k).Looping (s.atIssue k).freeLevel (s.atIssue k).pc stop count rot) := by
  obtain ⟨hi, hflow, hp⟩ := h
  obtain ⟨hlegal, -, hbelow⟩ := SpSt.legal_of_noFault hi.2.2.2.1
  have hfields : stop < 2048 ∧ count < 1024 := by
    simp only [Bundle.legal, Bundle.withT, TSlot.legal, TOp.fieldsLegal, Bool.and_eq_true, decide_eq_true_eq] at hlegal
    exact hlegal.2.2
  refine level_taken rfl hi hflow rfl rfl (SpSt.le_of_endBelow hbelow) hfields.1 (by omega) ?_
  exact if_pos ((s.holds_spSent k pred _).trans hp)

/-- A D register reads the same once the slots have issued (R111). -/
theorem Stage.dReg_spSent (s : Stage) (k : Nat) (sp : SpSt) (b : Bundle) (d : Nat) : (s.spSent k sp b).dReg d = sp.dReg d := by
  have hd : (s.spSent k sp b).d = sp.d := by
    obtain ⟨_, _, _, _, _, _, h⟩ := s.spSent_frame k sp b
    rw [h]
  rw [SpSt.dReg, SpSt.dReg, SpSt.phys, SpSt.phys, (s.sameLoops_spSent k sp b).rrb, hd]

theorem loopd_takes {d : Nat} (h : Runs s k (o.withT pred (.loopd rot stop d)) pred) : Done (.loopd k pred rot stop d o) s
    (fun t => (t.sp k).Looping (s.atIssue k).freeLevel (s.atIssue k).pc stop (((s.atIssue k).dReg d).toNat % 65536) rot) := by
  obtain ⟨hi, hflow, hp⟩ := h
  obtain ⟨hlegal, -, hbelow⟩ := SpSt.legal_of_noFault hi.2.2.2.1
  have hfields : stop < 2048 ∧ d < 32 := by
    simp only [Bundle.legal, Bundle.withT, TSlot.legal, TOp.fieldsLegal, Bool.and_eq_true, decide_eq_true_eq] at hlegal
    exact hlegal.2.2
  refine level_taken rfl hi hflow rfl rfl (SpSt.le_of_endBelow hbelow) hfields.1 (Nat.mod_lt _ (by norm_num)) ?_
  rw [← s.stage.dReg_spSent k (s.atIssue k) (o.withT pred (.loopd rot stop d)) d]
  exact if_pos ((s.holds_spSent k pred _).trans hp)

end

/-- The fault that the control instruction of a bundle raises by itself (R79, R83). -/
def SpSt.ownFault (sp : SpSt) (op : TOp) : Option Nat :=
  match op with
  | .call _ => if 4 ≤ sp.rstack.length then some cRS_OVER else none
  | .ret => if sp.rstack = [] then some cRS_UNDER else none
  | .loop _ _ _ | .loopd _ _ _ => if sp.lc 0 ≠ 0 ∧ sp.lc 1 ≠ 0 then some cLOOP_NEST else none
  | .iret => if sp.inHandler then none else some cIRET_OUT
  | _ => none

/-- A legal bundle that ends no active level and whose predicate is true has no other fault than that. -/
theorem SpSt.bundleFault_own {sp : SpSt} {pc : Nat} {b : Bundle} (hlegal : b.legal = true) (hdelay : sp.delay = none)
    (hbelow : b.t.op.endBelow pc = false) (hend : ∀ v ∈ sp.levels, sp.stop v ≠ pc) (hp : sp.holds b.t.pred = true) :
    sp.bundleFault pc b = sp.ownFault b.t.op := by
  have hany : (sp.levels.any fun v => sp.stop v == pc) = false := by simpa [List.any_eq_false] using hend
  unfold SpSt.bundleFault
  rw [hlegal, hdelay, hbelow, hany, hp, if_neg (by simp), if_neg (by simp), if_neg (by simp)]
  rfl

/-- Settles O12, by the registers of a taken level (`level_taken`) and the faults of a bundle (`SpSt.bundleFault_own`). -/
theorem loopsTakeALevel : Obligations.LoopsTakeALevel := by
  refine ⟨fun _ _ _ _ _ _ _ _ _ hv => ?_, fun sp pc b hb hlegal hdelay hbelow hend hp h0 h1 => ?_⟩
  · subst hv
    exact ⟨loop_takes, loopd_takes⟩
  · rw [SpSt.bundleFault_own hlegal hdelay hbelow hend hp]
    rcases hb with ⟨rot, stop, count, hop⟩ | ⟨rot, stop, d, hop⟩ <;> rw [hop] <;> exact if_pos ⟨h0, h1⟩

end Sys2Proof.Machine
end

section
/-!
PROOF. The end of a sample's code, waits and NOPs (R89, R93, R96, R98, R119, R123), and the statement O14.
-/
namespace Sys2Proof.Machine

/-! ### SDONE (R89, R98) -/

theorem SpSt.finish_run (sp : SpSt) : sp.finish.run = if sp.run = .done then .done else .draining := by
  obtain ⟨_, _, _, _, h⟩ := sp.lands_landAll
  unfold SpSt.finish
  dsimp only
  rw [h]
  split <;> rfl

theorem SpSt.finish_inHandler (sp : SpSt) : sp.finish.inHandler = false := by
  unfold SpSt.finish
  dsimp only
  split
  · rfl
  · rename_i h
    exact Bool.eq_false_of_not_eq_true h

/-- A bundle without a control instruction leaves the processor's run state to SDONE. -/
theorem Stage.run_spCounted (s : Stage) (k : Nat) (sp : SpSt) {b : Bundle} (h : b.t.op.isControl = false) : (s.spCounted k sp b).run = sp.run := by
  obtain ⟨_, _, _, _, _, _, hs⟩ := s.spSent_frame k sp b
  rw [Stage.spCounted, s.spSteered_none k sp h, hs]

theorem State.atIssue_run (s : State) (k : Nat) : (s.atIssue k).run = (s.stage.sp k).run := by
  obtain ⟨_, _, _, _, h⟩ := (s.stage.sp k).lands_landNow
  rw [State.atIssue, h]

theorem sdone_ends {s : State} {k pred : Nat} {o : Bundle} (h : Issues s k (o.withT pred .sdone)) (hp : (s.atIssue k).holds pred = true) :
    Done (.sdone k pred o) s (fun t => (t.sp k).run = (if (s.stage.sp k).run = .done then .done else .draining)
      ∧ (t.sp k).inHandler = false ∧ (t.sp k).delay = none) := by
  refine done_sp (P := fun u => u.run = _ ∧ u.inHandler = false ∧ u.delay = none) rfl h ?_
  have hnext : s.stage.spNext k (s.atIssue k) (o.withT pred .sdone) = (s.stage.spCounted k (s.atIssue k) (o.withT pred .sdone)).finish :=
    if_pos (by rw [Bundle.isDone]; exact (Bool.and_true _).trans hp)
  rw [hnext]
  refine ⟨?_, SpSt.finish_inHandler _, rfl⟩
  rw [SpSt.finish_run, s.stage.run_spCounted k _ rfl, State.atIssue_run]

/-! ### Waits and NOPs (R93, R96) -/

/-- A bundle without a control instruction counts one bundle, and no delay bundle follows. -/
theorem done_counts {c : Instr} {s : State} {k pred : Nat} {b : Bundle} (hc : slotBundle c = some (k, b)) (h : Runs s k b pred)
    (hctl : b.t.op.isControl = false) : Done c s (fun t => (t.sp k).iss = (s.stage.sp k).iss + 1 ∧ (t.sp k).delay = none) := by
  obtain ⟨hi, ⟨hdone, hiret⟩, -⟩ := h
  refine done_sp (P := fun u => u.iss = _ ∧ u.delay = none) hc hi ⟨?_, ?_⟩
  · rw [s.stage.iss_spNext k hdone hiret, State.atIssue_iss]
  · rw [s.stage.delay_spNext k hdone hiret, s.stage.spSteered_none k _ hctl]

/-- A command whose bundle leaves the part as it is leaves every processor and memory so, whether its processor is live or not. -/
theorem done_idle {c : Instr} {s : State} {k : Nat} {b : Bundle} (hc : slotBundle c = some (k, b)) (h : s.stage.issueBundle k b = s.stage) :
    Done c s (fun t => t.sp k = s.stage.sp k ∧ t.mem = s.stage.mem) := by
  have hblock : (s.stage.block .sp k fun t => t.issueBundle k b) = s.stage := by
    rcases s.stage.block_cases .sp k fun t => t.issueBundle k b with hb | hb
    · exact hb.trans h
    · exact hb
  refine ⟨_, (exec_slot hc s).trans (s.act_eq _), rfl, ?_⟩
  rw [hblock]
  split
  · exact ⟨Stage.ends_sp .., Stage.ends_mem ..⟩
  · exact ⟨rfl, rfl⟩

/-- A bundle that stalls changes nothing, nor does one whose processor may not issue or is about to enter a handler (R86, R93). -/
theorem Stage.issueBundle_stalled {s : Stage} {k : Nat} {b : Bundle} (hf : (s.sp k).landNow.bundleFault (s.sp k).landNow.pc b = none)
    (h : (s.sp k).landNow.stalls b = true) : s.issueBundle k b = s := by
  cases hidle : (s.sp k).active && !(s.sp k).entryDue with
  | false => exact s.issueBundle_idle k b hidle
  | true =>
    obtain ⟨ha, he⟩ := Bool.and_eq_true_iff.mp hidle
    exact Stage.issueBundle_stalls ha (by simpa using he) hf h

/-- The bundle of four NOPs, one with its predicate written out. -/
def nopBundle (inT : Bool) (pred : Nat) : Bundle :=
  if inT then { ({} : Bundle) with t := { pred := pred, op := .nop } } else { ({} : Bundle) with a := { pred := pred, op := .nop } }

theorem nopBundle_op (inT : Bool) (pred : Nat) : (nopBundle inT pred).t.op = .nop := by cases inT <;> rfl

/-- Its slots send nothing, and read and store no word. -/
theorem runSlots_nopBundle (s : Stage) (k : Nat) (sp : SpSt) (inT : Bool) (pred : Nat) : runSlots s k sp (nopBundle inT pred) = { sp := sp } := by
  have ha : ∀ a : ASlot, a.op = .nop → SlotRun.aslot a { sp := sp } = { sp := sp } := fun a h => by
    unfold SlotRun.aslot
    rw [h]
    exact ite_self _
  have ht : ∀ t : TSlot, t.op = .nop → (if sp.holds t.pred then SlotRun.top s k sp { sp := sp } t.op else { sp := sp }) = { sp := sp } := fun t h => by
    rw [h]
    exact ite_self _
  cases inT
  · exact (congrArg (SlotRun.top s k sp · .nop) (ha _ rfl))
  · exact ht { pred := pred, op := .nop } rfl

theorem Stage.mem_spReturns (s : Stage) (k : Nat) (old new : SpRun) : (s.spReturns k old new).mem = s.mem := by
  obtain ⟨_, h⟩ := s.spReturns_frame k old new
  rw [h]

theorem nop_counts {s : State} {k pred : Nat} {inT : Bool} (h : Runs s k (nopBundle inT pred) pred) :
    Done (.nop k inT pred {}) s (fun t => (t.sp k).iss = (s.stage.sp k).iss + 1 ∧ (t.sp k).pend = (s.atIssue k).pend
      ∧ (t.sp k).d = (s.atIssue k).d ∧ (t.sp k).ac = (s.atIssue k).ac ∧ t.mem = s.stage.mem) := by
  obtain ⟨hi, ⟨hdone, hiret⟩, -⟩ := h
  have hx := runSlots_nopBundle s.stage k (s.atIssue k) inT pred
  have hmem : (s.stage.spExecute k (s.atIssue k) (nopBundle inT pred)).mem = s.stage.mem := by
    rw [Stage.spExecute_eq, nopBundle_op]
    dsimp only
    rw [Stage.spWritten, hx]
    dsimp only
    rw [Stage.mem_spReturns, Stage.setN_mem, Stage.putSp_mem]
    rfl
  refine done_issues (b := nopBundle inT pred) rfl hi ?_
  rw [Stage.ends_sp, Stage.ends_mem, Stage.sp_spExecute, hmem, s.stage.iss_spNext k hdone hiret, s.stage.pend_spNext k hdone hiret,
    (s.stage.files_spNext k hdone hiret).1, (s.stage.files_spNext k hdone hiret).2, hx, State.atIssue_iss]
  exact ⟨rfl, List.append_nil _, rfl, rfl, rfl⟩

/-- Settles O14, by what a bundle leaves of its processor (`Stage.spNext`) and by `Stage.issueBundle_stalled`. -/
theorem endsAndWaits : Obligations.EndsAndWaits := by
  intro s k pred j n o
  refine ⟨sdone_ends, fun h _ => done_counts rfl h rfl, fun h _ => done_counts rfl h rfl, ?_, fun inT => nop_counts⟩
  rintro c (⟨rfl, hj, hf⟩ | ⟨rfl, hn, hf⟩) hp
  · exact done_idle rfl (Stage.issueBundle_stalled hf (Bool.and_eq_true_iff.mpr ⟨hp, congrArg not hj⟩))
  · exact done_idle rfl (Stage.issueBundle_stalled hf (Bool.and_eq_true_iff.mpr ⟨hp, decide_eq_true hn⟩))

end Sys2Proof.Machine
end

section
/-!
PROOF. Faults of a bundle (R81, R83, R86, R112), and the statement O17.
-/
namespace Sys2Proof.Machine

theorem State.atIssue_pc (s : State) (k : Nat) : (s.atIssue k).pc = (s.stage.sp k).pc := by
  obtain ⟨_, _, _, _, h⟩ := (s.stage.sp k).lands_landNow
  rw [State.atIssue, h]

/-- What a command leaves that puts a processor with a fault in the place of SP `k`, and does no more. -/
theorem done_fault {c : Instr} {s : State} {k f pc : Nat} {g : Stage → Stage} {sp : SpSt} (hc : exec c s = s.act fun t => t.block .sp k g)
    (hl : Live s .sp k) (hg : g s.stage = s.stage.putSp k { sp with flt := some (f, pc) }) :
    Done c s (fun t => (t.sp k).flt = some (f, pc) ∧ t.mem = s.stage.mem) := by
  refine done_act hc hl.1 ?_
  rw [Stage.block_live s .sp k _ hl, hg, Stage.ends_sp, Stage.sp_putSp_same, Stage.ends_mem, Stage.putSp_mem]
  exact ⟨rfl, rfl⟩

/-- A bundle with a fault changes nothing but the fault that waits (R86). -/
theorem bundle_faults {c : Instr} {s : State} {k f : Nat} {b : Bundle} (hc : slotBundle c = some (k, b)) (hl : Live s .sp k)
    (ha : (s.stage.sp k).active = true) (he : (s.stage.sp k).entryDue = false) (hf : (s.atIssue k).bundleFault (s.atIssue k).pc b = some f) :
    Done c s (fun t => (t.sp k).flt = some (f, (s.stage.sp k).pc) ∧ t.mem = s.stage.mem) := by
  rw [← s.atIssue_pc k]
  exact done_fault (exec_slot hc s) hl (Stage.issueBundle_faults ha he hf)

/-- A word with an illegal slot issues no bundle (R112). -/
theorem illegal_faults {s : State} {k w : Nat} (hl : Live s .sp k) (ha : (s.stage.sp k).active = true) (he : (s.stage.sp k).entryDue = false)
    (hw : decodeBundle w = none) :
    Done (.illegalEncoding k w) s (fun t => (t.sp k).flt = some (cILLEGAL, (s.stage.sp k).pc) ∧ t.mem = s.stage.mem) := by
  refine done_fault (sp := (s.stage.sp k).landNow) rfl hl ?_
  unfold Stage.issueIllegal Stage.issueWord
  rw [hw]
  have hidle : ¬ ((!(s.stage.sp k).active || (s.stage.sp k).entryDue) = true) := by rw [ha, he]; decide
  exact if_neg hidle

section
variable {sp : SpSt} {pc : Nat} {b : Bundle} (hlegal : b.legal = true) (hdelay : sp.delay = none) (hbelow : b.t.op.endBelow pc = false)
include hlegal hdelay hbelow

/-- A barred control instruction at the end of an active level (R81). -/
theorem SpSt.fault_loopEnd (hb : b.t.op.endBarred = true) {v : Nat} (hv : v ∈ sp.levels) (he : sp.stop v = pc) :
    sp.bundleFault pc b = some cLOOP_END := by
  unfold SpSt.bundleFault
  rw [hlegal, hdelay, hbelow, hb, if_neg (by simp)]
  exact if_pos (List.any_eq_true.mpr ⟨v, hv, by simp [he]⟩)

end

/-- Settles O17, by `Stage.issueBundle_faults` and the order of a bundle's faults (`SpSt.bundleFault_own`). -/
theorem bundleFaults : Obligations.BundleFaults := by
  refine ⟨fun _ _ _ _ _ hc hl ha he hf => bundle_faults hc hl ha he hf, fun _ _ _ hl ha he hw => illegal_faults hl ha he hw, ?_⟩
  intro sp pc b hlegal hdelay hbelow
  refine ⟨fun hb v hv he => SpSt.fault_loopEnd hlegal hdelay hbelow hb hv he, fun hend hp => ⟨?_, ?_, ?_⟩⟩
  · intro tg hop h
    rw [SpSt.bundleFault_own hlegal hdelay hbelow hend hp, hop]
    exact if_pos h
  · intro hop h
    rw [SpSt.bundleFault_own hlegal hdelay hbelow hend hp, hop]
    exact if_pos h
  · intro hop h
    rw [SpSt.bundleFault_own hlegal hdelay hbelow hend hp, hop]
    exact if_neg (by rw [h]; exact Bool.false_ne_true)

end Sys2Proof.Machine
end

section
/-!
PROOF. Entry into a handler and the halt of a fault inside one (R84, R86, R90, R99, R101, R108, R128), and the statement O18.
-/
namespace Sys2Proof.Machine

/-! ### ISTAT at entry (R108, R128) -/

/-- The value of ISTAT: FROM_WAIT, the suspended levels, the return-stack depth, the cause and the flags. -/
def istatWord (wait susp depth cause flags : Nat) : Nat := wait * 2 ^ 15 + susp * 2 ^ 13 + depth * 2 ^ 10 + cause * 2 ^ 4 + flags

section
variable {wait susp depth cause flags : Nat}

theorem istatWord_flags (hf : flags < 16) : bits (istatWord wait susp depth cause flags) 3 0 = flags := by
  unfold bits istatWord
  omega

theorem istatWord_cause (hf : flags < 16) (hc : cause < 16) : bits (istatWord wait susp depth cause flags) 7 4 = cause := by
  unfold bits istatWord
  omega

theorem istatWord_depth (hf : flags < 16) (hc : cause < 16) (hd : depth < 8) : bits (istatWord wait susp depth cause flags) 12 10 = depth := by
  unfold bits istatWord
  omega

theorem istatWord_level0 (hf : flags < 16) (hc : cause < 16) (hd : depth < 8) :
    bit (istatWord wait susp depth cause flags) 13 = (susp % 2 == 1) := by
  unfold bit istatWord
  rw [show (wait * 2 ^ 15 + susp * 2 ^ 13 + depth * 2 ^ 10 + cause * 2 ^ 4 + flags) / 2 ^ 13 % 2 = susp % 2 by omega]

theorem istatWord_level1 (hf : flags < 16) (hc : cause < 16) (hd : depth < 8) :
    bit (istatWord wait susp depth cause flags) 14 = (susp / 2 % 2 == 1) := by
  unfold bit istatWord
  rw [show (wait * 2 ^ 15 + susp * 2 ^ 13 + depth * 2 ^ 10 + cause * 2 ^ 4 + flags) / 2 ^ 14 % 2 = susp / 2 % 2 by omega]

end

/-! ### The processor after entry (R86) -/

/-- The processor `u` is `sp` entered into its handler: ISTAT and IPC hold what was there once every result had landed. -/
def SpSt.Entered (sp u : SpSt) (cause ipc : Nat) : Prop :=
  u.inHandler = true ∧ u.pc = 0x7F0 ∧ u.sreg rIPC = ipc ∧ bits (u.sreg rISTAT) 3 0 = sp.landAll.sreg rFLAGS ∧ bits (u.sreg rISTAT) 7 4 = cause
    ∧ bits (u.sreg rISTAT) 12 10 = sp.landAll.rstack.length ∧ bit (u.sreg rISTAT) 13 = (sp.landAll.lc 0 != 0)
    ∧ bit (u.sreg rISTAT) 14 = (sp.landAll.lc 1 != 0) ∧ u.e = sp.e + 2

/-- The levels as ISTAT shows them. -/
def SpSt.suspWord (x : SpSt) : Nat := (if x.lc 0 ≠ 0 then 1 else 0) + (if x.lc 1 ≠ 0 then 2 else 0)

theorem SpSt.suspWord_level0 (x : SpSt) : (x.suspWord % 2 == 1) = (x.lc 0 != 0) := by
  unfold SpSt.suspWord
  by_cases h0 : x.lc 0 = 0 <;> by_cases h1 : x.lc 1 = 0 <;> simp [h0, h1]

theorem SpSt.suspWord_level1 (x : SpSt) : (x.suspWord / 2 % 2 == 1) = (x.lc 1 != 0) := by
  unfold SpSt.suspWord
  by_cases h0 : x.lc 0 = 0 <;> by_cases h1 : x.lc 1 = 0 <;> simp [h0, h1]

theorem SpSt.sreg_enter_ISTAT (sp : SpSt) (cause ipc : Nat) : ∃ wait, (sp.enter cause ipc).sreg rISTAT
    = Nat.land (istatWord wait sp.landAll.suspWord sp.landAll.rstack.length cause (sp.landAll.sreg rFLAGS)) (srMask rISTAT) := by
  refine ⟨if sp.landAll.run = .done then 1 else 0, ?_⟩
  refine (SpSt.sreg_setSreg_other _ _ (by decide)).trans ((SpSt.sreg_setSreg_same ..).trans ?_)
  congr 4
  split <;> rfl

/-- A debug break that is no longer pending belongs to neither. -/
theorem SpSt.Entered.withBrk {sp u : SpSt} {cause ipc : Nat} (h : sp.Entered u cause ipc) (b : Bool) : sp.Entered { u with brk := b } cause ipc := h

theorem SpSt.landAll_e (sp : SpSt) : sp.landAll.e = sp.e := by
  obtain ⟨_, _, _, _, h⟩ := sp.lands_landAll
  rw [h]

theorem SpSt.entered_enter (sp : SpSt) {cause ipc : Nat} (hc : cause < 16) (hi : ipc < 2048) (hr : sp.landAll.rstack.length ≤ 4) :
    sp.Entered (sp.enter cause ipc) cause ipc := by
  have hf := sp.landAll.flags_lt
  have hd : sp.landAll.rstack.length < 8 := by omega
  have hipc : (sp.enter cause ipc).sreg rIPC = ipc := (SpSt.sreg_setSreg_same ..).trans (land_ones (w := 11) hi)
  obtain ⟨wait, hist⟩ := sp.sreg_enter_ISTAT cause ipc
  have he : (sp.enter cause ipc).e = sp.e + 2 := congrArg (· + 2) sp.landAll_e
  refine ⟨rfl, rfl, hipc, ?_, ?_, ?_, ?_, ?_, he⟩ <;> rw [hist]
  · rw [bits_land _ (by decide), istatWord_flags hf]
  · rw [bits_land _ (by decide), istatWord_cause hf hc]
  · rw [bits_land _ (by decide), istatWord_depth hf hc hd]
  · rw [bit_land, istatWord_level0 hf hc hd, SpSt.suspWord_level0]
    exact Bool.and_true _
  · rw [bit_land, istatWord_level1 hf hc hd, SpSt.suspWord_level1]
    exact Bool.and_true _

/-! ### INTERRUPT_ENTRY (R84, R86, R99) -/

section
variable {s : State} {k : Nat} (hl : Live s .sp k)
include hl

/-- An entry that is due has the result that taking it has. -/
theorem done_entry {P : Stage → Prop} (hd : (s.stage.sp k).entryDue = true) (hp : P (s.stage.ends (s.stage.spEntry k))) :
    Done (.interruptEntry k) s P := by
  have hblock : (s.stage.block .sp k fun t => t.spEntryNow k) = s.stage.spEntry k := by
    rw [Stage.block_live s .sp k _ hl, Stage.spEntryNow, if_pos hd]
  refine done_act (f := fun t => t.block .sp k fun t => t.spEntryNow k) rfl hl.1 ?_
  rw [hblock]
  exact hp

omit hl in
theorem Stage.spFaultInfo_sp (t : Stage) (k cause addr j : Nat) : (t.spFaultInfo k cause addr).sp j = t.sp j := rfl

omit hl in
/-- FAULT_INFO holds the address and the cause of the fault (R104). -/
theorem Stage.spFaultInfo_info (t : Stage) (k : Nat) {cause addr : Nat} (hc : cause < 16) (ha : addr < 2048) :
    (t.spFaultInfo k cause addr).regN (pSp k) 0x0AC = addr * 2 ^ 16 + cause := by
  have hraise : (t.spFaultInfo k cause addr).regN (pSp k) 0x0AC = (t.setN (pSp k) 0x0AC (addr % 2048 * 2 ^ 16 + cause)).regN (pSp k) 0x0AC :=
    congrArg BitVec.toNat (Stage.reg_raise_other _ _ (by omega))
  rw [hraise, Stage.regN_setN_same]
  omega

omit hl in
theorem Stage.spFaultInfo_event (t : Stage) (k cause addr : Nat) : (t.spFaultInfo k cause addr).flag (pSp k) 0x014 4 = true :=
  Stage.raise_sets _ _ _ (by omega)

variable {cause addr : Nat}

theorem fault_enters (hf : (s.stage.sp k).flt = some (cause, addr)) (hh : (s.stage.sp k).inHandler = false) (hc : cause < 16) (ha : addr < 2048)
    (hr : (s.stage.sp k).landAll.rstack.length ≤ 4) :
    Done (.interruptEntry k) s (fun t => (s.stage.sp k).Entered (t.sp k) cause addr ∧ t.flag (pSp k) 0x014 4 = true
      ∧ t.regN (pSp k) 0x0AC = addr * 2 ^ 16 + cause) := by
  have hentry : s.stage.spEntry k = (s.stage.putSp k ((s.stage.sp k).enter cause addr)).spFaultInfo k cause addr := by
    unfold Stage.spEntry
    dsimp only
    rw [hf]
    exact if_neg (by rw [hh]; exact Bool.false_ne_true)
  refine done_entry hl (by rw [SpSt.entryDue, hf]; rfl) ?_
  rw [hentry]
  refine ⟨?_, Stage.ends_event _ _ (Stage.spFaultInfo_event ..), ?_⟩
  · rw [Stage.ends_sp, Stage.spFaultInfo_sp, Stage.sp_putSp_same]
    exact SpSt.entered_enter _ hc ha hr
  · rw [Stage.ends_regN _ _ (by omega) (by omega), Stage.spFaultInfo_info _ _ hc ha]

/-- An entry that puts an entered processor in place of SP `k`. -/
theorem signal_enters {v : SpSt} {ipc : Nat} (hd : (s.stage.sp k).entryDue = true) (hv : (s.stage.sp k).Entered v cause ipc)
    (hentry : s.stage.spEntry k = s.stage.putSp k v) :
    Done (.interruptEntry k) s (fun t => (s.stage.sp k).Entered (t.sp k) cause ipc ∧ (t.sp k).brk = v.brk) := by
  refine done_entry hl hd ?_
  rw [hentry, Stage.ends_sp, Stage.sp_putSp_same]
  exact ⟨hv, rfl⟩

theorem break_enters (hf : (s.stage.sp k).flt = none) (hb : (s.stage.sp k).breakDue = true) (hrun : (s.stage.sp k).run = .running)
    (hpc : (s.stage.sp k).pc < 2048) (hr : (s.stage.sp k).landAll.rstack.length ≤ 4) :
    Done (.interruptEntry k) s (fun t => (s.stage.sp k).Entered (t.sp k) 2 (s.stage.sp k).pc ∧ (t.sp k).brk = false) := by
  have hentry : s.stage.spEntry k = s.stage.putSp k { (s.stage.sp k).enter 2 (s.stage.sp k).pc with brk := false } := by
    unfold Stage.spEntry
    dsimp only
    rw [hf, hrun]
    exact if_pos hb
  exact signal_enters hl (by rw [SpSt.entryDue, hb]; simp) ((SpSt.entered_enter _ (by decide) hpc hr).withBrk false) hentry

theorem mbox_enters (hf : (s.stage.sp k).flt = none) (hb : (s.stage.sp k).breakDue = false) (hm : (s.stage.sp k).mboxDue = true)
    (hrun : (s.stage.sp k).run = .running) (hpc : (s.stage.sp k).pc < 2048) (hr : (s.stage.sp k).landAll.rstack.length ≤ 4) :
    Done (.interruptEntry k) s (fun t => (s.stage.sp k).Entered (t.sp k) 1 (s.stage.sp k).pc) := by
  have hentry : s.stage.spEntry k = s.stage.putSp k ((s.stage.sp k).enter 1 (s.stage.sp k).pc) := by
    unfold Stage.spEntry
    dsimp only
    rw [hf, hb, hrun]
    exact if_pos hm
  obtain ⟨t, ht, hpend, hent, -⟩ := signal_enters hl (by rw [SpSt.entryDue, hm]; simp) (SpSt.entered_enter _ (by decide) hpc hr) hentry
  exact ⟨t, ht, hpend, hent⟩

/-- A fault inside a handler halts the processor and arises as a cause of the redundancy (R90, R99). -/
theorem fault_halts (hf : (s.stage.sp k).flt = some (cause, addr)) (hh : (s.stage.sp k).inHandler = true) :
    Done (.interruptEntry k) s (fun t => (t.sp k).run = .halted ∧ t.flag (pSp k) 0x014 4 = true ∧ t.flag (pSp k) 0x014 5 = true) := by
  have hentry : s.stage.spEntry k = s.stage.spHalt k cause addr := by
    unfold Stage.spEntry
    dsimp only
    rw [hf]
    exact if_pos hh
  refine done_entry hl (by rw [SpSt.entryDue, hf]; rfl) ?_
  rw [hentry, Stage.spHalt]
  set u := (s.stage.putSp k { s.stage.sp k with run := .halted, flt := none }).spFaultInfo k cause addr with hu
  obtain ⟨-, hev, hpart⟩ := (u.raise (pSp k) 5).keeps_sdCause 5
  have hsps : ((u.raise (pSp k) 5).sdCause 5).sps = (u.raise (pSp k) 5).sps := hpart .sps (by simp)
  refine ⟨?_, Stage.ends_event _ _ (hev _ _ ?_), Stage.ends_event _ _ (hev _ _ ?_)⟩
  · rw [Stage.ends_sp, Stage.sp, hsps, Stage.raise_sps, ← Stage.sp, hu, Stage.spFaultInfo_sp, Stage.sp_putSp_same]
  · exact u.flag_raise_mono _ _ _ _ (by omega) (Stage.spFaultInfo_event ..)
  · exact Stage.raise_sets _ _ _ (by omega)

end

/-- Settles O18, by the registers that an entry saves (`SpSt.entered_enter`) and the four ways it is taken. -/
theorem interruptEntries : Obligations.InterruptEntries := by
  intro s k cause addr x hl hx hc ha hr
  subst hx
  exact ⟨fun hf hh => fault_enters hl hf hh hc ha hr, fun hf hb hrun hpc => break_enters hl hf hb hrun hpc hr,
    fun hf hb hm hrun hpc => mbox_enters hl hf hb hm hrun hpc hr, fun hf hh => fault_halts hl hf hh⟩

end Sys2Proof.Machine
end

section
/-!
PROOF. What memory reads after words have been written (R6, R515, R526).
-/
namespace Sys2Proof.Machine

/-! ### Bytes after a list of bytes -/

theorem Stage.rd8_wrBytes_other {x : Nat} (l : List Byte) : ∀ (s : Stage) (a : Nat), x < a ∨ a + l.length ≤ x → (s.wrBytes a l).rd8 x = s.rd8 x := by
  induction l with
  | nil => exact fun _ _ _ => rfl
  | cons b l ih =>
    intro s a h
    rw [List.length_cons] at h
    rw [Stage.wrBytes, ih _ _ (by omega), Stage.rd8_wr8_other _ _ (by omega)]

/-- Without an erroneous bit no word is lost. -/
theorem Stage.flips_of_ecc {s : Stage} (h : s.ecc = []) (a : Nat) : s.flips a = 0 := by
  unfold Stage.flips
  rw [h]
  rfl

theorem Stage.lost_of_ecc {s : Stage} (h : s.ecc = []) (a : Nat) : s.lost a = false := by
  unfold Stage.lost
  rw [Stage.flips_of_ecc h]
  rfl

theorem Stage.ecc_wr8 (s : Stage) (a : Nat) (b : Byte) : (s.wr8 a b).ecc = s.ecc := by
  obtain ⟨_, h⟩ := s.wr8_frame a b
  rw [h]

theorem Stage.rd8_wrBytes_same (l : List Byte) : ∀ (s : Stage) (a j : Nat) (hj : j < l.length), s.ecc = [] →
    (s.wrBytes a l).rd8 (a + j) = l[j] := by
  induction l with
  | nil => exact fun _ _ _ hj => absurd hj (Nat.not_lt_zero _)
  | cons b l ih =>
    intro s a j hj he
    rw [Stage.wrBytes]
    cases j with
    | zero => rw [Stage.rd8_wrBytes_other _ _ _ (by omega)]; exact s.rd8_wr8_same b (Stage.lost_of_ecc he a)
    | succ j =>
      rw [show a + (j + 1) = a + 1 + j by omega, ih _ _ j (Nat.lt_of_succ_lt_succ hj) ((s.ecc_wr8 a b).trans he)]
      rfl

theorem Stage.rdBytes_wrBytes_same {s : Stage} (a : Nat) (l : List Byte) (h : s.ecc = []) : (s.wrBytes a l).rdBytes a l.length = l := by
  refine List.ext_getElem (by simp [Stage.rdBytes, upTo]) fun j hj hl => ?_
  simpa [Stage.rdBytes, upTo] using Stage.rd8_wrBytes_same l s a j hl h

theorem ofLeBytes_leBytes (k : Nat) : ∀ n, ofLeBytes (leBytes k n) = n % 256 ^ k := by
  induction k with
  | zero => exact fun n => (Nat.mod_one n).symm
  | succ k ih =>
    intro n
    rw [leBytes, ofLeBytes, ih, pow_succ', Nat.mod_mul]
    rfl

/-! ### Words -/

/-- What a byte reads depends on memory and its errors alone. -/
theorem Stage.rd8_congr {s t : Stage} (hm : t.mem = s.mem) (he : t.ecc = s.ecc) (a : Nat) : t.rd8 a = s.rd8 a := by
  unfold Stage.rd8 Stage.lost Stage.flips
  rw [hm, he]

theorem Stage.rd32_congr {s t : Stage} {a : Nat} (h : ∀ j, j < 4 → t.rd8 (a + j) = s.rd8 (a + j)) : t.rd32 a = s.rd32 a := by
  have hb : t.rdBytes a 4 = s.rdBytes a 4 := List.map_congr_left fun j hj => h j (List.mem_range.mp hj)
  rw [Stage.rd32, Stage.rd32, Stage.rdN, Stage.rdN, hb]

theorem Stage.rd8_wr32_other (s : Stage) {a x : Nat} (v : Word) (h : x < a ∨ a + 4 ≤ x) : (s.wr32 a v).rd8 x = s.rd8 x :=
  Stage.rd8_wrBytes_other _ s a (by rw [length_leBytes]; exact h)

theorem Stage.rd32_wr32_other (s : Stage) {a x : Nat} (v : Word) (h : x + 4 ≤ a ∨ a + 4 ≤ x) : (s.wr32 a v).rd32 x = s.rd32 x :=
  Stage.rd32_congr fun j hj => s.rd8_wr32_other v (by omega)

theorem Stage.rd32_wr32_same {s : Stage} (a : Nat) (v : Word) (h : s.ecc = []) : (s.wr32 a v).rd32 a = v := by
  have hb := Stage.rdBytes_wrBytes_same a (leBytes 4 v.toNat) h
  rw [length_leBytes] at hb
  rw [Stage.rd32, Stage.rdN, Stage.wr32, hb, ofLeBytes_leBytes]
  exact (congrArg Word.ofNat (Nat.mod_eq_of_lt v.isLt)).trans (BitVec.ofNat_toNat ..|>.trans (BitVec.setWidth_eq v))

theorem Stage.ecc_wr32 (s : Stage) (a : Nat) (v : Word) : (s.wr32 a v).ecc = s.ecc := by
  obtain ⟨_, h⟩ := s.wr32_frame a v
  rw [h]

end Sys2Proof.Machine
end

section
/-!
PROOF. The DMA of a sample (R93 to R98): the header and gather, the scatter and its done point, and the end of a pool transfer; the statement O29.
-/
namespace Sys2Proof.Machine

/-! ### The header (R94) -/

/-- The header DMA writes word `i` of the header. -/
def Stage.headerWrite (k base : Nat) (ws : List Nat) (s : Stage) (i : Nat) : Stage :=
  s.wr32 (wordAddr k .x (base + i)) (Word.ofNat (ws.getD i 0))

/-- A whole header, and the processor with it written. -/
theorem Stage.gatherWrite_header {s : Stage} {k : Nat} (h : (s.sp k).hdrDue = true) : s.gatherWrite k
    = ((upTo 11).foldl (Stage.headerWrite k (s.fld (pSp k) 0x090 14 0) (s.headerWords k (s.spBank k) (s.sp k))) s).putSp k
        { s.sp k with hdrDue := false } := if_pos h

/-- Reading a word without an erroneous bit changes nothing. -/
theorem Stage.eccRead_of_ecc {s : Stage} (h : s.ecc = []) (a own : Nat) : s.eccRead a own = s := if_pos (Stage.flips_of_ecc h a)

/-- The next entry, where the header has been written and no word has an erroneous bit (R93). -/
theorem Stage.gatherWrite_entry {s : Stage} {k : Nat} (h : (s.sp k).hdrDue = false) (hn : (s.sp k).gNext < (s.sp k).gLen) (he : s.ecc = [])
    {e : Word} (hent : e = s.rd32 (gatherAddr k (s.spBank k) (s.sp k).gNext)) : s.gatherWrite k
    = (s.wr32 (wordAddr k .x (entryWord e)) (s.exchRead (entrySlot e))).putSp k { s.sp k with gNext := (s.sp k).gNext + 1 } := by
  unfold Stage.gatherWrite
  dsimp only
  rw [if_neg (by rw [h]; exact Bool.false_ne_true), if_pos hn, Stage.eccRead_of_ecc he, ← hent]

/-- Words of X memory below its size stand one after another. -/
theorem wordAddr_x (k : Nat) {a : Nat} (h : a < 24576) : wordAddr k .x a = spBase k + 4 * a := by
  rw [wordAddr, Space.size, Nat.mod_eq_of_lt h, Space.off, Nat.add_zero]

section
variable {k base : Nat} (ws : List Nat)

theorem Stage.ecc_headerWrite (s : Stage) (i : Nat) : (Stage.headerWrite k base ws s i).ecc = s.ecc := s.ecc_wr32 ..

theorem Stage.ecc_foldl_headerWrite (l : List Nat) : ∀ s : Stage, (l.foldl (Stage.headerWrite k base ws) s).ecc = s.ecc := by
  induction l with
  | nil => exact fun _ => rfl
  | cons i l ih => exact fun s => (ih _).trans (s.ecc_headerWrite ws i)

/-- Each word of a header that does not wrap reads back, whatever is written beside it. -/
theorem Stage.rd32_header (hb : base ≤ 24565) {i : Nat} (hi : i < 11) {s : Stage} (he : s.ecc = []) :
    ((upTo 11).foldl (Stage.headerWrite k base ws) s).rd32 (wordAddr k .x (base + i)) = Word.ofNat (ws.getD i 0) := by
  refine foldl_settles (p := fun t : Stage => t.ecc = [] → t.rd32 (wordAddr k .x (base + i)) = Word.ofNat (ws.getD i 0)) (List.mem_range.mpr hi)
    (fun t ht => ?_) (fun j hj t ht hte => ?_) s ((Stage.ecc_foldl_headerWrite ws _ s).trans he)
  · exact Stage.rd32_wr32_same _ _ ((t.ecc_headerWrite ws i).symm.trans ht)
  · have hte' : t.ecc = [] := (t.ecc_headerWrite ws j).symm.trans hte
    have hj : j < 11 := List.mem_range.mp hj
    by_cases hij : j = i
    · subst hij
      exact Stage.rd32_wr32_same _ _ hte'
    · refine (t.rd32_wr32_other _ ?_).trans (ht hte')
      rw [wordAddr_x k (by omega), wordAddr_x k (by omega)]
      omega

end

theorem Word.ofNat_mod (n : Nat) : Word.ofNat (n % 2 ^ 32) = Word.ofNat n := BitVec.eq_of_toNat_eq (by simp [Word.ofNat])

/-- A word reads the same once a processor is put in place and the command has ended. -/
theorem Stage.rd32_ends_putSp (s t : Stage) (k : Nat) (v : SpSt) (a : Nat) : (s.ends (t.putSp k v)).rd32 a = t.rd32 a :=
  Stage.rd32_congr fun _ _ => Stage.rd8_congr (by rw [Stage.ends_mem, Stage.putSp_mem]) (by rw [Stage.ends_ecc, Stage.putSp_ecc]) _

section
variable {s : State} {k : Nat} (hl : Live s .sp k)
include hl

theorem header_written (hd : (s.stage.sp k).hdrDue = true) (he : s.stage.ecc = []) {base n : Nat} (hbase : base = s.stage.fld (pSp k) 0x090 14 0)
    (hb : base ≤ 24565) (hn : (s.stage.sp k).last = some n) :
    Done (.gatherWrite k) s (fun t => t.rd32 (wordAddr k .x base) = Word.ofNat n ∧ t.rd32 (wordAddr k .x (base + 1)) = Word.ofNat (n / 2 ^ 32)
      ∧ t.rd32 (wordAddr k .x (base + 2)) = Word.ofNat (s.stage.sp k).skipped ∧ (t.sp k).hdrDue = false) := by
  refine done_act (f := fun t => t.block .sp k fun t => t.gatherWrite k) rfl hl.1 ?_
  rw [Stage.block_live s .sp k _ hl, Stage.gatherWrite_header hd, ← hbase, Stage.rd32_ends_putSp, Stage.rd32_ends_putSp, Stage.rd32_ends_putSp,
    Stage.ends_sp, Stage.sp_putSp_same]
  have hword := fun i (hi : i < 11) => Stage.rd32_header (k := k) (s.stage.headerWords k (s.stage.spBank k) (s.stage.sp k)) hb hi he
  have hlast : (s.stage.sp k).last.getD 0 = n := by rw [hn]; rfl
  have h0 : (s.stage.headerWords k (s.stage.spBank k) (s.stage.sp k)).getD 0 0 = (s.stage.sp k).last.getD 0 % 2 ^ 32 := rfl
  have h1 : (s.stage.headerWords k (s.stage.spBank k) (s.stage.sp k)).getD 1 0 = (s.stage.sp k).last.getD 0 / 2 ^ 32 % 2 ^ 32 := rfl
  have h2 : (s.stage.headerWords k (s.stage.spBank k) (s.stage.sp k)).getD 2 0 = (s.stage.sp k).skipped % 2 ^ 32 := rfl
  refine ⟨?_, ?_, ?_, rfl⟩
  · rw [← Word.ofNat_mod, ← hlast, ← h0]; exact hword 0 (by omega)
  · rw [← Word.ofNat_mod, ← hlast, ← h1]; exact hword 1 (by omega)
  · rw [← Word.ofNat_mod, ← h2]; exact hword 2 (by omega)

/-! ### The gather (R93) -/

theorem entry_gathered (hd : (s.stage.sp k).hdrDue = false) (hn : (s.stage.sp k).gNext < (s.stage.sp k).gLen) (he : s.stage.ecc = []) {e : Word}
    (hent : e = s.stage.rd32 (gatherAddr k (s.stage.spBank k) (s.stage.sp k).gNext)) :
    Done (.gatherWrite k) s (fun t => t.rd32 (wordAddr k .x (entryWord e)) = s.stage.exchRead (entrySlot e)
      ∧ (t.sp k).gNext = (s.stage.sp k).gNext + 1) := by
  refine done_act (f := fun t => t.block .sp k fun t => t.gatherWrite k) rfl hl.1 ?_
  rw [Stage.block_live s .sp k _ hl, Stage.gatherWrite_entry hd hn he hent, Stage.rd32_ends_putSp, Stage.ends_sp,
    Stage.sp_putSp_same]
  exact ⟨Stage.rd32_wr32_same _ _ he, rfl⟩

/-! ### The scatter and the done point (R95, R98) -/

/-- The scatter DMA sends entry `j` of a bank from Y memory to its slot. -/
def Stage.scatterEntry (k bank : Nat) (t : Stage) (j : Nat) : Stage :=
  let e := t.rd32 (scatterAddr k bank j)
  let t := (t.eccRead (scatterAddr k bank j) k).eccRead (wordAddr k .y (entryWord e)) k
  t.exchWrite (rankSp k) (entrySlot e) (t.rd32 (wordAddr k .y (entryWord e)))

omit hl in
theorem Stage.keeps_scatterEntry (k bank : Nat) (t : Stage) (j : Nat) :
    Keeps [pPool, 0x2A0, 0] [.red, .ecc, .pool, .reh, .exch] t (Stage.scatterEntry k bank t j) :=
  (((t.keeps_eccRead _ k).trans (Stage.keeps_eccRead _ _ k)).trans (Stage.keeps_exchWrite _ _ _ _)).mono (by simp) (by simp)

omit hl in
/-- A processor that drains with no transfer outstanding reaches its done point; all else is written before it is counted. -/
theorem Stage.scatterWrite_done {t : Stage} {m : Nat} (hrun : (t.sp k).run = .draining) (hfar : (t.sp k).far = []) : ∃ (u : Stage) (w : Nat) (b : Blk),
    b.busy = false ∧ Part.graph.same t u ∧ t.scatterWrite k m = (((u.putSp k { t.sp k with run := .done }).setN (pSp k) 0x098
      (min (t.sp k).e 0xFFFF)).raiseIf (w != 0 && decide (w < (t.sp k).e)) (pSp k) 1).setBlk k b := by
  have hcond : ((t.tick m).sp k).run = .draining ∧ ((t.tick m).sp k).far = [] := ⟨hrun, hfar⟩
  unfold Stage.scatterWrite
  dsimp only
  rw [if_pos hcond]
  refine ⟨_, _, _, ?_, ?_, rfl⟩
  · rfl
  · exact (keeps_foldl (fun u j _ => Stage.keeps_scatterEntry k _ u j) (t.tick m)).2.2 .graph (by simp)

theorem done_point (hrun : (s.stage.sp k).run = .draining) (hfar : (s.stage.sp k).far = []) (hg : s.stage.graph.leaving = []) (m : Nat) :
    Done (.scatterWrite k m) s (fun t => (t.sp k).run = .done ∧ (t.blk k).busy = false ∧ t.regN (pSp k) 0x098 = min (s.stage.sp k).e 0xFFFF) := by
  obtain ⟨u, w, b, hb, hgraph, hw⟩ := Stage.scatterWrite_done (m := m) hrun hfar
  have hstay : s.stage.scatterDone k m = s.stage.scatterWrite k m := by
    have hleave : (s.stage.scatterWrite k m).graph.leaving = [] := by
      rw [hw]
      refine (congrArg GraphSt.leaving ?_).trans hg
      simp only [Part.same] at hgraph
      rw [Stage.setBlk, Stage.raiseIf_graph, Stage.setN_graph, Stage.putSp_graph, hgraph]
    unfold Stage.scatterDone
    dsimp only
    rw [hleave]
    rfl
  refine done_act (f := fun t => t.block .sp k fun t => t.scatterDone k m) rfl hl.1 ?_
  rw [Stage.block_live s .sp k _ hl, hstay, hw]
  refine ⟨?_, ?_, ?_⟩
  · rw [Stage.ends_sp, Stage.setBlk]
    change (((_ : Stage).raiseIf _ _ _).sp k).run = _
    rw [Stage.sp, Stage.raiseIf_sps, Stage.setN_sps, ← Stage.sp, Stage.sp_putSp_same]
  · rw [Stage.blk, Stage.ends_blocks, ← Stage.blk, Stage.blk_setBlk_same, hb]
  · rw [Stage.ends_regN _ _ (by omega) (by omega)]
    refine (Stage.regN_congr (Stage.reg_raiseIf_other _ _ _ (by omega))).trans ((Stage.regN_setN_same ..).trans ?_)
    omega

/-! ### Pool transfers (R96) -/

omit hl in
/-- A transfer that nothing holds back and that no refusal repeats is taken off, with FAR_ERR where it failed. -/
theorem Stage.farComplete_eq {t : Stage} {j : Nat} {f : Far} (hj : (t.sp k).far[j]? = some f) (hheld : t.farHeld { cls := 7, idx := k } f = false)
    {x : Stage × Bool} (hx : (burstsOf f.addr (4 * f.len)).foldl (Stage.farBurst k { cls := 7, idx := k } f) (some (t, true)) = some x) :
    ∃ v, (x.2 = false → v = ({ x.1.sp k with far := (x.1.sp k).far.eraseIdx j } : SpSt).stick fFAR)
      ∧ (x.2 = true → v = { x.1.sp k with far := (x.1.sp k).far.eraseIdx j }) ∧ (t.farComplete k j).sp k = v := by
  have heq : t.farComplete k j = { (if x.2 then x.1.putSp k { x.1.sp k with far := (x.1.sp k).far.eraseIdx j }
      else (x.1.putSp k { x.1.sp k with far := (x.1.sp k).far.eraseIdx j }).putSp k
        (((x.1.putSp k { x.1.sp k with far := (x.1.sp k).far.eraseIdx j }).sp k).stick fFAR)) with bus := t.bus } := by
    unfold Stage.farComplete
    dsimp only
    rw [hj]
    dsimp only
    rw [if_neg (by rw [hheld]; exact Bool.false_ne_true), hx]
  refine ⟨_, ?_, ?_, rfl⟩
  all_goals
    intro hok
    rw [heq, hok]
  · exact (Stage.sp_putSp_same ..).trans (by rw [Stage.sp_putSp_same])
  · exact Stage.sp_putSp_same ..

theorem far_taken_off {j : Nat} {f : Far} (hj : (s.stage.sp k).far[j]? = some f) (hheld : s.stage.farHeld { cls := 7, idx := k } f = false)
    {x : Stage × Bool} (hx : (burstsOf f.addr (4 * f.len)).foldl (Stage.farBurst k { cls := 7, idx := k } f) (some (s.stage, true)) = some x) :
    Done (.farComplete k j) s (fun t => (t.sp k).far = (x.1.sp k).far.eraseIdx j
      ∧ (x.2 = false → bit ((t.sp k).sreg rSPSTAT) fFAR = true)) := by
  obtain ⟨v, hfail, hok, hv⟩ := Stage.farComplete_eq hj hheld hx
  refine done_act (f := fun t => t.block .sp k fun t => t.farComplete k j) rfl hl.1 ?_
  rw [Stage.block_live s .sp k _ hl, Stage.ends_sp, hv]
  cases hres : x.2 with
  | true => exact ⟨by rw [hok hres], fun h => Bool.noConfusion h⟩
  | false =>
    rw [hfail hres]
    exact ⟨rfl, fun _ => SpSt.stick_sets _ (by decide)⟩

end

/-- Settles O29, by what each DMA command writes: `Stage.rd32_header`, `Stage.gatherWrite_entry`, `Stage.scatterWrite_done` and
`Stage.farComplete_eq`. -/
theorem sampleDma : Obligations.SampleDma := fun _ _ hl =>
  ⟨fun hd he _ _ hbase hb hn => header_written hl hd he hbase hb hn, fun hd hn he _ hent => entry_gathered hl hd hn he hent,
    fun m hrun hfar hg => done_point hl hrun hfar hg m, fun _ _ hj hheld _ hx => far_taken_off hl hj hheld hx⟩

end Sys2Proof.Machine
end

section
/-!
PROOF. What the issue of a bundle leaves unchanged (R66, R76, R111, R526), and the statement O16.
-/
namespace Sys2Proof.Machine

/-! ### The relation -/

/-- The parts of the Stage die that an issue may change. -/
def issueParts : List Part := [.red, .pool, .reh, .blocks, .ecc, .mem, .sps]

/-- Register `off` of page `p` is none of those that an issue on SP `k` may change. -/
def IssueSpares (k p off : Nat) : Prop :=
  off < 4096 ∧ off ≠ 0x014 ∧ (p ≠ pSp k ∨ (off ≠ 0x0A8 ∧ off ≠ 0x408)) ∧ p ≠ pPool ∧ (p ≠ 0x2A0 ∨ (off ≠ 0x084 ∧ off ≠ 0x094))

/-- From `s` to `t` no more has changed than an issue on SP `k` may change that stores the words at `l`. -/
def IssueKeeps (k : Nat) (l : List Nat) (s t : Stage) : Prop :=
  (∀ j, j ≠ k → t.sp j = s.sp j) ∧ (∀ a, (∀ x ∈ l, a < x ∨ x + 4 ≤ a) → t.rd8 a = s.rd8 a)
    ∧ (∀ p off, IssueSpares k p off → t.reg p off = s.reg p off) ∧ ∀ x, x ∉ issueParts → Part.same s t x

section
variable {k : Nat} {l : List Nat} {s t u : Stage}

theorem IssueKeeps.refl (s : Stage) : IssueKeeps k l s s := ⟨fun _ _ => rfl, fun _ _ => rfl, fun _ _ _ => rfl, fun x _ => x.same_refl s⟩

theorem IssueKeeps.trans (h : IssueKeeps k l s t) (h' : IssueKeeps k l t u) : IssueKeeps k l s u := by
  obtain ⟨hsp, hmem, hreg, hpart⟩ := h
  obtain ⟨hsp', hmem', hreg', hpart'⟩ := h'
  exact ⟨fun j hj => (hsp' j hj).trans (hsp j hj), fun a ha => (hmem' a ha).trans (hmem a ha), fun p o ho => (hreg' p o ho).trans (hreg p o ho),
    fun x hx => Part.same_trans (hpart x hx) (hpart' x hx)⟩

theorem IssueKeeps.foldl {α : Type} {f : Stage → α → Stage} {as : List α} (h : ∀ t, ∀ a ∈ as, IssueKeeps k l t (f t a)) (s : Stage) :
    IssueKeeps k l s (as.foldl f s) :=
  List.foldlRecOn as f (motive := IssueKeeps k l s) (.refl s) fun t ht a ha => ht.trans (h t a ha)

/-- A change of registers that an issue may change, and of no memory and no processor. -/
theorem Keeps.issueKeeps {ps : List Nat} {xs : List Part} (h : Keeps ps xs s t) (hx : xs ⊆ [.red, .pool, .reh, .blocks])
    (hreg : ∀ p off, IssueSpares k p off → t.reg p off = s.reg p off) : IssueKeeps k l s t := by
  have hin : ∀ x : Part, x ∉ [Part.red, .pool, .reh, .blocks] → x.same s t := fun x hn => h.2.2 x fun hm => hn (hx hm)
  have hsps : t.sps = s.sps := hin .sps (by decide)
  refine ⟨fun j _ => by rw [Stage.sp, hsps]; rfl, fun a _ => Stage.rd8_congr (hin .mem (by decide)) (hin .ecc (by decide)) a, hreg,
    fun x hn => hin x fun hm => hn ?_⟩
  exact List.mem_append_left [.ecc, .mem, .sps] hm

/-- A change of the pool's page alone. -/
theorem Keeps.issueKeeps_pool {xs : List Part} (h : Keeps [pPool] xs s t) (hx : xs ⊆ [.red, .pool, .reh, .blocks]) : IssueKeeps k l s t :=
  h.issueKeeps hx fun p o ho => h.1 p o (by simpa using ho.2.2.2.1) ho.1 ho.2.1

theorem Stage.issueKeeps_raise (s : Stage) (p : Nat) {b : Nat} (hb : b < 32) : IssueKeeps k l s (s.raise p b) :=
  (s.keeps_raise p hb).issueKeeps (by simp) fun _ _ ho => s.reg_raise_other b (by have := ho.1; have := ho.2.1; omega)

/-! ### The words read and stored (R111, R526) -/

theorem Stage.reg_sdCause_other (s : Stage) (c : Nat) {p off : Nat} (h : IssueSpares k p off) : (s.sdCause c).reg p off = s.reg p off := by
  obtain ⟨ho, hn, -, -, hr⟩ := h
  have h84 : p * 4096 + off ≠ 0x2A0 * 4096 + 0x084 := by omega
  have h94 : p * 4096 + off ≠ 0x2A0 * 4096 + 0x094 := by omega
  have h14 : p * 4096 + off ≠ 0x2A0 * 4096 + 0x014 := by omega
  unfold Stage.sdCause
  split
  · rw [Stage.reg_raise_other _ _ h14, Stage.reg_setFld_other _ _ _ _ h84]
  · split
    · refine Eq.trans (b := ((((s.setFlag 0x2A0 0x094 (c - 1) true).setFld 0x2A0 0x084 3 0 c).raise 0x2A0 8).reg p off)) rfl ?_
      rw [Stage.reg_raise_other _ _ h14, Stage.reg_setFld_other _ _ _ _ h84, Stage.reg_setFlag_other _ _ _ h94]
    · rfl

theorem Stage.issueKeeps_sdCause (s : Stage) (c : Nat) : IssueKeeps k l s (s.sdCause c) :=
  (s.keeps_sdCause c).issueKeeps (by simp) fun _ _ => s.reg_sdCause_other c

theorem Stage.issueKeeps_eccTwo (s : Stage) (addr mem : Nat) (audio : Bool) : IssueKeeps k l s (s.eccTwo addr mem audio) := by
  have hcount : IssueKeeps k l s ((s.eccLatch addr mem audio true).bump pPool 0x098) :=
    (((s.keeps_eccLatch ..).trans (Stage.keeps_setN _ _ (by omega) (by omega))).mono (ps' := [pPool]) (xs' := [.pool]) (by simp)
      (by simp)).issueKeeps_pool (by simp)
  have hreh : ∀ (t : Stage) (r : RehSt), IssueKeeps k l t { t with reh := r } := fun t r => (t.keeps_reh r).issueKeeps (by simp) fun _ _ _ => rfl
  unfold Stage.eccTwo
  dsimp only
  split
  · exact (((hcount.trans (hreh _ _)).trans (hreh _ _)).trans (Stage.issueKeeps_raise _ _ (by omega))).trans (Stage.issueKeeps_sdCause _ 1)
  · exact (hcount.trans (hreh _ _)).trans (Stage.issueKeeps_raise _ _ (by omega))

/-- A single error corrected leaves what every byte reads. -/
theorem Stage.rd8_corrected (s : Stage) {a : Nat} (h : s.lost a = false) (x : Nat) : ({ s with ecc := Tab.put 0 s.ecc (a / 32) 0 } : Stage).rd8 x = s.rd8 x := by
  have hlost : ({ s with ecc := Tab.put 0 s.ecc (a / 32) 0 } : Stage).lost x = s.lost x := by
    unfold Stage.lost Stage.flips at h ⊢
    dsimp only at h ⊢
    by_cases hw : x / 32 = a / 32
    · rw [hw, Tab.get_put_self, h]
      rfl
    · rw [Tab.get_put_other _ _ _ _ hw]
  unfold Stage.rd8
  rw [hlost]

theorem Stage.issueKeeps_eccOne (s : Stage) (page : Option Nat) (addr mem : Nat) (audio : Bool) : IssueKeeps k l s (s.eccOne page addr mem audio) :=
  (s.keeps_eccOne ..).issueKeeps_pool (by simp)

theorem Stage.issueKeeps_eccRead (s : Stage) (a own : Nat) : IssueKeeps k l s (s.eccRead a own) := by
  unfold Stage.eccRead
  dsimp only
  split
  · exact .refl s
  · split
    · exact s.issueKeeps_eccTwo ..
    · rename_i hl
      have hecc : IssueKeeps k l s { s with ecc := Tab.put 0 s.ecc (a / 32) 0 } :=
        ⟨fun _ _ => rfl, fun x _ => s.rd8_corrected (Bool.eq_false_of_not_eq_true hl) x, fun _ _ _ => rfl,
          fun x hx => (s.keeps_ecc _).2.2 x fun hm => hx (by simp_all [issueParts])⟩
      exact hecc.trans (Stage.issueKeeps_eccOne ..)

/-- A word stored is one of those that the issue stores. -/
theorem Stage.issueKeeps_wr32 (s : Stage) {a : Nat} (v : Word) (h : a ∈ l) : IssueKeeps k l s (s.wr32 a v) := by
  have hbyte : ∀ x, (∀ y ∈ l, x < y ∨ y + 4 ≤ x) → (s.wr32 a v).rd8 x = s.rd8 x := fun x hx => s.rd8_wr32_other v (hx a h)
  obtain ⟨m, hm⟩ := s.wr32_frame a v
  rw [hm] at hbyte ⊢
  exact ⟨fun _ _ => rfl, hbyte, fun _ _ _ => rfl, fun x hx => by cases x <;> simp_all [Part.same, issueParts]⟩

/-! ### The processor put back (R66, R101) -/

theorem Stage.sp_putSp_other (s : Stage) {j : Nat} (v : SpSt) (h : j ≠ k) : (s.putSp k v).sp j = s.sp j := by
  unfold Stage.putSp Stage.sp
  rw [Stage.raiseIf_sps]
  exact Tab.get_put_other _ _ _ _ h

theorem Stage.issueKeeps_putSp (s : Stage) (v : SpSt) : IssueKeeps k l s (s.putSp k v) :=
  ⟨fun _ hj => s.sp_putSp_other v hj, fun _ _ => Stage.rd8_congr (s.putSp_mem ..) (s.putSp_ecc ..) _,
    fun _ _ ho => s.reg_putSp_other v ho.1 ho.2.1, fun x hx => by cases x <;> simp_all [Part.same, issueParts]⟩

/-- MBOX_OUT and DBG_PC are the registers of its own page that an issue writes (R91, R104). -/
theorem Stage.issueKeeps_setReg (s : Stage) {o : Nat} (v : Word) (h : o = 0x0A8 ∨ o = 0x408) : IssueKeeps k l s (s.setReg (pSp k) o v) := by
  refine (keeps_of_regs (p := pSp k) (o := o) ⟨_, rfl⟩ (fun q x hne => s.reg_setReg_other v hne) (by omega) (by omega)).issueKeeps (by simp) ?_
  intro p off ho
  obtain ⟨hlt, -, hown, -⟩ := ho
  exact s.reg_setReg_other v (by omega)

theorem Stage.issueKeeps_spReturns (s : Stage) (old new : SpRun) : IssueKeeps k l s (s.spReturns k old new) := by
  obtain ⟨b, h⟩ := s.spReturns_frame k old new
  rw [h]
  exact ⟨fun _ _ => rfl, fun _ _ => rfl, fun _ _ _ => rfl, fun x hx => by cases x <;> simp_all [Part.same, issueParts]⟩

theorem IssueKeeps.ends (h : IssueKeeps k l s t) (v : Stage) : IssueKeeps k l s (v.ends t) := by
  obtain ⟨hsp, hmem, hreg, hpart⟩ := h
  exact ⟨fun j hj => (Stage.ends_sp ..).trans (hsp j hj), fun a ha => (Stage.rd8_congr (Stage.ends_mem ..) (Stage.ends_ecc ..) a).trans (hmem a ha),
    fun p o ho => (Stage.ends_reg _ _ ho.1 ho.2.1).trans (hreg p o ho), fun x hx => Part.same_ends (hpart x hx)⟩

end

/-! ### Issue -/

/-- The addresses of the words that a bundle stores. -/
def storedAt (s : Stage) (k : Nat) (b : Bundle) : List Nat := (runSlots s k (s.sp k).landNow b).stores.map Prod.fst

theorem Stage.issueKeeps_spWritten (s : Stage) (k : Nat) (b : Bundle) :
    IssueKeeps k (storedAt s k b) s (s.spWritten k (s.sp k).landNow b) := by
  unfold Stage.spWritten
  dsimp only
  have hread := IssueKeeps.foldl (k := k) (l := storedAt s k b) (as := (runSlots s k (s.sp k).landNow b).seen)
    (fun t a _ => t.issueKeeps_eccRead a k) s
  have hstore := fun t => IssueKeeps.foldl (k := k) (l := storedAt s k b) (as := (runSlots s k (s.sp k).landNow b).stores)
    (fun t e he => t.issueKeeps_wr32 e.2 (List.mem_map_of_mem he)) t
  exact (((hread.trans (hstore _)).trans (Stage.issueKeeps_putSp _ _)).trans (Stage.issueKeeps_setReg _ _ (.inr rfl))).trans
    (Stage.issueKeeps_spReturns ..)

theorem Stage.issueKeeps_spExecute (s : Stage) (k : Nat) (b : Bundle) :
    IssueKeeps k (storedAt s k b) s (s.spExecute k (s.sp k).landNow b) := by
  rcases s.spExecute_cases k (s.sp k).landNow b with h | ⟨d, -, h⟩ <;> rw [h]
  · exact s.issueKeeps_spWritten k b
  · exact ((s.issueKeeps_spWritten k b).trans (Stage.issueKeeps_setReg _ _ (.inl rfl))).trans (Stage.issueKeeps_raise _ _ (by omega))

/-- A bundle that idles, stalls, faults or executes keeps what an issue keeps. -/
theorem Stage.issueKeeps_issueBundle (s : Stage) (k : Nat) (b : Bundle) : IssueKeeps k (storedAt s k b) s (s.issueBundle k b) := by
  cases hidle : (s.sp k).active && !(s.sp k).entryDue with
  | false => rw [s.issueBundle_idle k b hidle]; exact .refl s
  | true =>
    obtain ⟨ha, he⟩ := Bool.and_eq_true_iff.mp hidle
    have he : (s.sp k).entryDue = false := by simpa using he
    cases hf : (s.sp k).landNow.bundleFault (s.sp k).landNow.pc b with
    | some c => rw [Stage.issueBundle_faults ha he hf]; exact s.issueKeeps_putSp _
    | none =>
      cases hs : (s.sp k).landNow.stalls b with
      | true => rw [Stage.issueBundle_stalls ha he hf hs]; exact .refl s
      | false => rw [Stage.issueBundle_executes ha he hf hs]; exact s.issueKeeps_spExecute k b

/-- So does the whole command, whether its processor is live or not. -/
theorem issueKeeps_exec {c : Instr} {s t : State} {k : Nat} {b : Bundle} (hc : slotBundle c = some (k, b)) (h : exec c s = .next t) :
    IssueKeeps k (storedAt s.stage k b) s.stage t.stage := by
  have hblock : IssueKeeps k (storedAt s.stage k b) s.stage (s.stage.block .sp k fun t => t.issueBundle k b) := by
    rcases s.stage.block_cases .sp k fun t => t.issueBundle k b with hb | hb <;> rw [hb]
    · exact s.stage.issueKeeps_issueBundle k b
    · exact .refl _
  cases hup : s.stage.dieUp with
  | false =>
    rw [exec_slot hc, State.act_down _ _ hup] at h
    cases h
    exact .refl _
  | true =>
    rw [exec_slot hc, State.act_up _ _ hup] at h
    cases h
    exact hblock.ends _

/-- Settles O16, by what each part of an issue keeps (`Stage.issueKeeps_issueBundle`). -/
theorem issueFrame : Obligations.IssueFrame := by
  intro c s t k b hc h
  obtain ⟨hsp, hmem, hreg, hpart⟩ := issueKeeps_exec hc h
  refine ⟨hsp, fun a ha => hmem a fun x hx => ?_, fun p off ho hn hown hpool hred => hreg p off ⟨ho, hn, hown, hpool, hred⟩, hpart .exch (by decide),
    hpart .datum (by decide), hpart .bats (by decide), (hpart .ports (by decide)).1, hpart .links (by decide), (hpart .waiting (by decide)).1,
    hpart .graph (by decide), hpart .level (by decide)⟩
  obtain ⟨e, he, rfl⟩ := List.mem_map.mp hx
  exact ha e he

end Sys2Proof.Machine
end

section
/-!
PROOF. The encodings of the four slots (R110, R112, R115, R118, R122): what the fields of each format read, and the statements O27 and O28.
-/
namespace Sys2Proof
open Sys2Proof.Machine

/-! ### Fields of a word -/

section
variable {p x : Nat} (hp : p < 16) (hx : x < 2 ^ 28)
include hp hx

theorem bits_predicate : bits (p * 2 ^ 28 + x) 31 28 = p := by unfold bits; omega

omit hp in
theorem bits_operation : bits (p * 2 ^ 28 + x) 27 0 = x := by unfold bits; omega

theorem slotWord_lt : p * 2 ^ 28 + x < 2 ^ 32 := by omega

end

/-- A word is its predicate and the 28 bits below. -/
theorem word_eq_fields {w : Nat} (h : w < 2 ^ 32) : bits w 31 28 * 2 ^ 28 + bits w 27 0 = w := by unfold bits; omega

theorem predLegal_lt {p : Nat} (h : predLegal p = true) : p < 16 := by
  simp only [predLegal, Bool.or_eq_true, Bool.and_eq_true, decide_eq_true_eq, beq_iff_eq] at h
  omega

/-! ### Multiply slots -/

theorem mopOf_code (op : MOp) : mopOf op.code = some op := by cases op <;> rfl

theorem code_of_mopOf {c : Nat} {op : MOp} (h : mopOf c = some op) : op.code = c := by
  unfold mopOf at h
  split at h <;> cases h <;> rfl

theorem MOp.code_lt (op : MOp) : op.code < 8 := by cases op <;> decide

theorem MSlot.fields_of_legal {m : MSlot} (h : m.legal = true) :
    m.pred < 16 ∧ m.acc < 8 ∧ m.sa < 32 ∧ m.sb < 32 ∧ m.lm < 4 ∧ m.lp < 12 ∧ m.ld < 32 := by
  simp only [MSlot.legal, Bool.and_eq_true, decide_eq_true_eq] at h
  obtain ⟨⟨⟨⟨⟨⟨⟨⟨hp, hacc⟩, hsa⟩, hsb⟩, hlm⟩, hlp⟩, hld⟩, -⟩, -⟩ := h
  exact ⟨predLegal_lt hp, hacc, hsa, hsb, hlm, hlp, hld⟩

theorem MSlot.word_lt {m : MSlot} (h : m.legal = true) : m.word < 2 ^ 32 := by
  obtain ⟨hp, hacc, hsa, hsb, hlm, hlp, hld⟩ := MSlot.fields_of_legal h
  have hop := m.op.code_lt
  unfold MSlot.word
  split <;> omega

/-- The fields of a multiply slot's word (R115). -/
theorem bits_mWord {p c f k a b l q d : Nat} (hp : p < 16) (hc : c < 8) (hf : f < 2) (hk : k < 8) (ha : a < 32) (hb : b < 32) (hl : l < 4)
    (hq : q < 16) (hd : d < 32) {w : Nat}
    (hw : w = p * 2 ^ 28 + c * 2 ^ 25 + f * 2 ^ 24 + k * 2 ^ 21 + a * 2 ^ 16 + b * 2 ^ 11 + l * 2 ^ 9 + q * 2 ^ 5 + d) :
    bits w 31 28 = p ∧ bits w 27 25 = c ∧ bits w 24 24 = f ∧ bits w 23 21 = k ∧ bits w 20 16 = a ∧ bits w 15 11 = b ∧ bits w 10 9 = l
      ∧ bits w 8 5 = q ∧ bits w 4 0 = d := by
  unfold bits
  refine ⟨?_, ?_, ?_, ?_, ?_, ?_, ?_, ?_, ?_⟩ <;> omega

theorem MSlot.bits_word {m : MSlot} (h : m.legal = true) : bits m.word 31 28 = m.pred ∧ bits m.word 27 25 = m.op.code
    ∧ bits m.word 24 24 = m.fs.toNat ∧ bits m.word 23 21 = m.acc ∧ bits m.word 20 16 = m.sa ∧ bits m.word 15 11 = m.sb
    ∧ bits m.word 10 9 = m.lm ∧ bits m.word 8 5 = m.lp ∧ bits m.word 4 0 = m.ld := by
  obtain ⟨hp, hacc, hsa, hsb, hlm, hlp, hld⟩ := MSlot.fields_of_legal h
  have hfs : (if m.fs then 2 ^ 24 else 0) = m.fs.toNat * 2 ^ 24 := by cases m.fs <;> simp
  refine bits_mWord hp m.op.code_lt (Bool.toNat_lt m.fs) hacc hsa hsb hlm (by omega) hld ?_
  rw [MSlot.word, hfs]

/-- A word with the fields of a legal slot holds that slot. -/
theorem decodeM_of_fields {m : MSlot} {w : Nat} (h : m.legal = true) (hp : bits w 31 28 = m.pred) (hop : bits w 27 25 = m.op.code)
    (hfs : bits w 24 24 = m.fs.toNat) (hacc : bits w 23 21 = m.acc) (hsa : bits w 20 16 = m.sa) (hsb : bits w 15 11 = m.sb)
    (hlm : bits w 10 9 = m.lm) (hlp : bits w 8 5 = m.lp) (hld : bits w 4 0 = m.ld) : decodeM w = some m := by
  have hf : bit w 24 = m.fs := by rw [bit_eq_bits, hfs]; cases m.fs <;> rfl
  unfold decodeM
  rw [hp, hop, hf, hacc, hsa, hsb, hlm, hlp, hld, mopOf_code]
  exact if_pos h

theorem decodeM_word {m : MSlot} (h : m.legal = true) : decodeM m.word = some m := by
  obtain ⟨hp, hop, hfs, hacc, hsa, hsb, hlm, hlp, hld⟩ := MSlot.bits_word h
  exact decodeM_of_fields h hp hop hfs hacc hsa hsb hlm hlp hld

theorem ite_bit (n i : Nat) : (if bit n i then 2 ^ i else 0) = bits n i i * 2 ^ i := by
  have hlt : bits n i i < 2 := (bits_lt n i i).trans_eq (by rw [Nat.add_sub_cancel_left, Nat.pow_one])
  rw [bit_eq_bits]
  interval_cases bits n i i <;> simp

/-- A word that decodes is made of its fields. -/
theorem word_of_decodeM {w : Nat} {m : MSlot} (hw : w < 2 ^ 32) (h : decodeM w = some m) : m.legal = true ∧ m.word = w := by
  unfold decodeM at h
  split at h
  · cases h
  · rename_i op hop
    dsimp only at h
    split at h
    · rename_i hl
      cases h
      refine ⟨hl, ?_⟩
      unfold MSlot.word
      dsimp only
      rw [code_of_mopOf hop, ite_bit]
      unfold bits
      omega
    · cases h

/-! ### The A slot -/

section
variable {w o : Nat}

theorem bits_arWord {d a b : Nat} (hd : d < 32) (ha : a < 32) (hb : b < 32) (hw : bits w 27 0 = arWord o d a b) :
    bits w 27 22 = o ∧ bits w 21 17 = d ∧ bits w 16 12 = a ∧ bits w 11 7 = b := by
  unfold bits arWord at *
  refine ⟨?_, ?_, ?_, ?_⟩ <;> omega

theorem bits_aiWord {d a i : Nat} (hd : d < 32) (ha : a < 32) (hi : i < 4096) (hw : bits w 27 0 = aiWord o d a i) :
    bits w 27 22 = o ∧ bits w 21 17 = d ∧ bits w 16 12 = a ∧ bits w 11 0 = i ∧ bits w 4 0 = i % 32 := by
  unfold bits aiWord at *
  refine ⟨?_, ?_, ?_, ?_, ?_⟩ <;> omega

theorem bits_aaWord {c k a d s : Nat} (hc : c < 8) (hk : k < 8) (ha : a < 32) (hd : d < 32) (hs : s < 64)
    (hw : bits w 27 0 = aaWord o c k a d s) :
    bits w 27 22 = o ∧ bits w 21 19 = c ∧ bits w 18 16 = k ∧ bits w 15 11 = a ∧ bits w 10 6 = d ∧ bits w 5 0 = s ∧
      bits w 1 0 = s % 4 := by
  unfold bits aaWord at *
  refine ⟨?_, ?_, ?_, ?_, ?_, ?_, ?_⟩ <;> omega

theorem bits_afWord {f a low : Nat} (hf : f < 4) (ha : a < 32) (hl : low < 4096) (hw : bits w 27 0 = afWord o f a low) :
    bits w 27 22 = o ∧ bits w 21 20 = f ∧ bits w 16 12 = a ∧ bits w 11 0 = low ∧ bits w 11 7 = low / 2 ^ 7 ∧ bits w 4 0 = low % 32 := by
  unfold bits afWord at *
  refine ⟨?_, ?_, ?_, ?_, ?_, ?_⟩ <;> omega

/-- The tests of an accumulator. -/
theorem bits_testWord {f k : Nat} (hf : f < 4) (hk : k < 8) (hw : bits w 27 0 = o * 2 ^ 22 + f * 2 ^ 20 + k * 2 ^ 16) :
    bits w 27 22 = o ∧ bits w 21 20 = f ∧ bits w 18 16 = k := by
  unfold bits at *
  refine ⟨?_, ?_, ?_⟩ <;> omega

/-- The operation on two flags. -/
theorem bits_fopWord {f a b t : Nat} (hf : f < 4) (ha : a < 4) (hb : b < 4) (ht : t < 16)
    (hw : bits w 27 0 = o * 2 ^ 22 + f * 2 ^ 20 + a * 2 ^ 18 + b * 2 ^ 16 + t) :
    bits w 27 22 = o ∧ bits w 21 20 = f ∧ bits w 19 18 = a ∧ bits w 17 16 = b ∧ bits w 3 0 = t := by
  unfold bits at *
  refine ⟨?_, ?_, ?_, ?_, ?_⟩ <;> omega

end

/-- The 28 bits of an operation with legal fields name it (R118, R119). -/
theorem aopOf_of_word {w : Nat} {op : AOp} (h : op.fieldsLegal = true) (hw : bits w 27 0 = op.word) : aopOf w = some op := by
  cases op <;> simp only [AOp.fieldsLegal, Bool.and_eq_true, decide_eq_true_eq] at h
  case nop =>
    obtain ⟨ho, -, -, -⟩ := bits_arWord (o := 0) (by decide : 0 < 32) (by decide : 0 < 32) (by decide : 0 < 32) hw
    simp only [aopOf, ho]
  case add d a b | sub d a b | adds d a b | subs d a b | and d a b | or d a b | xor d a b | min d a b | max d a b | shv d a b =>
    obtain ⟨⟨hd, ha⟩, hb⟩ := h
    obtain ⟨ho, hd, ha, hb⟩ := bits_arWord hd ha hb hw
    simp only [aopOf, ho, hd, ha, hb]
  case not d a | neg d a | abs d a | mov d a =>
    obtain ⟨ho, hd, ha, -⟩ := bits_arWord h.1 h.2 (by decide) hw
    simp only [aopOf, ho, hd, ha]
  case addi d a i =>
    obtain ⟨⟨hd, ha⟩, hi⟩ := h
    obtain ⟨ho, hd, ha, hi, -⟩ := bits_aiWord hd ha hi hw
    simp only [aopOf, ho, hd, ha, hi]
  case shli d a n | shri d a n | srai d a n | shlsi d a n =>
    obtain ⟨⟨hd, ha⟩, hlt⟩ := h
    obtain ⟨ho, hd, ha, -, hn⟩ := bits_aiWord hd ha (by omega) hw
    simp only [aopOf, ho, hd, ha, hn, Nat.mod_eq_of_lt hlt]
  case extr k d s =>
    obtain ⟨⟨hk, hd⟩, hs⟩ := h
    obtain ⟨ho, -, hk, -, hd, hs, -⟩ := bits_aaWord (by decide) hk (by decide) hd hs hw
    simp only [aopOf, ho, hk, hd, hs]
  case norm k d | expa k d =>
    obtain ⟨ho, -, hk, -, hd, -, -⟩ := bits_aaWord (by decide) h.1 (by decide) h.2 (by decide) hw
    simp only [aopOf, ho, hk, hd]
  case expd a d =>
    obtain ⟨ho, -, -, ha, hd, -, -⟩ := bits_aaWord (by decide) (by decide) h.2 h.1 (by decide) hw
    simp only [aopOf, ho, ha, hd]
  case aclr c =>
    obtain ⟨ho, hc, -, -, -, -, -⟩ := bits_aaWord h (by decide) (by decide) (by decide) (by decide) hw
    simp only [aopOf, ho, hc]
  case amov c k | aadd c k | asub c k | aneg c k =>
    obtain ⟨ho, hc, hk, -, -, -, -⟩ := bits_aaWord h.1 h.2 (by decide) (by decide) (by decide) hw
    simp only [aopOf, ho, hc, hk]
  case ashi c k s =>
    obtain ⟨⟨hc, hk⟩, hs⟩ := h
    obtain ⟨ho, hc, hk, -, -, hs, -⟩ := bits_aaWord hc hk (by decide) (by decide) hs hw
    simp only [aopOf, ho, hc, hk, hs]
  case ashd c k a =>
    obtain ⟨⟨hc, hk⟩, ha⟩ := h
    obtain ⟨ho, hc, hk, ha, -, -, -⟩ := bits_aaWord hc hk ha (by decide) (by decide) hw
    simp only [aopOf, ho, hc, hk, ha]
  case dtoa c a s =>
    obtain ⟨⟨hc, ha⟩, hs⟩ := h
    obtain ⟨ho, hc, -, ha, -, hs, -⟩ := bits_aaWord hc (by decide) ha (by decide) hs hw
    simp only [aopOf, ho, hc, ha, hs]
  case ard k d p =>
    obtain ⟨⟨hk, hd⟩, hlt⟩ := h
    obtain ⟨ho, -, hk, -, hd, -, hp⟩ := bits_aaWord (by decide) hk (by decide) hd (by omega) hw
    simp only [aopOf, ho, hk, hd, hp, Nat.mod_eq_of_lt (Nat.lt_succ_of_lt hlt)]
  case awr c a p =>
    obtain ⟨⟨hc, ha⟩, hlt⟩ := h
    obtain ⟨ho, hc, -, ha, -, -, hp⟩ := bits_aaWord hc (by decide) ha (by decide) (by omega) hw
    simp only [aopOf, ho, hc, ha, hp, Nat.mod_eq_of_lt (Nat.lt_succ_of_lt hlt)]
  case cmpeq f a b | cmplt f a b | cmple f a b | cmpltu f a b =>
    obtain ⟨⟨hf, ha⟩, hb⟩ := h
    obtain ⟨ho, hf, ha, -, hb, -⟩ := bits_afWord hf ha (by omega) hw
    simp only [aopOf, ho, hf, ha, hb, Nat.mul_div_cancel _ (Nat.two_pow_pos 7)]
  case cmpeqi f a i | cmplti f a i | cmpgti f a i =>
    obtain ⟨⟨hf, ha⟩, hi⟩ := h
    obtain ⟨ho, hf, ha, hi, -, -⟩ := bits_afWord hf ha hi hw
    simp only [aopOf, ho, hf, ha, hi]
  case btst f a n =>
    obtain ⟨⟨hf, ha⟩, hlt⟩ := h
    obtain ⟨ho, hf, ha, -, -, hn⟩ := bits_afWord hf ha (by omega) hw
    simp only [aopOf, ho, hf, ha, hn, Nat.mod_eq_of_lt hlt]
  case atstn f k | atstz f k =>
    obtain ⟨ho, hf, hk⟩ := bits_testWord h.1 h.2 hw
    simp only [aopOf, ho, hf, hk]
  case fop f a b t =>
    obtain ⟨⟨⟨hf, ha⟩, hb⟩, ht⟩ := h
    obtain ⟨ho, hf, ha, hb, ht⟩ := bits_fopWord hf ha hb ht hw
    simp only [aopOf, ho, hf, ha, hb, ht]

/-- Legal fields fit below the predicate. -/
theorem AOp.word_lt {op : AOp} (h : op.fieldsLegal = true) : op.word < 2 ^ 28 := by
  cases op <;> simp only [AOp.fieldsLegal, Bool.and_eq_true, decide_eq_true_eq] at h <;>
    simp only [AOp.word, arWord, aiWord, aaWord, afWord] <;> omega

/-! ### The T slot -/

theorem sregLegal_lt {c : Nat} (h : sregLegal c = true) : c < 128 := by
  simp only [sregLegal, Bool.or_eq_true, Bool.and_eq_true, decide_eq_true_eq] at h
  omega

theorem tmLegal_lt {p am imm : Nat} (h : tmLegal p am imm = true) : p < 16 ∧ am < 4 ∧ imm < 2048 := by
  simp only [tmLegal, Bool.and_eq_true, decide_eq_true_eq] at h
  omega

section
variable {w o : Nat}

theorem bits_tmWord {d p m i : Nat} (hd : d < 32) (ht : tmLegal p m i = true) (hw : bits w 27 0 = tmWord o d p m i) :
    bits w 27 22 = o ∧ bits w 21 17 = d ∧ bits w 16 13 = p ∧ bits w 12 11 = m ∧ bits w 10 0 = i := by
  obtain ⟨hp, hm, hi⟩ := tmLegal_lt ht
  unfold bits tmWord at *
  refine ⟨?_, ?_, ?_, ?_, ?_⟩ <;> omega

/-- A D register above an immediate. -/
theorem bits_tdWord {d i : Nat} (hd : d < 32) (hi : i < 131072) (hw : bits w 27 0 = o * 2 ^ 22 + d * 2 ^ 17 + i) :
    bits w 27 22 = o ∧ bits w 21 17 = d ∧ bits w 16 0 = i ∧ bits w 15 0 = i % 65536 := by
  unfold bits at *
  refine ⟨?_, ?_, ?_, ?_⟩ <;> omega

/-- A special register above a D register or an immediate. -/
theorem bits_tsWord {r i : Nat} (hr : sregLegal r = true) (hi : i < 32768) (hw : bits w 27 0 = o * 2 ^ 22 + r * 2 ^ 15 + i) :
    bits w 27 22 = o ∧ bits w 21 15 = r ∧ bits w 14 0 = i ∧ bits w 14 10 = i / 2 ^ 10 := by
  have hr := sregLegal_lt hr
  unfold bits at *
  refine ⟨?_, ?_, ?_, ?_⟩ <;> omega

/-- A target, an entry or a count alone. -/
theorem bits_tiWord {i : Nat} (hi : i < 2048) (hw : bits w 27 0 = o * 2 ^ 22 + i) :
    bits w 27 22 = o ∧ bits w 10 0 = i ∧ bits w 8 0 = i % 512 ∧ bits w 1 0 = i % 4 := by
  unfold bits at *
  refine ⟨?_, ?_, ?_, ?_⟩ <;> omega

/-- A hardware loop. -/
theorem bits_tlWord {rot : Bool} {e c : Nat} (he : e < 2048) (hc : c < 1024)
    (hw : bits w 27 0 = o * 2 ^ 22 + (if rot then 2 ^ 21 else 0) + e * 2 ^ 10 + c) :
    bits w 27 22 = o ∧ bit w 21 = rot ∧ bits w 20 10 = e ∧ bits w 9 0 = c ∧ bits w 4 0 = c % 32 := by
  have hr : (if rot then 2 ^ 21 else 0) = rot.toNat * 2 ^ 21 := by cases rot <;> rfl
  have hlt := Bool.toNat_lt rot
  have hrot : bits w 21 21 = rot.toNat := by rw [hr] at hw; unfold bits at *; omega
  refine ⟨?_, by rw [bit_eq_bits, hrot]; cases rot <;> rfl, ?_, ?_, ?_⟩ <;> rw [hr] at hw <;> unfold bits at * <;> omega

end

/-- The 28 bits of an operation with legal fields name it (R122, R123). -/
theorem topOf_of_word {w : Nat} {op : TOp} (h : op.fieldsLegal = true) (hw : bits w 27 0 = op.word) : topOf w = some op := by
  cases op <;> simp only [TOp.fieldsLegal, Bool.and_eq_true, decide_eq_true_eq] at h
  case nop =>
    obtain ⟨ho, -, -, -⟩ := bits_tiWord (o := 0) (by decide : 0 < 2048) hw
    simp only [topOf, ho]
  case ldc d p m i | stx d p m i | sty d p m i | stc d p m i =>
    obtain ⟨ho, hd, hp, hm, hi⟩ := bits_tmWord h.1 h.2 hw
    simp only [topOf, ho, hd, hp, hm, hi]
  case modp p m i =>
    obtain ⟨ho, -, hp, hm, hi⟩ := bits_tmWord (by decide) h.1 hw
    simp only [topOf, ho, hp, hm, hi]
  case far p m i =>
    obtain ⟨ho, -, hp, hm, hi⟩ := bits_tmWord (by decide) h hw
    simp only [topOf, ho, hp, hm, hi]
  case movi d i =>
    obtain ⟨ho, hd, hi, -⟩ := bits_tdWord h.1 h.2 hw
    simp only [topOf, ho, hd, hi]
  case movhi d i =>
    obtain ⟨ho, hd, -, hi⟩ := bits_tdWord h.1 (by omega) hw
    simp only [topOf, ho, hd, hi, Nat.mod_eq_of_lt h.2]
  case movs r d | movr r d =>
    obtain ⟨ho, hr, -, hd⟩ := bits_tsWord h.1 (by omega) hw
    simp only [topOf, ho, hr, hd, Nat.mul_div_cancel _ (Nat.two_pow_pos 10)]
  case movsi r i =>
    obtain ⟨ho, hr, hi, -⟩ := bits_tsWord h.1 h.2 hw
    simp only [topOf, ho, hr, hi]
  case br t | call t | lexit t =>
    obtain ⟨ho, ht, -, -⟩ := bits_tiWord h hw
    simp only [topOf, ho, ht]
  case ret | iret | sdone =>
    obtain ⟨ho, -, -, -⟩ := bits_tiWord (by decide) (hw.trans (Nat.add_zero _).symm)
    simp only [topOf, ho]
  case loop rot e c =>
    obtain ⟨ho, hr, he, hc, -⟩ := bits_tlWord h.1 h.2 hw
    simp only [topOf, ho, hr, he, hc]
  case loopd rot e d =>
    obtain ⟨ho, hr, he, -, hd⟩ := bits_tlWord h.1 (by omega) hw
    simp only [topOf, ho, hr, he, hd, Nat.mod_eq_of_lt h.2]
  case swait j =>
    obtain ⟨ho, -, hj, -⟩ := bits_tiWord (by omega) hw
    simp only [topOf, ho, hj, Nat.mod_eq_of_lt h]
  case fwait n =>
    obtain ⟨ho, -, -, hn⟩ := bits_tiWord (by omega) hw
    simp only [topOf, ho, hn, Nat.mod_eq_of_lt h]
  case mbrd d | mbwr d =>
    obtain ⟨ho, hd, -, -⟩ := bits_tdWord h (by decide) (hw.trans (Nat.add_zero _).symm)
    simp only [topOf, ho, hd]

theorem TOp.word_lt {op : TOp} (h : op.fieldsLegal = true) : op.word < 2 ^ 28 := by
  cases op <;> simp only [TOp.fieldsLegal, Bool.and_eq_true, decide_eq_true_eq] at h
  case ldc | stx | sty | stc =>
    obtain ⟨hp, hm, hi⟩ := tmLegal_lt h.2
    simp only [TOp.word, tmWord]
    omega
  case modp =>
    obtain ⟨hp, hm, hi⟩ := tmLegal_lt h.1
    simp only [TOp.word, tmWord]
    omega
  case far =>
    obtain ⟨hp, hm, hi⟩ := tmLegal_lt h
    simp only [TOp.word, tmWord]
    omega
  case movs | movr | movsi =>
    have hr := sregLegal_lt h.1
    simp only [TOp.word]
    omega
  case loop | loopd =>
    simp only [TOp.word]
    split <;> omega
  all_goals
    simp only [TOp.word]
    omega

/-! ### Slots and bundles (R110) -/

theorem ASlot.legal_iff (a : ASlot) : a.legal = true ↔ predLegal a.pred = true ∧ a.op.fieldsLegal = true := Bool.and_eq_true_iff

theorem TSlot.legal_iff (t : TSlot) : t.legal = true ↔ predLegal t.pred = true ∧ t.op.fieldsLegal = true := Bool.and_eq_true_iff

theorem ASlot.word_lt {a : ASlot} (h : a.legal = true) : a.word < 2 ^ 32 :=
  slotWord_lt (predLegal_lt (a.legal_iff.mp h).1) (AOp.word_lt (a.legal_iff.mp h).2)

theorem TSlot.word_lt {t : TSlot} (h : t.legal = true) : t.word < 2 ^ 32 :=
  slotWord_lt (predLegal_lt (t.legal_iff.mp h).1) (TOp.word_lt (t.legal_iff.mp h).2)

/-- A word with the predicate and the operation of a legal slot holds that slot. -/
theorem decodeA_of_fields {a : ASlot} {w : Nat} (h : a.legal = true) (hp : bits w 31 28 = a.pred) (hw : bits w 27 0 = a.op.word) :
    decodeA w = some a := by
  obtain ⟨hpred, hop⟩ := a.legal_iff.mp h
  unfold decodeA
  rw [aopOf_of_word hop hw, hp, hw]
  exact if_pos (by rw [hpred, hop, beq_self_eq_true]; rfl)

theorem decodeA_word {a : ASlot} (h : a.legal = true) : decodeA a.word = some a := by
  obtain ⟨hp, hop⟩ := a.legal_iff.mp h
  exact decodeA_of_fields h (bits_predicate (predLegal_lt hp) (AOp.word_lt hop)) (bits_operation (AOp.word_lt hop))

/-- A word with the predicate and the operation of a legal slot holds that slot. -/
theorem decodeT_of_fields {t : TSlot} {w : Nat} (h : t.legal = true) (hp : bits w 31 28 = t.pred) (hw : bits w 27 0 = t.op.word) :
    decodeT w = some t := by
  obtain ⟨hpred, hop⟩ := t.legal_iff.mp h
  unfold decodeT
  rw [topOf_of_word hop hw, hp, hw]
  exact if_pos (by rw [hpred, hop, beq_self_eq_true]; rfl)

theorem decodeT_word {t : TSlot} (h : t.legal = true) : decodeT t.word = some t := by
  obtain ⟨hp, hop⟩ := t.legal_iff.mp h
  exact decodeT_of_fields h (bits_predicate (predLegal_lt hp) (TOp.word_lt hop)) (bits_operation (TOp.word_lt hop))

/-- What decodes has been checked against its own word. -/
theorem word_of_decodeA {w : Nat} {a : ASlot} (hw : w < 2 ^ 32) (h : decodeA w = some a) : a.legal = true ∧ a.word = w := by
  unfold decodeA at h
  split at h
  · cases h
  · split at h
    · rename_i op _ hc
      cases h
      simp only [Bool.and_eq_true, beq_iff_eq] at hc
      obtain ⟨⟨hp, hop⟩, hword⟩ := hc
      exact ⟨Bool.and_eq_true_iff.mpr ⟨hp, hop⟩, (congrArg (bits w 31 28 * 2 ^ 28 + ·) hword).trans (word_eq_fields hw)⟩
    · cases h

theorem word_of_decodeT {w : Nat} {t : TSlot} (hw : w < 2 ^ 32) (h : decodeT w = some t) : t.legal = true ∧ t.word = w := by
  unfold decodeT at h
  split at h
  · cases h
  · split at h
    · rename_i op _ hc
      cases h
      simp only [Bool.and_eq_true, beq_iff_eq] at hc
      obtain ⟨⟨hp, hop⟩, hword⟩ := hc
      exact ⟨Bool.and_eq_true_iff.mpr ⟨hp, hop⟩, (congrArg (bits w 31 28 * 2 ^ 28 + ·) hword).trans (word_eq_fields hw)⟩
    · cases h

/-- Four words of 32 bits beside each other. -/
theorem bits_quad {a b c d w : Nat} (ha : a < 2 ^ 32) (hb : b < 2 ^ 32) (hc : c < 2 ^ 32) (hd : d < 2 ^ 32)
    (hw : w = a + b * 2 ^ 32 + c * 2 ^ 64 + d * 2 ^ 96) :
    w < 2 ^ 128 ∧ bits w 31 0 = a ∧ bits w 63 32 = b ∧ bits w 95 64 = c ∧ bits w 127 96 = d := by
  unfold bits
  refine ⟨?_, ?_, ?_, ?_, ?_⟩ <;> omega

theorem quad_of_bits {w : Nat} (h : w < 2 ^ 128) :
    bits w 31 0 + bits w 63 32 * 2 ^ 32 + bits w 95 64 * 2 ^ 64 + bits w 127 96 * 2 ^ 96 = w := by
  unfold bits
  omega

theorem Bundle.legal_iff (b : Bundle) : b.legal = true ↔ b.m1.legal = true ∧ b.m2.legal = true ∧ b.a.legal = true ∧ b.t.legal = true := by
  simp only [Bundle.legal, Bool.and_eq_true, and_assoc]

/-- A word made of the words of four legal slots holds their bundle. -/
theorem decodeBundle_of_fields {b : Bundle} {w : Nat} (h : b.legal = true) (h1 : bits w 31 0 = b.m1.word) (h2 : bits w 63 32 = b.m2.word)
    (ha : bits w 95 64 = b.a.word) (ht : bits w 127 96 = b.t.word) : decodeBundle w = some b := by
  obtain ⟨hl1, hl2, hla, hlt⟩ := b.legal_iff.mp h
  unfold decodeBundle
  rw [h1, h2, ha, ht, decodeM_word hl1, decodeM_word hl2, decodeA_word hla, decodeT_word hlt]

theorem decodeBundle_encodeBundle {b : Bundle} (h : b.legal = true) : encodeBundle b < 2 ^ 128 ∧ decodeBundle (encodeBundle b) = some b := by
  obtain ⟨h1, h2, ha, ht⟩ := b.legal_iff.mp h
  obtain ⟨hlt, hb1, hb2, hba, hbt⟩ :=
    bits_quad (w := encodeBundle b) (MSlot.word_lt h1) (MSlot.word_lt h2) (ASlot.word_lt ha) (TSlot.word_lt ht) rfl
  exact ⟨hlt, decodeBundle_of_fields h hb1 hb2 hba hbt⟩

theorem encodeBundle_decodeBundle {w : Nat} {b : Bundle} (hw : w < 2 ^ 128) (h : decodeBundle w = some b) :
    b.legal = true ∧ encodeBundle b = w := by
  unfold decodeBundle at h
  split at h
  · rename_i m1 m2 a t h1 h2 ha ht
    cases h
    obtain ⟨hl1, hw1⟩ := word_of_decodeM (bits_lt w 31 0) h1
    obtain ⟨hl2, hw2⟩ := word_of_decodeM (bits_lt w 63 32) h2
    obtain ⟨hla, hwa⟩ := word_of_decodeA (bits_lt w 95 64) ha
    obtain ⟨hlt, hwt⟩ := word_of_decodeT (bits_lt w 127 96) ht
    refine ⟨(Bundle.legal_iff _).mpr ⟨hl1, hl2, hla, hlt⟩, ?_⟩
    unfold encodeBundle
    dsimp only
    rw [hw1, hw2, hwa, hwt]
    exact quad_of_bits hw
  · cases h

end Sys2Proof

namespace Sys2Proof.Machine

/-- Settles O27, slot by slot: a legal slot's word has the slot's fields, and a word that decodes is made of its fields alone. -/
theorem bundleRoundTrip : Obligations.BundleRoundTrip :=
  ⟨fun _ => decodeBundle_encodeBundle, fun _ _ => encodeBundle_decodeBundle⟩

/-- Settles O28, by decoding each word. -/
theorem sampleBundles : Obligations.SampleBundles := by
  unfold Obligations.SampleBundles
  decide +kernel

end Sys2Proof.Machine
end

section
/-!
PROOF. Words, numbers and accumulators (R69, R118, R119, R121): what the word of a number is, and the arithmetic of the A slot on words.
-/
namespace Sys2Proof.Machine

/-! ### Words and their numbers -/

theorem sext_eq_toInt {w : Nat} (hw : 0 < w) (n : Nat) : sext w n = (BitVec.ofNat w n).toInt := by
  have hp : 2 ^ w = 2 * 2 ^ (w - 1) := by rw [← Nat.pow_succ']; congr 1; omega
  have hc : n % 2 ^ w < 2 ^ (w - 1) ↔ 2 * (n % 2 ^ w) < 2 ^ w := by omega
  rw [BitVec.toInt_eq_toNat_cond, BitVec.toNat_ofNat]
  simp only [sext, hc]
  push_cast
  rfl

theorem Word.ofInt_toInt (a : Word) : Word.ofInt a.toInt = a := BitVec.ofInt_toInt

theorem Word.ofInt_add (a b : Word) : Word.ofInt (a.toInt + b.toInt) = a + b := by
  rw [Word.ofInt, BitVec.ofInt_add, BitVec.ofInt_toInt, BitVec.ofInt_toInt]

theorem Word.ofInt_sub (a b : Word) : Word.ofInt (a.toInt - b.toInt) = a - b := by
  rw [Word.ofInt, Int.sub_eq_add_neg, BitVec.ofInt_add, BitVec.ofInt_neg, BitVec.ofInt_toInt, BitVec.ofInt_toInt, BitVec.sub_eq_add_neg]

theorem Word.ofInt_sext {w : Nat} (hw : 0 < w) (n : Nat) : Word.ofInt (sext w n) = (BitVec.ofNat w n).signExtend 32 := by
  rw [sext_eq_toInt hw]; rfl

theorem Word.ofInt_add_sext {w : Nat} (hw : 0 < w) (a : Word) (n : Nat) :
    Word.ofInt (a.toInt + sext w n) = a + (BitVec.ofNat w n).signExtend 32 := by
  rw [← Word.ofInt_sext hw, Word.ofInt, BitVec.ofInt_add, BitVec.ofInt_toInt]
  rfl

/-- The lesser and the greater of two words; equal ones are the same. -/
theorem Word.ofInt_min (a b : Word) : Word.ofInt (if b.toInt < a.toInt then b.toInt else a.toInt) = if a.slt b then a else b := by
  rw [apply_ite Word.ofInt, Word.ofInt_toInt, Word.ofInt_toInt, BitVec.slt_eq_decide]
  simp only [decide_eq_true_eq]
  rcases lt_trichotomy a.toInt b.toInt with h | h | h
  · rw [if_neg h.not_gt, if_pos h]
  · rw [BitVec.toInt_inj.mp h, ite_self]
  · rw [if_pos h, if_neg h.not_gt]

theorem Word.ofInt_max (a b : Word) : Word.ofInt (if a.toInt < b.toInt then b.toInt else a.toInt) = if a.slt b then b else a := by
  rw [apply_ite Word.ofInt, Word.ofInt_toInt, Word.ofInt_toInt, BitVec.slt_eq_decide]
  simp only [decide_eq_true_eq]

theorem Word.ofInt_shiftLeft (a : Word) (n : Nat) : Word.ofInt (a.toInt * 2 ^ n) = a <<< n := by
  rw [Word.ofInt, BitVec.ofInt_mul, BitVec.ofInt_toInt, BitVec.shiftLeft_eq_mul_twoPow]
  congr 1
  refine BitVec.eq_of_toNat_eq ?_
  rw [BitVec.toNat_twoPow, BitVec.toNat_ofInt]
  norm_cast

theorem Word.ofNat_shiftRight (a : Word) (n : Nat) : Word.ofInt (a.toNat / 2 ^ n : Nat) = a >>> n := by
  refine BitVec.eq_of_toNat_eq ?_
  rw [Word.ofInt_natCast, Word.ofNat, BitVec.toNat_ofNat, BitVec.toNat_ushiftRight, Nat.shiftRight_eq_div_pow]
  exact Nat.mod_eq_of_lt (Nat.lt_of_le_of_lt (Nat.div_le_self _ _) a.isLt)

theorem fdiv_two_pow (z : Int) (n : Nat) : Int.fdiv z (2 ^ n) = z / 2 ^ n := Int.fdiv_eq_ediv_of_nonneg _ (by positivity)

theorem Word.ofInt_sshiftRight (a : Word) (n : Nat) : Word.ofInt (Int.fdiv a.toInt (2 ^ n)) = a.sshiftRight n := by
  rw [BitVec.sshiftRight_eq, Int.shiftRight_eq_div_pow, fdiv_two_pow]
  push_cast
  rfl

/-- A part of an accumulator as ARD reads it (R121). -/
theorem accPart_eq {z : Int} (hz : InRange 72 z) {n : Nat} (hn : n < 3) :
    accPart z n = if n = 2 then (BitVec.ofNat 8 (bits (toBits 72 z) 71 64)).signExtend 32
      else Word.ofNat (bits (toBits 72 z) (32 * n + 31) (32 * n)) := by
  have h32 : ∀ a b : Int, a % 2 ^ 32 = b % 2 ^ 32 → Word.ofInt a = Word.ofInt b := fun a b h =>
    BitVec.eq_of_toNat_eq (by rw [Word.ofInt, Word.ofInt, BitVec.toNat_ofInt, BitVec.toNat_ofInt]; exact congrArg Int.toNat h)
  obtain ⟨hlo, hhi⟩ := hz
  interval_cases n
  · rw [if_neg (by decide), ← Word.ofInt_natCast]
    refine h32 _ _ ?_
    unfold bits toBits
    omega
  · rw [if_neg (by decide), ← Word.ofInt_natCast]
    refine h32 _ _ ?_
    rw [fdiv_two_pow]
    unfold bits toBits
    omega
  · rw [if_pos rfl, ← Word.ofInt_sext (by decide)]
    refine h32 _ _ ?_
    rw [fdiv_two_pow]
    unfold sext bits toBits
    dsimp only
    split <;> omega

theorem SpSt.acc_inRange (sp : SpSt) (k : Nat) : InRange 72 (sp.acc k) := by
  unfold InRange SpSt.acc sext toBits
  dsimp only
  split <;> omega

end Sys2Proof.Machine
end

section
/-!
PROOF. The A slot (R70, R113, R118 to R121): what each kind of operation sends, and the statements O1, O3, O4 and O5.
-/
namespace Sys2Proof.Machine

/-! ### What an A slot sends -/

theorem SpSt.Sticks.fl {a b : SpSt} (h : a.Sticks b) (i : Nat) : b.fl i = a.fl i := congrArg (bit · i) (h.2.1 rFLAGS (by decide))

theorem SpSt.Sticks.rnd {a b : SpSt} (h : a.Sticks b) : b.rnd = a.rnd := congrArg (bit · 1) (h.2.1 rSPMODE (by decide))

/-- An A slot that sends a D result. -/
theorem done_aD {c : Instr} {s : State} {k pred dd : Nat} {o : Bundle} {op : AOp} {v : Word} (hc : slotBundle c = some (k, o.withA pred op))
    (h : Runs s k (o.withA pred op) pred) (hop : ∀ y : SlotRun, (s.atIssue k).Sticks y.sp → y.aop op = y.putD 1 2 dd v) :
    Done c s (SendsD s k 1 2 dd v) :=
  done_withA hc h fun y _ hy ht => sendsD_putD hy (hop y hy ▸ ht)

/-- One that sends a flag. -/
theorem done_aF {c : Instr} {s : State} {k pred f : Nat} {o : Bundle} {op : AOp} {v : Bool} (hc : slotBundle c = some (k, o.withA pred op))
    (h : Runs s k (o.withA pred op) pred) (hop : ∀ y : SlotRun, (s.atIssue k).Sticks y.sp → y.aop op = y.aF f v) :
    Done c s (SendsF s k f v) :=
  done_withA hc h fun y _ hy ht => by
    rw [hop y hy] at ht
    exact sends_put hy ht

/-- One that sends an accumulator result under SPMODE.ACS (R120). -/
theorem done_aAcc {c : Instr} {s : State} {k pred d : Nat} {o : Bundle} {op : AOp} {z : Int} (hc : slotBundle c = some (k, o.withA pred op))
    (h : Runs s k (o.withA pred op) pred) (hop : ∀ y : SlotRun, (s.atIssue k).Sticks y.sp → y.aop op = y.aAcc d z) :
    Done c s (SendsAcc s k 1 2 d z) :=
  done_withA hc h fun y _ hy ht => by
    rw [hop y hy] at ht
    exact sendsAcc_sat72 hy ht

/-- A saturated result, with SV set where saturation changes the value (R120). -/
theorem sendsSat_aSat {s : State} {k n : Nat} {y : SlotRun} (hy : (s.atIssue k).Sticks y.sp) {t : Stage} {z : Int}
    (h : (y.aSat n z).Arrives (s.atIssue k) (t.sp k)) : SendsSat s k n z t := by
  rw [SendsSat, ← satI_32]
  refine ⟨sendsD_putD (y := { y with sp := (y.sp.sat32 z).2 }) (hy.trans (y.sp.sticks_sat32 z)) h, fun hr => h.2.1 fSV (by decide) ?_⟩
  have hset : (y.sp.sat32 z).2 = y.sp.stick fSV := if_pos (bne_iff_ne.mpr (satI_ne hr))
  change bit ((y.sp.sat32 z).2.sreg rSPSTAT) fSV = true
  rw [hset]
  exact y.sp.stick_sets (by decide)

theorem done_aSat {c : Instr} {s : State} {k pred dd : Nat} {o : Bundle} {op : AOp} {z : Int} (hc : slotBundle c = some (k, o.withA pred op))
    (h : Runs s k (o.withA pred op) pred) (hop : ∀ y : SlotRun, (s.atIssue k).Sticks y.sp → y.aop op = y.aSat dd z) :
    Done c s (SendsSat s k dd z) :=
  done_withA hc h fun y _ hy ht => sendsSat_aSat hy (hop y hy ▸ ht)

/-- An operation that runs has legal fields (R112). -/
theorem fieldsLegal_of_runsA {s : State} {k pred : Nat} {o : Bundle} {op : AOp} (h : Runs s k (o.withA pred op) pred) : op.fieldsLegal = true := by
  obtain ⟨hlegal, -⟩ := SpSt.legal_of_noFault h.1.2.2.2.1
  obtain ⟨-, -, ha, -⟩ := (Bundle.legal_iff _).mp hlegal
  exact ((ASlot.legal_iff _).mp ha).2

/-! ### Results modulo 2^32 (O1) -/

/-- Settles O1, operation by operation: what each sends, read at issue, is the word of the opcode table. -/
theorem modularResults : Obligations.ModularResults := by
  intro s k pred dd da db n aca o
  refine ⟨?add, ?sub, ?and, ?or, ?xor, ?not, ?min, ?max, ?mov, ?addi, ?shli, ?shri, ?srai, ?ard⟩ <;> intro h <;>
    refine done_aD rfl h fun y hy => ?_ <;> simp only [← hy.dReg, ← hy.acc] <;> refine congrArg (y.putD 1 2 dd) ?_
  case add => exact Word.ofInt_add ..
  case sub => exact Word.ofInt_sub ..
  case and | or | xor | not | mov => rfl
  case min => exact Word.ofInt_min ..
  case max => exact Word.ofInt_max ..
  case addi => exact Word.ofInt_add_sext (by decide) _ n
  case shli => exact Word.ofInt_shiftLeft ..
  case shri => exact Word.ofNat_shiftRight ..
  case srai => exact Word.ofInt_sshiftRight ..
  case ard =>
    have hn := fieldsLegal_of_runsA h
    simp only [AOp.fieldsLegal, Bool.and_eq_true, decide_eq_true_eq] at hn
    exact accPart_eq (y.sp.acc_inRange aca) hn.2

/-! ### Flags (O5) -/

/-- A comparison of signed words with a sign-extended immediate (R118). -/
theorem toInt_signExtend {w : Nat} (hw : 0 < w) (hle : w ≤ 32) (n : Nat) : ((BitVec.ofNat w n).signExtend 32).toInt = sext w n := by
  rw [sext_eq_toInt hw, BitVec.toInt_signExtend_of_le hle]

theorem decide_toInt_eq (a b : Word) : decide (a.toInt = b.toInt) = (a == b) := by
  rw [beq_eq_decide]
  exact decide_eq_decide.mpr BitVec.toInt_inj

/-- Settles O5, operation by operation: what each sends, read at issue, is the flag of the opcode table. -/
theorem flagResults : Obligations.FlagResults := by
  intro s k pred fk da db imm n aca fa fb tt o
  refine ⟨?cmpeq, ?cmplt, ?cmple, ?cmpltu, ?cmpeqi, ?cmplti, ?cmpgti, ?btst, ?atstn, ?atstz, ?fop⟩ <;> intro h <;>
    refine done_aF rfl h fun y hy => ?_ <;> simp only [← hy.dReg, ← hy.acc, ← hy.fl] <;> refine congrArg (y.aF fk) ?_
  case cmpeq => rfl
  case cmplt => rfl
  case cmple => rfl
  case cmpltu => rfl
  case cmpeqi => rw [← decide_toInt_eq, toInt_signExtend (by decide) (by decide)]; rfl
  case cmplti => rw [BitVec.slt, toInt_signExtend (by decide) (by decide)]; rfl
  case cmpgti => rw [BitVec.slt, toInt_signExtend (by decide) (by decide)]; rfl
  case btst => rw [bit_eq_testBit]; rfl
  case atstn | atstz => rfl
  case fop => cases y.sp.fl fa <;> cases y.sp.fl fb <;> rfl

/-! ### Saturated results (O3) -/

/-- A shift left by a count held at `top`. -/
theorem shiftI_left (z : Int) {top : Nat} {bot : Int} (hb : bot ≤ 0) (c : Nat) : shiftI z (clampI bot top c) = z * 2 ^ min c top := by
  have hc : clampI bot top c = (min c top : Nat) := by
    rw [clampI_eq _ (by omega)]
    omega
  rw [hc, shiftI, if_pos (by omega), Int.toNat_natCast]

/-- A shift right by one, truncated toward minus infinity (R120). -/
theorem shiftI_right (z : Int) {bot : Nat} {top : Int} (ht : 0 ≤ top) (c : Nat) : shiftI z (clampI (-bot) top (-c)) = z / 2 ^ min c bot := by
  have hc : clampI (-bot) top (-c) = -((min c bot : Nat) : Int) := by
    rw [clampI_eq _ (by omega)]
    omega
  rw [hc, shiftI]
  split
  · rename_i h0
    have h0 : min c bot = 0 := by omega
    rw [h0]
    simp
  · rw [Int.neg_neg, Int.toNat_natCast, fdiv_two_pow]

/-- Rounding to the nearest leaves at most half of `b`, and a tie goes to the even one (R70). -/
theorem roundHalfEven_spec (a : Int) {b : Int} (hb : 0 < b) :
    2 * |a - roundHalfEven a b * b| ≤ b ∧ (2 * |a - roundHalfEven a b * b| = b → roundHalfEven a b % 2 = 0) := by
  have hq : Int.fdiv a b * b ≤ a ∧ a < Int.fdiv a b * b + b := by
    rw [Int.fdiv_eq_ediv_of_nonneg _ hb.le]
    have := Int.emod_add_mul_ediv a b
    have := Int.emod_nonneg a hb.ne'
    have := Int.emod_lt_of_pos a hb
    rw [Int.mul_comm]
    omega
  have hlow : |a - Int.fdiv a b * b| = a - Int.fdiv a b * b := abs_of_nonneg (by omega)
  have hhigh : |a - (Int.fdiv a b + 1) * b| = b - (a - Int.fdiv a b * b) := by
    rw [Int.add_mul, Int.one_mul, abs_of_nonpos (by omega)]
    omega
  unfold roundHalfEven
  dsimp only
  split_ifs
  · rw [hlow]; omega
  · rw [hhigh]; omega
  · rw [hlow]; omega
  · rw [hhigh]; omega

/-- What EXTR rounds, read at issue (R70). -/
def SpSt.extrRound (sp : SpSt) (a sc : Int) : Int :=
  if sp.rnd then roundHalfEven (a * 2 ^ (sc + 32).toNat) (2 ^ 64) else Int.fdiv (a * 2 ^ (sc + 32).toNat) (2 ^ 64)

theorem SpSt.extrRound_floor {sp : SpSt} (h : sp.rnd = false) (a sc : Int) : sp.extrRound a sc = a * 2 ^ (sc + 32).toNat / 2 ^ 64 := by
  rw [SpSt.extrRound, h]
  exact fdiv_two_pow _ 64

theorem SpSt.extrRound_nearest {sp : SpSt} (h : sp.rnd = true) (a sc : Int) :
    sp.extrRound a sc = roundHalfEven (a * 2 ^ (sc + 32).toNat) (2 ^ 64) := by
  rw [SpSt.extrRound, h]
  exact if_pos rfl

/-- Settles O3, by the exact result that each operation saturates (`done_aSat`) and by what rounding to even does (`roundHalfEven_spec`). -/
theorem saturatingResults : Obligations.SaturatingResults := by
  intro s k pred dd da db n aca s6 o
  refine ⟨?adds, ?subs, ?neg, ?abs, ?shv, ?shlsi, ?extr⟩ <;> intro h
  case adds | subs | neg | shlsi => exact done_aSat rfl h fun y hy => by simp only [← hy.dInt]; rfl
  case abs => exact done_aSat rfl h fun y hy => by rw [← hy.dInt, Int.abs_eq_natAbs]; rfl
  case shv =>
    refine ⟨fun c hc => done_aSat rfl h fun y hy => ?_, fun c hc => done_aSat rfl h fun y hy => ?_⟩ <;>
      rw [← hy.dInt] at hc ⊢ <;> refine congrArg (y.aSat dd) ?_
    · exact (congrArg _ (congrArg _ hc)).trans (shiftI_left _ (top := 31) (by decide) c)
    · exact (congrArg _ (congrArg _ hc)).trans (shiftI_right _ (bot := 32) (by decide) c)
  case extr =>
    refine ⟨(s.atIssue k).extrRound ((s.atIssue k).acc aca) (sext 6 s6), done_aSat rfl h fun y hy => ?_,
      fun hr => SpSt.extrRound_floor hr _ _, fun hr => ?_⟩
    · rw [SpSt.extrRound, ← hy.rnd, ← hy.acc]; rfl
    · rw [SpSt.extrRound_nearest hr]
      exact roundHalfEven_spec _ (by decide)

/-! ### Accumulator results (O4) -/

theorem toBits_sext {n : Nat} (hn : n < 2 ^ 72) : toBits 72 (sext 72 n) = n := by
  unfold toBits sext
  dsimp only
  split <;> omega

theorem inRange_sext (n : Nat) : InRange 72 (sext 72 n) := by
  unfold InRange sext
  dsimp only
  split <;> omega

theorem setBits_congr {hi lo u v : Nat} (n : Nat) (h : u % 2 ^ (hi + 1 - lo) = v % 2 ^ (hi + 1 - lo)) :
    setBits n hi lo u = setBits n hi lo v := by
  rw [setBits, setBits, h]

/-- AWR replaces one part of the accumulator and keeps the others (R121). -/
theorem accSetPart_eq (a : Int) {p : Nat} (hp : p < 3) (d : Word) :
    accSetPart a p d = sext 72 (setBits (toBits 72 a) (if p = 2 then 71 else 32 * p + 31) (32 * p) d.toNat) := by
  interval_cases p
  · rfl
  · rfl
  · exact congrArg (sext 72) (setBits_congr (hi := 71) (lo := 64) _ (Nat.mod_mod ..))

theorem toBits_lt (w : Nat) (z : Int) : toBits w z < 2 ^ w := by
  have hp : (0 : Int) < 2 ^ w := by positivity
  have hlt := Int.emod_lt_of_pos z hp
  have h0 := Int.emod_nonneg z hp.ne'
  unfold toBits
  zify
  rwa [Int.toNat_of_nonneg h0]

theorem toBits_accSetPart (a : Int) {p : Nat} (hp : p < 3) (d : Word) :
    toBits 72 (accSetPart a p d) = setBits (toBits 72 a) (if p = 2 then 71 else 32 * p + 31) (32 * p) d.toNat := by
  rw [accSetPart_eq a hp]
  refine toBits_sext (setBits_lt _ _ _ _ _ ?_ ?_ (toBits_lt 72 a)) <;> split <;> omega

/-- A result in range is sent as it is (R120). -/
theorem SendsAcc.exact {s : State} {k lat rank c : Nat} {z : Int} {t : Stage} (h : SendsAcc s k lat rank c z t) (hz : InRange 72 z) :
    Sends s k lat rank (.ac c) z t := by
  obtain ⟨v, hv, hexact, -⟩ := h
  exact hexact hz ▸ hv

/-- Settles O4, by the exact result that each operation sends under SPMODE.ACS (`done_aAcc`). -/
theorem accumulatorResults : Obligations.AccumulatorResults := by
  intro s k pred acd aca da s6 part o
  refine ⟨?aclr, ?amov, ?aadd, ?asub, ?aneg, ?ashi, ?ashd, ?dtoa, ?awr⟩ <;> intro h
  case aclr => exact done_aAcc rfl h fun _ _ => rfl
  case amov | aadd | asub | aneg => exact done_aAcc rfl h fun y hy => by simp only [← hy.acc]; rfl
  case ashi =>
    refine done_aAcc rfl h fun y hy => ?_
    rw [← hy.acc, ← fdiv_two_pow]
    rfl
  case ashd =>
    refine ⟨fun c hc => done_aAcc rfl h fun y hy => ?_, fun c hc => done_aAcc rfl h fun y hy => ?_⟩ <;>
      rw [← hy.dInt] at hc <;> rw [← hy.acc] <;> refine congrArg (y.aAcc acd) ?_
    · exact (congrArg _ (congrArg _ hc)).trans (shiftI_left _ (top := 71) (by decide) c)
    · exact (congrArg _ (congrArg _ hc)).trans (shiftI_right _ (bot := 72) (by decide) c)
  case dtoa =>
    refine done_aAcc rfl h fun y hy => ?_
    have hs : 0 ≤ 32 + sext 6 s6 := by unfold sext; dsimp only; split <;> omega
    rw [← hy.dInt]
    exact congrArg (y.aAcc acd) (if_pos hs)
  case awr =>
    have hp := fieldsLegal_of_runsA h
    simp only [AOp.fieldsLegal, Bool.and_eq_true, decide_eq_true_eq] at hp
    have hr : InRange 72 (accSetPart ((s.atIssue k).acc acd) part ((s.atIssue k).dReg da)) := by
      rw [accSetPart_eq _ hp.2]
      exact inRange_sext _
    have hd : Done (.awr k pred acd da part o) s
        (SendsAcc s k 1 2 acd (accSetPart ((s.atIssue k).acc acd) part ((s.atIssue k).dReg da))) :=
      done_aAcc rfl h fun y hy => by rw [← hy.acc, ← hy.dReg]; rfl
    obtain ⟨t, ht, hpend, hsend⟩ := hd
    exact ⟨_, ⟨t, ht, hpend, hsend.exact hr⟩, hr, toBits_accSetPart _ hp.2 _⟩

end Sys2Proof.Machine
end

section
/-!
PROOF. The T slot (R72 to R74, R91, R123 to R125): what each kind of operation sends, and the statement O8.
-/
namespace Sys2Proof.Machine

/-! ### What a T slot sends -/

/-- Two results of one command hold of one state. -/
theorem Done.and {c : Instr} {s : State} {P Q : Stage → Prop} (hp : Done c s P) (hq : Done c s Q) : Done c s (fun t => P t ∧ Q t) := by
  obtain ⟨t, ht, hpend, hP⟩ := hp
  obtain ⟨u, hu, -, hQ⟩ := hq
  obtain rfl : t = u := by injection ht.symm.trans hu
  exact ⟨t, ht, hpend, hP, hQ⟩

/-- What a T slot whose predicate holds sends arrives. -/
theorem done_withT {c : Instr} {s : State} {k pred : Nat} {o : Bundle} {op : TOp} {P : Stage → Prop} (hc : slotBundle c = some (k, o.withT pred op))
    (h : Runs s k (o.withT pred op) pred) (hp : ∀ (y : SlotRun) (t : Stage), (s.atIssue k).Sticks y.sp →
      (SlotRun.top s.stage k (s.atIssue k) y op).Arrives (s.atIssue k) (t.sp k) → P t) : Done c s P := by
  obtain ⟨y, hy, hg⟩ := runSlots_withT s.stage k (s.atIssue k) o (op := op) h.2.2
  exact done_arrives hc h (hg ▸ .refl _) fun t ht => hp y t hy ht

/-- One that sends a D result. -/
theorem done_tD {c : Instr} {s : State} {k pred d : Nat} {o : Bundle} {op : TOp} {v : Word} (hc : slotBundle c = some (k, o.withT pred op))
    (h : Runs s k (o.withT pred op) pred)
    (hop : ∀ y : SlotRun, (s.atIssue k).Sticks y.sp → SlotRun.top s.stage k (s.atIssue k) y op = y.putD 1 3 d v) :
    Done c s (SendsD s k 1 3 d v) :=
  done_withT hc h fun y _ hy ht => sendsD_putD hy (hop y hy ▸ ht)

/-! ### Moves into special registers (R125) -/

theorem SlotRun.movs_reg (y : SlotRun) {c : Nat} (v : Nat) (h : c ≠ rFLAGS) : y.movs c v = y.put 2 3 (.sr c) (Nat.land v (srMask c)) := if_neg h

/-- Flags sent one after another all arrive. -/
theorem sends_flags {s : State} {k v : Nat} {t : Stage} : ∀ (l : List Nat) (y : SlotRun), (s.atIssue k).Sticks y.sp →
    (l.foldl (fun x i => x.put 2 3 (.flag i) (if bit v i then 1 else 0)) y).Arrives (s.atIssue k) (t.sp k) →
    ∀ i ∈ l, Sends s k 2 3 (.flag i) (if bit v i then 1 else 0) t := by
  intro l
  induction l with
  | nil => exact fun _ _ _ _ hi => absurd hi List.not_mem_nil
  | cons j l ih =>
    intro y hy h i hi
    rw [List.foldl_cons] at h
    rcases List.mem_cons.mp hi with rfl | hi
    · exact sends_put hy (h.of_grows (SlotRun.grows_foldl _ (fun x a => x.grows_put ..) l))
    · exact ih _ (hy.trans (y.grows_put ..).1) h i hi

theorem sends_movs_flags {s : State} {k v : Nat} {t : Stage} {y : SlotRun} (hy : (s.atIssue k).Sticks y.sp)
    (h : (y.movs rFLAGS v).Arrives (s.atIssue k) (t.sp k)) (i : Nat) (hi : i < 4) : Sends s k 2 3 (.flag i) (if bit v i then 1 else 0) t :=
  sends_flags (upTo 4) y hy h i (List.mem_range.mpr hi)

/-! ### The words that moves send (R123, R125) -/

/-- MOVHI keeps the low half of its register. -/
theorem movhi_word (a : Word) (imm : Nat) :
    Word.ofNat (setBits a.toNat 31 16 imm) = BitVec.ofNat 16 imm ++ a.setWidth 16 := by
  have ha := a.isLt
  refine BitVec.eq_of_toNat_eq ?_
  rw [BitVec.toNat_append, Word.ofNat, BitVec.toNat_ofNat, BitVec.toNat_ofNat, BitVec.toNat_setWidth, setBits_parts _ _ _ _ (by decide),
    ← Nat.shiftLeft_add_eq_or_of_lt (Nat.mod_lt _ (Nat.two_pow_pos 16)), Nat.shiftLeft_eq]
  omega

theorem SpSt.movr_eq (sp : SpSt) (c : Nat) : sp.movr c
    = if 0x10 ≤ c ∧ c < 0x20 then (BitVec.ofNat 18 (sp.sreg c)).signExtend 32 else Word.ofNat (sp.sreg c) := by
  rw [SpSt.movr, Word.ofInt_sext (by decide)]

/-- The immediate of MOVSI in a stride register. -/
theorem toBits_sext_imm (n : Nat) : toBits 18 (sext 15 n) = ((BitVec.ofNat 15 n).signExtend 18).toNat := by
  rw [sext_eq_toInt (by decide), BitVec.signExtend, BitVec.toNat_ofInt]
  rfl

theorem srMask_stride {c : Nat} (h : 0x10 ≤ c ∧ c < 0x20) : srMask c = 2 ^ 18 - 1 := by
  unfold srMask
  rw [if_neg (by omega), if_pos h.2]
  rfl

theorem movsi_bits (c imm : Nat) : Nat.land (if 0x10 ≤ c ∧ c < 0x20 then toBits 18 (sext 15 imm) else imm) (srMask c)
    = if 0x10 ≤ c ∧ c < 0x20 then ((BitVec.ofNat 15 imm).signExtend 18).toNat else Nat.land imm (srMask c) := by
  split
  · rename_i h
    rw [srMask_stride h, land_ones (toBits_lt 18 _), toBits_sext_imm]
  · rfl

/-! ### The mailbox (R91) -/

section
variable {s : State} {k pred d : Nat} {o : Bundle}

theorem mbrd_reads (h : Runs s k (o.withT pred (.mbrd d)) pred) : Done (.mbrd k pred d o) s (fun t => (t.sp k).mbox = false) := by
  obtain ⟨hi, ⟨hdone, hiret⟩, hp⟩ := h
  refine done_sp (P := fun u => u.mbox = false) rfl hi ?_
  obtain ⟨⟨_, _, _, _, _, _, _, hn⟩, -⟩ := s.stage.steers_spNext k hdone hiret
  have hsent : s.stage.spSent k (s.atIssue k) (o.withT pred (.mbrd d))
      = { s.stage.spSlots k (s.atIssue k) (o.withT pred (.mbrd d)) with mbox := false, unread := false } := if_pos hp
  rw [hn, Stage.spCounted, Stage.spSteered_none _ _ _ rfl, hsent]

theorem mbwr_writes (h : Runs s k (o.withT pred (.mbwr d)) pred) :
    Done (.mbwr k pred d o) s (fun t => t.reg (pSp k) 0x0A8 = (s.atIssue k).dReg d ∧ t.flag (pSp k) 0x014 2 = true) := by
  have hexec : s.stage.spExecute k (s.atIssue k) (o.withT pred (.mbwr d))
      = ((s.stage.spWritten k (s.atIssue k) (o.withT pred (.mbwr d))).setReg (pSp k) 0x0A8 ((s.atIssue k).dReg d)).raise (pSp k) 2 := by
    rw [Stage.spExecute_eq]
    exact if_pos h.2.2
  refine done_issues rfl h.1 ?_
  rw [hexec]
  refine ⟨?_, Stage.ends_event _ _ (Stage.raise_sets _ _ _ (by decide))⟩
  rw [Stage.ends_reg _ _ (by decide) (by decide), Stage.reg_raise_other _ _ (by omega), Stage.reg_setReg_same]

end

/-- Settles O8, operation by operation, by what each sends (`done_withT`) and what the mailbox forms leave. -/
theorem moves : Obligations.Moves := by
  intro s k pred d sreg imm o
  refine ⟨?movi, ?movhi, ?movr, ?movs, ?movsFlags, ?movsi, ?movsiFlags, ?mbrd, mbwr_writes⟩ <;> intro h
  case movi => exact done_tD rfl h fun y _ => congrArg (y.putD 1 3 d) (Word.ofInt_sext (by decide) imm)
  case movhi => exact done_tD rfl h fun y hy => by rw [← movhi_word, ← hy.dReg]; rfl
  case movr => exact done_tD rfl h fun y _ => congrArg (y.putD 1 3 d) (SpSt.movr_eq _ sreg)
  case movs =>
    refine fun hne => done_withT rfl h fun y t hy ht => ?_
    rw [← hy.dReg]
    exact sends_put hy (y.movs_reg _ hne ▸ ht)
  case movsFlags =>
    refine done_withT rfl h fun y t hy ht i hi => ?_
    rw [← hy.dReg, BitVec.getLsbD, ← bit_eq_testBit]
    exact sends_movs_flags hy ht i hi
  case movsi =>
    refine fun hne => done_withT rfl h fun y t hy ht => ?_
    change (y.movs sreg _).Arrives _ _ at ht
    rw [y.movs_reg _ hne] at ht
    have hs := sends_put hy ht
    rw [movsi_bits, Nat.cast_ite] at hs
    exact hs
  case movsiFlags => exact done_withT rfl h fun y t hy ht i hi => sends_movs_flags hy ht i hi
  case mbrd => exact (done_tD rfl h fun _ _ => rfl).and (mbrd_reads h)

end Sys2Proof.Machine
end

section
/-!
PROOF. Accesses of the T slot (R72 to R74, R96, R123, R124, R526): addresses and pointers, what a store leaves in memory, and the statement O7.
-/
namespace Sys2Proof.Machine

/-! ### Addresses and pointers (R72 to R74, R124) -/

/-- An operation that runs has legal fields (R112). -/
theorem fieldsLegal_of_runsT {s : State} {k pred : Nat} {o : Bundle} {op : TOp} (h : Runs s k (o.withT pred op) pred) : op.fieldsLegal = true := by
  obtain ⟨hlegal, -⟩ := SpSt.legal_of_noFault h.1.2.2.2.1
  obtain ⟨-, -, -, ht⟩ := (Bundle.legal_iff _).mp hlegal
  exact ((TSlot.legal_iff _).mp ht).2

/-- The address of a TM access, whatever sticky flags stand. -/
theorem SlotRun.tm_fst {sp : SpSt} {y : SlotRun} (hy : sp.Sticks y.sp) {p am imm : Nat} (hp : p < 16) (ham : am < 4) :
    (y.tm p am imm).1 = sp.tmAddr p am imm := by
  have hoff : (circ (y.sp.p p) (y.sp.b p) (y.sp.l p) (sext 11 imm)).1 = (sp.stepped p (sext 11 imm)).toNat := by
    have h := congrArg Int.toNat (sp.postMod_fst p (sext 11 imm))
    rw [← hy.postMod hp, Int.toNat_natCast] at h
    exact h
  unfold SpSt.tmAddr
  interval_cases am
  · exact hy.p hp
  · exact hy.p hp
  · exact hy.p hp
  · exact hoff

/-- The pointer of a TM access is updated as its mode says. -/
theorem sendsPtr_tm {s : State} {k p am imm : Nat} {y : SlotRun} (hy : (s.atIssue k).Sticks y.sp) {t : Stage} (hp : p < 16)
    (h : (y.tm p am imm).2.Arrives (s.atIssue k) (t.sp k)) : SendsPtr s k p am imm t := by
  refine ⟨fun h1 => ?_, fun h2 => ?_⟩
  · subst h1
    rw [← hy.n hp]
    exact sends_post hy hp h
  · subst h2
    exact sends_post hy hp h

/-- A T slot that begins with a TM access updates its pointer. -/
theorem done_ptr {c : Instr} {s : State} {k pred p am imm : Nat} {o : Bundle} {op : TOp} (hc : slotBundle c = some (k, o.withT pred op))
    (h : Runs s k (o.withT pred op) pred) (hp : p < 16)
    (hop : ∀ y : SlotRun, (y.tm p am imm).2.Grows (SlotRun.top s.stage k (s.atIssue k) y op)) : Done c s (SendsPtr s k p am imm) :=
  done_withT hc h fun y _ hy ht => sendsPtr_tm hy hp (ht.of_grows (hop y))

/-! ### A word stored (R6, R526) -/

theorem Stage.lost_congr {s t : Stage} (h : t.ecc = s.ecc) (a : Nat) : t.lost a = s.lost a := by
  unfold Stage.lost Stage.flips
  rw [h]

/-- Reading a word mends single errors alone. -/
theorem Stage.lost_eccRead (s : Stage) (a own x : Nat) : (s.eccRead a own).lost x = s.lost x := by
  unfold Stage.eccRead
  dsimp only
  split
  · rfl
  · split
    · exact Stage.lost_congr ((s.keeps_eccTwo ..).2.2 .ecc (by decide)) x
    · rename_i hl
      refine (Stage.lost_congr ((Stage.keeps_eccOne _ ..).2.2 .ecc (by decide)) x).trans ?_
      unfold Stage.lost Stage.flips at hl ⊢
      dsimp only
      by_cases hw : x / 32 = a / 32
      · rw [hw, Tab.get_put_self, Bool.eq_false_of_not_eq_true hl]
        rfl
      · rw [Tab.get_put_other _ _ _ _ hw]

/-- A list of bytes reads back where no word of it is lost. -/
theorem Stage.rd8_wrBytes_held (l : List Byte) : ∀ (s : Stage) (a j : Nat) (hj : j < l.length), (∀ i < l.length, s.lost (a + i) = false) →
    (s.wrBytes a l).rd8 (a + j) = l[j] := by
  induction l with
  | nil => exact fun _ _ _ hj => absurd hj (Nat.not_lt_zero _)
  | cons b l ih =>
    intro s a j hj he
    rw [Stage.wrBytes]
    cases j with
    | zero => rw [Stage.rd8_wrBytes_other _ _ _ (by omega)]; exact s.rd8_wr8_same b (he 0 (Nat.succ_pos _))
    | succ j =>
      rw [show a + (j + 1) = a + 1 + j by omega, ih _ _ j (Nat.lt_of_succ_lt_succ hj) fun i hi => ?_]
      · rfl
      · rw [Stage.lost_congr (s.ecc_wr8 a b), show a + 1 + i = a + (i + 1) by omega]
        exact he _ (Nat.succ_lt_succ hi)

/-- A word in place reads back unless the 256 bits around it are lost. -/
theorem Stage.rd32_wr32_held {s : Stage} {a : Nat} (v : Word) (ha : a % 4 = 0) (h : s.lost a = false) : (s.wr32 a v).rd32 a = v := by
  have hall : ∀ i < (leBytes 4 v.toNat).length, s.lost (a + i) = false := fun i hi => by
    rw [length_leBytes] at hi
    unfold Stage.lost Stage.flips at h ⊢
    rw [show (a + i) / 32 = a / 32 by omega]
    exact h
  have hb : (s.wrBytes a (leBytes 4 v.toNat)).rdBytes a 4 = leBytes 4 v.toNat := by
    refine List.ext_getElem (by simp [Stage.rdBytes, upTo]) fun j hj hl => ?_
    simpa [Stage.rdBytes, upTo] using Stage.rd8_wrBytes_held _ s a j hl hall
  rw [Stage.rd32, Stage.rdN, Stage.wr32, hb, ofLeBytes_leBytes]
  exact (congrArg Word.ofNat (Nat.mod_eq_of_lt v.isLt)).trans (BitVec.ofNat_toNat ..|>.trans (BitVec.setWidth_eq v))

theorem wordAddr_aligned (k : Nat) (m : Space) (a : Nat) : wordAddr k m a % 4 = 0 := by
  unfold wordAddr spBase
  cases m <;> simp only [Space.off] <;> omega

/-- What is lost stays so while words are read and stored. -/
theorem Stage.lost_foldl {α : Type} {f : Stage → α → Stage} {x : Nat} (hf : ∀ t a, (f t a).lost x = t.lost x) (l : List α) (s : Stage) :
    (l.foldl f s).lost x = s.lost x := by
  induction l generalizing s with
  | nil => rfl
  | cons a l ih => exact (ih _).trans (hf s a)

theorem Stage.lost_reads (s : Stage) (k : Nat) (l : List Nat) (x : Nat) : (l.foldl (fun s a => s.eccRead a k) s).lost x = s.lost x :=
  Stage.lost_foldl (fun t a => t.lost_eccRead a k x) l s

theorem Stage.lost_stores (s : Stage) (l : List (Nat × Word)) (x : Nat) : (l.foldl (fun s e => s.wr32 e.1 e.2) s).lost x = s.lost x :=
  Stage.lost_foldl (f := fun (t : Stage) (e : Nat × Word) => t.wr32 e.1 e.2) (fun t e => Stage.lost_congr (t.ecc_wr32 e.1 e.2) x) l s

/-- A word reads the same once the processor is put back (R30, R88, R104). -/
theorem Stage.rd32_placed (s : Stage) (k : Nat) (v : SpSt) (n : Nat) (old new : SpRun) (a : Nat) :
    (((s.putSp k v).setN (pSp k) 0x408 n).spReturns k old new).rd32 a = s.rd32 a := by
  obtain ⟨_, h⟩ := Stage.spReturns_frame ((s.putSp k v).setN (pSp k) 0x408 n) k old new
  rw [h]
  exact Stage.rd32_congr fun _ _ => Stage.rd8_congr (Stage.putSp_mem ..) (Stage.putSp_ecc ..) _

theorem Stage.rd32_ends (s t : Stage) (a : Nat) : (s.ends t).rd32 a = t.rd32 a :=
  Stage.rd32_congr fun _ _ => Stage.rd8_congr (Stage.ends_mem ..) (Stage.ends_ecc ..) _

/-- Of the words that a bundle stores the last one reads back. -/
theorem Stage.rd32_spWritten {s : Stage} {k : Nat} {sp : SpSt} {b : Bundle} {l : List (Nat × Word)} {a : Nat} {v : Word}
    (hst : (runSlots s k sp b).stores = l ++ [(a, v)]) (ha : a % 4 = 0) (hl : s.lost a = false) : (s.spWritten k sp b).rd32 a = v := by
  unfold Stage.spWritten
  dsimp only
  rw [hst, List.foldl_append, List.foldl_cons, List.foldl_nil, Stage.rd32_placed]
  exact Stage.rd32_wr32_held v ha (by rw [Stage.lost_stores, Stage.lost_reads]; exact hl)

section
variable {s : State} {k pred dr p am imm : Nat} {o : Bundle}

/-- A store of the T slot: its pointer, and the word it leaves. -/
theorem store_leaves {c : Instr} {op : TOp} {mem : Space} (hc : slotBundle c = some (k, o.withT pred op)) (h : Runs s k (o.withT pred op) pred)
    (htm : tmLegal p am imm = true)
    (hop : ∀ y : SlotRun, SlotRun.top s.stage k (s.atIssue k) y op = SlotRun.store k mem y dr p am imm)
    (hbox : ∀ d, op ≠ .mbwr d) :
    Done c s (fun t => SendsPtr s k p am imm t ∧ (s.stage.lost (wordAddr k mem ((s.atIssue k).tmAddr p am imm)) = false →
      t.rd32 (wordAddr k mem ((s.atIssue k).tmAddr p am imm)) = (s.atIssue k).dReg dr)) := by
  have hp : p < 16 := (tmLegal_lt htm).1
  have ham : am < 4 := (tmLegal_lt htm).2.1
  refine (done_ptr hc h hp fun y => ?_).and (done_issues hc h.1 fun hl => ?_)
  · rw [hop y]
    exact (SlotRun.grows_touch _ mem _).trans (SlotRun.grows_sp (.refl _) rfl)
  · obtain ⟨y, hy, hrun⟩ := runSlots_withT s.stage k (s.atIssue k) o (op := op) h.2.2
    have hst : (runSlots s.stage k (s.atIssue k) (o.withT pred op)).stores
        = (y.tm p am imm).2.stores ++ [(wordAddr k mem (y.tm p am imm).1, y.sp.dReg dr)] := by rw [hrun, hop y]; rfl
    rw [SlotRun.tm_fst hy hp ham, hy.dReg] at hst
    have hexec : s.stage.spExecute k (s.atIssue k) (o.withT pred op) = s.stage.spWritten k (s.atIssue k) (o.withT pred op) :=
      (s.stage.spExecute_cases k (s.atIssue k) (o.withT pred op)).resolve_right fun ⟨d, hd, _⟩ => hbox d hd
    rw [hexec, Stage.rd32_ends]
    exact Stage.rd32_spWritten hst (wordAddr_aligned ..) hl

/-- LDC: its pointer, and the word it sends. -/
theorem ldc_sends (h : Runs s k (o.withT pred (.ldc dr p am imm)) pred) : Done (.ldc k pred dr p am imm o) s (fun t => SendsPtr s k p am imm t
    ∧ SendsD s k 2 3 dr (s.stage.rd32 (wordAddr k .c ((s.atIssue k).tmAddr p am imm))) t) := by
  have hl := fieldsLegal_of_runsT h
  simp only [TOp.fieldsLegal, Bool.and_eq_true, decide_eq_true_eq] at hl
  obtain ⟨hp, ham, -⟩ := tmLegal_lt hl.2
  refine done_withT rfl h fun y t hy ht => ?_
  have htouch : (y.tm p am imm).2.Grows ((y.tm p am imm).2.touch .c (y.tm p am imm).1) := SlotRun.grows_touch ..
  have hx : (s.atIssue k).Sticks ((y.tm p am imm).2.touch .c (y.tm p am imm).1).sp := (hy.trans (y.grows_tm p am imm).1).trans htouch.1
  refine ⟨sendsPtr_tm hy hp (ht.of_grows (htouch.trans (SlotRun.Grows.trans (SlotRun.grows_sp (.refl _) rfl) (SlotRun.grows_put ..)))), ?_⟩
  rw [← SlotRun.tm_fst hy hp ham]
  exact sendsD_putD (y := { (y.tm p am imm).2.touch .c (y.tm p am imm).1 with seen := _ }) hx ht

end

/-! ### FAR (R96) -/

section
variable {s : State} {k pred p am imm : Nat} {o : Bundle}

theorem modp_sends (h : Runs s k (o.withT pred (.modp p am imm)) pred) : Done (.modp k pred p am imm o) s (SendsPtr s k p am imm) := by
  have hl := fieldsLegal_of_runsT h
  simp only [TOp.fieldsLegal, Bool.and_eq_true] at hl
  exact done_ptr rfl h (tmLegal_lt hl.1).1 fun _ => .refl _

theorem far_sends (h : Runs s k (o.withT pred (.far p am imm)) pred) : Done (.far k pred p am imm o) s (SendsPtr s k p am imm) :=
  done_ptr rfl h (tmLegal_lt (fieldsLegal_of_runsT h)).1 fun _ => by
    refine SlotRun.grows_foldl _ ?_ (upTo 4)
    exact fun x _ => (x.grows_touch .y _).trans (SlotRun.grows_sp (.refl _) rfl)

/-- The processor that a FAR has begun its transfer on, at the address its descriptor is read from. -/
theorem Stage.spSent_far (s : Stage) {k : Nat} {sp : SpSt} {b : Bundle} (hop : b.t.op = .far p am imm) (hp : sp.holds b.t.pred = true)
    (hlegal : tmLegal p am imm = true) : s.spSent k sp b = s.farStart k (s.spSlots k sp b) (sp.tmAddr p am imm) := by
  obtain ⟨hlt, ham, -⟩ := tmLegal_lt hlegal
  unfold Stage.spSent
  rw [hop, ← SlotRun.tm_fst (y := { sp := sp }) (.refl sp) hlt ham]
  exact if_pos hp

/-- The transfers that `u` has outstanding, and FAR_ERR, after a FAR with the descriptor `f` on `sp`. -/
def SpSt.FarBegun (sp u : SpSt) (d : Option Far) : Prop :=
  (∀ f, d = some f → u.far = sp.far ++ [f]) ∧ (d = none → u.far = sp.far ∧ bit (u.sreg rSPSTAT) fFAR = true)

theorem Stage.farBegun_spNext (s : Stage) {k : Nat} {sp : SpSt} {b : Bundle} (hop : b.t.op = .far p am imm) (hp : sp.holds b.t.pred = true)
    (hlegal : tmLegal p am imm = true) (hdone : (sp.holds b.t.pred && b.isDone) = false) (hiret : sp.delay ≠ some .iret) :
    sp.FarBegun (s.spNext k sp b) (s.farDesc k (sp.tmAddr p am imm)) := by
  have hsent := s.spSent_far (k := k) hop hp hlegal
  have hslots : (s.spSlots k sp b).far = sp.far := by
    obtain ⟨_, _, _, hs⟩ := s.spSlots_frame k sp b
    rw [hs]
  have hnext : (s.spNext k sp b).far = (s.spSent k sp b).far := by
    obtain ⟨⟨_, _, _, _, _, _, _, hn⟩, -⟩ := s.steers_spNext k hdone hiret
    rw [hn, Stage.spCounted, Stage.spSteered_none _ _ _ (by rw [hop]; rfl)]
  refine ⟨fun f hf => ?_, fun hf => ?_⟩
  · rw [hnext, hsent, Stage.farStart_some _ hf, hslots]
  · rw [hnext, s.spstat_spNext k hdone hiret, hsent, Stage.farStart_none _ hf]
    exact ⟨hslots, SpSt.stick_sets _ (by decide)⟩

theorem far_begins (h : Runs s k (o.withT pred (.far p am imm)) pred) : Done (.far k pred p am imm o) s
    (fun t => (s.atIssue k).FarBegun (t.sp k) (s.stage.farDesc k ((s.atIssue k).tmAddr p am imm))) :=
  done_sp (P := fun u => (s.atIssue k).FarBegun u _) (b := o.withT pred (.far p am imm)) rfl h.1
    (s.stage.farBegun_spNext rfl h.2.2 (fieldsLegal_of_runsT h) h.2.1.1 h.2.1.2)

end

/-- Settles O7, by the TM access that each form begins with (`done_ptr`), by what a store leaves readable and by what FAR begins. -/
theorem storesAndPointers : Obligations.StoresAndPointers := by
  intro s k pred dr p am imm a o ha
  subst ha
  refine ⟨?stx, ?sty, ?stc, ldc_sends, modp_sends, fun h => (far_sends h).and (far_begins h)⟩ <;> intro h <;>
    have hl := fieldsLegal_of_runsT h <;> simp only [TOp.fieldsLegal, Bool.and_eq_true, decide_eq_true_eq] at hl <;>
    exact store_leaves rfl h hl.2 (fun _ => rfl) fun _ hd => nomatch hd

end Sys2Proof.Machine
end

section
/-!
PROOF. Control instructions and their delay bundle (R76, R80, R82, R83, R88, R126), and the statement O11.
-/
namespace Sys2Proof.Machine

/-! ### After a control instruction -/

theorem TOp.isControl_of_endBarred {op : TOp} (h : op.endBarred = true) : op.isControl = true := by
  cases op
  case lexit => rfl
  all_goals exact h

/-- A control instruction is no delay bundle (R112). -/
theorem delay_none_of_control {sp : SpSt} {pc : Nat} {b : Bundle} (h : sp.bundleFault pc b = none) (hctl : b.t.op.isControl = true) :
    sp.delay = none := by
  have hd := (SpSt.legal_of_noFault h).2.1
  rw [hctl, Bool.and_true] at hd
  exact Option.not_isSome_iff_eq_none.mp (by rw [hd]; exact Bool.false_ne_true)

/-- A control instruction is no SDONE. -/
theorem isDone_of_control {b : Bundle} (h : b.t.op.isControl = true) (c : Bool) : (c && b.isDone) = false := by
  have hne : b.t.op ≠ .sdone := fun hop => by rw [hop] at h; cases h
  rw [Bundle.isDone, beq_eq_false_iff_ne.mpr hne, Bool.and_false]

/-- Where no active level ends, the processor goes on at the bundle in sequence or stops at the end of the program (R80). -/
theorem SpSt.advance_passes {u : SpSt} (bank : Nat) {pc : Nat} (h : ∀ v ∈ u.levels, pc ≠ u.stop v) :
    u.advance bank pc none = if 0x7FF < pc + 1 then { u with flt := some (cPC_END, 0x7FF) } else { u with pc := pc + 1 } := by
  unfold SpSt.advance
  dsimp only
  rw [SpSt.endTest_passes bank h]

/-- What a control instruction that may not end a loop body leaves: what follows its delay bundle, the return stack, and the bundle in sequence
as the delay bundle (R76). -/
def SpSt.Follows (u : SpSt) (pc : Nat) (a : After) (rs : List Nat) : Prop :=
  u.delay = some a ∧ u.rstack = rs ∧ (pc < 0x7FF → u.pc = pc + 1)

theorem follows_control {c : Instr} {s : State} {k : Nat} {b : Bundle} {a : After} {rs : List Nat} (hc : slotBundle c = some (k, b))
    (h : Issues s k b) (hbar : b.t.op.endBarred = true)
    (hsteer : s.stage.spSteered k (s.atIssue k) b = ({ s.stage.spSent k (s.atIssue k) b with rstack := rs }, some a)) :
    Done c s (fun t => (t.sp k).Follows (s.atIssue k).pc a rs) := by
  have hctl := TOp.isControl_of_endBarred hbar
  have hnone := delay_none_of_control h.2.2.2.1 hctl
  have hsame : (s.atIssue k).SameLoops (s.stage.spSent k (s.atIssue k) b) := s.stage.sameLoops_spSent k _ b
  refine done_sp (P := fun u => u.Follows _ _ _) hc h ?_
  have hcounted : s.stage.spCounted k (s.atIssue k) b
      = { s.stage.spSent k (s.atIssue k) b with rstack := rs, iss := (s.atIssue k).iss + 1, delay := some a } := by
    rw [Stage.spCounted, hsteer]
  have hloops : (s.atIssue k).SameLoops (s.stage.spCounted k (s.atIssue k) b) := by rw [hcounted]; exact hsame
  rw [s.stage.spNext_advance k (isDone_of_control hctl _), hnone, SpSt.advance_passes _ fun v hv => by
    rw [hloops.stop]
    exact SpSt.stop_ne_of_noFault h.2.2.2.1 hbar v (hloops.levels ▸ hv)]
  rw [hcounted]
  split
  · exact ⟨rfl, rfl, fun _ => by omega⟩
  · exact ⟨rfl, rfl, fun _ => rfl⟩

/-- The return stack after the slots of a bundle is what it was at issue. -/
theorem Stage.rstack_spSent (s : Stage) (k : Nat) (sp : SpSt) (b : Bundle) : (s.spSent k sp b).rstack = sp.rstack := by
  obtain ⟨_, _, _, _, _, _, h⟩ := s.spSent_frame k sp b
  rw [h]

/-! ### Branches, calls and returns (R82, R83, R88) -/

section
variable {s : State} {k pred : Nat} {o : Bundle}

theorem br_follows {tg : Nat} (h : Runs s k (o.withT pred (.br tg)) pred) :
    Done (.br k pred tg o) s (fun t => (t.sp k).Follows (s.atIssue k).pc (.jump tg) (s.atIssue k).rstack) := by
  refine follows_control (b := o.withT pred (.br tg)) rfl h.1 rfl ((if_pos ((s.holds_spSent k pred _).trans h.2.2)).trans ?_)
  rw [← s.stage.rstack_spSent k (s.atIssue k) (o.withT pred (.br tg))]
  rfl

theorem call_follows {tg : Nat} (h : Runs s k (o.withT pred (.call tg)) pred) : Done (.call k pred tg o) s
    (fun t => (t.sp k).Follows (s.atIssue k).pc (.jump tg) ((s.atIssue k).rstack ++ [(s.atIssue k).pc + 2])) := by
  refine follows_control (b := o.withT pred (.call tg)) rfl h.1 rfl ((if_pos ((s.holds_spSent k pred _).trans h.2.2)).trans ?_)
  rw [← s.stage.rstack_spSent k (s.atIssue k) (o.withT pred (.call tg))]
  rfl

theorem ret_follows {l : List Nat} {a : Nat} (hr : (s.atIssue k).rstack = l ++ [a]) (h : Runs s k (o.withT pred .ret) pred) :
    Done (.ret k pred o) s (fun t => (t.sp k).Follows (s.atIssue k).pc (.jump a) l) := by
  refine follows_control (b := o.withT pred .ret) rfl h.1 rfl ((if_pos ((s.holds_spSent k pred _).trans h.2.2)).trans ?_)
  have hrs := (s.stage.rstack_spSent k (s.atIssue k) (o.withT pred .ret)).trans hr
  change (_, _) = _
  rw [hrs, List.dropLast_concat, List.getLast?_concat]
  rfl

theorem iret_follows (h : Runs s k (o.withT pred .iret) pred) :
    Done (.iret k pred o) s (fun t => (t.sp k).Follows (s.atIssue k).pc .iret (s.atIssue k).rstack) := by
  refine follows_control (b := o.withT pred .iret) rfl h.1 rfl ((if_pos ((s.holds_spSent k pred _).trans h.2.2)).trans ?_)
  rw [← s.stage.rstack_spSent k (s.atIssue k) (o.withT pred .iret)]
  rfl

end

/-! ### The end of a level by LEXIT (R82) -/

theorem SpSt.lc_iterate_other (sp : SpSt) {u v : Nat} (hv : v < 2) (h : v ≠ u) : (sp.iterate u).lc v = sp.lc v := by
  have h1 : (sp.setSreg (rLC u) (sp.lc u - 1)).lc v = sp.lc v := SpSt.sreg_setSreg_other _ _ (by unfold rLC; omega)
  unfold SpSt.iterate
  dsimp only
  split
  · exact (SpSt.sreg_setSreg_other _ _ (by unfold rLC rRRB; omega)).trans h1
  · exact h1

/-- The end test leaves an inactive level as it is. -/
theorem SpSt.lc_endTest_spent {sp : SpSt} (bank pc : Nat) {v : Nat} (hv : v < 2) (h : sp.lc v = 0) : (sp.endTest bank pc).2.lc v = 0 := by
  have hend : ∀ (a : SpSt) {u : Nat}, u ∈ sp.levels → a.lc v = 0 → ((a.iterate u).cacheEnd bank u pc).lc v = 0 := fun a u hu ha => by
    obtain ⟨-, hlc, -⟩ := SpSt.mem_levels.mp hu
    obtain ⟨_, _, _, hc⟩ := (a.iterate u).cacheEnd_frame bank u pc
    rw [hc]
    exact (a.lc_iterate_other (u := u) hv fun e => hlc (e ▸ h)).trans ha
  unfold SpSt.endTest
  split
  · exact h
  · rename_i u rest hl
    have hu : u ∈ sp.levels := by rw [hl]; exact List.mem_cons_self ..
    dsimp only
    split
    · exact h
    · split
      · exact hend sp hu h
      · split
        · exact hend sp hu h
        · rename_i j tl
          have hj : j ∈ sp.levels := by rw [hl]; exact List.mem_cons_of_mem _ (List.mem_cons_self ..)
          split
          · exact hend sp hu h
          · split
            · exact hend _ hj (hend sp hu h)
            · exact hend _ hj (hend sp hu h)

theorem SpSt.lc_advance_none (sp : SpSt) (bank pc v : Nat) : (sp.advance bank pc none).lc v = (sp.endTest bank pc).2.lc v := by
  unfold SpSt.advance
  dsimp only
  split <;> rfl

/-- LEXIT ends the innermost active level. -/
theorem Stage.control_lexit {s : Stage} {k bank pc tg v : Nat} {l : List Nat} {sp : SpSt} {b : Bundle} (hop : b.t.op = .lexit tg)
    (hp : sp.holds b.t.pred = true) (hl : sp.levels = v :: l) :
    s.control k bank sp pc b = ({ sp.setSreg (rLC v) 0 with serve := none, capture := none }, some (.jump tg)) := by
  unfold Stage.control
  rw [if_pos hp, hop]
  dsimp only
  rw [hl]

theorem lexit_ends {s : State} {k pred tg v : Nat} {l : List Nat} {o : Bundle} (hl : (s.atIssue k).levels = v :: l)
    (h : Runs s k (o.withT pred (.lexit tg)) pred) :
    Done (.lexit k pred tg o) s (fun t => (t.sp k).delay = some (.jump tg) ∧ (t.sp k).lc v = 0) := by
  obtain ⟨hi, ⟨hdone, hiret⟩, hp⟩ := h
  have hv : v < 2 := (s.atIssue k).levels_lt (by rw [hl]; exact List.mem_cons_self ..)
  have hsteer : s.stage.spSteered k (s.atIssue k) (o.withT pred (.lexit tg))
      = ({ (s.stage.spSent k (s.atIssue k) (o.withT pred (.lexit tg))).setSreg (rLC v) 0 with serve := none, capture := none }, some (.jump tg)) :=
    Stage.control_lexit rfl ((s.holds_spSent k pred _).trans hp) ((s.stage.sameLoops_spSent k _ _).levels.trans hl)
  have hnone : (s.atIssue k).delay = none := delay_none_of_control hi.2.2.2.1 rfl
  refine done_sp (P := fun u => u.delay = _ ∧ u.lc v = 0) (b := o.withT pred (.lexit tg)) rfl hi ⟨?_, ?_⟩
  · rw [s.stage.delay_spNext k hdone hiret, hsteer]
  · rw [s.stage.spNext_advance k hdone, hnone, SpSt.lc_advance_none]
    refine SpSt.lc_endTest_spent _ _ hv ?_
    rw [Stage.spCounted, hsteer]
    exact SpSt.lc_setSreg_same _ hv (by decide)

/-! ### After a delay bundle (R76, R88) -/

section
variable {c : Instr} {s : State} {k : Nat} {b : Bundle} (hc : slotBundle c = some (k, b)) (h : Issues s k b)
  (hdone : ((s.atIssue k).holds b.t.pred && b.isDone) = false)

include h in
/-- A delay bundle holds no control instruction and decides nothing. -/
theorem counted_delay {a : After} (hd : (s.atIssue k).delay = some a) : (s.stage.spCounted k (s.atIssue k) b).delay = none := by
  have hctl := (SpSt.legal_of_noFault h.2.2.2.1).2.1
  rw [hd] at hctl
  rw [Stage.spCounted, Stage.spSteered_none _ _ _ hctl]

include hc h hdone

theorem jump_taken {tg : Nat} (ht : tg < 0x800) (hd : (s.atIssue k).delay = some (.jump tg)) :
    Done c s (fun t => (t.sp k).pc = tg ∧ (t.sp k).delay = none) := by
  refine done_sp (P := fun u => u.pc = tg ∧ u.delay = none) hc h ?_
  have hnone := counted_delay h hd
  rw [s.stage.spNext_advance k hdone, hd]
  have hadv : ∀ u : SpSt, u.advance (s.stage.spBank k) (s.atIssue k).pc (some (.jump tg)) = { u with pc := tg } := fun u => if_neg (by omega)
  rw [hadv]
  exact ⟨rfl, hnone⟩

/-- What a processor that has left its handler holds (R88). -/
def SpSt.Left (u : SpSt) : Prop :=
  u.inHandler = false ∧ u.delay = none ∧ u.pc = u.sreg rIPC ∧ u.sreg rFLAGS = bits (u.sreg rISTAT) 3 0 ∧ bits (u.sreg rISTAT) 14 13 = 0

omit hc h hdone in
/-- The flags come back from ISTAT, which keeps them while its suspended levels are cleared. -/
theorem SpSt.leave_flags (sp : SpSt) : sp.leave.sreg rFLAGS = bits (sp.leave.sreg rISTAT) 3 0 ∧ bits (sp.leave.sreg rISTAT) 14 13 = 0 := by
  have hist : sp.leave.sreg rISTAT = Nat.land (setBits (sp.sreg rISTAT) 14 13 0) (srMask rISTAT) := SpSt.sreg_setSreg_same ..
  have hfl : sp.leave.sreg rFLAGS = bits (sp.sreg rISTAT) 3 0 :=
    (SpSt.sreg_setSreg_other _ _ (by decide)).trans ((SpSt.sreg_setSreg_same ..).trans (land_ones (w := 4) (bits_lt ..)))
  rw [hfl, hist, bits_land _ (by decide), bits_land _ (by decide), bits_setBits_below _ _ _ _ _ _ (by decide) (by decide) (by decide),
    bits_setBits_same _ _ _ _ (by decide)]
  exact ⟨rfl, rfl⟩

omit hc h hdone in
theorem SpSt.left_advance {u : SpSt} (bank pc : Nat) (hd : u.delay = none) : (u.advance bank pc (some .iret)).Left := by
  have hdelay : u.landAll.delay = none := by
    obtain ⟨_, _, _, _, hl⟩ := u.lands_landAll
    rw [hl]
    exact hd
  have hipc : ¬ 0x7FF < u.landAll.leave.sreg rIPC := Nat.not_lt.mpr (SpSt.sreg_le _ rIPC)
  have hadv : u.advance bank pc (some .iret) = { u.landAll.leave with
      run := if bit (u.landAll.leave.sreg rISTAT) 15 then .done else .running, pc := u.landAll.leave.sreg rIPC } := if_neg hipc
  rw [hadv]
  exact ⟨rfl, hdelay, rfl, SpSt.leave_flags _⟩

theorem iret_taken (hd : (s.atIssue k).delay = some .iret) : Done c s (fun t => (t.sp k).Left) := by
  refine done_sp (P := SpSt.Left) hc h ?_
  rw [s.stage.spNext_advance k hdone, hd]
  exact SpSt.left_advance _ _ (counted_delay h hd)

end

/-- Settles O11, by what a control instruction leaves (`follows_control`, `lexit_ends`) and what
follows its delay bundle (`jump_taken`, `iret_taken`). -/
theorem branchesAndCalls : Obligations.BranchesAndCalls := by
  refine ⟨fun s k pred tg o => ⟨fun h => ?br, call_follows, fun l a hr h => ret_follows hr h, fun v l hl h => lexit_ends hl h, fun h => ?iret⟩,
    fun c s k b hc h hdone => ⟨fun tg ht hd => jump_taken hc h hdone ht hd, fun hd => iret_taken hc h hdone hd⟩⟩
  case br =>
    obtain ⟨t, ht, hpend, hdelay, -, hpc⟩ := br_follows h
    exact ⟨t, ht, hpend, hdelay, hpc⟩
  case iret =>
    obtain ⟨t, ht, hpend, hdelay, -, hpc⟩ := iret_follows h
    exact ⟨t, ht, hpend, hdelay, hpc⟩

end Sys2Proof.Machine
end

section
/-!
PROOF. Slots with a false predicate (R62, R114), and the statement O15.
-/
namespace Sys2Proof.Machine

/-! ### Bundles that differ in a slot that does nothing -/

/-- A bundle's T slot and what its slots send, store and read decide its execution. -/
theorem Stage.spExecute_congr {s : Stage} {k : Nat} {sp : SpSt} {b b' : Bundle} (ht : b'.t = b.t) (hx : runSlots s k sp b' = runSlots s k sp b) :
    s.spExecute k sp b' = s.spExecute k sp b := by
  have hsteer : s.spSteered k sp b' = s.spSteered k sp b := by
    unfold Stage.spSteered Stage.control Stage.spSent Stage.spSlots SpSt.penalty
    rw [ht, hx]
  have hnext : s.spNext k sp b' = s.spNext k sp b := by
    unfold Stage.spNext Stage.spCounted Bundle.isDone
    rw [ht, hsteer]
  have hwritten : s.spWritten k sp b' = s.spWritten k sp b := by
    unfold Stage.spWritten
    rw [hx, hnext]
  rw [Stage.spExecute_eq, Stage.spExecute_eq, ht, hwritten]

/-- So it decides its issue where the other bundle is legal too. -/
theorem Stage.issueBundle_congr {s : State} {k : Nat} {b b' : Bundle} (h : Issues s k b) (hlegal : b'.legal = true) (ht : b'.t = b.t)
    (hx : runSlots s.stage k (s.atIssue k) b' = runSlots s.stage k (s.atIssue k) b) : s.stage.issueBundle k b' = s.stage.issueBundle k b := by
  obtain ⟨-, ha, he, hf, hs⟩ := h
  have hf' : (s.stage.sp k).landNow.bundleFault (s.stage.sp k).landNow.pc b' = none := by
    rw [← hf]
    unfold SpSt.bundleFault
    rw [hlegal, (SpSt.legal_of_noFault hf).1, ht]
    rfl
  have hs' : (s.stage.sp k).landNow.stalls b' = false := by
    rw [← hs]
    unfold SpSt.stalls
    rw [ht]
    rfl
  rw [Stage.issueBundle_executes ha he hf hs, Stage.issueBundle_executes ha he hf' hs']
  exact Stage.spExecute_congr ht hx

/-- Two effects that agree on a live processor make one command. -/
theorem State.act_block_congr {s : State} {k : PageKind} {i : Nat} {f g : Stage → Stage} (hl : Live s k i) (h : f s.stage = g s.stage) :
    (s.act fun t => t.block k i f) = s.act fun t => t.block k i g := by
  rw [State.act_up _ _ hl.1, State.act_up _ _ hl.1, Stage.block_live s k i f hl, Stage.block_live s k i g hl, h]

/-! ### Slots that are skipped (R114) -/

/-- The T slot under its predicate. -/
def SlotRun.tslot (s : Stage) (k : Nat) (sp0 : SpSt) (t : TSlot) (x : SlotRun) : SlotRun :=
  if x.sp.holds t.pred then x.top s k sp0 t.op else x

theorem runSlots_eq (s : Stage) (k : Nat) (sp : SpSt) (b : Bundle) : runSlots s k sp b
    = SlotRun.tslot s k sp b.t (SlotRun.aslot b.a (({ sp := sp : SlotRun }.mslot s k .x 0 b.m1).mslot s k .y 1 b.m2)) := rfl

section
variable {s : Stage} {k pred : Nat} {sp : SpSt} {y : SlotRun} (hy : sp.Sticks y.sp) (hp : sp.holds pred = false)
include hy hp

theorem SlotRun.mslot_skips (mem : Space) (r : Nat) {m : MSlot} (hm : m.pred = pred) : y.mslot s k mem r m = y :=
  if_neg (by rw [hm, hy.holds, hp]; exact Bool.false_ne_true)

theorem SlotRun.aslot_skips {a : ASlot} (ha : a.pred = pred) : y.aslot a = y :=
  if_neg (by rw [ha, hy.holds, hp]; exact Bool.false_ne_true)

theorem SlotRun.tslot_skips {t : TSlot} (ht : t.pred = pred) : y.tslot s k sp t = y :=
  if_neg (by rw [ht, hy.holds, hp]; exact Bool.false_ne_true)

end

section
variable (s : Stage) (k : Nat) {pred : Nat} {sp : SpSt} (o : Bundle) (hp : sp.holds pred = false)
include hp

theorem runSlots_skipsA (op op' : AOp) : runSlots s k sp (o.withA pred op) = runSlots s k sp (o.withA pred op') := by
  have hm : SlotRun.Grows { sp := sp } (({ sp := sp : SlotRun }.mslot s k .x 0 o.m1).mslot s k .y 1 o.m2) :=
    (SlotRun.grows_mslot ..).trans (SlotRun.grows_mslot ..)
  have ha : ∀ op : AOp, runSlots s k sp (o.withA pred op)
      = SlotRun.tslot s k sp o.t (({ sp := sp : SlotRun }.mslot s k .x 0 o.m1).mslot s k .y 1 o.m2) := fun op =>
    congrArg (SlotRun.tslot s k sp o.t) (SlotRun.aslot_skips (a := { pred := pred, op := op }) hm.1 hp rfl)
  rw [ha, ha]

theorem runSlots_skipsT (op op' : TOp) : runSlots s k sp (o.withT pred op) = runSlots s k sp (o.withT pred op') := by
  have hm : SlotRun.Grows { sp := sp } (SlotRun.aslot o.a (({ sp := sp : SlotRun }.mslot s k .x 0 o.m1).mslot s k .y 1 o.m2)) :=
    (SlotRun.grows_mslot ..).trans ((SlotRun.grows_mslot ..).trans (SlotRun.grows_aslot ..))
  have ht : ∀ op : TOp, runSlots s k sp (o.withT pred op)
      = SlotRun.aslot o.a (({ sp := sp : SlotRun }.mslot s k .x 0 o.m1).mslot s k .y 1 o.m2) := fun op =>
    SlotRun.tslot_skips (t := { pred := pred, op := op }) hm.1 hp rfl
  rw [ht, ht]

theorem runSlots_skipsM (second : Bool) {m m' : MSlot} (h : m.pred = pred) (h' : m'.pred = pred) :
    runSlots s k sp (o.withM second m) = runSlots s k sp (o.withM second m') := by
  have hm1 : sp.Sticks (SlotRun.mslot s k .x 0 o.m1 { sp := sp }).sp := (SlotRun.grows_mslot { sp := sp } s k .x 0 o.m1).1
  cases second with
  | false =>
    have hm : ∀ m : MSlot, m.pred = pred → runSlots s k sp (o.withM false m)
        = SlotRun.tslot s k sp o.t (SlotRun.aslot o.a ({ sp := sp : SlotRun }.mslot s k .y 1 o.m2)) := fun m h => by
      change SlotRun.tslot s k sp o.t (SlotRun.aslot o.a (({ sp := sp : SlotRun }.mslot s k .x 0 m).mslot s k .y 1 o.m2)) = _
      rw [SlotRun.mslot_skips (y := { sp := sp }) (.refl sp) hp .x 0 h]
    rw [hm m h, hm m' h']
  | true =>
    have hm : ∀ m : MSlot, m.pred = pred → runSlots s k sp (o.withM true m)
        = SlotRun.tslot s k sp o.t (SlotRun.aslot o.a ({ sp := sp : SlotRun }.mslot s k .x 0 o.m1)) := fun m h => by
      change SlotRun.tslot s k sp o.t (SlotRun.aslot o.a (({ sp := sp : SlotRun }.mslot s k .x 0 o.m1).mslot s k .y 1 m)) = _
      rw [SlotRun.mslot_skips hm1 hp .y 1 h]
    rw [hm m h, hm m' h']

end

/-! ### The handshakes of a processor (R65) do not steer it -/

/-- The processor with another count of executed work. -/
def SpSt.withE (sp : SpSt) (n : Nat) : SpSt := { sp with e := n }

section
variable (u : SpSt) (n : Nat)

theorem SpSt.landOne_withE (l : Land) : (u.withE n).landOne l = (u.landOne l).withE n := by
  unfold SpSt.landOne
  split
  · rfl
  · rfl
  · rfl
  · exact Eq.symm (apply_ite (fun a : SpSt => a.withE n) _ _ _)

theorem SpSt.landIn_withE (all : List Land) (l : Land) : SpSt.landIn all (u.withE n) l = (SpSt.landIn all u l).withE n := by
  unfold SpSt.landIn
  rw [SpSt.landOne_withE]
  exact Eq.symm (apply_ite (fun a : SpSt => a.withE n) _ _ _)

theorem SpSt.landAt_withE (m : Nat) : (u.withE n).landAt m = (u.landAt m).withE n := by
  unfold SpSt.landAt
  exact List.foldl_hom (init := { u with pend := u.pend.filter (fun l => l.due != m) }) (fun a : SpSt => a.withE n)
    fun x l => SpSt.landIn_withE x n _ l

theorem SpSt.landAll_withE : (u.withE n).landAll = u.landAll.withE n := by
  have hiss : (u.withE n).iss = u.iss := rfl
  rw [SpSt.landAll, hiss, SpSt.landAt_withE, SpSt.landAt_withE, SpSt.landAt_withE, SpSt.landAll]

theorem SpSt.iterate_withE (k : Nat) : (u.withE n).iterate k = (u.iterate k).withE n := by
  unfold SpSt.iterate
  exact Eq.symm (apply_ite (fun a : SpSt => a.withE n) _ _ _)

theorem SpSt.cacheEnd_withE (bank k pc : Nat) : (u.withE n).cacheEnd bank k pc = (u.cacheEnd bank k pc).withE n := by
  unfold SpSt.cacheEnd
  dsimp only
  by_cases h : u.capture = some (u.start k, pc)
  · rw [if_pos h, if_pos (show (u.withE n).capture = some ((u.withE n).start k, pc) from h)]
    exact Eq.symm (apply_ite (fun a : SpSt => a.withE n) _ _ _)
  · rw [if_neg h, if_neg (show ¬ (u.withE n).capture = some ((u.withE n).start k, pc) from h)]
    exact Eq.symm (apply_ite (fun a : SpSt => a.withE n) _ _ _)

theorem SpSt.endTest_withE (bank pc : Nat) : (u.withE n).endTest bank pc = ((u.endTest bank pc).1, (u.endTest bank pc).2.withE n) := by
  have hlevels : (u.withE n).levels = u.levels := rfl
  have hlc : ∀ (a : SpSt) k, (a.withE n).lc k = a.lc k := fun _ _ => rfl
  have hstart : ∀ (a : SpSt) k, (a.withE n).start k = a.start k := fun _ _ => rfl
  have hstop : ∀ (a : SpSt) k, (a.withE n).stop k = a.stop k := fun _ _ => rfl
  unfold SpSt.endTest
  rw [hlevels]
  split
  · rfl
  · simp only [SpSt.iterate_withE, SpSt.cacheEnd_withE, hlc, hstart, hstop]
    split
    · rfl
    · split
      · rfl
      · split
        · rfl
        · split
          · rfl
          · split <;> rfl

theorem SpSt.advance_withE (bank pc : Nat) (was : Option After) : (u.withE n).advance bank pc was = (u.advance bank pc was).withE n := by
  have hgo : ∀ (a : SpSt) (m : Nat), (if 0x7FF < m then { a.withE n with flt := some (cPC_END, 0x7FF) } else { a.withE n with pc := m })
      = (if 0x7FF < m then { a with flt := some (cPC_END, 0x7FF) } else { a with pc := m }).withE n := fun a m =>
    Eq.symm (apply_ite (fun a : SpSt => a.withE n) _ _ _)
  unfold SpSt.advance
  match was with
  | none =>
    dsimp only
    rw [SpSt.endTest_withE]
    exact hgo _ _
  | some (.jump t) => exact hgo u t
  | some .iret =>
    dsimp only
    rw [SpSt.landAll_withE]
    exact hgo { u.landAll.leave with run := if bit (u.landAll.leave.sreg rISTAT) 15 then .done else .running } _

theorem SpSt.advance_e (bank pc : Nat) (was : Option After) : (u.advance bank pc was).e = u.e := by
  have h : u.advance bank pc was = (u.advance bank pc was).withE u.e := u.advance_withE u.e bank pc was
  rw [h]
  rfl

end

/-! ### A T slot that is skipped (R62, R114) -/

/-- The forms of the T slot that use the C bus (R62). -/
def usesCBus : TOp → Bool
  | .ldc _ _ _ _ | .stc _ _ _ _ => true
  | _ => false

/-- The handshake that the C bus takes from program memory, beside those of the slots and the gather (R62, R65). -/
theorem SpSt.penalty_eq (sp : SpSt) (pc : Nat) (b : Bundle) (x : SlotRun) : sp.penalty pc b x
    = (if usesCBus b.t.op && !sp.served pc then 1 else 0) + x.extra + (if x.xacc && sp.gathering then 1 else 0) := by
  unfold SpSt.penalty usesCBus
  cases b.t.op <;> rfl

/-- What the C bus adds to the cost of a bundle. -/
def SpSt.busCost (sp : SpSt) (op : TOp) : Nat := if usesCBus op && !sp.served sp.pc then 1 else 0

section
variable (s : Stage) (k : Nat) {sp : SpSt} {b : Bundle} (hp : sp.holds b.t.pred = false)
include hp

theorem Stage.spSent_skips : s.spSent k sp b = s.spSlots k sp b := by
  have hn : ¬ sp.holds b.t.pred = true := by rw [hp]; exact Bool.false_ne_true
  unfold Stage.spSent
  split
  · exact if_neg hn
  · exact if_neg hn
  · rfl

theorem Stage.spSteered_skips : s.spSteered k sp b = (s.spSlots k sp b, none) := by
  have hn : ¬ (s.spSent k sp b).holds b.t.pred = true := by
    rw [(s.sameLoops_spSent k sp b).holds, hp]; exact Bool.false_ne_true
  exact (if_neg hn).trans (by rw [s.spSent_skips k hp])

theorem Stage.spNext_skips : s.spNext k sp b
    = { s.spSlots k sp b with iss := sp.iss + 1, delay := none }.advance (s.spBank k) sp.pc sp.delay := by
  rw [s.spNext_advance k (by rw [hp, Bool.false_and]), Stage.spCounted, s.spSteered_skips k hp]

theorem Stage.spExecute_skips : s.spExecute k sp b = s.spWritten k sp b := by
  rw [Stage.spExecute_eq]
  split
  · exact if_neg (by rw [hp]; exact Bool.false_ne_true)
  · rfl

end

section
variable (s : Stage) (k : Nat) {pred : Nat} {sp : SpSt} (o : Bundle) (hp : sp.holds pred = false) (op : TOp)
include hp

theorem Stage.spSlots_skipsT : s.spSlots k sp (o.withT pred op)
    = (s.spSlots k sp (o.withT pred .nop)).withE ((s.spSlots k sp (o.withT pred .nop)).e + sp.busCost op) := by
  have hcost : 1 + sp.penalty sp.pc (o.withT pred op) (runSlots s k sp (o.withT pred .nop))
      = 1 + sp.penalty sp.pc (o.withT pred .nop) (runSlots s k sp (o.withT pred .nop)) + sp.busCost op := by
    rw [SpSt.penalty_eq, SpSt.penalty_eq]
    change 1 + (sp.busCost op + _ + _) = 1 + (0 + _ + _) + _
    omega
  have hslots : s.spSlots k sp (o.withT pred op) = (s.spSlots k sp (o.withT pred .nop)).withE
      (sp.e + (1 + sp.penalty sp.pc (o.withT pred op) (runSlots s k sp (o.withT pred .nop)))) := by
    unfold Stage.spSlots
    rw [runSlots_skipsT s k o hp op .nop]
    rfl
  rw [hslots, hcost, ← Nat.add_assoc]
  rfl

/-- A skipped T slot leaves the processor as a NOP in its place does, but for the handshake of the C bus. -/
theorem Stage.spNext_skipsT : s.spNext k sp (o.withT pred op)
    = (s.spNext k sp (o.withT pred .nop)).withE ((s.spNext k sp (o.withT pred .nop)).e + sp.busCost op) := by
  rw [s.spNext_skips k (b := o.withT pred op) hp, s.spNext_skips k (b := o.withT pred .nop) hp, SpSt.advance_e, s.spSlots_skipsT k o hp op]
  exact SpSt.advance_withE { s.spSlots k sp (o.withT pred .nop) with iss := sp.iss + 1, delay := none } _ _ _ _

end

/-- Memory after a bundle: the words read and stored. -/
theorem Stage.mem_spWritten (s : Stage) (k : Nat) (sp : SpSt) (b : Bundle) : (s.spWritten k sp b).mem
    = ((runSlots s k sp b).stores.foldl (fun s e => s.wr32 e.1 e.2) ((runSlots s k sp b).seen.foldl (fun s a => s.eccRead a k) s)).mem := by
  unfold Stage.spWritten
  dsimp only
  rw [Stage.mem_spReturns, Stage.setN_mem, Stage.putSp_mem]

/-! ### Legality of the bundles compared (R112) -/

theorem Issues.legal {s : State} {k : Nat} {b : Bundle} (h : Issues s k b) : b.legal = true := (SpSt.legal_of_noFault h.2.2.2.1).1

/-- A legal bundle with a NOP in the T slot raises no fault. -/
theorem SpSt.bundleFault_nop {b : Bundle} (sp : SpSt) (pc : Nat) (hlegal : b.legal = true) (hop : b.t.op = .nop) : sp.bundleFault pc b = none := by
  unfold SpSt.bundleFault
  rw [hlegal, hop]
  simp [TOp.isControl, TOp.endBelow, TOp.endBarred]

/-- A bundle that issues does so with a NOP in the T slot too. -/
theorem Issues.nopT {s : State} {k pred : Nat} {o : Bundle} {op : TOp} (h : Issues s k (o.withT pred op)) : Issues s k (o.withT pred .nop) := by
  obtain ⟨h1, h2, ha, ht⟩ := (Bundle.legal_iff _).mp h.legal
  have hlegal : (o.withT pred .nop).legal = true :=
    (Bundle.legal_iff _).mpr ⟨h1, h2, ha, (TSlot.legal_iff _).mpr ⟨((TSlot.legal_iff _).mp ht).1, rfl⟩⟩
  exact ⟨h.1, h.2.1, h.2.2.1, SpSt.bundleFault_nop _ _ hlegal rfl, Bool.and_false _⟩

/-- A multiply slot that does nothing is legal under a legal predicate. -/
theorem MSlot.legal_idle {pred : Nat} (h : predLegal pred = true) : ({ pred := pred } : MSlot).legal = true := by
  unfold MSlot.legal
  rw [h]
  rfl

theorem MSlot.predLegal_of_legal {m : MSlot} (h : m.legal = true) : predLegal m.pred = true := by
  simp only [MSlot.legal, Bool.and_eq_true] at h
  obtain ⟨⟨⟨⟨⟨⟨⟨⟨hp, -⟩, -⟩, -⟩, -⟩, -⟩, -⟩, -⟩, -⟩ := h
  exact hp

theorem legal_withM_idle {o : Bundle} {second : Bool} {m : MSlot} (h : (o.withM second m).legal = true) :
    (o.withM second { pred := m.pred }).legal = true := by
  obtain ⟨h1, h2, ha, ht⟩ := (Bundle.legal_iff _).mp h
  cases second with
  | false => exact (Bundle.legal_iff _).mpr ⟨MSlot.legal_idle (MSlot.predLegal_of_legal h1), h2, ha, ht⟩
  | true => exact (Bundle.legal_iff _).mpr ⟨h1, MSlot.legal_idle (MSlot.predLegal_of_legal h2), ha, ht⟩

/-! ### The commands -/

theorem Issues.executes {s : State} {k : Nat} {b : Bundle} (h : Issues s k b) :
    s.stage.issueBundle k b = s.stage.spExecute k (s.atIssue k) b := by
  obtain ⟨-, ha, he, hf, hs⟩ := h
  exact Stage.issueBundle_executes ha he hf hs

section
variable {s : State} {k pred : Nat} {o : Bundle} (hp : (s.atIssue k).holds pred = false)
include hp

theorem skipped_a {op : AOp} (h : Issues s k (o.withA pred op)) :
    (s.act fun t => t.block .sp k fun t => t.issueBundle k (o.withA pred op)) = exec (.nop k false pred o) s := by
  have hlegal : (o.withA pred .nop).legal = true := by
    obtain ⟨h1, h2, ha, ht⟩ := (Bundle.legal_iff _).mp h.legal
    exact (Bundle.legal_iff _).mpr ⟨h1, h2, (ASlot.legal_iff _).mpr ⟨((ASlot.legal_iff _).mp ha).1, rfl⟩, ht⟩
  rw [exec_slot (b := o.withA pred .nop) rfl s]
  exact (State.act_block_congr h.1 (Stage.issueBundle_congr h hlegal rfl (runSlots_skipsA s.stage k o hp .nop op))).symm

theorem skipped_m {second : Bool} {m : MSlot} (hm : m.pred = pred) (h : Issues s k (o.withM second m)) :
    (s.act fun t => t.block .sp k fun t => t.issueBundle k (o.withM second m))
      = s.act fun t => t.block .sp k fun t => t.issueBundle k (o.withM second { pred := pred }) := by
  have hlegal : (o.withM second { pred := pred }).legal = true := hm ▸ legal_withM_idle h.legal
  have ht : (o.withM second { pred := pred }).t = (o.withM second m).t := by cases second <;> rfl
  exact (State.act_block_congr h.1 (Stage.issueBundle_congr h hlegal ht (runSlots_skipsM s.stage k o hp second rfl hm))).symm

theorem skipped_t {op : TOp} (h : Issues s k (o.withT pred op)) (hbus : usesCBus op = false) :
    (s.act fun t => t.block .sp k fun t => t.issueBundle k (o.withT pred op)) = exec (.nop k true pred o) s := by
  have hcost : (s.atIssue k).busCost op = 0 := by rw [SpSt.busCost, hbus]; rfl
  have hnext : s.stage.spNext k (s.atIssue k) (o.withT pred op) = s.stage.spNext k (s.atIssue k) (o.withT pred .nop) := by
    rw [s.stage.spNext_skipsT k o hp op, hcost]
    rfl
  have hwritten : s.stage.spWritten k (s.atIssue k) (o.withT pred op) = s.stage.spWritten k (s.atIssue k) (o.withT pred .nop) := by
    unfold Stage.spWritten
    rw [runSlots_skipsT s.stage k o hp op .nop, hnext]
  rw [exec_slot (b := o.withT pred .nop) rfl s]
  refine State.act_block_congr h.1 ?_
  rw [h.executes, h.nopT.executes, Stage.spExecute_skips _ _ hp, Stage.spExecute_skips _ _ hp, hwritten]

theorem skipped_bus {op : TOp} (h : Issues s k (o.withT pred op)) (hbus : usesCBus op = true) :
    ∃ t u : State, (s.act fun t => t.block .sp k fun t => t.issueBundle k (o.withT pred op)) = .next t
      ∧ exec (.nop k true pred o) s = .next u ∧ t.stage.mem = u.stage.mem
      ∧ ({ t.stage.sp k with e := 0 } : SpSt) = { u.stage.sp k with e := 0 }
      ∧ (t.stage.sp k).e = (u.stage.sp k).e + (if (s.atIssue k).served (s.atIssue k).pc then 0 else 1) := by
  have hcost : (s.atIssue k).busCost op = if (s.atIssue k).served (s.atIssue k).pc then 0 else 1 := by
    rw [SpSt.busCost, hbus]
    cases (s.atIssue k).served (s.atIssue k).pc <;> rfl
  rw [exec_slot (b := o.withT pred .nop) rfl s, State.act_up _ _ h.1.1, State.act_up _ _ h.1.1, Stage.block_live s .sp k _ h.1,
    Stage.block_live s .sp k _ h.1, h.executes, h.nopT.executes]
  refine ⟨_, _, rfl, rfl, ?_, ?_, ?_⟩
  · dsimp only
    rw [Stage.ends_mem, Stage.ends_mem, Stage.spExecute_skips _ _ hp, Stage.spExecute_skips _ _ hp, Stage.mem_spWritten, Stage.mem_spWritten,
      runSlots_skipsT s.stage k o hp op .nop]
  · dsimp only
    rw [Stage.ends_sp, Stage.ends_sp, Stage.sp_spExecute, Stage.sp_spExecute, s.stage.spNext_skipsT k o hp op]
    rfl
  · dsimp only
    rw [Stage.ends_sp, Stage.ends_sp, Stage.sp_spExecute, Stage.sp_spExecute, s.stage.spNext_skipsT k o hp op, hcost]
    rfl

end

/-- Settles O15, by the slots that a false predicate skips (`runSlots_skipsA`, `runSlots_skipsM`, `Stage.spNext_skipsT`). -/
theorem falsePredicates : Obligations.FalsePredicates := by
  intro s k pred o _ hp
  refine ⟨fun op h => skipped_a hp h, fun op h hne => skipped_t hp h ?_, fun op dr p am imm h hop => skipped_bus hp h ?_,
    fun second m hm h => skipped_m hp hm h⟩
  · unfold usesCBus
    split
    · exact absurd rfl (hne _ _ _ _).1
    · exact absurd rfl (hne _ _ _ _).2
    · rfl
  · rcases hop with rfl | rfl <;> rfl

end Sys2Proof.Machine
end

section
/-!
PROOF. The sums of a batten's lanes (R130, R132, R133, R139 to R141, R207): the words that the lanes visit, what a word adds, and the statement O34.
-/
namespace Sys2Proof.Machine

/-! ### The keys of a table -/

theorem Tab.mem_keys_ins {α : Type} (t : Tab α) (k : Nat) (v : α) (j : Nat) :
    j ∈ (Tab.ins t k v).map Prod.fst ↔ j = k ∨ j ∈ t.map Prod.fst := by
  induction t with
  | nil => simp [Tab.ins]
  | cons e t ih =>
    obtain ⟨i, w⟩ := e
    simp only [Tab.ins]
    split
    · simp
    · split
      · rename_i h
        simp [h]
      · simp only [List.map_cons, List.mem_cons, ih]
        exact or_left_comm

/-- The keys of a rising table rise. -/
theorem Tab.keys_rise {α : Type} (t : Tab α) : ∀ {b : Nat}, Tab.risingFrom b t = true →
    (∀ j ∈ t.map Prod.fst, b ≤ j) ∧ (t.map Prod.fst).Pairwise (· < ·) := by
  induction t with
  | nil => exact fun _ => ⟨by simp, .nil⟩
  | cons e t ih =>
    intro b h
    obtain ⟨i, w⟩ := e
    simp only [Tab.risingFrom, Bool.and_eq_true, decide_eq_true_eq] at h
    obtain ⟨hmin, hrise⟩ := ih h.2
    refine ⟨List.forall_mem_cons.mpr ⟨h.1, fun j hj => ?_⟩, List.pairwise_cons.mpr ⟨hmin, hrise⟩⟩
    exact Nat.le_trans h.1 (Nat.le_of_succ_le (hmin j hj))

theorem Tab.get_unlisted {α : Type} (d : α) (t : Tab α) {k : Nat} (h : ∀ e ∈ t, e.1 ≠ k) : Tab.get d t k = d := by
  have hn : Tab.find t k = none := by
    induction t with
    | nil => rfl
    | cons e t ih =>
      obtain ⟨hk, ht⟩ := List.forall_mem_cons.mp h
      rw [Tab.find, if_neg hk, ih ht]
  rw [Tab.get, hn]
  rfl

/-- `t` with all keys of `l` listed. -/
def Tab.insAll (t : Tab Unit) (l : List Nat) : Tab Unit := l.foldl (fun t j => Tab.ins t j ()) t

theorem Tab.rising_insAll (l : List Nat) : ∀ {t : Tab Unit}, Tab.risingFrom 0 t = true → Tab.risingFrom 0 (t.insAll l) = true := by
  induction l with
  | nil => exact fun h => h
  | cons j l ih => exact fun h => ih (Tab.risingFrom_ins _ () h (Nat.zero_le j))

theorem Tab.mem_keys_insAll (l : List Nat) (j : Nat) : ∀ t : Tab Unit, j ∈ (t.insAll l).map Prod.fst ↔ j ∈ l ∨ j ∈ t.map Prod.fst := by
  induction l with
  | nil => simp [Tab.insAll]
  | cons i l ih =>
    intro t
    rw [Tab.insAll, List.foldl_cons, ← Tab.insAll, ih, Tab.mem_keys_ins, List.mem_cons]
    tauto

/-! ### The words that memory lists (R139) -/

/-- Entry `e` of memory lies in a plane. -/
def inPlane (k plane : Nat) (e : Nat × Byte) : Bool := decide (planeAddr k plane ≤ e.1 ∧ e.1 < planeAddr k plane + 0x10000)

/-- The words of a plane in which memory lists a byte, byte by byte. -/
def Stage.listedWords (s : Stage) (k plane : Nat) : List Nat := (s.mem.filter (inPlane k plane)).map fun e => (e.1 - planeAddr k plane) / 32

section
variable (s : Stage) (k : Nat)

theorem Stage.planeWords_eq (plane : Nat) : s.planeWords k plane = Tab.insAll [] (s.listedWords k plane) := by
  rw [Stage.planeWords, Tab.insAll, Stage.listedWords, List.foldl_map, List.foldl_filter]
  simp only [inPlane, decide_eq_true_eq]

theorem Stage.rising_planeWords (plane : Nat) : Tab.risingFrom 0 (s.planeWords k plane) = true := by
  rw [Stage.planeWords_eq]
  exact Tab.rising_insAll _ rfl

theorem Stage.mem_planeWords (plane w : Nat) : w ∈ (s.planeWords k plane).map Prod.fst ↔ w ∈ s.listedWords k plane := by
  rw [Stage.planeWords_eq, Tab.mem_keys_insAll]
  simp

theorem Stage.listedWords_lt {plane w : Nat} (h : w ∈ s.listedWords k plane) : w < 2048 := by
  obtain ⟨e, he, rfl⟩ := List.mem_map.mp h
  have hin := of_decide_eq_true (List.mem_filter.mp he).2
  omega

theorem Stage.rd8_unlisted {a : Nat} (h : ∀ e ∈ s.mem, e.1 ≠ a) : s.rd8 a = 0#8 := by
  unfold Stage.rd8
  split
  · rfl
  · exact Tab.get_unlisted _ _ h

/-- Every gain of a word that memory does not list is zero. -/
theorem Stage.planeFld_unlisted {plane w f : Nat} (hw : w < 2048) (hf : f < 8) (h : w ∉ s.listedWords k plane) :
    s.planeFld k plane w f = 0#32 := by
  have hbyte : ∀ j ∈ upTo 4, s.rd8 (planeAddr k plane + 32 * w + 4 * f + j) = 0#8 := fun j hj =>
    s.rd8_unlisted fun e he ha => h <| List.mem_map.mpr
      ⟨e, List.mem_filter.mpr ⟨he, decide_eq_true (by have := mem_upTo.mp hj; omega)⟩, by have := mem_upTo.mp hj; omega⟩
  rw [Stage.planeFld, Stage.rd32, Stage.rdN, Stage.rdBytes, List.map_congr_left hbyte]
  rfl

/-! ### The words that the lanes visit (R140) -/

/-- The words that the lanes of BAT `k` visit: those that memory lists in the planes they read. -/
def Stage.visited (s : Stage) (k : Nat) : List Nat :=
  (if (s.bat k).fading then (s.planeWords k 0).insAll ((s.planeWords k 1).map Prod.fst) else s.planeWords k (s.bat k).live).map Prod.fst

theorem Stage.visited_rise : (s.visited k).Pairwise (· < ·) := by
  refine (Tab.keys_rise _ (b := 0) ?_).2
  split
  · exact Tab.rising_insAll _ (s.rising_planeWords k 0)
  · exact s.rising_planeWords k _

theorem Stage.visited_lt {w : Nat} (h : w ∈ s.visited k) : w < 2048 := by
  unfold Stage.visited at h
  split at h
  · rcases (Tab.mem_keys_insAll _ _ _).mp h with h | h
    · exact s.listedWords_lt k ((s.mem_planeWords k _ _).mp h)
    · exact s.listedWords_lt k ((s.mem_planeWords k _ _).mp h)
  · exact s.listedWords_lt k ((s.mem_planeWords k _ _).mp h)

/-- A word with a gain that is not zero in a plane that the lanes read is visited. -/
theorem Stage.visited_of_gainOn {w f : Nat} (hw : w < 2048) (hf : f < 8) (h : s.gainOn k (s.bat k) w f = true) : w ∈ s.visited k := by
  have hlisted : ∀ p, (s.planeFld k p w f != 0#32) = true → w ∈ (s.planeWords k p).map Prod.fst := fun p hp =>
    (s.mem_planeWords k p w).mpr (not_not.mp fun hn => bne_iff_ne.mp hp (s.planeFld_unlisted k hw hf hn))
  unfold Stage.gainOn at h
  unfold Stage.visited
  split at h
  · rw [if_pos ‹_›]
    exact (Tab.mem_keys_insAll _ _ _).mpr ((Bool.or_eq_true_iff.mp h).symm.imp (hlisted 1) (hlisted 0))
  · rw [if_neg ‹_›]
    exact hlisted _ h

/-- Of the words that the lanes visit, those that are read are all the words that are read, in ascending order. -/
theorem Stage.visited_used : (s.visited k).filter (s.wordUsed k) = (upTo 2048).filter (s.wordUsed k) := by
  refine (((s.visited_rise k).filter _).sortedLT).eq_of_mem_iff ((List.pairwise_lt_range.filter _).sortedLT) fun w => ?_
  rw [List.mem_filter, List.mem_filter, mem_upTo]
  refine and_congr_left fun hu => ⟨s.visited_lt k, fun hw => ?_⟩
  obtain ⟨f, hf, hg⟩ := List.any_eq_true.mp (Bool.and_eq_true_iff.mp hu).2
  exact s.visited_of_gainOn k hw (mem_upTo.mp hf) hg

end

/-! ### What a word adds (R132) -/

/-- One word is read: every lane adds its product, and the word is counted. -/
def Lanes.readWord (p : Nat → Int) (l : Lanes) : Lanes := (upTo 8).foldl (fun l f => l.add f (p f)) { l with words := l.words + 1 }

theorem Lanes.acc_add (l : Lanes) (f d : Nat) (z : Int) (hd : d < l.acc.length) :
    (l.add f z).acc.getD d 0 = if f = d then satI 72 (l.acc.getD d 0 + z) else l.acc.getD d 0 := by
  unfold Lanes.add
  dsimp only
  rw [List.getD_eq_getElem _ _ (by rwa [List.length_set]), List.getElem_set]
  split
  · rename_i h
    rw [h]
  · rw [List.getD_eq_getElem _ _ hd]

/-- Each lane of a list without repetition adds its product once. -/
theorem Lanes.foldl_add (p : Nat → Int) (fs : List Nat) (hfs : fs.Nodup) : ∀ l : Lanes,
    (fs.foldl (fun l f => l.add f (p f)) l).words = l.words
      ∧ (fs.foldl (fun l f => l.add f (p f)) l).acc.length = l.acc.length
      ∧ ∀ d, d < l.acc.length → (fs.foldl (fun l f => l.add f (p f)) l).acc.getD d 0
        = if d ∈ fs then satI 72 (l.acc.getD d 0 + p d) else l.acc.getD d 0 := by
  induction fs with
  | nil => exact fun l => ⟨rfl, rfl, fun _ _ => rfl⟩
  | cons f fs ih =>
    intro l
    obtain ⟨hnot, hfs⟩ := List.nodup_cons.mp hfs
    have hlen : (l.add f (p f)).acc.length = l.acc.length := List.length_set ..
    obtain ⟨hw, hl, hacc⟩ := ih hfs (l.add f (p f))
    refine ⟨hw, hl.trans hlen, fun d hd => ?_⟩
    rw [List.foldl_cons, hacc d (hlen ▸ hd), Lanes.acc_add l f d _ hd]
    by_cases hfd : f = d
    · subst hfd
      rw [if_neg hnot, if_pos rfl, if_pos (List.mem_cons_self ..)]
    · rw [if_neg hfd]
      simp [Ne.symm hfd]

theorem Lanes.readWord_words (p : Nat → Int) (l : Lanes) : (l.readWord p).words = l.words + 1 :=
  (Lanes.foldl_add p (upTo 8) List.nodup_range _).1

theorem Lanes.readWord_length (p : Nat → Int) (l : Lanes) : (l.readWord p).acc.length = l.acc.length :=
  (Lanes.foldl_add p (upTo 8) List.nodup_range _).2.1

theorem Lanes.readWord_acc (p : Nat → Int) {l : Lanes} (hl : l.acc.length = 8) {d : Nat} (hd : d < 8) :
    (l.readWord p).acc.getD d 0 = satI 72 (l.acc.getD d 0 + p d) := by
  obtain ⟨-, -, hacc⟩ := Lanes.foldl_add p (upTo 8) List.nodup_range { l with words := l.words + 1 }
  exact (hacc d (hl ▸ hd)).trans (if_pos (mem_upTo.mpr hd))

/-- Words read one after another: each lane's products are summed in order, and the words counted. -/
theorem Lanes.foldl_readWord (p : Nat → Nat → Int) (ws : List Nat) : ∀ l : Lanes, l.acc.length = 8 →
    (ws.foldl (fun l w => l.readWord (p w)) l).words = l.words + ws.length
      ∧ ∀ d, d < 8 → (ws.foldl (fun l w => l.readWord (p w)) l).acc.getD d 0 = ws.foldl (fun z w => satI 72 (z + p w d)) (l.acc.getD d 0) := by
  induction ws with
  | nil => exact fun l _ => ⟨rfl, fun _ _ => rfl⟩
  | cons w ws ih =>
    intro l hl
    obtain ⟨hwords, hacc⟩ := ih (l.readWord (p w)) ((l.readWord_length _).trans hl)
    refine ⟨?_, fun d hd => ?_⟩
    · rw [List.foldl_cons, hwords, Lanes.readWord_words, List.length_cons]
      omega
    · rw [List.foldl_cons, hacc d hd, Lanes.readWord_acc (p w) hl hd, List.foldl_cons]

/-! ### The lanes up to 96 kHz (R132, R140) -/

/-- The product of word `w` in lane `d`: its source's sample by the live gain. -/
def Stage.laneProduct (s : Stage) (k w d : Nat) : Int :=
  (s.exchRead (s.srcSlot w)).toInt * s.liveGain k (s.bat k) (s.alpha k (s.bat k).xfCurve (s.bat k).xfK (s.bat k).xfN) w d

section
variable (s : Stage) (k : Nat)

theorem Stage.sumOver_eq (d : Nat) :
    s.sumOver k d = ((upTo 2048).filter (s.wordUsed k)).foldl (fun z w => satI 72 (z + s.laneProduct k w d)) 0 := by
  rw [List.foldl_filter]
  rfl

variable (h : s.highRate = false)
include h

/-- A word that is read joins every lane; another is skipped. -/
theorem Stage.laneWord_low (l : Lanes) (w : Nat) :
    s.laneWord k (s.bat k) (s.alpha k (s.bat k).xfCurve (s.bat k).xfK (s.bat k).xfN) l w
      = if s.wordUsed k w then l.readWord (s.laneProduct k w) else l := by
  have hused : ((s.srcNoSkip w || !s.srcSilent w) && [0, 1, 2, 3, 4, 5, 6, 7].any (s.gainOn k (s.bat k) w)) = s.wordUsed k w := rfl
  unfold Stage.laneWord wordSources
  rw [h]
  simp only [Bool.false_eq_true, if_false, List.filter_cons, List.filter_nil, hused]
  cases s.wordUsed k w with
  | false => rfl
  | true => rfl

/-- The lanes read the words that count, in ascending order. -/
theorem Stage.batLanes_low : s.batLanes k = ((upTo 2048).filter (s.wordUsed k)).foldl (fun l w => l.readWord (s.laneProduct k w)) {} := by
  have hvisit : s.batLanes k = (s.visited k).foldl
      (fun l w => s.laneWord k (s.bat k) (s.alpha k (s.bat k).xfCurve (s.bat k).xfK (s.bat k).xfN) l w) {} := by
    rw [Stage.visited, List.foldl_map, Tab.insAll, List.foldl_map]
    simp [Stage.batLanes, h]
  rw [hvisit, ← s.visited_used k, List.foldl_filter]
  simp only [Stage.laneWord_low s k h]

end

/-- Settles O34, by the words that the lanes read (`Stage.batLanes_low`) and what each adds (`Lanes.foldl_readWord`). -/
theorem laneSums : Obligations.LaneSums := by
  intro s k h
  obtain ⟨hwords, hacc⟩ := Lanes.foldl_readWord (s.laneProduct k) ((upTo 2048).filter (s.wordUsed k)) {} rfl
  rw [← s.batLanes_low k h] at hwords hacc
  refine ⟨fun d hd => (hacc d hd).trans ?_, hwords.trans (Nat.zero_add _)⟩
  have hzero : (({} : Lanes).acc).getD d 0 = 0 := List.getD_replicate (0 : Int) hd
  rw [s.sumOver_eq, hzero]

end Sys2Proof.Machine
end

section
/-!
PROOF. Commands of a page (R566 to R571): what a command written on an idle page does, and the completion record it ends with.
-/
namespace Sys2Proof.Machine

/-! ### Words of a list of bytes in memory -/

theorem Word.ofNat_leBytes (n : Nat) : Word.ofNat (ofLeBytes (leBytes 4 n)) = Word.ofNat n := by
  rw [ofLeBytes_leBytes]
  exact BitVec.eq_of_toNat_eq (by simp [Word.ofNat])

/-- A word of a list of bytes written reads as its four bytes. -/
theorem Stage.rd32_wrBytes {s : Stage} (he : s.ecc = []) (a : Nat) (l : List Byte) {i : Nat} (hi : i + 4 ≤ l.length) :
    (s.wrBytes a l).rd32 (a + i) = Word.ofNat (ofLeBytes ((l.drop i).take 4)) := by
  have hb : (s.wrBytes a l).rdBytes (a + i) 4 = (l.drop i).take 4 := by
    refine List.ext_getElem (by simp [Stage.rdBytes, upTo]; omega) fun j hj hl => ?_
    have hj4 : j < 4 := by simpa [Stage.rdBytes, upTo] using hj
    simpa [Stage.rdBytes, upTo, Nat.add_assoc] using Stage.rd8_wrBytes_same l s a (i + j) (by omega) he
  rw [Stage.rd32, Stage.rdN, hb]

/-! ### Completion records (R569 to R571) -/

/-- A record read in a state is read in every state with the same memory and the same HEAD. -/
theorem Recorded.congr {x t u : Stage} {p : Nat} {c : Cmd} {st : Nat} {w : Word} (h : Recorded x p c st w t) (hm : u.mem = t.mem)
    (he : u.ecc = t.ecc) (hr : u.regN 0 0x0C0 = t.regN 0 0x0C0) : Recorded x p c st w u := by
  have hrd : ∀ a, u.rd32 a = t.rd32 a := fun a => Stage.rd32_congr fun j _ => Stage.rd8_congr hm he _
  obtain ⟨hhandle, hstatus, hresult, hhead⟩ := h
  exact ⟨(hrd _).trans hhandle, (hrd _).trans hstatus, (hrd _).trans hresult, hr.trans hhead⟩

/-- The end of a command leaves its record. -/
theorem Recorded.ends {x t : Stage} {p : Nat} {c : Cmd} {st : Nat} {w : Word} (h : Recorded x p c st w t) (s : Stage) :
    Recorded x p c st w (s.ends t) :=
  h.congr (Stage.ends_mem s t) (Stage.ends_ecc s t) (Stage.ends_regN s t (by omega) (by omega))

/-- The ring is the same to a record that comes: the registers of SYS but its events, the records that wait and the errors of memory. -/
def Stage.SameRing (s t : Stage) : Prop :=
  (∀ o, o < 4096 → o ≠ 0x014 → t.reg 0 o = s.reg 0 o) ∧ t.recStore = s.recStore ∧ t.ecc = s.ecc

theorem Stage.SameRing.trans {s t u : Stage} (h : s.SameRing t) (h' : t.SameRing u) : s.SameRing u := by
  obtain ⟨hr, hs, he⟩ := h
  obtain ⟨hr', hs', he'⟩ := h'
  exact ⟨fun o ho hn => (hr' o ho hn).trans (hr o ho hn), hs'.trans hs, he'.trans he⟩

theorem RingFree.congr {s t : Stage} (h : RingFree s) (hs : s.SameRing t) : RingFree t := by
  obtain ⟨hcount, hstore, hecc⟩ := h
  obtain ⟨hr, hs, he⟩ := hs
  refine ⟨?_, hs.trans hstore, he.trans hecc⟩
  rwa [Stage.ringCount, Stage.fld_congr (hr 0x0C0 (by omega) (by omega)), Stage.fld_congr (hr 0x0C4 (by omega) (by omega))]

section
variable {s : Stage} (h : RingFree s) (p : Nat) (c : Cmd) (st : Nat) (w : Word)
include h

/-- With room in the ring, a command's record is written there. -/
theorem Stage.complete_free : s.complete p c st w
    = s.ringWrite { handle := handleOf p c.seq, cls := c.cls, status := st, result := w, datum := s.now } :=
  if_pos ⟨h.1, h.2.1⟩

theorem Stage.recorded_here (hst : st < 256) : Recorded s p c st w (s.complete p c st w) := by
  have hword : ∀ {i n : Nat} {l : List Byte}, i + 4 ≤ l.length → (l.drop i).take 4 = leBytes 4 n →
      (s.wrBytes (ringBase + 32 * (s.fld 0 0x0C0 10 0 % 1024)) l).rd32 (ringBase + 32 * (s.fld 0 0x0C0 10 0 % 1024) + i) = Word.ofNat n :=
    fun hi hl => (Stage.rd32_wrBytes h.2.2 _ _ hi).trans (by rw [hl, Word.ofNat_leBytes])
  rw [Stage.complete_free h]
  refine ⟨hword (i := 0) (Nat.le_add_left ..) rfl, (hword (i := 4) (Nat.le_add_left ..) rfl).trans ?_,
    (hword (i := 8) (Nat.le_add_left ..) rfl).trans (BitVec.ofNat_toNat .. |>.trans (BitVec.setWidth_eq w)), ?_⟩
  · rw [Nat.mod_eq_of_lt hst]
  · rw [Stage.ringWrite, Stage.regN_setN_same]
    omega

/-- Beyond the ring memory reads as before. -/
theorem Stage.rd8_complete_above {a : Nat} (ha : ringBase + 0x8000 ≤ a) : (s.complete p c st w).rd8 a = s.rd8 a := by
  rw [Stage.complete_free h]
  refine Stage.rd8_wrBytes_other (x := a) _ s _ (.inr ?_)
  have hlen : ∀ r : CRec, ∀ ph, ((r.words ph).flatMap (leBytes 4)).length = 32 := fun _ _ => rfl
  rw [hlen]
  omega

end

/-- A command that completes leaves its record where the ring stood when it began. -/
theorem Stage.recorded_complete {x s : Stage} (hx : RingFree x) (h : x.SameRing s) (p : Nat) (c : Cmd) {st : Nat} (w : Word) (hst : st < 256) :
    Recorded x p c st w (s.complete p c st w) := by
  have hfree := hx.congr h
  have hrec := Stage.recorded_here hfree p c st w hst
  rwa [Recorded, Stage.fld_congr (h.1 0x0C0 (by omega) (by omega))] at hrec

theorem Stage.bat_complete (s : Stage) (p : Nat) (c : Cmd) (st : Nat) (w : Word) (k : Nat) : (s.complete p c st w).bat k = s.bat k := by
  obtain ⟨_, _, _, _, h⟩ := s.complete_frame p c st w
  rw [h]
  rfl

theorem Stage.runningCmd_complete (s : Stage) (p : Nat) (c : Cmd) (st : Nat) (w : Word) (q : Nat) :
    (s.complete p c st w).runningCmd q = s.runningCmd q := by
  obtain ⟨_, _, _, _, h⟩ := s.complete_frame p c st w
  rw [h]
  rfl

@[simp] theorem Stage.runningCmd_setRunning (s : Stage) (p : Nat) (c : Option Cmd) : (s.setRunning p c).runningCmd p = c :=
  Tab.get_put_self none c s.running p

@[simp] theorem Stage.ends_runningCmd (s t : Stage) (p : Nat) : (s.ends t).runningCmd p = t.runningCmd p := by
  rw [Stage.runningCmd, Stage.ends_running]
  rfl

/-! ### A command written on an idle page (R566 to R568) -/

/-- From `s` to `t` nothing has changed but the queues, handles and arguments of commands and the response. -/
def Stage.Issued (s t : Stage) : Prop := ∃ q n a b, t = { s with cmdq := q, seqs := n, args := a, bus := b }

theorem Stage.Issued.trans {s t u : Stage} (h : s.Issued t) (h' : t.Issued u) : s.Issued u := by
  obtain ⟨_, _, _, _, rfl⟩ := h
  obtain ⟨_, _, _, _, rfl⟩ := h'
  exact ⟨_, _, _, _, rfl⟩

theorem Stage.withArgs_frame (s : Stage) (m : Master) (p : Nat) (a : List Word) : ∃ t, s.withArgs m p a = { s with args := t } := by
  refine List.foldlRecOn (motive := fun x : Stage => ∃ t, x = { s with args := t }) ((upTo a.length).zip a) _ ⟨s.args, rfl⟩ ?_
  rintro _ ⟨t, rfl⟩ e -
  exact ⟨_, rfl⟩

theorem Stage.Issued.sameRing {s t : Stage} (h : s.Issued t) : s.SameRing t := by
  obtain ⟨_, _, _, _, rfl⟩ := h
  exact ⟨fun _ _ _ => rfl, rfl, rfl⟩

section
variable {s t : Stage} (h : s.Issued t) (p : Nat)
include h

theorem Stage.Issued.powered : t.powered p = s.powered p := by
  obtain ⟨_, _, _, _, rfl⟩ := h
  rfl

theorem Stage.Issued.bat : t.bat p = s.bat p := by
  obtain ⟨_, _, _, _, rfl⟩ := h
  rfl

theorem Stage.Issued.mayStart : t.mayStart p = s.mayStart p := by
  obtain ⟨_, _, _, _, rfl⟩ := h
  rfl

theorem Stage.Issued.cmdFree : t.cmdFree p = s.cmdFree p := by
  obtain ⟨_, _, _, _, rfl⟩ := h
  rfl

end

/-- The command that a write of CMD makes of the arguments. -/
def Stage.cmdOf (s : Stage) (m : Master) (p code : Nat) : Cmd :=
  { seq := s.nextSeq p, cls := m.cls, idx := m.idx, code := code, a0 := s.arg p m 0, a1 := s.arg p m 1, a2 := s.arg p m 2 }

section
variable {s : Stage} {p : Nat}

/-- A write of CMD with nothing queued puts the command alone in its queue. -/
theorem Stage.cmdWrite_empty (m : Master) (code : Nat) (hr : s.restarting = false) (hq : s.queue p = []) :
    s.Issued (s.cmdWrite m p code) ∧ (s.cmdWrite m p code).queue p = [s.cmdOf m p (code % 256)]
      ∧ (s.cmdWrite m p code).bus = { resp := .okay, data := [] } := by
  have hw : s.cmdWrite m p code = (Stage.setArg { s with
      seqs := Tab.put 0 s.seqs p (s.nextSeq p), cmdq := Tab.put [] s.cmdq p (s.queue p ++ [s.cmdOf m p (code % 256)]) }
        p m 3 (Word.ofNat (handleOf p (s.nextSeq p)))).respond .okay := by
    rw [Stage.cmdWrite, hr, if_neg Bool.false_ne_true, if_neg (by rw [hq]; decide)]
    rfl
  rw [hw, hq]
  exact ⟨⟨_, _, _, _, rfl⟩, Tab.get_put_self [] [s.cmdOf m p (code % 256)] s.cmdq p, rfl⟩

/-- A block that may start the first command of its queue does so. -/
theorem Stage.startNext_ready {k : PageKind} {i : Nat} {c : Cmd} {l : List Cmd} (hp : pageOf p = some (k, i)) (hq : s.queue p = c :: l)
    (hpow : s.powered p = true) (hmay : s.mayStart p = true) (hfree : s.cmdFree p = true) :
    s.startNext p = { (s.popCmd p).runCmd k i c with bus := s.bus } := by
  unfold Stage.startNext
  rw [hp, hq]
  exact if_pos (by rw [hpow, hmay, hfree]; rfl)

theorem Stage.foldl_setArg_powered (m : Master) (l : List (Nat × Word)) : ∀ s : Stage, s.powered p = true →
    l.foldl (fun s e => if s.powered p then s.setArg p m e.1 e.2 else s) s = l.foldl (fun s e => s.setArg p m e.1 e.2) s := by
  induction l with
  | nil => exact fun _ _ => rfl
  | cons e l ih =>
    intro s h
    rw [List.foldl_cons, if_pos h, List.foldl_cons]
    exact ih _ h

end

section
variable {s : State} {p : Nat} (h : Ready s p) (m : Master) {code : Nat} (hcode : code < 256) (a : List Word)
include h

theorem Ready.restarting : s.stage.restarting = false := by
  obtain ⟨-, -, -, -, hmay, -⟩ := h
  simp only [Stage.mayStart, Bool.and_eq_true, Bool.not_eq_true'] at hmay
  exact hmay.1

include hcode

/-- What the write of a command leaves on an idle page: the command alone in the queue, answered OKAY. -/
theorem Ready.cmdWrite : s.stage.Issued ((s.stage.withArgs m p a).cmdWrite m p code)
    ∧ ((s.stage.withArgs m p a).cmdWrite m p code).queue p = [s.stage.issuedCmd m p code a]
    ∧ ((s.stage.withArgs m p a).cmdWrite m p code).bus = { resp := .okay, data := [] } := by
  obtain ⟨t, ht⟩ := s.stage.withArgs_frame m p a
  have hr := h.restarting
  obtain ⟨-, -, -, hempty, -, -⟩ := h
  have hq : (s.stage.withArgs m p a).queue p = [] := ht ▸ hempty
  obtain ⟨hf, hqueue, hbus⟩ := Stage.cmdWrite_empty m code (ht ▸ hr) hq
  refine ⟨.trans ⟨_, _, _, _, ht⟩ hf, hqueue.trans ?_, hbus⟩
  rw [Nat.mod_eq_of_lt hcode]
  rfl

/-- The state in which the command starts differs from the one before in queues, handles, arguments and the response alone. -/
theorem Ready.issued : s.stage.Issued (s.stage.issued m p code a) := (h.cmdWrite m hcode a).1.trans ⟨_, _, _, _, rfl⟩

/-- A command written on an idle page starts at once. -/
theorem Ready.cmdWith {k : PageKind} {i : Nat} (hp : pageOf p = some (k, i)) (hg : p ≠ pGraph) :
    s.stage.cmdWith m p code a
      = { (s.stage.issued m p code a).runCmd k i (s.stage.issuedCmd m p code a) with bus := { resp := .okay, data := [] } } := by
  obtain ⟨hf, hqueue, hbus⟩ := h.cmdWrite m hcode a
  obtain ⟨-, -, hpow, hempty, hmay, hfree⟩ := h
  obtain ⟨t, ht⟩ := s.stage.withArgs_frame m p a
  have hpow' : (s.stage.withArgs m p a).powered p = true := ht ▸ hpow
  have hempty' : (s.stage.withArgs m p a).queue p = [] := ht ▸ hempty
  have hstart := Stage.startNext_ready hp hqueue ((hf.powered p).trans hpow) ((hf.mayStart p).trans hmay) ((hf.cmdFree p).trans hfree)
  rw [hbus] at hstart
  unfold Stage.cmdWith
  rw [Stage.foldl_setArg_powered m _ _ hpow]
  change (s.stage.withArgs m p a).cmdIssue m p code = _
  unfold Stage.cmdIssue
  rw [if_neg (by simp [hpow', hp]), hempty', if_neg hg, Nat.mod_eq_of_lt hcode]
  exact (if_pos ⟨congrArg BusOut.resp hbus, rfl⟩).trans hstart

end

end Sys2Proof.Machine
end

section
/-!
PROOF. Plane loads (R138, R188, R523, R541, R543, R547, R569): the start of a load, what an engine reads of management memory, the copy into the shadow plane
and the load's end; the statement O37.
-/
namespace Sys2Proof.Machine

/-! ### Reads of management memory (R523, R526, R541, R547) -/

section
variable {s : Stage} (he : s.ecc = [])
include he

/-- Without an erroneous bit the bytes of a word are read as they stand. -/
theorem Stage.wordRead_clean (a k own : Nat) : s.wordRead a k own = (s, some (s.rdBytes a k)) := by
  have hread : s.eccRead a own = s := if_pos (Stage.flips_of_ecc he a)
  rw [Stage.wordRead, hread, Stage.lost_of_ecc he]
  rfl

/-- Without an erroneous bit 32 bytes are read as they stand, whether they lie in one word or in two. -/
theorem Stage.wordsRead_clean (a own : Nat) : s.wordsRead a 32 own = (s, .okay, s.rdBytes a 32) := by
  by_cases ha : a % 32 = 0
  · have hw : wordsOf a 32 = [(a, 0, 32)] := by
      have hn : (a + 32 - 1) / 32 - a / 32 + 1 = 1 := by omega
      rw [wordsOf, if_neg (by decide), hn]
      simp [upTo]
      omega
    simp [Stage.wordsRead, hw, Stage.wordRead_clean he]
  · obtain ⟨r, q, hr⟩ : ∃ r q, r + q = 32 ∧ a / 32 * 32 + 32 = a + r := ⟨32 - a % 32, a % 32, by omega⟩
    have hw : wordsOf a 32 = [(a, 0, r), (a + r, r, q)] := by
      have hn : (a + 32 - 1) / 32 - a / 32 + 1 = 2 := by omega
      rw [wordsOf, if_neg (by decide), hn]
      simp [upTo, List.range_succ]
      omega
    have hsplit : s.rdBytes a 32 = s.rdBytes a r ++ s.rdBytes (a + r) q := by rw [← Stage.rdBytes_add, hr.1]
    simp [Stage.wordsRead, hw, Stage.wordRead_clean he, hsplit]

end

theorem regionOf_mgmt {g : Nat} (hlo : 0x10000000 ≤ g) (hhi : g + 32 ≤ 0x10100000) : regionOf g 32 = .mgmt := by
  unfold regionOf within
  rw [if_neg (by decide), if_neg (by simp; omega), if_pos (by simp; omega)]

/-- Nothing stalls an access to management memory. -/
theorem Stage.memStalls_mgmt (s : Stage) (m : Master) {g : Nat} (hlo : 0x10000000 ≤ g) (hhi : g + 32 ≤ 0x10100000) :
    s.memStalls m g 32 = none := by
  rw [Stage.memStalls, regionOf_mgmt hlo hhi]

/-- A beat that the windows lead to management memory reads the 32 bytes there and changes nothing. -/
theorem Stage.engineBeat_mgmt {s : Stage} (he : s.ecc = []) {m : Master} {a g : Nat} (hw : s.winMap m.cls a 32 false = some g)
    (hlo : 0x10000000 ≤ g) (hhi : g + 32 ≤ 0x10100000) : s.engineBeat m a 32 = (s, some (s.rdBytes g 32)) := by
  unfold Stage.engineBeat Stage.memRead
  rw [hw]
  simp only [regionOf_mgmt hlo hhi, Stage.wordsRead_clean he]

theorem Stage.engineBeat_denied {s : Stage} {m : Master} {a len : Nat} (hw : s.winMap m.cls a len false = none) :
    s.engineBeat m a len = (s.gridDenied m 0 a false, none) := by
  rw [Stage.engineBeat, hw]

theorem Stage.engineRead_succ (s : Stage) (m : Master) (a n : Nat) (f : Nat → List Byte → Stage → Stage) {t : Stage}
    (h : s.engineRead m a n f = (t, true)) : s.engineRead m a (n + 1) f = match t.engineBeat m (a + 32 * n) 32 with
      | (u, some d) => (f n d u, true)
      | (u, none) => (u, false) := by
  unfold Stage.engineRead at h ⊢
  rw [upTo, List.range_succ, List.foldl_append, ← upTo, h]
  rfl

/-- A first beat that no window permits ends the reads. -/
theorem Stage.engineRead_denied {s : Stage} {m : Master} {a : Nat} (hw : s.winMap m.cls a 32 false = none) (f : Nat → List Byte → Stage → Stage)
    {n : Nat} (hn : 1 ≤ n) : s.engineRead m a n f = (s.gridDenied m 0 a false, false) := by
  induction n, hn using Nat.le_induction with
  | base =>
    have hzero : s.engineRead m a 0 f = (s, true) := rfl
    rw [← Nat.zero_add 1, s.engineRead_succ m a 0 f hzero, Nat.mul_zero, Nat.add_zero, Stage.engineBeat_denied hw]
  | succ n hn ih =>
    unfold Stage.engineRead at ih ⊢
    rw [upTo, List.range_succ, List.foldl_append, ← upTo, ih]
    rfl

/-! ### The copy into the shadow plane (R138) -/

/-- A beat of the load goes into the plane at `p`; it ends the ramps of the crosspoints it touches. -/
def Stage.loadBeat (k p i : Nat) (d : List Byte) (s : Stage) : Stage :=
  (s.rampsCut k fun x => x / 32 == (p + 32 * i) / 32).fillBytes (p + 32 * i) d

/-- From `s` to `t` nothing has changed but the battens and memory. -/
def Stage.Copied (s t : Stage) : Prop := ∃ b m, t = { s with bats := b, mem := m }

theorem Stage.rampsCut_frame (s : Stage) (k : Nat) (p : Nat → Bool) : ∃ b, s.rampsCut k p = { s with bats := b } := by
  unfold Stage.rampsCut
  dsimp only
  split
  · exact ⟨_, rfl⟩
  · exact ⟨s.bats, rfl⟩

theorem Stage.fillBytes_clean {s : Stage} (he : s.ecc = []) (a : Nat) (l : List Byte) : s.fillBytes a l = s.wrBytes a l := by
  have hs : ({ s with ecc := [] } : Stage) = s := by rw [← he]
  rw [Stage.fillBytes, he]
  exact congrArg (fun t : Stage => t.wrBytes a l) hs

/-- What a beat of the load leaves in memory. -/
theorem Stage.loadBeat_reads {s : Stage} (he : s.ecc = []) (k p i : Nat) (d : List Byte) :
    s.Copied (Stage.loadBeat k p i d s)
      ∧ (∀ x, x < p + 32 * i ∨ p + 32 * i + d.length ≤ x → (Stage.loadBeat k p i d s).rd8 x = s.rd8 x)
      ∧ ∀ j, (hj : j < d.length) → (Stage.loadBeat k p i d s).rd8 (p + 32 * i + j) = d[j] := by
  obtain ⟨b, hb⟩ := s.rampsCut_frame k fun x => x / 32 == (p + 32 * i) / 32
  rw [Stage.loadBeat, hb, Stage.fillBytes_clean (s := { s with bats := b }) he]
  obtain ⟨m, hm⟩ := Stage.wrBytes_frame d { s with bats := b } (p + 32 * i)
  exact ⟨⟨b, m, hm⟩, fun x hx => Stage.rd8_wrBytes_other d _ _ hx, fun j hj => Stage.rd8_wrBytes_same d _ _ j hj he⟩

/-- `n` beats of management memory from `g` on stand in the plane at `p`, and below it memory is as before. -/
structure LoadedFrom (s : Stage) (p g n : Nat) (t : Stage) : Prop where
  copied : s.Copied t
  above : ∀ i, i < 32 * n → t.rd8 (p + i) = s.rd8 (g + i)
  below : ∀ x, x < p → t.rd8 x = s.rd8 x

theorem Stage.engineRead_loads {s : Stage} (he : s.ecc = []) (k : Nat) {m : Master} {a p g : Nat} (hp : 0x10100000 ≤ p) (hlo : 0x10000000 ≤ g)
    {n : Nat} (hhi : g + 32 * n ≤ 0x10100000) (hw : ∀ i, i < n → s.winMap m.cls (a + 32 * i) 32 false = some (g + 32 * i)) :
    ∃ t, s.engineRead m a n (Stage.loadBeat k p) = (t, true) ∧ LoadedFrom s p g n t := by
  induction n with
  | zero => exact ⟨s, rfl, ⟨s.bats, s.mem, rfl⟩, fun _ hi => absurd hi (Nat.not_lt_zero _), fun _ _ => rfl⟩
  | succ n ih =>
    obtain ⟨t, hread, hcopied, habove, hbelow⟩ := ih (by omega) fun i hi => hw i (by omega)
    have het : t.ecc = [] := by obtain ⟨_, _, rfl⟩ := hcopied; exact he
    have hwt : t.winMap m.cls (a + 32 * n) 32 false = some (g + 32 * n) := by obtain ⟨_, _, rfl⟩ := hcopied; exact hw n (by omega)
    have hbytes : t.rdBytes (g + 32 * n) 32 = s.rdBytes (g + 32 * n) 32 :=
      List.map_congr_left fun j hj => hbelow _ (by have := mem_upTo.mp hj; omega)
    obtain ⟨hc, hother, hsame⟩ := Stage.loadBeat_reads het k p n (s.rdBytes (g + 32 * n) 32)
    have hlen : (s.rdBytes (g + 32 * n) 32).length = 32 := by simp [Stage.rdBytes, upTo]
    rw [hlen] at hother
    refine ⟨Stage.loadBeat k p n (s.rdBytes (g + 32 * n) 32) t, ?_, ?_, fun i hi => ?_, fun x hx => ?_⟩
    · rw [s.engineRead_succ m a n _ hread, Stage.engineBeat_mgmt het hwt (by omega) (by omega), hbytes]
    · obtain ⟨_, _, rfl⟩ := hcopied
      obtain ⟨b, x, h⟩ := hc
      exact ⟨b, x, h⟩
    · by_cases hin : i < 32 * n
      · rw [hother _ (.inl (by omega)), habove i hin]
      · obtain ⟨j, rfl⟩ := Nat.exists_eq_add_of_le (Nat.le_of_not_lt hin)
        rw [← Nat.add_assoc, hsame j (by rw [hlen]; omega)]
        simp [Stage.rdBytes, upTo, Nat.add_assoc]
    · rw [hother x (.inl (by omega)), hbelow x hx]

/-! ### The end of a load -/

/-- The state `t` in which a load's reads have left the part, with the load over. -/
def Stage.loadOver (s t : Stage) (k : Nat) : Stage :=
  let u := { t with bus := s.bus }
  (u.putBat k { u.bat k with loading := false }).setRunning (pBat k) none

/-- The shadow plane becomes ready at m + D, and the part's partners are told. -/
def Stage.planeDue (s : Stage) (k : Nat) : Stage :=
  let t := s.putBat k { s.bat k with readyAt := some s.dueNow }
  t.forward t.dueNow (.planeReady k)

/-- The issued address of a load's source. -/
def Cmd.source (c : Cmd) : Nat := c.a0.toNat + c.a1.toNat % 16 * 2 ^ 32

/-- What a load ends in with its reads done, `r` telling whether all were made. -/
def Stage.loadEnd (s : Stage) (k : Nat) (c : Cmd) (r : Stage × Bool) : Stage :=
  if r.2 then ((s.loadOver r.1 k).planeDue k).complete (pBat k) c stDone 0#32 else (s.loadOver r.1 k).complete (pBat k) c stFailed 0#32

/-- A bank stalls one of the reads of a load. -/
def Stage.loadStalls (s : Stage) (k : Nat) (c : Cmd) : Bool :=
  (upTo 2048).any fun i => match s.winMap 0 (c.source + 32 * i) 32 false with
    | some g => (s.memStalls { cls := 0, idx := k } g 32).isSome
    | none => false

theorem Stage.loadPlaneDone_reads {s : Stage} {k : Nat} {c : Cmd} (hc : s.runningCmd (pBat k) = some c) :
    s.loadPlaneDone k = if !(s.bat k).loading || s.loadStalls k c then s
      else s.loadEnd k c (s.engineRead { cls := 0, idx := k } c.source 2048 (Stage.loadBeat k (planeAddr k (1 - (s.bat k).live)))) := by
  unfold Stage.loadPlaneDone
  rw [hc]
  generalize Stage.engineRead = read
  rfl
/-! ### The ring beside a load (R459, R571) -/

theorem Stage.reg_linkWake_sys (s : Stage) (n : Nat) {x : Nat} (hx : x < 4096) : (s.linkWake n).reg 0 x = s.reg 0 x := by
  refine List.foldlRecOn (motive := fun t : Stage => t.reg 0 x = s.reg 0 x) (upTo 4) _ rfl fun t ht k _ => ?_
  have hpage : 0 < lanePage (4 * n + k) := by unfold lanePage; split <;> omega
  split
  · exact (t.reg_setFld_other _ _ _ (by omega)).trans ht
  · exact ht

theorem Stage.ctlPump_frame (n k : Nat) : ∀ s : Stage, ∃ l o, s.ctlPump n k = { s with links := l, outs := o } := by
  induction k with
  | zero => exact fun s => ⟨s.links, s.outs, rfl⟩
  | succ k ih =>
    intro s
    unfold Stage.ctlPump
    dsimp only
    split
    · exact ⟨s.links, s.outs, rfl⟩
    · split
      · exact ⟨s.links, s.outs, rfl⟩
      · obtain ⟨l, o, h⟩ := ih _
        exact ⟨l, o, h⟩

/-- A forwarded record leaves the ring as it is. -/
theorem Stage.sameRing_forward (s : Stage) (b : Nat) (r : FwdRec) : s.SameRing (s.forward b r) := by
  obtain ⟨g, l, o, h⟩ := s.sent_forward b r
  refine ⟨fun x hx _ => ?_, by rw [h], by rw [h]⟩
  unfold Stage.forward
  split
  · unfold Stage.ctlSend
    dsimp only
    split
    · obtain ⟨l, o, hp⟩ := Stage.ctlPump_frame _ 32 ((s.linkWake _).putLink _ _)
      rw [hp]
      exact s.reg_linkWake_sys _ hx
    · rfl
  · rfl

theorem Stage.Copied.sameRing {s t : Stage} (h : s.Copied t) : s.SameRing t := by
  obtain ⟨_, _, rfl⟩ := h
  exact ⟨fun _ _ _ => rfl, rfl, rfl⟩

theorem Stage.sameRing_gridDenied (s : Stage) (m : Master) (id a : Nat) (write : Bool) : s.SameRing (s.gridDenied m id a write) :=
  ⟨fun _ _ _ => (Stage.reg_raise_other _ _ (by omega)).trans (Stage.reg_bump_other _ (by omega)), rfl, rfl⟩

theorem Stage.sameRing_loadOver (s t : Stage) (k : Nat) : t.SameRing (s.loadOver t k) := ⟨fun _ _ _ => rfl, rfl, rfl⟩

theorem Stage.bat_loadOver (s t : Stage) (k : Nat) : (s.loadOver t k).bat k = { t.bat k with loading := false } := Tab.get_put_self ..

theorem Stage.runningCmd_loadOver (s t : Stage) (k : Nat) : (s.loadOver t k).runningCmd (pBat k) = none :=
  Stage.runningCmd_setRunning _ _ none

/-! ### What the planes becoming ready leaves -/

section
variable (s : Stage) (k : Nat)

theorem Stage.sameRing_planeDue : s.SameRing (s.planeDue k) := .trans ⟨fun _ _ _ => rfl, rfl, rfl⟩ (Stage.sameRing_forward _ _ _)

theorem Stage.planeDue_frame : ∃ r l o,
    s.planeDue k = { s.putBat k { s.bat k with readyAt := some s.dueNow } with regs := r, links := l, outs := o } :=
  Stage.sent_forward _ _ _

theorem Stage.bat_planeDue : (s.planeDue k).bat k = { s.bat k with readyAt := some s.dueNow } := by
  obtain ⟨_, _, _, h⟩ := s.planeDue_frame k
  rw [h]
  exact s.bat_putBat_same k _

theorem Stage.runningCmd_planeDue (p : Nat) : (s.planeDue k).runningCmd p = s.runningCmd p := by
  obtain ⟨_, _, _, h⟩ := s.planeDue_frame k
  rw [h]
  rfl

theorem Stage.rd8_planeDue (a : Nat) : (s.planeDue k).rd8 a = s.rd8 a := by
  obtain ⟨_, _, _, h⟩ := s.planeDue_frame k
  rw [h]
  rfl

end

/-! ### LOAD_PLANE (R138, R188) -/

theorem pageOf_bat {k : Nat} (hk : k < 64) : pageOf (pBat k) = some (.bat, k) := by
  unfold pageOf pBat
  rw [if_neg (by omega), if_neg (by omega), if_neg (by omega), if_neg (by omega), if_pos (by omega), Nat.add_sub_cancel_left]

/-- A load may start: no crossfade runs, no image is staged into the batten, and the source is in place. -/
def Stage.LoadAccepted (s : Stage) (k a0 : Nat) : Prop := (s.bat k).fading = false ∧ s.batStaged k = false ∧ a0 % 32 = 0

theorem Stage.loadPlane_accepts {s : Stage} {k : Nat} {c : Cmd} (h : s.LoadAccepted k c.a0.toNat) :
    s.loadPlane k c = (s.putBat k { s.bat k with loading := true, ready := false, readyAt := none }).setRunning (pBat k) (some c) := by
  obtain ⟨hfade, hstaged, halign⟩ := h
  exact if_neg (by simp [hfade, hstaged, halign])

theorem Stage.loadPlane_refuses {s : Stage} {k : Nat} {c : Cmd} (h : ¬ s.LoadAccepted k c.a0.toNat) :
    s.loadPlane k c = s.complete (pBat k) c stRefused 0#32 := by
  refine if_pos (not_not.mp fun hn => h ?_)
  simpa [Stage.LoadAccepted, and_assoc] using hn

theorem Stage.a0_issuedCmd (s : Stage) (m : Master) (p code : Nat) (x y : Word) : (s.issuedCmd m p code [x, y]).a0 = x :=
  (Tab.get_put_other 0#32 0#32 y _ (show argKey p m 0 ≠ argKey p m 1 by unfold argKey; omega)).trans (Tab.get_put_self ..)

section
variable {s : State} {m : Master} {k a0 a1 : Nat} {c : Cmd} (h : Ready s (pBat k)) (hk : k < 64)
  (hc : c = s.stage.issuedCmd m (pBat k) 1 [Word.ofNat a0, Word.ofNat a1])
include h hk hc

/-- LOAD_PLANE on an idle batten starts at once, in a state with its battens, its graph and its ring as they were. -/
theorem cmdWith_loadPlane : ∃ t, s.stage.cmdWith m (pBat k) 1 [Word.ofNat a0, Word.ofNat a1]
      = { t.loadPlane k c with bus := { resp := .okay, data := [] } } ∧ s.stage.Issued t ∧ (t.LoadAccepted k c.a0.toNat ↔ s.stage.LoadAccepted k a0) := by
  have hissued := h.issued m (code := 1) (by decide) [Word.ofNat a0, Word.ofNat a1]
  refine ⟨_, (h.cmdWith m (by decide) _ (pageOf_bat hk) (by unfold pBat pGraph; omega)).trans ?_, hissued, ?_⟩
  · rw [hc]
    rfl
  · have halign : c.a0.toNat % 32 = a0 % 32 := by
      rw [hc, Stage.a0_issuedCmd, Word.toNat_ofNat]
      omega
    obtain ⟨_, _, _, _, ht⟩ := hissued
    rw [Stage.LoadAccepted, Stage.LoadAccepted, halign, ht]
    rfl

theorem loadPlane_starts (ha : s.stage.LoadAccepted k a0) : Done (.loadPlane m k a0 a1) s
    (fun t => (t.bat k).loading = true ∧ (t.bat k).ready = false ∧ t.runningCmd (pBat k) = some c) := by
  obtain ⟨t, hrun, -, hiff⟩ := cmdWith_loadPlane h hk hc
  refine done_act (f := fun s => s.cmdWith m (pBat k) 1 [Word.ofNat a0, Word.ofNat a1]) rfl h.1 ?_
  rw [hrun, Stage.loadPlane_accepts (hiff.mpr ha), Stage.ends_bat, Stage.ends_runningCmd]
  exact ⟨congrArg BatSt.loading (t.bat_putBat_same k _), congrArg BatSt.ready (t.bat_putBat_same k _), Stage.runningCmd_setRunning _ _ (some c)⟩

theorem loadPlane_refused (ha : ¬ s.stage.LoadAccepted k a0) (hring : RingFree s.stage) : Done (.loadPlane m k a0 a1) s
    (fun t => Recorded s.stage (pBat k) c stRefused 0#32 t ∧ t.bat k = s.stage.bat k) := by
  obtain ⟨t, hrun, hissued, hiff⟩ := cmdWith_loadPlane h hk hc
  have hrec := Stage.recorded_complete hring hissued.sameRing (pBat k) c (st := stRefused) 0#32 (by decide)
  refine done_act (f := fun s => s.cmdWith m (pBat k) 1 [Word.ofNat a0, Word.ofNat a1]) rfl h.1 ?_
  rw [hrun, Stage.loadPlane_refuses (hiff.not.mpr ha), Stage.ends_bat]
  have hbat : (t.complete (pBat k) c stRefused 0#32).bat k = s.stage.bat k := (t.bat_complete _ _ _ _ k).trans (hissued.bat k)
  generalize t.complete (pBat k) c stRefused 0#32 = x at hrec hbat ⊢
  refine ⟨Recorded.ends ?_ _, hbat⟩
  exact hrec.congr rfl rfl rfl

end

/-! ### LOAD_PLANE_COMPLETE (R138) -/

/-- Without a load in progress its end changes nothing. -/
theorem loadPlaneComplete_idle {s : State} {k : Nat} (hup : s.stage.dieUp = true) (hidle : s.stage.runningCmd (pBat k) = none) :
    Done (.loadPlaneComplete k) s (fun t => Keeps [] [] s.stage t) := by
  have hload : s.stage.loadPlaneDone k = s.stage := by
    unfold Stage.loadPlaneDone
    rw [hidle]
  refine done_act (f := fun s => s.block .bat k fun s => s.loadPlaneDone k) rfl hup ?_
  rcases s.stage.block_cases .bat k fun s => s.loadPlaneDone k with h | h
  · rw [h, hload]
    exact (Keeps.refl _).ends
  · rw [h]
    exact (Keeps.refl _).ends

section
variable {s : State} {k : Nat} {c : Cmd} (hlive : Live s .bat k) (hc : s.stage.runningCmd (pBat k) = some c)
  (hl : (s.stage.bat k).loading = true) (hring : RingFree s.stage)
include hlive hc hl

/-- The load's end in a state where its reads are `r`. -/
theorem done_loadEnd {r : Stage × Bool} {P : Stage → Prop} (hstall : s.stage.loadStalls k c = false)
    (hr : s.stage.engineRead { cls := 0, idx := k } c.source 2048 (Stage.loadBeat k (planeAddr k (1 - (s.stage.bat k).live))) = r)
    (hp : P (s.stage.ends (s.stage.loadEnd k c r))) : Done (.loadPlaneComplete k) s P := by
  refine done_act (f := fun s => s.block .bat k fun s => s.loadPlaneDone k) rfl hlive.1 ?_
  rw [Stage.block_live s .bat k _ hlive, Stage.loadPlaneDone_reads hc, hl, hstall, hr]
  exact hp

include hring

/-- A load from management memory copies its 64 KiB into the shadow plane, and the plane becomes ready at m + D. -/
theorem loadPlaneComplete_copies {g : Nat} (hlo : 0x10000000 ≤ g) (hhi : g + 65536 ≤ 0x10100000)
    (hw : ∀ i, i < 2048 → s.stage.winMap 0 (c.source + 32 * i) 32 false = some (g + 32 * i)) :
    Done (.loadPlaneComplete k) s (fun t => (∀ i, i < 65536 → t.rd8 (planeAddr k (1 - (s.stage.bat k).live) + i) = s.stage.rd8 (g + i))
      ∧ (t.bat k).loading = false ∧ (t.bat k).readyAt = some s.stage.dueNow ∧ t.runningCmd (pBat k) = none
      ∧ Recorded s.stage (pBat k) c stDone 0#32 t) := by
  have hplane : ringBase + 0x8000 ≤ planeAddr k (1 - (s.stage.bat k).live) := by unfold ringBase planeAddr batBase; omega
  obtain ⟨t, hread, hcopied, habove, -⟩ := Stage.engineRead_loads hring.2.2 k (m := { cls := 0, idx := k }) hplane hlo (n := 2048) hhi hw
  have hstall : s.stage.loadStalls k c = false := List.any_eq_false.mpr fun i hi => by
    have hi := mem_upTo.mp hi
    simp [hw i hi, Stage.memStalls_mgmt _ _ (show 0x10000000 ≤ g + 32 * i by omega) (by omega)]
  set u := s.stage.loadOver t k with hu
  have hdue : u.dueNow = s.stage.dueNow := by
    obtain ⟨_, _, rfl⟩ := hcopied
    rfl
  have hring' : s.stage.SameRing (u.planeDue k) := (hcopied.sameRing.trans (s.stage.sameRing_loadOver t k)).trans (u.sameRing_planeDue k)
  refine done_loadEnd hlive hc hl hstall hread ?_
  have hrec := Stage.recorded_complete hring hring' (pBat k) c (st := stDone) 0#32 (by decide)
  have hbat : ((u.planeDue k).complete (pBat k) c stDone 0#32).bat k = { t.bat k with loading := false, readyAt := some s.stage.dueNow } := by
    rw [Stage.bat_complete, Stage.bat_planeDue, hdue, hu, Stage.bat_loadOver]
  have hrun : ((u.planeDue k).complete (pBat k) c stDone 0#32).runningCmd (pBat k) = none := by
    rw [Stage.runningCmd_complete, Stage.runningCmd_planeDue, hu, Stage.runningCmd_loadOver]
  have hrd : ∀ a, ringBase + 0x8000 ≤ a → ((u.planeDue k).complete (pBat k) c stDone 0#32).rd8 a = t.rd8 a := fun a ha =>
    (Stage.rd8_complete_above (hring.congr hring') _ _ _ _ ha).trans (u.rd8_planeDue k a)
  rw [Stage.loadEnd, if_pos rfl, ← hu]
  generalize (u.planeDue k).complete (pBat k) c stDone 0#32 = x at hrec hbat hrun hrd ⊢
  rw [Stage.ends_bat, Stage.ends_runningCmd, hbat]
  exact ⟨fun i hi => ((Stage.rd8_congr (Stage.ends_mem _ x) (Stage.ends_ecc _ x) _).trans (hrd _ (by omega))).trans (habove i hi),
    rfl, rfl, hrun, hrec.ends _⟩

/-- A load that no window permits fails. -/
theorem loadPlaneComplete_fails (hw : ∀ i, i < 2048 → s.stage.winMap 0 (c.source + 32 * i) 32 false = none) :
    Done (.loadPlaneComplete k) s
      (fun t => (t.bat k).loading = false ∧ t.runningCmd (pBat k) = none ∧ Recorded s.stage (pBat k) c stFailed 0#32 t) := by
  have hstall : s.stage.loadStalls k c = false := List.any_eq_false.mpr fun i hi => by simp [hw i (mem_upTo.mp hi)]
  have hw0 : s.stage.winMap 0 c.source 32 false = none := by rw [← hw 0 (by omega), Nat.mul_zero, Nat.add_zero]
  have hread := Stage.engineRead_denied (m := { cls := 0, idx := k }) hw0
    (Stage.loadBeat k (planeAddr k (1 - (s.stage.bat k).live))) (n := 2048) (by omega)
  have hring' := s.stage.sameRing_gridDenied { cls := 0, idx := k } 0 c.source false
  refine done_loadEnd hlive hc hl hstall hread ?_
  generalize s.stage.gridDenied { cls := 0, idx := k } 0 c.source false = t at hring' ⊢
  have hrec := Stage.recorded_complete hring (hring'.trans (s.stage.sameRing_loadOver t k)) (pBat k) c (st := stFailed) 0#32 (by decide)
  rw [Stage.loadEnd, if_neg Bool.false_ne_true, Stage.ends_bat, Stage.ends_runningCmd, Stage.bat_complete, Stage.runningCmd_complete,
    Stage.bat_loadOver, Stage.runningCmd_loadOver]
  exact ⟨rfl, rfl, hrec.ends _⟩

end

/-- Settles O37, by the start of a load (`loadPlane_starts`, `loadPlane_refused`) and its end (`loadPlaneComplete_copies`,
`loadPlaneComplete_fails`). -/
theorem planeLoads : Obligations.PlaneLoads := by
  refine ⟨fun s m k a0 a1 c h hk hc => ⟨loadPlane_starts h hk hc, loadPlane_refused h hk hc⟩,
    fun s k c hlive hc hl hring => ⟨fun g hlo hhi => loadPlaneComplete_copies hlive hc hl hring hlo hhi,
      loadPlaneComplete_fails hlive hc hl hring⟩,
    fun s k hup hidle => loadPlaneComplete_idle hup hidle⟩

end Sys2Proof.Machine
end

section
/-!
PROOF. Messages of the control channel (R304, R459, R684): statement O54 fails, for a MIRROR_GO placed by the source of a catch-up
forwards a record on the link its state names, whatever number that is.
-/
namespace Sys2Proof.Machine

/-- A part in TRIANGULATE that takes mirrored GOs on link 3, with a book of one cue without actions, the source of a catch-up on a link 4,
which no part has. The register words where that link would stand say that its channel is up, and NET_LANE_0 is idle. -/
def straySource : Stage :=
  { (((((({} : Stage).setN pPower 0x090 0xFFFF).setFld 0 0x0E0 3 0 mTriangulate).setN pPrompt 0x0B0 0x80000001).wr32 (bookBase + 0x20) 0x40#32
      |>.setFlag pPrompt 0x080 6 true).setFlag (pLink 3) 0x084 18 true).setFlag (pLink 4) 0x084 18 true |>.setLaneStat 16 27 27 1
    with red := { source := some { link := 4 } } }

/-- That part places a mirrored GO, and the record it forwards wakes lanes 16 to 19, the first of which is NET_LANE_0. -/
theorem mirrorGo_wakes_netLane :
    (straySource.message 3 fun s => s.mirrorGo 3 0 6).laneStat 16 27 27 = 0 ∧ straySource.laneStat 16 27 27 = 1 := by
  decide +kernel

/-- Refutes O54: its frame of MIRROR_GO names no register of a NET page, but the source of a catch-up in TRIANGULATE forwards the trigger it
places on its `source.link` (R459, R684), and in a state where that is 4 the send wakes NET_LANE_0 (`mirrorGo_wakes_netLane`). No
REQUEST makes such a state, as members stand on links 0 and 1 (R453), but the frame speaks of every state. -/
theorem not_forwardedRecords : ¬ Obligations.ForwardedRecords := by
  rintro ⟨-, -, hframes⟩
  obtain ⟨-, -, -, hprompt, -⟩ := hframes 3 6 0 0 0 0 0 0 0 0 0#32 0#32 [] []
  obtain ⟨-, hreg, -, -⟩ := hprompt (.mirrorGo 3 0 6) (by simp) { stage := straySource } _
    (State.act_up { stage := straySource } (fun s => s.message 3 fun s => s.mirrorGo 3 0 6) rfl)
  have hkept : (straySource.message 3 fun s => s.mirrorGo 3 0 6).laneStat 16 27 27 = straySource.laneStat 16 27 27 :=
    Stage.fld_congr ((Stage.ends_reg _ _ (by decide) (by decide)).symm.trans (hreg (lanePage 16) (laneBase 16 + 4) (by decide) (by decide) (by decide))) 27 27
  obtain ⟨hwoken, hidle⟩ := mirrorGo_wakes_netLane
  omega

end Sys2Proof.Machine
end

section
/-!
PROOF. The bridges (R235 to R237, R240, R246): what each update leaves of a bridge, each branch of the lock state machine and of the fades, and
the statement O46.
-/
namespace Sys2Proof.Machine

/-! ### What a bridge reads after an update -/

section
variable (s : Stage) {b : Nat}

@[simp] theorem Stage.bridge_setN (p o n : Nat) : (s.setN p o n).bridge b = s.bridge b := rfl

@[simp] theorem Stage.regN_putBridge (c : Nat) (v : BridgeSt) (q x : Nat) : (s.putBridge c v).regN q x = s.regN q x := rfl

@[simp] theorem Stage.bridge_raise (p e : Nat) : (s.raise p e).bridge b = s.bridge b := rfl

@[simp] theorem Stage.brState_raise (p e : Nat) : (s.raise p e).brState b = s.brState b :=
  Stage.brState_congr (s.reg_raise_other e (by omega))

theorem Stage.brState_setN_other {p o : Nat} (n : Nat) (ho : o < 4096) (hn : o ≠ 0x084) : (s.setN p o n).brState b = s.brState b :=
  Stage.brState_congr (s.reg_setN_other n (by omega))

/-- BR_STAT.LOCK holds two bits (R246). -/
@[simp] theorem Stage.brState_setBr (st : Nat) : (s.setBr b st).brState b = st % 4 := by
  have hset : (s.setN (pBridge b) 0x084 st).brState b = st % 4 := by
    rw [Stage.brState, Stage.fld, Stage.regN_setN_same, bits]
    omega
  unfold Stage.setBr
  dsimp only
  split
  · exact hset
  · rw [Stage.brState_setN_other _ _ (by omega) (by omega), Stage.brState_setN_other _ _ (by omega) (by omega),
      Stage.brState_setN_other _ _ (by omega) (by omega), hset]

/-- Outside LOCKED the ratio reads zero (R240). -/
theorem Stage.ratio_setBr {st : Nat} (h : st ≠ 2) : (s.setBr b st).regN (pBridge b) 0x088 = 0 := by
  unfold Stage.setBr
  rw [if_neg h, Stage.regN_setN_other _ _ (by omega), Stage.regN_setN_other _ _ (by omega), Stage.regN_setN_same, Nat.zero_mod]

@[simp] theorem Stage.brState_brLeave (dst : Nat) : (s.brLeave b dst).brState b = s.brState b :=
  Stage.brState_congr (s.reg_brLeave_other (by omega))

/-- An exit from LOCKED is counted (R246). -/
theorem Stage.unlockCount_brLeave (dst : Nat) :
    (s.brLeave b dst).regN (pBridge b) 0x0A8 = min 0xFFFFFFFF (s.regN (pBridge b) 0x0A8 + 1) := Stage.regN_bump_same ..

end

/-! ### The lock state machine (R236) -/

/-- The part once the rate of a window has been published in FOREIGN_RATE. -/
def Stage.brMeasured (s : Stage) (b r : Nat) : Stage := s.setN (pBridge b) 0x08C ((2 * r + 1000) / 2000 % 2 ^ 18)

section
variable (s : Stage) {b r : Nat}

@[simp] theorem Stage.bridge_brMeasured : (s.brMeasured b r).bridge b = s.bridge b := rfl

@[simp] theorem Stage.brState_brMeasured : (s.brMeasured b r).brState b = s.brState b :=
  s.brState_setN_other _ (by omega) (by omega)

@[simp] theorem Stage.brN_brMeasured : (s.brMeasured b r).brN b = s.brN b :=
  Stage.brN_congr (s.reg_setN_other _ (by omega)) (s.reg_setN_other _ (by omega))

theorem Stage.brGap_unlocked (h : s.brState b ≠ 2) : s.brGap b = (s.setBr b 0).putBridge b { s.bridge b with window := none } := if_neg h

theorem Stage.brGap_locked (h : s.brState b = 2) (hl : (s.bridge b).leaving = false) : s.brGap b = (s.brLeave b 0).raise (pBridge b) 1 := by
  rw [Stage.brGap, if_pos h, hl, if_neg Bool.false_ne_true]

theorem Stage.brGap_leaving (h : s.brState b = 2) (hl : (s.bridge b).leaving = true) :
    s.brGap b = s.putBridge b { s.bridge b with after := 0 } := by
  rw [Stage.brGap, if_pos h, if_pos hl]

theorem Stage.brPresent_acquires (hon : (s.brOn b && s.brForeign b) = true) (h : s.brState b = 0) :
    s.brPresent b = (s.setBr b 1).putBridge b { s.bridge b with window := none } := by
  rw [Stage.brPresent, hon, h]
  rfl

theorem Stage.brPresent_idle (h : (s.brOn b && s.brForeign b) = false ∨ s.brState b ≠ 0) : s.brPresent b = s := by
  refine if_neg fun hc => ?_
  obtain ⟨hon, hst⟩ := Bool.and_eq_true_iff.mp hc
  rcases h with h | h
  · exact Bool.false_ne_true (h.symm.trans hon)
  · exact h (eq_of_beq hst)

theorem Stage.brWindow_noClock (h : s.brState b = 0) : s.brWindow b r = s := if_pos (.inl h)

theorem Stage.brWindow_entersRange (h : s.brState b = 1) (hr : brInRange r = false) :
    s.brWindow b r = (((s.brMeasured b r).setBr b 3).putBridge b { s.bridge b with window := none }).raise (pBridge b) 3 := by
  simp [Stage.brWindow, Stage.brMeasured, h, hr]

/-- A window in range that follows none, or one it does not agree with within 10 ppm, is remembered. -/
theorem Stage.brWindow_remembers (h : s.brState b = 1) (hr : brInRange r = true)
    (hw : ∀ w, (s.bridge b).window = some w → 10 * w < ((r : Int) - w).natAbs * 1000000) :
    s.brWindow b r = (s.brMeasured b r).putBridge b { s.bridge b with window := some r } := by
  cases hwin : (s.bridge b).window with
  | none => simp [Stage.brWindow, Stage.brMeasured, h, hr, hwin]
  | some w => simp [Stage.brWindow, Stage.brMeasured, h, hr, hwin, Nat.not_le.mpr (hw w hwin)]

theorem Stage.brWindow_locks {w : Nat} (h : s.brState b = 1) (hr : brInRange r = true) (hw : (s.bridge b).window = some w)
    (ha : ((r : Int) - w).natAbs * 1000000 ≤ 10 * w) :
    s.brWindow b r = (((s.brMeasured b r).setBr b 2).putBridge b
      { s.bridge b with window := none, ratio := r, last := [], fade := some { down := false, j := 0, n := s.brN b } }).raise (pBridge b) 0 := by
  rw [← s.brN_brMeasured (r := r)]
  simp [Stage.brWindow, Stage.brMeasured, h, hr, hw, ha]

theorem Stage.brWindow_jumps (h : s.brState b = 2) (hl : (s.bridge b).leaving = false)
    (hj : 1000 * (s.bridge b).ratio < ((r : Int) - (s.bridge b).ratio).natAbs * 1000000) :
    s.brWindow b r = ((s.brMeasured b r).brLeave b 1).raise (pBridge b) 2 := by
  simp [Stage.brWindow, Stage.brMeasured, h, hl, hj]

theorem Stage.brWindow_holds (h : s.brState b = 2) (hl : (s.bridge b).leaving = false)
    (hj : ((r : Int) - (s.bridge b).ratio).natAbs * 1000000 ≤ 1000 * (s.bridge b).ratio) : s.brWindow b r = s.brMeasured b r := by
  simp [Stage.brWindow, Stage.brMeasured, h, hl, Nat.not_lt.mpr hj]

theorem Stage.brWindow_range (h : s.brState b = 3) : s.brWindow b r =
    if brInRange r then ((s.brMeasured b r).setBr b 1).putBridge b { s.bridge b with window := none } else s.brMeasured b r := by
  simp [Stage.brWindow, Stage.brMeasured, h]

/-! ### The ratio and the fades (R237, R240) -/

theorem Stage.brRatio_locked (i o : Int) (h : s.brState b = 2) (hl : (s.bridge b).leaving = false) (hr : r ≠ 0) :
    ∃ x y, s.brRatio b r i o = (((s.putBridge b { s.bridge b with ratio := r }).setN (pBridge b) 0x088 (s.ratioWord r)).setN (pBridge b) 0x090 x).setN
      (pBridge b) 0x094 y :=
  ⟨_, _, if_neg (by simp [h, hl, hr])⟩

theorem Stage.brRatio_idle (i o : Int) (h : s.brState b ≠ 2 ∨ (s.bridge b).leaving = true ∨ r = 0) : s.brRatio b r i o = s := if_pos h

theorem Stage.brFadeEnd_out {h : HalfDip} (hf : (s.bridge b).fade = some h) (he : h.n ≤ h.j) (hd : h.down = true) :
    s.brFadeEnd b = (s.setBr b (s.bridge b).after).putBridge b { s.bridge b with fade := none, window := none, last := [] } := by
  simp [Stage.brFadeEnd, hf, Nat.not_lt.mpr he, hd]

theorem Stage.brFadeEnd_in {h : HalfDip} (hf : (s.bridge b).fade = some h) (he : h.n ≤ h.j) (hd : h.down = false) :
    s.brFadeEnd b = s.putBridge b { s.bridge b with fade := none } := by
  simp [Stage.brFadeEnd, hf, Nat.not_lt.mpr he, hd]

theorem Stage.brFadeEnd_early (hf : ∀ h, (s.bridge b).fade = some h → h.j < h.n) : s.brFadeEnd b = s := by
  cases hfade : (s.bridge b).fade with
  | none => simp [Stage.brFadeEnd, hfade]
  | some h => simp [Stage.brFadeEnd, hfade, hf h hfade]

end

/-! ### The events of a bridge as commands -/

/-- A command of a block that is live ends as what the block does. -/
theorem done_block {c : Instr} {s : State} {k : PageKind} {i : Nat} {f : Stage → Stage} {P : Stage → Prop}
    (hc : exec c s = s.act fun t => t.block k i f) (h : Live s k i) (hp : P (s.stage.ends (f s.stage))) : Done c s P :=
  done_act hc h.1 (by rwa [Stage.block_live s k i f h])

/-- One in which the block does nothing leaves everything as it is. -/
theorem done_block_idle {c : Instr} {s : State} {k : PageKind} {i : Nat} {f : Stage → Stage}
    (hc : exec c s = s.act fun t => t.block k i f) (h : Live s k i) (hf : f s.stage = s.stage) : Done c s (Keeps [] [] s.stage) :=
  done_block hc h (by rw [hf]; exact (Keeps.refl _).ends)

section
variable {s : State} {b : Nat} (h : Live s .bridge b)
include h

theorem bridgeEdgeGap_unlocked (hst : s.stage.brState b ≠ 2) :
    Done (.bridgeEdgeGap b) s (fun t => t.brState b = 0 ∧ t.regN (pBridge b) 0x088 = 0 ∧ (t.bridge b).window = none) := by
  refine done_block (f := fun t => t.brGap b) rfl h ?_
  rw [s.stage.brGap_unlocked hst, Stage.ends_brState, Stage.brState_putBridge, Stage.brState_setBr, Stage.ends_regN _ _ (by omega) (by omega),
    Stage.regN_putBridge, Stage.ratio_setBr _ (by omega), Stage.ends_bridge, Stage.bridge_putBridge_same]
  exact ⟨rfl, rfl, rfl⟩

theorem bridgeEdgeGap_locked (hst : s.stage.brState b = 2) (hl : (s.stage.bridge b).leaving = false) :
    Done (.bridgeEdgeGap b) s (fun t => t.brState b = 2
      ∧ (t.bridge b).fade = some { down := true, j := 0, n := s.stage.brN b } ∧ (t.bridge b).after = 0 ∧ Raises (pBridge b) 1 t
      ∧ t.regN (pBridge b) 0x0A8 = min 0xFFFFFFFF (s.stage.regN (pBridge b) 0x0A8 + 1)) := by
  refine done_block (f := fun t => t.brGap b) rfl h ?_
  have hcount : ((s.stage.brLeave b 0).raise (pBridge b) 1).regN (pBridge b) 0x0A8 = min 0xFFFFFFFF (s.stage.regN (pBridge b) 0x0A8 + 1) :=
    (Stage.regN_congr (Stage.reg_raise_other _ _ (by omega))).trans (Stage.unlockCount_brLeave ..)
  rw [s.stage.brGap_locked hst hl, Stage.ends_brState, Stage.ends_bridge, Stage.ends_regN _ _ (by omega) (by omega), Stage.brState_raise,
    Stage.brState_brLeave, Stage.bridge_raise, Stage.bridge_brLeave]
  exact ⟨hst, rfl, rfl, Stage.ends_event _ _ (Stage.raise_sets _ _ _ (by omega)), hcount⟩

theorem bridgeEdgeGap_leaving (hst : s.stage.brState b = 2) (hl : (s.stage.bridge b).leaving = true) :
    Done (.bridgeEdgeGap b) s (fun t => t.bridge b = { s.stage.bridge b with after := 0 }) := by
  refine done_block (f := fun t => t.brGap b) rfl h ?_
  rw [s.stage.brGap_leaving hst hl, Stage.ends_bridge, Stage.bridge_putBridge_same]

theorem bridgeEdgesPresent_acquires (hon : (s.stage.brOn b && s.stage.brForeign b) = true) (hst : s.stage.brState b = 0) :
    Done (.bridgeEdgesPresent b) s (fun t => t.brState b = 1) := by
  refine done_block (f := fun t => t.brPresent b) rfl h ?_
  rw [s.stage.brPresent_acquires hon hst, Stage.ends_brState, Stage.brState_putBridge, Stage.brState_setBr]

theorem bridgeEdgesPresent_idle (hi : (s.stage.brOn b && s.stage.brForeign b) = false ∨ s.stage.brState b ≠ 0) :
    Done (.bridgeEdgesPresent b) s (fun t => Keeps [] [] s.stage t) :=
  done_block_idle (f := fun t => t.brPresent b) rfl h (s.stage.brPresent_idle hi)

section
variable {r : Nat}

theorem bridgeWindow_noClock (hst : s.stage.brState b = 0) : Done (.bridgeWindow b r) s (fun t => Keeps [] [] s.stage t) :=
  done_block_idle (f := fun t => t.brWindow b r) rfl h (s.stage.brWindow_noClock hst)

theorem bridgeWindow_entersRange (hst : s.stage.brState b = 1) (hr : brInRange r = false) :
    Done (.bridgeWindow b r) s (fun t => t.brState b = 3 ∧ Raises (pBridge b) 3 t) := by
  refine done_block (f := fun t => t.brWindow b r) rfl h ?_
  rw [s.stage.brWindow_entersRange hst hr, Stage.ends_brState, Stage.brState_raise, Stage.brState_putBridge, Stage.brState_setBr]
  exact ⟨rfl, Stage.ends_event _ _ (Stage.raise_sets _ _ _ (by omega))⟩

theorem bridgeWindow_remembers (hst : s.stage.brState b = 1) (hr : brInRange r = true)
    (hw : ∀ w, (s.stage.bridge b).window = some w → 10 * w < ((r : Int) - w).natAbs * 1000000) :
    Done (.bridgeWindow b r) s (fun t => t.brState b = 1 ∧ (t.bridge b).window = some r) := by
  refine done_block (f := fun t => t.brWindow b r) rfl h ?_
  rw [s.stage.brWindow_remembers hst hr hw, Stage.ends_brState, Stage.brState_putBridge, Stage.brState_brMeasured, Stage.ends_bridge,
    Stage.bridge_putBridge_same]
  exact ⟨hst, rfl⟩

theorem bridgeWindow_locks {w : Nat} (hst : s.stage.brState b = 1) (hr : brInRange r = true) (hw : (s.stage.bridge b).window = some w)
    (ha : ((r : Int) - w).natAbs * 1000000 ≤ 10 * w) :
    Done (.bridgeWindow b r) s (fun t => t.brState b = 2 ∧ (t.bridge b).ratio = r
      ∧ (t.bridge b).fade = some { down := false, j := 0, n := s.stage.brN b } ∧ Raises (pBridge b) 0 t) := by
  refine done_block (f := fun t => t.brWindow b r) rfl h ?_
  rw [s.stage.brWindow_locks hst hr hw ha, Stage.ends_brState, Stage.brState_raise, Stage.brState_putBridge, Stage.brState_setBr,
    Stage.ends_bridge, Stage.bridge_raise, Stage.bridge_putBridge_same]
  exact ⟨rfl, rfl, rfl, Stage.ends_event _ _ (Stage.raise_sets _ _ _ (by omega))⟩

theorem bridgeWindow_jumps (hst : s.stage.brState b = 2) (hl : (s.stage.bridge b).leaving = false)
    (hj : 1000 * (s.stage.bridge b).ratio < ((r : Int) - (s.stage.bridge b).ratio).natAbs * 1000000) :
    Done (.bridgeWindow b r) s (fun t => (t.bridge b).after = 1 ∧ (t.bridge b).fade = some { down := true, j := 0, n := s.stage.brN b }
      ∧ Raises (pBridge b) 2 t) := by
  refine done_block (f := fun t => t.brWindow b r) rfl h ?_
  rw [s.stage.brWindow_jumps hst hl hj, Stage.ends_bridge, Stage.bridge_raise, Stage.bridge_brLeave, Stage.brN_brMeasured]
  exact ⟨rfl, rfl, Stage.ends_event _ _ (Stage.raise_sets _ _ _ (by omega))⟩

theorem bridgeWindow_holds (hst : s.stage.brState b = 2) (hl : (s.stage.bridge b).leaving = false)
    (hj : ((r : Int) - (s.stage.bridge b).ratio).natAbs * 1000000 ≤ 1000 * (s.stage.bridge b).ratio) :
    Done (.bridgeWindow b r) s (fun t => t.brState b = 2 ∧ t.bridge b = s.stage.bridge b
      ∧ t.regN (pBridge b) 0x08C = (2 * r + 1000) / 2000 % 2 ^ 18) := by
  refine done_block (f := fun t => t.brWindow b r) rfl h ?_
  rw [s.stage.brWindow_holds hst hl hj, Stage.ends_brState, Stage.brState_brMeasured, Stage.ends_bridge, Stage.bridge_brMeasured,
    Stage.ends_regN _ _ (by omega) (by omega), Stage.brMeasured, Stage.regN_setN_same]
  exact ⟨hst, rfl, by omega⟩

theorem bridgeWindow_range (hst : s.stage.brState b = 3) :
    Done (.bridgeWindow b r) s (fun t => t.brState b = if brInRange r then 1 else 3) := by
  refine done_block (f := fun t => t.brWindow b r) rfl h ?_
  rw [s.stage.brWindow_range hst, Stage.ends_brState]
  split
  · rw [Stage.brState_putBridge, Stage.brState_setBr]
  · rw [Stage.brState_brMeasured, hst]

theorem bridgeRatioUpdate_writes (i o : Int) (hst : s.stage.brState b = 2) (hl : (s.stage.bridge b).leaving = false) (hr : r ≠ 0) :
    Done (.bridgeRatioUpdate b r i o) s (fun t =>
      t.regN (pBridge b) 0x088 = (2 * r * 2 ^ 28 + s.stage.fs * 1000) / (2 * s.stage.fs * 1000) % 2 ^ 32 ∧ (t.bridge b).ratio = r) := by
  refine done_block (f := fun t => t.brRatio b r i o) rfl h ?_
  obtain ⟨x, y, hxy⟩ := s.stage.brRatio_locked i o hst hl hr
  rw [hxy, Stage.ends_regN _ _ (by omega) (by omega), Stage.regN_setN_other _ _ (by omega), Stage.regN_setN_other _ _ (by omega),
    Stage.regN_setN_same, Stage.ends_bridge, Stage.bridge_setN, Stage.bridge_setN, Stage.bridge_setN, Stage.bridge_putBridge_same]
  exact ⟨rfl, rfl⟩

theorem bridgeRatioUpdate_idle (i o : Int) (hi : s.stage.brState b ≠ 2 ∨ (s.stage.bridge b).leaving = true ∨ r = 0) :
    Done (.bridgeRatioUpdate b r i o) s (fun t => Keeps [] [] s.stage t) :=
  done_block_idle (f := fun t => t.brRatio b r i o) rfl h (s.stage.brRatio_idle i o hi)

end

theorem bridgeFadeEnd_out {x : HalfDip} (hf : (s.stage.bridge b).fade = some x) (he : x.n ≤ x.j) (hd : x.down = true) :
    Done (.bridgeFadeEnd b) s (fun t => (t.bridge b).fade = none ∧ t.brState b = (s.stage.bridge b).after % 4) := by
  refine done_block (f := fun t => t.brFadeEnd b) rfl h ?_
  rw [s.stage.brFadeEnd_out hf he hd, Stage.ends_bridge, Stage.bridge_putBridge_same, Stage.ends_brState, Stage.brState_putBridge,
    Stage.brState_setBr]
  exact ⟨rfl, rfl⟩

theorem bridgeFadeEnd_in {x : HalfDip} (hf : (s.stage.bridge b).fade = some x) (he : x.n ≤ x.j) (hd : x.down = false) :
    Done (.bridgeFadeEnd b) s (fun t => t.bridge b = { s.stage.bridge b with fade := none } ∧ t.brState b = s.stage.brState b) := by
  refine done_block (f := fun t => t.brFadeEnd b) rfl h ?_
  rw [s.stage.brFadeEnd_in hf he hd, Stage.ends_bridge, Stage.bridge_putBridge_same, Stage.ends_brState, Stage.brState_putBridge]
  exact ⟨rfl, rfl⟩

theorem bridgeFadeEnd_early (hf : ∀ x, (s.stage.bridge b).fade = some x → x.j < x.n) :
    Done (.bridgeFadeEnd b) s (fun t => Keeps [] [] s.stage t) :=
  done_block_idle (f := fun t => t.brFadeEnd b) rfl h (s.stage.brFadeEnd_early hf)

end

/-! ### What none of them goes beyond -/

/-- From `s` to `t` nothing has changed but registers of BRIDGE `b`, the bridges and events. -/
def Stage.Bridged (b : Nat) (s t : Stage) : Prop := Keeps [pBridge b] [.bridges] s t

theorem Stage.Bridged.refl {b : Nat} (s : Stage) : Stage.Bridged b s s := (Keeps.refl s).mono (by simp) (by simp)

theorem Stage.Bridged.trans {b : Nat} {s t u : Stage} (h : Stage.Bridged b s t) (h' : Stage.Bridged b t u) : Stage.Bridged b s u := Keeps.comp h h'

section
variable (s : Stage) (b : Nat)

theorem Stage.bridged_putBridge (v : BridgeSt) : Stage.Bridged b s (s.putBridge b v) :=
  have h : Keeps [] [.bridges] s (s.putBridge b v) := keeps_of_part rfl fun x hx => by cases x <;> simp_all [Part.same, Stage.putBridge]
  h.mono (by simp) (by simp)

theorem Stage.bridged_setN {o : Nat} (n : Nat) (ho : o < 4096) (hn : o ≠ 0x014) : Stage.Bridged b s (s.setN (pBridge b) o n) :=
  (s.keeps_setN n ho hn).mono (by simp) (by simp)

theorem Stage.bridged_raise {e : Nat} (he : e < 32) : Stage.Bridged b s (s.raise (pBridge b) e) := (s.keeps_raise _ he).mono (by simp) (by simp)

/-- A change of state, with what the bridge then holds. -/
theorem Stage.bridged_setBr (st : Nat) (v : BridgeSt) : Stage.Bridged b s ((s.setBr b st).putBridge b v) := by
  refine Stage.Bridged.trans ?_ (Stage.bridged_putBridge _ b v)
  have hset := s.bridged_setN b (o := 0x084) st (by omega) (by omega)
  unfold Stage.setBr
  dsimp only
  split
  · exact hset
  · exact ((hset.trans (Stage.bridged_setN _ b 0 (by omega) (by omega))).trans (Stage.bridged_setN _ b 0 (by omega) (by omega))).trans
      (Stage.bridged_setN _ b 0 (by omega) (by omega))

/-- A counted exit from LOCKED, with its event. -/
theorem Stage.bridged_brLeave (dst : Nat) {e : Nat} (he : e < 32) : Stage.Bridged b s ((s.brLeave b dst).raise (pBridge b) e) :=
  ((s.bridged_putBridge b _).trans (Stage.bridged_setN _ b _ (by omega) (by omega))).trans (Stage.bridged_raise _ b he)

theorem Stage.bridged_brGap : Stage.Bridged b s (s.brGap b) := by
  unfold Stage.brGap
  split
  · split
    · exact s.bridged_putBridge b _
    · exact s.bridged_brLeave b 0 (by omega)
  · exact s.bridged_setBr b 0 _

theorem Stage.bridged_brPresent : Stage.Bridged b s (s.brPresent b) := by
  unfold Stage.brPresent
  split
  · exact s.bridged_setBr b 1 _
  · exact .refl s

theorem Stage.bridged_brWindow (r : Nat) : Stage.Bridged b s (s.brWindow b r) := by
  have hrate : Stage.Bridged b s (s.brMeasured b r) := s.bridged_setN b _ (by omega) (by omega)
  unfold Stage.brWindow
  dsimp only
  rw [← Stage.brMeasured]
  split
  · exact .refl s
  · refine hrate.trans ?_
    generalize s.brMeasured b r = t
    split
    · split
      · exact (t.bridged_setBr b 3 _).trans (Stage.bridged_raise _ b (by omega))
      · split
        · split
          · exact (t.bridged_setBr b 2 _).trans (Stage.bridged_raise _ b (by omega))
          · exact t.bridged_putBridge b _
        · exact t.bridged_putBridge b _
    · split
      · split
        · exact t.bridged_brLeave b 1 (by omega)
        · exact .refl t
      · split
        · exact t.bridged_setBr b 1 _
        · exact .refl t

theorem Stage.bridged_brRatio (r : Nat) (i o : Int) : Stage.Bridged b s (s.brRatio b r i o) := by
  by_cases hi : s.brState b ≠ 2 ∨ (s.bridge b).leaving = true ∨ r = 0
  · rw [s.brRatio_idle i o hi]
    exact .refl s
  · obtain ⟨hst, hl, hr⟩ : s.brState b = 2 ∧ (s.bridge b).leaving = false ∧ r ≠ 0 := by simpa using hi
    obtain ⟨x, y, hxy⟩ := s.brRatio_locked i o hst hl hr
    rw [hxy]
    exact (((s.bridged_putBridge b _).trans (Stage.bridged_setN _ b _ (by omega) (by omega))).trans
      (Stage.bridged_setN _ b _ (by omega) (by omega))).trans (Stage.bridged_setN _ b _ (by omega) (by omega))

theorem Stage.bridged_brFadeEnd : Stage.Bridged b s (s.brFadeEnd b) := by
  unfold Stage.brFadeEnd
  dsimp only
  split
  · split
    · exact .refl s
    · split
      · exact s.bridged_setBr b _ _
      · exact s.bridged_putBridge b _
  · exact .refl s

end

/-- A command of a block whose effect there is within a frame is within it. -/
theorem frame_block {c : Instr} {k : PageKind} {i : Nat} {f : Stage → Stage} {ps : List Nat} {xs : List Part}
    (hc : ∀ s, exec c s = s.act fun t => t.block k i f) (hf : ∀ s, Keeps ps xs s (f s)) : Frame [c] ps xs := by
  refine frame_act hc fun s => ?_
  rcases s.block_cases k i f with h | h <;> rw [h]
  · exact hf s
  · exact (Keeps.refl s).mono (by simp) (by simp)

/-- None of the events of a bridge changes more than its page and the bridges. -/
theorem bridgeEvents_frame (b r : Nat) (i o : Int) :
    Frame [.bridgeEdgeGap b, .bridgeEdgesPresent b, .bridgeWindow b r, .bridgeRatioUpdate b r i o, .bridgeFadeEnd b] [pBridge b] [.bridges] :=
  frame_cons (frame_block (f := fun t => t.brGap b) (fun _ => rfl) fun s => s.bridged_brGap b) <|
  frame_cons (frame_block (f := fun t => t.brPresent b) (fun _ => rfl) fun s => s.bridged_brPresent b) <|
  frame_cons (frame_block (f := fun t => t.brWindow b r) (fun _ => rfl) fun s => s.bridged_brWindow b r) <|
  frame_cons (frame_block (f := fun t => t.brRatio b r i o) (fun _ => rfl) fun s => s.bridged_brRatio b r i o) <|
  frame_block (f := fun t => t.brFadeEnd b) (fun _ => rfl) fun s => s.bridged_brFadeEnd b

/-- Settles O46, by the branches of the lock state machine (`Stage.brGap_unlocked` to `Stage.brWindow_range`), the ratio and the fades
(`Stage.brRatio_locked` to `Stage.brFadeEnd_early`), and by what none of the events goes beyond. -/
theorem bridges : Obligations.Bridges :=
  ⟨fun _ _ h => ⟨bridgeEdgeGap_unlocked h, bridgeEdgeGap_locked h, bridgeEdgeGap_leaving h, bridgeEdgesPresent_acquires h,
      bridgeEdgesPresent_idle h,
      fun _ => ⟨bridgeWindow_noClock h, bridgeWindow_entersRange h, fun hst hr hw => bridgeWindow_remembers h hst hr (by simp [hw]),
        fun _ hst hr hw => ⟨bridgeWindow_locks h hst hr hw, fun hj => bridgeWindow_remembers h hst hr (by simpa [hw] using hj)⟩,
        bridgeWindow_jumps h, bridgeWindow_holds h, bridgeWindow_range h, bridgeRatioUpdate_writes h, bridgeRatioUpdate_idle h⟩,
      fun _ hf he => ⟨bridgeFadeEnd_out h hf he, bridgeFadeEnd_in h hf he⟩, bridgeFadeEnd_early h⟩,
    bridgeEvents_frame⟩

end Sys2Proof.Machine
end

section
/-!
PROOF. The operations of the datum's servo (R253, R254, R257 to R263): what each leaves of the datum, and that none changes more than the DATUM page
and the datum.
-/
namespace Sys2Proof.Machine

/-! ### What the servo may change -/

/-- From `s` to `t` the servo may have acted: nothing has changed but registers of DATUM, events, and the datum without its raw counter and its PPS input. -/
def Stage.Served (s t : Stage) : Prop :=
  Keeps [pDatum] [.datum] s t ∧ t.datum.raw = s.datum.raw ∧ t.datum.ppsLast = s.datum.ppsLast ∧ t.datum.ppsOk = s.datum.ppsOk

theorem Stage.Served.refl (s : Stage) : s.Served s := ⟨(Keeps.refl s).mono (by simp) (by simp), rfl, rfl, rfl⟩

theorem Stage.Served.trans {s t u : Stage} (h : s.Served t) (h' : t.Served u) : s.Served u := by
  obtain ⟨hk, hraw, hlast, hok⟩ := h
  obtain ⟨hk', hraw', hlast', hok'⟩ := h'
  exact ⟨hk.comp hk', hraw'.trans hraw, hlast'.trans hlast, hok'.trans hok⟩

theorem Stage.Served.keeps {s t : Stage} (h : s.Served t) : Keeps [pDatum] [.datum] s t := h.1

section
variable (s : Stage)

/-- A change of the datum, of a register of DATUM and of an event is within the frame of the servo. -/
theorem Stage.keeps_putDatum (d : DatumSt) : Keeps [pDatum] [.datum] s { s with datum := d } := (s.keeps_datum d).mono (by simp) (by simp)

theorem Stage.keeps_datumReg {o : Nat} (n : Nat) (ho : o < 4096) (hn : o ≠ 0x014) : Keeps [pDatum] [.datum] s (s.setN pDatum o n) :=
  (s.keeps_setN n ho hn).mono (by simp) (by simp)

theorem Stage.keeps_datumEvent (p : Nat) {b : Nat} (hb : b < 32) : Keeps [pDatum] [.datum] s (s.raise p b) := (s.keeps_raise p hb).mono (by simp) (by simp)

theorem Stage.Served.putDatum {s t : Stage} {d : DatumSt} (h : s.Served t) (hraw : d.raw = t.datum.raw) (hlast : d.ppsLast = t.datum.ppsLast)
    (hok : d.ppsOk = t.datum.ppsOk) : s.Served { t with datum := d } :=
  h.trans ⟨t.keeps_putDatum d, hraw, hlast, hok⟩

theorem Stage.served_setN {o : Nat} (n : Nat) (ho : o < 4096) (hn : o ≠ 0x014) : s.Served (s.setN pDatum o n) :=
  ⟨s.keeps_datumReg n ho hn, rfl, rfl, rfl⟩

theorem Stage.served_raise {b : Nat} (hb : b < 32) : s.Served (s.raise pDatum b) := ⟨s.keeps_datumEvent pDatum hb, rfl, rfl, rfl⟩

theorem Stage.served_raiseIf (c : Bool) {b : Nat} (hb : b < 32) : s.Served (s.raiseIf c pDatum b) := by
  cases c
  · exact .refl s
  · exact s.served_raise hb

theorem Stage.served_setRate (r : Int) : s.Served (s.setRate r) := (Stage.Served.refl s).putDatum rfl rfl rfl

theorem Stage.served_rateToI : s.Served s.rateToI := s.served_setRate _

theorem Stage.served_setServo (v : ServoState) : s.Served (s.setServo v) := (s.served_raiseIf _ (by decide)).putDatum rfl rfl rfl

theorem Stage.served_enterAcquire (k : Nat) : s.Served (s.enterAcquire k) := (s.served_setServo .acquire).putDatum rfl rfl rfl

theorem Stage.served_enterSlew (c : Nat) : s.Served (s.enterSlew c) := by
  unfold Stage.enterSlew
  split
  · exact .refl s
  · have hcount : s.Served ((s.setServo .slew).bump pDatum 0x108) := (s.served_setServo .slew).trans (Stage.served_setN _ _ (by omega) (by omega))
    refine Stage.Served.trans ?_ (Stage.served_rateToI _)
    exact hcount.putDatum rfl rfl rfl

theorem Stage.served_slewPlan (theta : Int) : s.Served (s.slewPlan theta) := (s.served_setRate _).putDatum rfl rfl rfl

/-- SLEW is entered with a plan (R261). -/
theorem Stage.served_slew (c : Nat) (theta : Int) : s.Served ((s.enterSlew c).slewPlan theta) := (s.served_enterSlew c).trans (Stage.served_slewPlan _ _)

theorem Stage.served_enterHoldover : s.Served s.enterHoldover := by
  have hcount : s.Served ((s.setServo .holdover).bump pDatum 0x10C) :=
    (s.served_setServo .holdover).trans (Stage.served_setN _ _ (by omega) (by omega))
  exact ((hcount.trans (Stage.served_raise _ (by decide))).trans (Stage.served_rateToI _)).putDatum rfl rfl rfl

theorem Stage.served_piUpdate (theta : Int) (delta : Nat) : s.Served (s.piUpdate theta delta) := by
  refine Stage.Served.trans ?_ (Stage.served_setRate _ _)
  exact (Stage.Served.refl s).putDatum rfl rfl rfl

theorem Stage.served_askStep (a : Int) (c : Option Cmd) : s.Served (s.askStep a c) := (Stage.Served.refl s).putDatum rfl rfl rfl

theorem Stage.served_switchSource (dst : Nat) : s.Served (s.switchSource dst) := (s.served_raise (by decide)).putDatum rfl rfl rfl

theorem Stage.served_lockIf (c : Prop) [Decidable c] : s.Served (if c then (s.setServo .locked).raise pDatum 1 else s) := by
  split
  · exact (s.served_setServo .locked).trans (Stage.served_raise _ (by decide))
  · exact .refl s

/-- An offset accepted, by the servo's states (R260 to R263). -/
theorem Stage.served_accept (theta : Int) (delta : Nat) (forced : Option Nat) : s.Served (s.accept theta delta forced) := by
  have hoff : s.Served (s.set64 pDatum 0x0D4 (toBits 64 theta)) :=
    (s.served_setN _ (by omega) (by omega)).trans (Stage.served_setN _ _ (by omega) (by omega))
  unfold Stage.accept
  dsimp only
  refine hoff.trans ?_
  generalize s.set64 pDatum 0x0D4 (toBits 64 theta) = t
  split
  · exact ((t.served_askStep _ none).trans (Stage.served_enterAcquire _ 0)).trans (Stage.served_rateToI _)
  · refine (t.served_raiseIf (decide (t.stepThr < (theta.natAbs : Int))) (b := 4) (by decide)).trans ?_
    generalize t.raiseIf _ pDatum 4 = u
    split
    · exact u.served_slew _ theta
    · split
      · split
        · exact u.served_slew 1 theta
        · exact u.served_enterAcquire _
      · split
        · exact u.served_slew 1 theta
        · refine Stage.Served.trans ?_ (Stage.served_lockIf _ _)
          exact (u.served_piUpdate theta delta).putDatum rfl rfl rfl
      · split
        · exact u.served_slew 1 theta
        · refine (u.served_piUpdate theta delta).trans ?_
          split
          · exact Stage.served_enterAcquire _ 0
          · exact .refl _
      · split
        · exact (u.served_enterAcquire 1).trans (Stage.served_rateToI _)
        · exact u.served_slewPlan theta
      · split
        · exact u.served_enterAcquire 1
        · exact u.served_slew 6 theta

/-- The end of a delivery: an offset of the source in use is accepted, with the cause that a switch of source or a write of ASYMMETRY gives it (R263, R269). -/
def Stage.offered (src : Nat) (theta : Int) (delta : Nat) (forced : Option Nat) : Stage :=
  if src ≠ s.datum.srcNow ∨ src = 0 then s
  else Stage.accept { s with datum := { s.datum with switched := false, asym := false, holdPending := false } } theta delta
    (match forced with
      | some c => some c
      | none => if s.datum.asym then some 4 else if s.datum.switched && decide (s.lockThr < (theta.natAbs : Int)) then some 5 else none)

/-- When the source that delivers now began to do so without a gap of HOLD_TIMEOUT (R263). -/
def Stage.steadySince (src : Nat) : Nat :=
  if (Tab.find s.datum.lastOff src).isSome && decide (s.datum.raw - (Tab.get (0, s.datum.raw) s.datum.lastOff src).1 ≤ s.holdTimeout) then
    (Tab.get (0, s.datum.raw) s.datum.lastOff src).2
  else s.datum.raw

/-- The time of the delivery has been noted. -/
def Stage.noted (src : Nat) : Stage := { s with datum := { s.datum with lastOff := Tab.ins s.datum.lastOff src (s.datum.raw, s.steadySince src) } }

/-- A delivery notes its time, switches back to the source of SRC where it may, and offers the offset to the servo (R259, R263). -/
theorem Stage.deliver_eq (src : Nat) (theta : Int) (forced : Option Nat) : s.deliver src theta forced
    = (if src = s.src ∧ s.datum.srcNow ≠ s.src ∧ s.holdTimeout ≤ s.datum.raw - s.steadySince src ∧ (Tab.find s.datum.lastOff src).isSome = true then
        (s.noted src).switchSource src else s.noted src).offered src theta
      (max 32768000000 (min (s.datum.raw - (Tab.get (0, s.datum.raw) s.datum.lastOff src).1) (64 * unitsPerSec))) forced := rfl

theorem Stage.served_offered (src : Nat) (theta : Int) (delta : Nat) (forced : Option Nat) : s.Served (s.offered src theta delta forced) := by
  unfold Stage.offered
  split
  · exact .refl s
  · refine Stage.Served.trans ?_ (Stage.served_accept _ _ _ _)
    exact (Stage.Served.refl s).putDatum rfl rfl rfl

theorem Stage.served_deliver (src : Nat) (theta : Int) (forced : Option Nat) : s.Served (s.deliver src theta forced) := by
  have hnoted : s.Served (s.noted src) := (Stage.Served.refl s).putDatum rfl rfl rfl
  rw [Stage.deliver_eq]
  refine Stage.Served.trans ?_ (Stage.served_offered _ _ _ _ _)
  split
  · exact hnoted.trans (Stage.served_switchSource _ src)
  · exact hnoted

end

/-! ### What the operations leave of the datum -/

/-- A change of rate re-bases OFFSET (R254). -/
def DatumSt.rebased (d : DatumSt) (r : Int) : DatumSt := { d with rate := r, offset := d.offset + (d.raw : Int) * (d.rate - r) }

/-- The datum of the present raw instant is what it was (R254). -/
theorem DatumSt.at_rebased (d : DatumSt) (r : Int) : (d.rebased r).at d.raw = d.at d.raw := by
  have hsum : d.offset + (d.raw : Int) * (d.rate - r) + (d.raw : Int) * (2 ^ 48 + r) = d.offset + (d.raw : Int) * (2 ^ 48 + d.rate) := by ring
  exact congrArg (fun z => Int.fdiv z (2 ^ 48)) hsum

section
variable (s t : Stage)

@[simp] theorem Stage.ends_now : (s.ends t).now = t.now := by
  rw [Stage.now, Stage.ends_datum]
  rfl

@[simp] theorem Stage.datum_rateToI : s.rateToI.datum = s.datum.rebased s.datum.integ := rfl

@[simp] theorem Stage.now_rateToI : s.rateToI.now = s.now := congrArg Int.toNat (s.datum.at_rebased s.datum.integ)

@[simp] theorem Stage.datum_setServo (v : ServoState) : (s.setServo v).datum = { s.datum with servo := v } := by
  rw [Stage.setServo, Stage.raiseIf_datum]

theorem Stage.reg_setServo_other (v : ServoState) {q x : Nat} (h : q * 4096 + x ≠ pDatum * 4096 + 0x014) : (s.setServo v).reg q x = s.reg q x :=
  s.reg_raiseIf_other _ _ h

theorem Stage.datum_enterAcquire (k : Nat) :
    (s.enterAcquire k).datum = { s.datum with servo := .acquire, inBand := k, planEnd := none, holdPending := false } := by
  rw [Stage.enterAcquire, Stage.datum_setServo]

theorem Stage.datum_enterFree : s.enterFree.datum
    = { s.datum.rebased s.datum.integ with servo := .free, inBand := 0, planEnd := none, holdPending := false, switched := false } := by
  rw [Stage.enterFree, Stage.datum_rateToI, Stage.datum_setServo]
  rfl

theorem Stage.datum_enterHoldover : s.enterHoldover.datum
    = { s.datum.rebased s.datum.integ with servo := .holdover, inBand := 0, planEnd := none, holdPending := false } := by
  rw [Stage.enterHoldover, Stage.datum_rateToI, Stage.raise_datum, Stage.bump_datum, Stage.datum_setServo]
  rfl

/-- HOLDOVER is entered with its event and its count (R262, R286). -/
theorem Stage.raises_enterHoldover : Raises pDatum 7 s.enterHoldover := Stage.raise_sets _ pDatum 7 (by decide)

theorem Stage.holdoverCount_enterHoldover : s.enterHoldover.regN pDatum 0x10C = min 0xFFFFFFFF (s.regN pDatum 0x10C + 1) := by
  have hraise : s.enterHoldover.regN pDatum 0x10C = ((s.setServo .holdover).bump pDatum 0x10C).regN pDatum 0x10C :=
    Stage.regN_congr (Stage.reg_raise_other _ _ (by decide))
  rw [hraise, Stage.regN_bump_same, Stage.regN_congr (s.reg_setServo_other .holdover (by decide))]

end

/-! ### A hold timeout (R262, R263) -/

section
variable {s : Stage}

/-- With no second source nothing is switched. -/
theorem Stage.holdExpiry_alone (h : s.srcAlt = 0) : s.holdExpiry = match s.datum.servo with
    | .acquire | .locked => s.enterHoldover
    | .slew => if s.datum.planEnd.isSome then { s with datum := { s.datum with holdPending := true } } else s.enterHoldover
    | .free | .holdover => s :=
  if_neg fun hc => hc.1 h

theorem Stage.holdExpiry_holds (h : s.srcAlt = 0)
    (hst : s.datum.servo = .acquire ∨ s.datum.servo = .locked ∨ (s.datum.servo = .slew ∧ s.datum.planEnd = none)) : s.holdExpiry = s.enterHoldover := by
  rw [Stage.holdExpiry_alone h]
  rcases hst with hst | hst | ⟨hst, hp⟩
  · rw [hst]
  · rw [hst]
  · rw [hst, hp]
    rfl

theorem Stage.holdExpiry_rests (h : s.srcAlt = 0) (hst : s.datum.servo = .free ∨ s.datum.servo = .holdover) : s.holdExpiry = s := by
  rw [Stage.holdExpiry_alone h]
  rcases hst with hst | hst <;> rw [hst]

theorem Stage.holdExpiry_waits {e : Nat} (h : s.srcAlt = 0) (hst : s.datum.servo = .slew) (hp : s.datum.planEnd = some e) :
    s.holdExpiry = { s with datum := { s.datum with holdPending := true } } := by
  rw [Stage.holdExpiry_alone h, hst, hp]
  rfl

theorem Stage.holdExpiry_switches {last start : Nat} (hsrc : s.datum.srcNow = s.src) (h : s.srcAlt ≠ 0) (hne : s.srcAlt ≠ s.src)
    (hoff : Tab.find s.datum.lastOff s.srcAlt = some (last, start)) (hrec : s.datum.raw - last ≤ s.holdTimeout) :
    s.holdExpiry = s.switchSource s.srcAlt := by
  simp [Stage.holdExpiry, hsrc, h, hne, hoff, hrec]

theorem Stage.served_holdExpiry (s : Stage) : s.Served s.holdExpiry := by
  unfold Stage.holdExpiry
  refine iteInduction (fun _ => s.served_switchSource _) fun _ => ?_
  split
  · exact s.served_enterHoldover
  · exact s.served_enterHoldover
  · split
    · exact (Stage.Served.refl s).putDatum rfl rfl rfl
    · exact s.served_enterHoldover
  · exact .refl s
  · exact .refl s

end

end Sys2Proof.Machine
end

section
/-!
PROOF. Events of the datum (R250, R251, R254, R261 to R263): the reference, hold timeouts and the ends of slew plans.
-/
namespace Sys2Proof.Machine

/-! ### What the events come to -/

/-- Calibration shows on the DATUM page as CAL_BAD alone (R585). -/
theorem Stage.calApply_datum (s : Stage) : ∃ c, s.calApply pDatum = s.raiseIf c 0 2 := by
  refine ⟨!calSound (s.calBytes pDatum false), ?_⟩
  rw [Stage.calApply]
  exact if_neg (by decide)

/-- The part at the end of a slew plan: RATE is I again (R261). -/
def Stage.planOver (s : Stage) (e : Nat) : Stage :=
  { ((s.tick e).rateToI).raise pDatum 0 with datum := { (s.tick e).rateToI.datum with planEnd := none } }

theorem Stage.planDone_some {s : Stage} {e : Nat} (hp : s.datum.planEnd = some e) :
    s.planDone = if s.datum.holdPending then (s.planOver e).enterHoldover else s.planOver e := by
  rw [Stage.planDone, hp]
  rfl

theorem Stage.now_enterHoldover (s : Stage) : s.enterHoldover.now = s.now := by
  rw [Stage.now, Stage.datum_enterHoldover]
  exact congrArg Int.toNat (s.datum.at_rebased _)

/-! ### The reference (R250, R251) -/

section
variable {s : State} (h : s.stage.dieUp = true)
include h

theorem pllLock_starts (hl : s.stage.datum.everLocked = false) :
    Done .pllLock s (fun t => t.datum = { s.stage.datum with pll := true, everLocked := true, raw := 0, started := true }) := by
  obtain ⟨c, hc⟩ := s.stage.calApply_datum
  refine done_act (f := Stage.pllLock) rfl h ?_
  simp [Stage.pllLock, hc, hl]

theorem pllLock_relocks (hl : s.stage.datum.everLocked = true) : Done .pllLock s (fun t => t.datum = { s.stage.datum with pll := true }) := by
  obtain ⟨c, hc⟩ := s.stage.calApply_datum
  refine done_act (f := Stage.pllLock) rfl h ?_
  simp [Stage.pllLock, hc, hl]

theorem refFault_raises : Done .refFault s (fun t => t.datum = { s.stage.datum with pll := false } ∧ Raises pDatum 9 t) := by
  have hkeep := Stage.keeps_sdCause (({ s.stage with datum := { s.stage.datum with pll := false } } : Stage).raise pDatum 9) 7
  obtain ⟨-, hev, hpart⟩ := hkeep
  refine done_act (f := Stage.refFault) rfl h ⟨?_, Stage.ends_event _ _ (hev _ _ (Stage.raise_sets _ _ _ (by decide)))⟩
  rw [Stage.ends_datum]
  exact hpart .datum (by simp)

theorem refRecover_relocks : Done .refRecover s (fun t => t.datum = { s.stage.datum with pll := s.stage.datum.pll || s.stage.datum.everLocked }) := by
  refine done_act (f := Stage.refRecover) rfl h ?_
  rw [Stage.ends_datum, Stage.refRecover]
  split
  case isTrue hl => rw [hl, Bool.or_true]
  case isFalse hl => rw [Bool.eq_false_of_not_eq_true hl, Bool.or_false]

/-! ### Hold timeouts and slew plans (R261 to R263) -/

section
variable {r : Nat}

theorem holdTimeoutExpiry_holds (ha : s.stage.srcAlt = 0) (hst : s.stage.datum.servo = .acquire ∨ s.stage.datum.servo = .locked
      ∨ (s.stage.datum.servo = .slew ∧ s.stage.datum.planEnd = none)) :
    Done (.holdTimeoutExpiry r) s (fun t => t.datum.servo = .holdover ∧ t.datum.rate = s.stage.datum.integ ∧ t.datum.integ = s.stage.datum.integ
      ∧ t.now = (s.stage.tick r).now ∧ Raises pDatum 7 t ∧ t.regN pDatum 0x10C = min 0xFFFFFFFF (s.stage.regN pDatum 0x10C + 1)) := by
  have heq : (s.stage.tick r).holdExpiry = (s.stage.tick r).enterHoldover := Stage.holdExpiry_holds ha hst
  refine done_act (f := fun t => (t.tick r).holdExpiry) rfl h ?_
  rw [heq, Stage.ends_datum, Stage.ends_now, Stage.now_enterHoldover, Stage.datum_enterHoldover]
  refine ⟨rfl, rfl, rfl, rfl, Stage.ends_event _ _ (Stage.raises_enterHoldover _), ?_⟩
  rw [Stage.ends_regN _ _ (by decide) (by decide), Stage.holdoverCount_enterHoldover]
  rfl

theorem holdTimeoutExpiry_rests (ha : s.stage.srcAlt = 0) (hst : s.stage.datum.servo = .free ∨ s.stage.datum.servo = .holdover) :
    Done (.holdTimeoutExpiry r) s (fun t => t.datum = (s.stage.tick r).datum) := by
  have heq : (s.stage.tick r).holdExpiry = s.stage.tick r := Stage.holdExpiry_rests ha hst
  refine done_act (f := fun t => (t.tick r).holdExpiry) rfl h ?_
  rw [heq, Stage.ends_datum]

theorem holdTimeoutExpiry_waits {e : Nat} (ha : s.stage.srcAlt = 0) (hst : s.stage.datum.servo = .slew) (hp : s.stage.datum.planEnd = some e) :
    Done (.holdTimeoutExpiry r) s (fun t => t.datum = { (s.stage.tick r).datum with holdPending := true }) := by
  have heq : (s.stage.tick r).holdExpiry = _ := Stage.holdExpiry_waits ha hst hp
  refine done_act (f := fun t => (t.tick r).holdExpiry) rfl h ?_
  rw [heq, Stage.ends_datum]

theorem holdTimeoutExpiry_switches {last start : Nat} (hsrc : s.stage.datum.srcNow = s.stage.src) (ha : s.stage.srcAlt ≠ 0)
    (hne : s.stage.srcAlt ≠ s.stage.src) (hoff : Tab.find s.stage.datum.lastOff s.stage.srcAlt = some (last, start))
    (hrec : max s.stage.datum.raw r - last ≤ s.stage.holdTimeout) :
    Done (.holdTimeoutExpiry r) s (fun t => t.datum = { (s.stage.tick r).datum with srcNow := s.stage.srcAlt, switched := true } ∧ Raises pDatum 8 t) := by
  have heq : (s.stage.tick r).holdExpiry = (s.stage.tick r).switchSource s.stage.srcAlt := Stage.holdExpiry_switches hsrc ha hne hoff hrec
  refine done_act (f := fun t => (t.tick r).holdExpiry) rfl h ?_
  rw [heq, Stage.ends_datum]
  exact ⟨rfl, Stage.ends_event _ _ (Stage.raise_sets _ pDatum 8 (by decide))⟩

end

theorem slewPlanEnd_ends {e : Nat} (hp : s.stage.datum.planEnd = some e) : Done .slewPlanEnd s (fun t => t.datum.raw = max s.stage.datum.raw e
    ∧ t.datum.rate = s.stage.datum.integ ∧ t.now = (s.stage.tick e).now ∧ t.datum.planEnd = none ∧ Raises pDatum 0 t
    ∧ t.datum.servo = if s.stage.datum.holdPending then .holdover else s.stage.datum.servo) := by
  have hnow : (s.stage.planOver e).now = (s.stage.tick e).now := (s.stage.tick e).now_rateToI
  have hev : Raises pDatum 0 (s.stage.planOver e) := Stage.raise_sets _ pDatum 0 (by decide)
  refine done_act (f := Stage.planDone) rfl h ?_
  rw [Stage.planDone_some hp, Stage.ends_datum, Stage.ends_now]
  cases s.stage.datum.holdPending with
  | false => exact ⟨rfl, rfl, hnow, rfl, Stage.ends_event _ _ hev, rfl⟩
  | true =>
    obtain ⟨⟨-, hkept, -⟩, -⟩ := (s.stage.planOver e).served_enterHoldover
    rw [if_pos rfl, if_pos rfl, Stage.now_enterHoldover, Stage.datum_enterHoldover]
    exact ⟨rfl, rfl, hnow, rfl, Stage.ends_event _ _ (hkept _ _ hev), rfl⟩

theorem slewPlanEnd_idle (hp : s.stage.datum.planEnd = none) : Done .slewPlanEnd s (fun t => Keeps [] [] s.stage t) := by
  have heq : s.stage.planDone = s.stage := by rw [Stage.planDone, hp]
  exact done_act (f := Stage.planDone) rfl h (by rw [heq]; exact (Keeps.refl _).ends)

end
end Sys2Proof.Machine
end

section
/-!
PROOF. Steps of the datum (R257, R258, R306): what a step moves, and that the triggers judged afresh after it leave that as it is.
-/
namespace Sys2Proof.Machine

/-! ### Triggers judged afresh (R306) -/

section
variable (s : Stage)

theorem Stage.keeps_mem (m : Tab Byte) : Keeps [] [.mem] s { s with mem := m } := keeps_of_part rfl fun x hx => by cases x <;> simp_all [Part.same]

theorem Stage.keeps_prompt (f : PromptSt → PromptSt) : Keeps [] [.prompt] s (s.withPrompt f) :=
  keeps_of_part rfl fun x hx => by cases x <;> simp_all [Part.same, Stage.withPrompt]

theorem Stage.keeps_ring (l h : List CRec) : Keeps [] [.ring] s { s with recStore := l, recHeld := h } :=
  keeps_of_part rfl fun x hx => by cases x <;> simp_all [Part.same]

/-- A record changes at most the ring, its HEAD and memory (R571). -/
theorem Stage.keeps_putRecord (r : CRec) : Keeps [0] [.ring, .mem] s (s.putRecord r) := by
  unfold Stage.putRecord
  split
  · obtain ⟨m, h⟩ := s.ringWrite_frame r
    rw [h]
    exact ((s.keeps_mem m).trans (Stage.keeps_setN _ _ (by decide) (by decide))).mono (by simp) (by simp)
  · have hraise : Keeps [0] [.ring, .mem] s (s.raise 0 0) := (s.keeps_raise 0 (by decide)).mono (by simp) (by simp)
    dsimp only
    split
    · exact hraise.comp ((Stage.keeps_ring _ _ _).mono (by simp) (by simp))
    · exact hraise.comp ((Stage.keeps_ring _ _ _).mono (by simp) (by simp))

theorem Stage.rate_putRecord (r : CRec) : (s.putRecord r).reg 0 0x088 = s.reg 0 0x088 := by
  have hcore := s.core_putRecord r
  simp only [Stage.core, Prod.mk.injEq] at hcore
  obtain ⟨-, -, hrate, -⟩ := hcore
  exact hrate

/-- From `s` to `t` triggers may have been judged: records, registers of PROMPT and the Prompt may have changed, and the engine rate has not. -/
def Stage.Judged (s t : Stage) : Prop := Keeps [0, pPrompt] [.ring, .mem, .prompt] s t ∧ t.reg 0 0x088 = s.reg 0 0x088

theorem Stage.Judged.refl : s.Judged s := ⟨(Keeps.refl s).mono (by simp) (by simp), rfl⟩

theorem Stage.Judged.trans {s t u : Stage} (h : s.Judged t) (h' : t.Judged u) : s.Judged u := ⟨h.1.comp h'.1, h'.2.trans h.2⟩

theorem Stage.judged_withPrompt (f : PromptSt → PromptSt) : s.Judged (s.withPrompt f) := ⟨(s.keeps_prompt f).mono (by simp) (by simp), rfl⟩

theorem Stage.judged_trigDrop (q c : Nat) (w : Word) : s.Judged (s.trigDrop q c w) := by
  have hcount : s.Judged (s.bump pPrompt 0x0A8) :=
    ⟨(s.keeps_setN _ (by decide) (by decide)).mono (by simp) (by simp), s.reg_bump_other (by decide)⟩
  have hevent : s.Judged ((s.bump pPrompt 0x0A8).raise pPrompt 2) :=
    hcount.trans ⟨(Stage.keeps_raise _ pPrompt (by decide)).mono (by simp) (by simp), Stage.reg_raise_other _ _ (by decide)⟩
  exact hevent.trans ⟨(Stage.keeps_putRecord _ _).mono (by simp) (by simp), Stage.rate_putRecord _ _⟩

theorem Stage.judged_trigRejudge (m : Nat) (t : Trig) : s.Judged (Stage.trigRejudge m s t) := by
  unfold Stage.trigRejudge
  split
  · exact .refl s
  · refine iteInduction (fun _ => ?_) fun _ => s.judged_withPrompt _
    exact (s.judged_withPrompt _).trans (Stage.judged_trigDrop _ _ _ _)

theorem Stage.judged_promptRejudge (m : Nat) : s.Judged (s.promptRejudge m) :=
  List.foldlRecOn s.prompt.trigs (Stage.trigRejudge m) (motive := s.Judged) (.refl s) fun t ht a _ => ht.trans (t.judged_trigRejudge m a)

end

section
variable {s t : Stage} (h : s.Judged t)
include h

theorem Stage.Judged.datum : t.datum = s.datum := by
  obtain ⟨⟨-, -, hpart⟩, -⟩ := h
  exact hpart .datum (by simp)

theorem Stage.Judged.waiting : t.waiting = s.waiting := by
  obtain ⟨⟨-, -, hpart⟩, -⟩ := h
  exact (hpart .waiting (by simp)).1

theorem Stage.Judged.fs : t.fs = s.fs := congrArg fsOf (Stage.fld_congr h.2 2 0)

/-- The count of steps stays (R286). -/
theorem Stage.Judged.count : t.regN pDatum 0x104 = s.regN pDatum 0x104 := by
  obtain ⟨⟨hreg, -, -⟩, -⟩ := h
  exact Stage.regN_congr (hreg pDatum 0x104 (by decide) (by decide) (by decide))

end

/-! ### Steps (R257, R258) -/

/-- What a step leaves of the part beside its event and its count: OFFSET takes it, the index follows, and what waits falls due at the next boundary (R257). -/
def Stage.stepped (s : Stage) (a : Int) : Stage :=
  let d := { s.datum with offset := s.datum.offset + a * 2 ^ 48 }
  let n := indexAt (d.at d.raw).toNat s.fs
  { s with datum := { d with index := n }, waiting := s.waiting.map fun w => { w with due := n + 1 }, bats := s.bats.map fun e => (e.1, e.2.dueAt (n + 1)) }

theorem Stage.applyStep_stepped {s : Stage} (a : Int) (hm : stepMode s.mode = true) :
    s.applyStep { amount := a, cmd := none } = ((s.stepped a).raise pDatum 3).bump pDatum 0x104 := by
  rw [Stage.applyStep, if_pos hm]
  rfl

/-- The steps that waited are taken up. -/
def Stage.stepTaken (s : Stage) : Stage := { s with datum := { s.datum with stepReady := [] } }

/-- One step that waited is taken, and the triggers are judged afresh against the new index (R257, R306). -/
theorem Stage.stepNow_one {s : Stage} {a : Int} (hm : stepMode s.mode = true) (hr : s.datum.stepReady = [{ amount := a, cmd := none }]) :
    s.stepNow = (((s.stepTaken.stepped a).raise pDatum 3).bump pDatum 0x104).promptRejudge (s.stepTaken.stepped a).datum.index := by
  have happly : s.stepsApply = ((s.stepTaken.stepped a).raise pDatum 3).bump pDatum 0x104 := by
    rw [Stage.stepsApply, hr]
    exact Stage.applyStep_stepped (s := s.stepTaken) a hm
  rw [Stage.stepNow, if_neg (by simp [hr]), happly]
  rfl

theorem Stage.stepNow_idle {s : Stage} (hr : s.datum.stepReady = []) : s.stepNow = s := by
  have happly : s.stepsApply = s := by
    rw [Stage.stepsApply, hr, List.foldl_nil, ← hr]
  rw [Stage.stepNow, if_pos hr, happly]

section
variable {s : State} (h : s.stage.dieUp = true)
include h

theorem stepApply_idle (hr : s.stage.datum.stepReady = []) : Done .stepApply s (fun t => Keeps [] [] s.stage t) :=
  done_act (f := Stage.stepNow) rfl h (by rw [Stage.stepNow_idle hr]; exact (Keeps.refl _).ends)

theorem stepApply_steps {a : Int} (hm : stepMode s.stage.mode = true) (hr : s.stage.datum.stepReady = [{ amount := a, cmd := none }]) :
    Done .stepApply s (fun t => t.datum.offset = s.stage.datum.offset + a * 2 ^ 48 ∧ t.datum.index = indexAt t.now t.fs ∧ t.datum.stepReady = []
      ∧ (∀ w ∈ t.waiting, w.due = t.datum.index + 1) ∧ Raises pDatum 3 t ∧ t.regN pDatum 0x104 = min 0xFFFFFFFF (s.stage.regN pDatum 0x104 + 1)) := by
  refine done_act (f := Stage.stepNow) rfl h ?_
  set x : Stage := s.stage.stepTaken.stepped a with hx
  set y : Stage := (x.raise pDatum 3).bump pDatum 0x104 with hy
  have hj : y.Judged s.stage.stepNow := by
    rw [Stage.stepNow_one hm hr]
    exact y.judged_promptRejudge _
  have hfs : s.stage.stepNow.fs = s.stage.fs :=
    hj.fs.trans (congrArg fsOf (Stage.fld_congr ((Stage.reg_bump_other _ (by decide)).trans (Stage.reg_raise_other _ _ (by decide))) 2 0))
  have hfsEnds : (s.stage.ends s.stage.stepNow).fs = s.stage.fs := (congrArg fsOf (Stage.ends_fld _ _ _ _ (by decide) (by decide))).trans hfs
  have hdatum : s.stage.stepNow.datum = x.datum := hj.datum
  have hwait : s.stage.stepNow.waiting = x.waiting := hj.waiting
  have hevent : Raises pDatum 3 y := (Stage.flag_congr (Stage.reg_bump_other _ (by decide)) 3).trans (Stage.raise_sets _ _ _ (by decide))
  have hcount : s.stage.stepNow.regN pDatum 0x104 = min 0xFFFFFFFF (s.stage.regN pDatum 0x104 + 1) := by
    rw [hj.count, hy, Stage.regN_bump_same, Stage.regN_congr (x.reg_raise_other 3 (by decide))]
    rfl
  rw [Stage.ends_datum, Stage.ends_now, hfsEnds, Stage.ends_waiting, Stage.ends_regN _ _ (by decide) (by decide), Stage.now, hdatum, hwait]
  refine ⟨rfl, rfl, rfl, fun w hw => ?_, Stage.ends_event _ _ (hj.1.2.1 _ _ hevent), hcount⟩
  obtain ⟨v, -, rfl⟩ := List.mem_map.mp hw
  rfl

end
end Sys2Proof.Machine
end

section
/-!
PROOF. The inputs of the datum and what firmware writes to it (R258, R259, R263, R274 to R276): PPS_IN, CLK10M_IN and PPS_OUT, STEP, DATUM_CTRL and the
servo's offset.
-/
namespace Sys2Proof.Machine

/-! ### PPS_IN (R274) -/

section
variable {s : Stage} {falling : Bool}

theorem Stage.ppsEdge_ignored (h : falling ≠ s.flag pDatum 0x0F0 0 ∨ ∃ l, s.datum.ppsLast = some l ∧ (s.datum.raw : Int) - l < 58982400000000) :
    s.ppsEdge falling = s := by
  rcases h with h | ⟨l, hl, hearly⟩
  · exact if_pos h
  · refine ite_eq_left_iff.mpr fun _ => if_pos ?_
    rw [hl]
    exact decide_eq_true hearly

/-- The part at an accepted edge, before its offset is delivered. -/
def Stage.ppsSeen (s : Stage) (theta : Int) : Stage :=
  { s.setN pDatum 0x0FC (nsWord theta) with datum := { s.datum with ppsLast := some (s.datum.raw : Int), ppsOk := true } }

/-- The offset of an edge from the nearest whole second of the datum. -/
def Stage.ppsOffset (s : Stage) : Int :=
  let t : Int := (s.now : Int) - sext 32 (s.regN pDatum 0x0F4) * unit
  t - Int.fdiv (2 * t + unitsPerSec) (2 * unitsPerSec) * unitsPerSec

theorem Stage.ppsEdge_accepted (hf : falling = s.flag pDatum 0x0F0 0)
    (hl : ∀ l, s.datum.ppsLast = some l → 58982400000000 ≤ (s.datum.raw : Int) - l) :
    s.ppsEdge falling = (s.ppsSeen s.ppsOffset).deliver 3 s.ppsOffset none := by
  refine (if_neg (not_not.mpr hf)).trans (if_neg ?_)
  cases h : s.datum.ppsLast with
  | none => exact Bool.false_ne_true
  | some l => exact fun hc => absurd (hl l h) (Int.not_le.mpr (of_decide_eq_true hc))

theorem Stage.keeps_ppsSeen (s : Stage) (theta : Int) : Keeps [pDatum] [.datum] s (s.ppsSeen theta) :=
  (s.keeps_datumReg (o := 0x0FC) _ (by decide) (by decide)).comp (Stage.keeps_putDatum _ _)

theorem Stage.keeps_ppsEdge (s : Stage) (falling : Bool) : Keeps [pDatum] [.datum] s (s.ppsEdge falling) := by
  have hidle : Keeps [pDatum] [.datum] s s := (Keeps.refl s).mono (by simp) (by simp)
  unfold Stage.ppsEdge
  refine iteInduction (fun _ => hidle) fun _ => iteInduction (fun _ => hidle) fun _ => ?_
  exact (s.keeps_ppsSeen s.ppsOffset).comp (Stage.served_deliver _ _ _ _).keeps

end

theorem Stage.keeps_tick (s : Stage) (r : Nat) : Keeps [pDatum] [.datum] s (s.tick r) := s.keeps_putDatum _

section
variable {s : State} (h : s.stage.dieUp = true) {r : Nat}
include h

theorem ppsEdge_ignored {f : Bool}
    (hi : f ≠ s.stage.flag pDatum 0x0F0 0 ∨ ∃ l, s.stage.datum.ppsLast = some l ∧ (max s.stage.datum.raw r : Nat) - l < 58982400000000) :
    Done (.ppsEdge r f) s (fun t => t.datum = (s.stage.tick r).datum) := by
  have heq : (s.stage.tick r).ppsEdge f = s.stage.tick r := Stage.ppsEdge_ignored hi
  refine done_act (f := fun t => (t.tick r).ppsEdge f) rfl h ?_
  rw [heq, Stage.ends_datum]

theorem ppsEdge_accepted {f : Bool} (hf : f = s.stage.flag pDatum 0x0F0 0) (hl : s.stage.datum.ppsLast = none) :
    Done (.ppsEdge r f) s (fun t => t.datum.ppsOk = true ∧ t.datum.ppsLast = some (max s.stage.datum.raw r : Nat) ∧ t.datum.raw = max s.stage.datum.raw r) := by
  have hnone : (s.stage.tick r).datum.ppsLast = none := hl
  have heq : (s.stage.tick r).ppsEdge f = _ := Stage.ppsEdge_accepted hf fun l h => absurd (hnone.symm.trans h) (Option.some_ne_none l).symm
  obtain ⟨-, hraw, hlast, hok⟩ := Stage.served_deliver ((s.stage.tick r).ppsSeen (s.stage.tick r).ppsOffset) 3 (s.stage.tick r).ppsOffset none
  refine done_act (f := fun t => (t.tick r).ppsEdge f) rfl h ?_
  rw [heq, Stage.ends_datum]
  exact ⟨hok, hlast, hraw⟩

theorem ppsLost_raises (hok : s.stage.datum.ppsOk = true) :
    Done .ppsLost s (fun t => t.datum = { s.stage.datum with ppsOk := false } ∧ Raises pDatum 10 t) := by
  refine done_act (f := Stage.ppsLost) rfl h ?_
  rw [Stage.ppsLost, if_pos hok, Stage.ends_datum]
  exact ⟨rfl, Stage.ends_event _ _ (Stage.raise_sets _ _ _ (by decide))⟩

theorem ppsLost_idle (hok : s.stage.datum.ppsOk = false) : Done .ppsLost s (fun t => Keeps [] [] s.stage t) := by
  have heq : s.stage.ppsLost = s.stage := if_neg (by simp [hok])
  exact done_act (f := Stage.ppsLost) rfl h (by rw [heq]; exact (Keeps.refl _).ends)

end

/-! ### CLK10M_IN (R275) -/

/-- A gate's error as the integrator takes it, at the gain KI (R260, R275). -/
def Stage.gatedI (s : Stage) (err : Int) : Int :=
  clampI (-ppmLimit) ppmLimit (divZ (s.datum.integ * 2 ^ s.fld pDatum 0x0B4 12 8 - err) (2 ^ s.fld pDatum 0x0B4 12 8))

/-- The error is published, and the input delivers. -/
def Stage.gateSeen (s : Stage) (err : Int) : Stage :=
  { s.setN pDatum 0x100 (toBits 32 (clampI (-2147483647) 2147483647 err)) with datum := { s.datum with clk10mOk := true } }

/-- I takes the gate's error. -/
def Stage.gateTaken (s : Stage) (err : Int) : Stage := { s.gateSeen err with datum := { (s.gateSeen err).datum with integ := (s.gateSeen err).gatedI err } }

theorem Stage.keeps_gateTaken (s : Stage) (err : Int) : Keeps [pDatum] [.datum] s (s.gateTaken err) :=
  (s.keeps_datumReg (o := 0x100) _ (by decide) (by decide)).comp (Stage.keeps_putDatum _ _)

section
variable {s : Stage} (err : Int)

theorem Stage.clk10mGate_off (h : s.flag pDatum 0x080 16 = false) : s.clk10mGate err = s := if_neg (by simp [h])

theorem Stage.clk10mGate_on (h : s.flag pDatum 0x080 16 = true) : s.clk10mGate err
    = if (s.datum.servo == .free || s.datum.servo == .holdover) || s.datum.srcNow == 3 then
        if s.datum.servo == .free || s.datum.servo == .holdover then (s.gateTaken err).rateToI else s.gateTaken err
      else s.gateSeen err :=
  if_pos h

theorem Stage.clk10mGate_still (h : s.flag pDatum 0x080 16 = true) (hst : s.datum.servo = .free ∨ s.datum.servo = .holdover) :
    s.clk10mGate err = (s.gateTaken err).rateToI := by
  have hstill : (s.datum.servo == .free || s.datum.servo == .holdover) = true := by rcases hst with hst | hst <;> rw [hst] <;> rfl
  rw [Stage.clk10mGate_on err h, hstill]
  rfl

theorem Stage.keeps_clk10mGate (s : Stage) (err : Int) : Keeps [pDatum] [.datum] s (s.clk10mGate err) := by
  cases h : s.flag pDatum 0x080 16 with
  | false => exact (Stage.clk10mGate_off err h).symm ▸ (Keeps.refl s).mono (by simp) (by simp)
  | true =>
    rw [Stage.clk10mGate_on err h]
    refine iteInduction (fun _ => iteInduction (fun _ => ?_) fun _ => s.keeps_gateTaken err) fun _ => ?_
    · exact (s.keeps_gateTaken err).comp (Stage.served_rateToI _).keeps
    · exact (s.keeps_datumReg (o := 0x100) _ (by decide) (by decide)).comp (Stage.keeps_putDatum _ _)

end

section
variable {s : State} (h : s.stage.dieUp = true) {r : Nat} {err : Int}
include h

theorem clk10mGate_steers (hon : s.stage.flag pDatum 0x080 16 = true) (hst : s.stage.datum.servo = .free ∨ s.stage.datum.servo = .holdover) :
    Done (.clk10mGate r err) s (fun t => t.datum.clk10mOk = true ∧ t.now = (s.stage.tick r).now ∧ t.datum.rate = t.datum.integ
      ∧ t.datum.integ = max (-ppmLimit) (min ppmLimit (Int.tdiv (s.stage.datum.integ * 2 ^ s.stage.fld pDatum 0x0B4 12 8 - err) (2 ^ s.stage.fld pDatum 0x0B4 12 8)))
      ∧ t.regN pDatum 0x100 = toBits 32 (max (-2147483647) (min 2147483647 err))) := by
  have heq : (s.stage.tick r).clk10mGate err = _ := Stage.clk10mGate_still err hon hst
  have hgain : (((s.stage.tick r).gateSeen err).fld pDatum 0x0B4 12 8) = s.stage.fld pDatum 0x0B4 12 8 :=
    Stage.fld_congr (Stage.reg_setN_other _ _ (by decide)) 12 8
  refine done_act (f := fun t => (t.tick r).clk10mGate err) rfl h ?_
  rw [heq, Stage.ends_datum, Stage.ends_now, Stage.now_rateToI, Stage.ends_regN _ _ (by decide) (by decide)]
  refine ⟨rfl, rfl, rfl, ?_, ?_⟩
  · rw [← clampI_eq _ (by decide), ← hgain]
    rfl
  · rw [← clampI_eq _ (by decide)]
    exact (Stage.regN_setN_same _ _ _ _).trans (Nat.mod_eq_of_lt (toBits_lt _ _))

theorem clk10mGate_off (hoff : s.stage.flag pDatum 0x080 16 = false) : Done (.clk10mGate r err) s (fun t => t.datum = (s.stage.tick r).datum) := by
  have heq : (s.stage.tick r).clk10mGate err = s.stage.tick r := Stage.clk10mGate_off err hoff
  refine done_act (f := fun t => (t.tick r).clk10mGate err) rfl h ?_
  rw [heq, Stage.ends_datum]

theorem clk10mLost_raises (hon : s.stage.flag pDatum 0x080 16 = true) :
    Done .clk10mLost s (fun t => t.datum = { s.stage.datum with clk10mOk := false } ∧ Raises pDatum 11 t) := by
  refine done_act (f := Stage.clk10mLost) rfl h ?_
  rw [Stage.clk10mLost, if_pos hon, Stage.ends_datum]
  exact ⟨rfl, Stage.ends_event _ _ (Stage.raise_sets _ _ _ (by decide))⟩

theorem clk10mLost_idle (hoff : s.stage.flag pDatum 0x080 16 = false) : Done .clk10mLost s (fun t => Keeps [] [] s.stage t) := by
  have heq : s.stage.clk10mLost = s.stage := if_neg (by simp [hoff])
  exact done_act (f := Stage.clk10mLost) rfl h (by rw [heq]; exact (Keeps.refl _).ends)

/-! ### PPS_OUT (R276) -/

theorem ppsOutPulse_leaves (hon : s.stage.flag pDatum 0x0F0 31 = true) (hst : s.stage.datum.servo = .locked ∨ s.stage.flag pDatum 0x0F0 30 = true) :
    Done .ppsOutPulse s (fun t => Out.ppsOut (s.stage.fld pDatum 0x0F0 23 16) ∈ t.outs) := by
  have heq : s.stage.ppsOut = s.stage.emit (.ppsOut (s.stage.fld pDatum 0x0F0 23 16)) :=
    if_pos (by rcases hst with hst | hst <;> simp [hon, hst])
  refine done_act (f := Stage.ppsOut) rfl h ?_
  rw [heq]
  exact Stage.ends_outs _ _ (by simp [Stage.emit])

end
end Sys2Proof.Machine
end

section
/-!
PROOF. What firmware writes to the datum (R258, R259, R263): STEP, DATUM_CTRL and the servo's offset; what the datum's events may change; the statement
O48.
-/
namespace Sys2Proof.Machine

/-! ### STEP (R258) -/

theorem Stage.stepCmd_asks {s : Stage} (c : Cmd) (hm : stepMode s.mode = true) :
    s.stepCmd c = s.askStep (sext 64 (s.reg64 pDatum 0x0E4) * unitsPerSec + sext 32 (s.regN pDatum 0x0EC) * unit) (some c) := if_pos hm

theorem Stage.stepCmd_refuses {s : Stage} (c : Cmd) (hm : stepMode s.mode = false) : s.stepCmd c = s.complete pDatum c stRefused 0#32 :=
  if_neg (by simp [hm])

theorem Stage.datum_complete (s : Stage) (p : Nat) (c : Cmd) (st : Nat) (w : Word) : (s.complete p c st w).datum = s.datum := by
  obtain ⟨_, _, _, _, hframe⟩ := s.complete_frame p c st w
  rw [hframe]

theorem Stage.Issued.datum {s t : Stage} (h : s.Issued t) : t.datum = s.datum := by
  obtain ⟨_, _, _, _, rfl⟩ := h
  rfl

theorem Stage.Issued.mode {s t : Stage} (h : s.Issued t) : t.mode = s.mode := by
  obtain ⟨_, _, _, _, rfl⟩ := h
  rfl

section
variable {s : State} (h : Ready s pDatum) {m : Master} {c : Cmd} (hc : c = s.stage.issuedCmd m pDatum 1 [])
include h hc

/-- STEP on an idle DATUM page starts at once, in a state with the datum, the registers and the ring as they were. -/
theorem cmdWith_step : ∃ t, s.stage.cmdWith m pDatum 1 [] = { t.stepCmd c with bus := { resp := .okay, data := [] } } ∧ s.stage.Issued t := by
  refine ⟨_, (h.cmdWith m (by decide) [] (k := .datum) (i := 0) (by decide) (by decide)).trans ?_, h.issued m (code := 1) (by decide) []⟩
  rw [hc]
  rfl

theorem step_asks (hm : stepMode s.stage.mode = true) : Done (.step m) s (fun t => t.datum = { s.stage.datum with stepReq := s.stage.datum.stepReq
    ++ [{ amount := sext 64 (s.stage.reg64 pDatum 0x0E4) * unitsPerSec + sext 32 (s.stage.regN pDatum 0x0EC) * unit, cmd := some c }] }) := by
  obtain ⟨t, hrun, hissued⟩ := cmdWith_step h hc
  refine done_act (f := fun s => s.cmdWith m pDatum 1 []) rfl h.1 ?_
  rw [hrun, Stage.stepCmd_asks c (hissued.mode.symm ▸ hm), Stage.ends_datum]
  obtain ⟨_, _, _, _, rfl⟩ := hissued
  rfl

theorem step_refused (hm : stepMode s.stage.mode = false) (hring : RingFree s.stage) :
    Done (.step m) s (fun t => t.datum = s.stage.datum ∧ Recorded s.stage pDatum c stRefused 0#32 t) := by
  obtain ⟨t, hrun, hissued⟩ := cmdWith_step h hc
  have hrec := Stage.recorded_complete hring hissued.sameRing pDatum c (st := stRefused) 0#32 (by decide)
  refine done_act (f := fun s => s.cmdWith m pDatum 1 []) rfl h.1 ?_
  rw [hrun, Stage.stepCmd_refuses c (hissued.mode.symm ▸ hm), Stage.ends_datum]
  have hdatum := (t.datum_complete pDatum c stRefused 0#32).trans hissued.datum
  generalize t.complete pDatum c stRefused 0#32 = x at hrec hdatum ⊢
  refine ⟨hdatum, Recorded.ends ?_ _⟩
  exact hrec.congr rfl rfl rfl

end

/-! ### Writes of DATUM (R259, R263) -/

section
variable (s : Stage)

theorem Stage.reg_enterFree_other {q x : Nat} (h : q * 4096 + x ≠ pDatum * 4096 + 0x014) : s.enterFree.reg q x = s.reg q x := by
  have hregs : s.enterFree.regs = (s.setServo .free).regs := rfl
  rw [Stage.reg, hregs]
  exact s.reg_setServo_other .free h

theorem Stage.now_enterFree : s.enterFree.now = s.now := by
  rw [Stage.now, Stage.datum_enterFree]
  exact congrArg Int.toNat (s.datum.at_rebased _)

theorem Stage.datum_wrote (k : PageKind) (i off n : Nat) : (s.wrote k i off n).datum = s.datum := by
  obtain ⟨_, h⟩ := s.wrote_frame k i off n
  rw [h]

theorem Stage.reg_enterAcquire_other (k : Nat) {q x : Nat} (h : q * 4096 + x ≠ pDatum * 4096 + 0x014) : (s.enterAcquire k).reg q x = s.reg q x := by
  have hregs : (s.enterAcquire k).regs = (s.setServo .acquire).regs := rfl
  rw [Stage.reg, hregs]
  exact s.reg_setServo_other .acquire h

theorem Stage.reg_set64_other {p o q x : Nat} (n : Nat) (h : q * 4096 + x ≠ p * 4096 + o) (h' : q * 4096 + x ≠ p * 4096 + (o + 4)) :
    (s.set64 p o n).reg q x = s.reg q x :=
  (Stage.reg_setN_other _ _ h').trans (s.reg_setN_other _ h)

theorem Stage.reg64_congr {s t : Stage} {p o : Nat} (h : t.reg p o = s.reg p o) (h' : t.reg p (o + 4) = s.reg p (o + 4)) :
    t.reg64 p o = s.reg64 p o := by
  rw [Stage.reg64, Stage.reg64, Stage.regN_congr h, Stage.regN_congr h']

theorem Stage.ends_reg64 (s t : Stage) {p o : Nat} (ho : o + 4 < 4096) (hn : o ≠ 0x014) (hn' : o + 4 ≠ 0x014) : (s.ends t).reg64 p o = t.reg64 p o :=
  Stage.reg64_congr (Stage.ends_reg s t (by omega) hn) (Stage.ends_reg s t ho hn')

theorem Stage.reg64_set64_same (p o : Nat) {n : Nat} (hn : n < 2 ^ 64) : (s.set64 p o n).reg64 p o = n := by
  have hlo : (s.set64 p o n).regN p o = n % 2 ^ 32 :=
    (Stage.regN_congr (Stage.reg_setN_other _ _ (by omega))).trans (s.regN_setN_same p o n)
  have hhi : (s.set64 p o n).regN p (o + 4) = n / 2 ^ 32 % 2 ^ 32 := Stage.regN_setN_same _ p (o + 4) _
  rw [Stage.reg64, hlo, hhi]
  omega

/-- A small offset takes the servo from FREE to ACQUIRE (R260, R262). -/
theorem Stage.accept_acquires {theta : Int} (delta : Nat) (hst : s.datum.servo = .free) (hsmall : (theta.natAbs : Int) ≤ s.stepThr) :
    s.accept theta delta none = (s.set64 pDatum 0x0D4 (toBits 64 theta)).enterAcquire (if (theta.natAbs : Int) ≤ s.lockThr then 1 else 0) := by
  set x := s.set64 pDatum 0x0D4 (toBits 64 theta) with hx
  have hstep : x.stepThr = s.stepThr :=
    congrArg (fun n : Nat => (n : Int) * unit) (Stage.fld_congr (s.reg_set64_other (o := 0x0D4) _ (by decide) (by decide)) 29 0)
  have hlock : x.lockThr = s.lockThr :=
    congrArg (fun n : Nat => (n : Int) * unit) (Stage.fld_congr (s.reg_set64_other (o := 0x0D4) _ (by decide) (by decide)) 13 0)
  have hfree : x.datum.servo = .free := hst
  have hbig : decide (x.stepThr < (theta.natAbs : Int)) = false := decide_eq_false (by rw [hstep]; exact Int.not_lt.mpr hsmall)
  have hx' : x.raiseIf false pDatum 4 = x := rfl
  simp only [Stage.accept, ← hx, hbig, Bool.false_and, Bool.false_eq_true, if_false, hx', hfree, hlock, decide_eq_true_eq]

/-- A small offset of the source in use is accepted as it is (R259, R263). -/
theorem Stage.deliver_acquires {src : Nat} {theta : Int} (hne : src ≠ 0) (hsrc : s.datum.srcNow = src) (hst : s.datum.servo = .free)
    (hasym : s.datum.asym = false) (hsw : s.datum.switched = false) (hsmall : (theta.natAbs : Int) ≤ s.stepThr) :
    ∃ d, s.deliver src theta none
      = (Stage.set64 { s with datum := d } pDatum 0x0D4 (toBits 64 theta)).enterAcquire (if (theta.natAbs : Int) ≤ s.lockThr then 1 else 0) := by
  have hnoted : (s.noted src).datum.srcNow = src ∧ (s.noted src).datum.asym = false ∧ (s.noted src).datum.switched = false := ⟨hsrc, hasym, hsw⟩
  obtain ⟨hsrc', hasym', hsw'⟩ := hnoted
  refine ⟨{ (s.noted src).datum with switched := false, asym := false, holdPending := false }, ?_⟩
  rw [Stage.deliver_eq, if_neg (by rintro ⟨h, h', -⟩; exact h' (hsrc.trans h)), Stage.offered, if_neg (by simp [hsrc', hne]), hasym', hsw']
  exact Stage.accept_acquires _ _ hst hsmall
end

section
variable {s : State} {m : Master} {v : Nat}

theorem datumCtrlWrite_frees (h : Passes s m .datum 0 0x080 v) :
    Done (.datumCtrlWrite m v) s (fun t => Written s .datum 0 0x080 v t ∧ t.datum.servo = .free
      ∧ t.datum.integ = s.stage.datum.integ ∧ t.datum.rate = s.stage.datum.integ ∧ t.datum.srcNow = t.src ∧ t.datum.planEnd = none ∧ t.now = s.stage.now) := by
  refine done_passes h rfl rfl ?_
  have heffect : ∀ x : Stage, x.written .datum 0 0x080 (s.stage.regN (PageKind.page .datum 0) 0x080) (regWord .datum 0 0x080 v) = x.datumCtrlWritten :=
    fun _ => rfl
  rw [heffect]
  set x := s.stage.wrote .datum 0 0x080 v with hx
  have hdatum : x.datum = s.stage.datum := s.stage.datum_wrote ..
  have hreg : x.datumCtrlWritten.reg pDatum 0x080 = x.reg pDatum 0x080 := Stage.reg_enterFree_other _ (by decide)
  have hsrc : (s.stage.ends (x.datumCtrlWritten.respond .okay)).src = x.src :=
    (Stage.ends_fld _ _ _ _ (by decide) (by decide)).trans (Stage.fld_congr hreg 6 4)
  have hnow : x.datumCtrlWritten.now = s.stage.now := by
    have hx : x.now = s.stage.now := by rw [Stage.now, hdatum]; rfl
    exact (Stage.now_enterFree _).trans hx
  refine ⟨written_of_kept h rfl hreg, ?_⟩
  rw [hsrc, Stage.ends_now, Stage.ends_datum]
  have hfree : (x.datumCtrlWritten.respond .okay).datum = _ := Stage.datum_enterFree _
  have hinteg : x.datum.integ = s.stage.datum.integ := congrArg DatumSt.integ hdatum
  rw [hfree]
  exact ⟨rfl, hinteg, hinteg, rfl, rfl, hnow⟩

theorem servoOffsetInHiWrite_acquires {th : Int} (h : Passes s m .datum 0 0x0E0 v) (hsrc : s.stage.datum.srcNow = 4) (hst : s.stage.datum.servo = .free)
    (hasym : s.stage.datum.asym = false) (hsw : s.stage.datum.switched = false)
    (hth : th = sext 64 (s.stage.regN pDatum 0x0DC + regWord .datum 0 0x0E0 v * 2 ^ 32)) (hsmall : (th.natAbs : Int) ≤ s.stage.stepThr) :
    Done (.servoOffsetInHiWrite m v) s (fun t => t.bus.resp = .okay ∧ t.datum.servo = .acquire ∧ t.reg64 pDatum 0x0D4 = toBits 64 th
      ∧ t.datum.inBand = if (th.natAbs : Int) ≤ s.stage.lockThr then 1 else 0) := by
  refine done_passes h rfl rfl ?_
  have heffect : ∀ x : Stage, x.written .datum 0 0x0E0 (s.stage.regN (PageKind.page .datum 0) 0x0E0) (regWord .datum 0 0x0E0 v)
      = x.deliver 4 (sext 64 (x.regN pDatum 0x0DC + regWord .datum 0 0x0E0 v % 2 ^ 32 * 2 ^ 32)) none := fun _ => rfl
  rw [heffect, Nat.mod_eq_of_lt (regWord_lt _ _ _ _)]
  set x := s.stage.wrote .datum 0 0x0E0 v with hx
  have hreg : ∀ o, o < 4096 → o ≠ 0x0E0 → x.reg pDatum o = s.stage.reg pDatum o := fun o ho hne =>
    s.stage.reg_store_other _ (by simp only [PageKind.page, pDatum]; omega)
  have hdatum : x.datum = s.stage.datum := s.stage.datum_wrote ..
  have hoff : sext 64 (x.regN pDatum 0x0DC + regWord .datum 0 0x0E0 v * 2 ^ 32) = th := by
    rw [hth, Stage.regN_congr (hreg 0x0DC (by decide) (by decide))]
  have hstep : x.stepThr = s.stage.stepThr :=
    congrArg (fun n : Nat => (n : Int) * unit) (Stage.fld_congr (hreg 0x0B8 (by decide) (by decide)) 29 0)
  have hlock : x.lockThr = s.stage.lockThr :=
    congrArg (fun n : Nat => (n : Int) * unit) (Stage.fld_congr (hreg 0x0BC (by decide) (by decide)) 13 0)
  obtain ⟨d, hd⟩ := x.deliver_acquires (src := 4) (theta := th) (by decide) (by rw [hdatum, hsrc]) (by rw [hdatum, hst]) (by rw [hdatum, hasym])
    (by rw [hdatum, hsw]) (by rw [hstep]; exact hsmall)
  have hpub : ∀ (y : Stage) (k : Nat), (s.stage.ends (((y.set64 pDatum 0x0D4 (toBits 64 th)).enterAcquire k).respond .okay)).reg64 pDatum 0x0D4
      = toBits 64 th := by
    intro y k
    rw [Stage.ends_reg64 _ _ (by decide) (by decide) (by decide)]
    exact (Stage.reg64_congr (Stage.reg_enterAcquire_other _ k (by decide)) (Stage.reg_enterAcquire_other _ k (by decide))).trans
      (y.reg64_set64_same _ _ (toBits_lt 64 th))
  rw [hoff, hd, hlock, Stage.ends_datum]
  have hacq : ∀ (y : Stage) (k : Nat), ((y.enterAcquire k).respond .okay).datum = _ := fun y k => y.datum_enterAcquire k
  rw [hacq]
  exact ⟨Stage.ends_respond_resp _ _ _, rfl, hpub _ _, rfl⟩

end

/-! ### Frames -/

section
variable (s : Stage)

theorem Stage.keeps_calApply_datum : Keeps [pDatum] [.datum] s (s.calApply pDatum) := by
  obtain ⟨c, hc⟩ := s.calApply_datum
  rw [hc]
  cases c
  · exact (Keeps.refl s).mono (by simp) (by simp)
  · exact s.keeps_datumEvent 0 (by decide)

theorem Stage.keeps_pllLock : Keeps [pDatum] [.datum] s s.pllLock := by
  refine s.keeps_calApply_datum.comp ?_
  exact iteInduction (fun _ => Stage.keeps_putDatum _ _) fun _ => Stage.keeps_putDatum _ _

theorem Stage.keeps_refRecover : Keeps [pDatum] [.datum] s s.refRecover :=
  iteInduction (fun _ => s.keeps_putDatum _) fun _ => (Keeps.refl s).mono (by simp) (by simp)

theorem Stage.keeps_refFault : Keeps [0x2A0] [.datum, .red] s s.refFault := by
  have hraise := ((s.keeps_datum { s.datum with pll := false }).trans (Stage.keeps_raise _ pDatum (b := 9) (by decide)))
  exact (hraise.trans (Stage.keeps_sdCause _ 7)).mono (by simp) (by simp)

theorem Stage.keeps_planOver (e : Nat) : Keeps [pDatum] [.datum] s (s.planOver e) :=
  (((s.keeps_tick e).comp (Stage.served_rateToI _).keeps).comp (Stage.keeps_datumEvent _ pDatum (b := 0) (by decide))).comp (Stage.keeps_putDatum _ _)

theorem Stage.keeps_planDone : Keeps [pDatum] [.datum] s s.planDone := by
  cases hp : s.datum.planEnd with
  | none =>
    rw [Stage.planDone, hp]
    exact (Keeps.refl s).mono (by simp) (by simp)
  | some e =>
    rw [Stage.planDone_some hp]
    exact iteInduction (fun _ => (s.keeps_planOver e).comp (Stage.served_enterHoldover _).keeps) fun _ => s.keeps_planOver e

theorem Stage.keeps_ppsLost : Keeps [pDatum] [.datum] s s.ppsLost :=
  iteInduction (fun _ => (s.keeps_putDatum _).comp (Stage.keeps_datumEvent _ _ (by decide))) fun _ => (Keeps.refl s).mono (by simp) (by simp)

theorem Stage.keeps_clk10mLost : Keeps [pDatum] [.datum] s s.clk10mLost :=
  iteInduction (fun _ => (s.keeps_putDatum _).comp (Stage.keeps_datumEvent _ _ (by decide))) fun _ => (Keeps.refl s).mono (by simp) (by simp)

theorem Stage.keeps_ppsOut : Keeps [pDatum] [.datum] s s.ppsOut :=
  iteInduction (fun _ => (s.keeps_emit _).mono (by simp) (by simp)) fun _ => (Keeps.refl s).mono (by simp) (by simp)

end

theorem datumEvents_frame (r : Nat) (f : Bool) (err : Int) :
    Frame [.pllLock, .refRecover, .holdTimeoutExpiry r, .slewPlanEnd, .ppsEdge r f, .ppsLost, .clk10mGate r err, .clk10mLost, .ppsOutPulse]
      [pDatum] [.datum] :=
  frame_cons (frame_act (f := Stage.pllLock) (fun _ => rfl) Stage.keeps_pllLock) <|
  frame_cons (frame_act (f := Stage.refRecover) (fun _ => rfl) Stage.keeps_refRecover) <|
  frame_cons (frame_act (f := fun t => (t.tick r).holdExpiry) (fun _ => rfl) fun s => (s.keeps_tick r).comp (Stage.served_holdExpiry _).keeps) <|
  frame_cons (frame_act (f := Stage.planDone) (fun _ => rfl) Stage.keeps_planDone) <|
  frame_cons (frame_act (f := fun t => (t.tick r).ppsEdge f) (fun _ => rfl) fun s => (s.keeps_tick r).comp (Stage.keeps_ppsEdge _ f)) <|
  frame_cons (frame_act (f := Stage.ppsLost) (fun _ => rfl) Stage.keeps_ppsLost) <|
  frame_cons (frame_act (f := fun t => (t.tick r).clk10mGate err) (fun _ => rfl) fun s => (s.keeps_tick r).comp (Stage.keeps_clk10mGate _ err)) <|
  frame_cons (frame_act (f := Stage.clk10mLost) (fun _ => rfl) Stage.keeps_clk10mLost) <|
  frame_act (f := Stage.ppsOut) (fun _ => rfl) Stage.keeps_ppsOut

theorem refFault_frame : Frame [.refFault] [0x2A0] [.datum, .red] := frame_act (f := Stage.refFault) (fun _ => rfl) Stage.keeps_refFault

/-- Settles O48, by what each event, command and write of the datum comes to and the frame of the servo. -/
theorem datumEvents : Obligations.DatumEvents := by
  unfold Obligations.DatumEvents
  refine ⟨fun s h => ?_, fun s m => ?_, datumEvents_frame, refFault_frame⟩
  · exact ⟨pllLock_starts h, pllLock_relocks h, refFault_raises h, refRecover_relocks h,
      fun r ha => ⟨holdTimeoutExpiry_holds h ha, holdTimeoutExpiry_rests h ha, fun e => holdTimeoutExpiry_waits h ha⟩,
      fun r last start => holdTimeoutExpiry_switches h, fun e => slewPlanEnd_ends h, slewPlanEnd_idle h, stepApply_idle h,
      fun a _ => stepApply_steps h, fun r f => ppsEdge_ignored h, fun r f => ppsEdge_accepted h, ppsLost_raises h, ppsLost_idle h,
      fun r err => clk10mGate_steers h, fun r err => clk10mGate_off h, clk10mLost_raises h, clk10mLost_idle h, ppsOutPulse_leaves h⟩
  · exact ⟨fun h c hc => ⟨step_asks h hc, step_refused h hc⟩, fun v => datumCtrlWrite_frees, fun v th => servoOffsetInHiWrite_acquires⟩

end Sys2Proof.Machine
end

section
/-!
PROOF. The operations of a time port (R264 to R272): what an offset and a measurement of the path leave of the port, and what the port may change.
-/
namespace Sys2Proof.Machine

/-! ### Time ports and what they may change -/

section
variable (s t : Stage) (p : Nat)

@[simp] theorem Stage.ends_tp : (s.ends t).tp p = t.tp p := by
  rw [Stage.tp, Stage.ends_tports]
  rfl

@[simp] theorem Stage.tp_setTp_same (v : TimePort) : (s.setTp p v).tp p = v := Tab.get_put_self ..

theorem Stage.keeps_tports (l : Tab TimePort) : Keeps [] [.tports] s { s with tports := l } :=
  keeps_of_part rfl fun x hx => by cases x <;> simp_all [Part.same]

theorem Stage.keeps_setTp (v : TimePort) : Keeps [p, pDatum] [.tports, .datum] s (s.setTp p v) := (s.keeps_tports _).mono (by simp) (by simp)

theorem Stage.keeps_portReg {o : Nat} (n : Nat) (ho : o < 4096) (hn : o ≠ 0x014) : Keeps [p, pDatum] [.tports, .datum] s (s.setN p o n) :=
  (s.keeps_setN n ho hn).mono (by simp) (by simp)

theorem Stage.keeps_portOut (o : Out) : Keeps [p, pDatum] [.tports, .datum] s (s.emit o) := (s.keeps_emit o).mono (by simp) (by simp)

theorem Stage.keeps_port : Keeps [p, pDatum] [.tports, .datum] s s := (Keeps.refl s).mono (by simp) (by simp)

end

/-- From `s` to `t` an offset of port `p` may have gone to the servo: of the port, the offset delivered last and the run of jumps may have changed, and
PORT_OFFSET has not. -/
def Stage.Offers (p : Nat) (s t : Stage) : Prop :=
  Keeps [p, pDatum] [.tports, .datum] s t ∧ t.reg p 0x314 = s.reg p 0x314 ∧ ∃ d j, t.tp p = { s.tp p with delivered := d, jumps := j }

section
variable {p : Nat}

theorem Stage.Offers.refl (s : Stage) : Stage.Offers p s s := ⟨s.keeps_port p, rfl, _, _, rfl⟩

theorem Stage.Offers.trans {s t u : Stage} (h : Stage.Offers p s t) (h' : Stage.Offers p t u) : Stage.Offers p s u := by
  obtain ⟨hk, hreg, d, j, htp⟩ := h
  obtain ⟨hk', hreg', d', j', htp'⟩ := h'
  exact ⟨hk.comp hk', hreg'.trans hreg, d', j', by rw [htp', htp]⟩

/-- The servo leaves the port as it is. -/
theorem Stage.Served.offers {s t : Stage} (h : s.Served t) (hp : p ≠ pDatum) : Stage.Offers p s t := by
  obtain ⟨⟨hreg, hev, hpart⟩, -⟩ := h
  have htports : t.tports = s.tports := hpart .tports (by simp)
  refine ⟨Keeps.mono ⟨hreg, hev, hpart⟩ (by simp) (by simp), hreg p 0x314 (by simpa using hp) (by decide) (by decide), (s.tp p).delivered, (s.tp p).jumps, ?_⟩
  rw [Stage.tp, htports]
  rfl

variable (s : Stage)

theorem Stage.offers_setTp (d : Option Int) (j : Nat) : Stage.Offers p s (s.setTp p { s.tp p with delivered := d, jumps := j }) :=
  ⟨s.keeps_setTp p _, rfl, d, j, s.tp_setTp_same p _⟩

theorem Stage.offers_countWithheld : Stage.Offers p s (s.countWithheld p) :=
  ⟨s.keeps_portReg p _ (by decide) (by decide), s.reg_setFld_other _ _ _ (by omega), _, _, rfl⟩

/-! ### An offset (R267, R270, R271) -/

/-- An offset is delivered to the servo, when the port is a source of it. -/
def Stage.tpGive (s : Stage) (p : Nat) (theta : Int) (forced : Option Nat) : Stage :=
  let t := s.setTp p { s.tp p with delivered := some theta, jumps := 0 }
  match t.tpSource p with
  | none => t
  | some c => t.deliver c theta forced

/-- An offset that jumps is withheld until the run of jumps is long enough (R271). -/
def Stage.tpJump (s : Stage) (p : Nat) (theta : Int) : Stage :=
  let t := s.countWithheld p
  let k := min 15 ((s.tp p).jumps + 1)
  if t.fld pDatum 0x0C8 27 24 ≤ k then (t.raise pDatum 6).tpGive p theta (some 3) else t.setTp p { s.tp p with jumps := k }

/-- A published offset is delivered unless a path step or a jump withholds it (R270, R271). -/
def Stage.tpOffer (s : Stage) (p : Nat) (theta : Int) : Stage :=
  if (s.tp p).held ≠ [] then (if s.tpInUse p then (s.countWithheld p).rateToI else s.countWithheld p)
  else if s.datum.servo = .locked ∧ s.tpInUse p then
    match (s.tp p).delivered with
    | none => s.tpGive p theta none
    | some l => if ((theta - l).natAbs : Int) ≤ (s.fld pDatum 0x0C8 19 0 : Int) * unit then s.tpGive p theta none else s.tpJump p theta
  else s.tpGive p theta none

theorem Stage.tpOffset_eq (theta : Int) :
    s.tpOffset p theta = (s.setN p 0x314 (toBits 32 (clampI (-2147483647) 2147483647 (Int.fdiv theta 256)))).tpOffer p theta := by
  unfold Stage.tpOffset
  generalize s.setN p 0x314 _ = t
  rfl

section
variable (hp : p ≠ pDatum)
include hp

theorem Stage.offers_tpGive (theta : Int) (forced : Option Nat) : Stage.Offers p s (s.tpGive p theta forced) := by
  have hset := s.offers_setTp (p := p) (some theta) 0
  unfold Stage.tpGive
  dsimp only
  split
  · exact hset
  · exact hset.trans ((Stage.served_deliver _ _ _ _).offers hp)

theorem Stage.offers_tpJump (theta : Int) : Stage.Offers p s (s.tpJump p theta) := by
  refine (s.offers_countWithheld (p := p)).trans ?_
  have htp : s.tp p = (s.countWithheld p).tp p := by rw [Stage.tp, Stage.tp, Stage.countWithheld, Stage.setFld_tports]
  unfold Stage.tpJump
  rw [htp]
  generalize s.countWithheld p = t
  refine iteInduction (fun _ => ?_) fun _ => t.offers_setTp _ _
  exact ((Stage.served_raise _ (b := 6) (by decide)).offers hp).trans (Stage.offers_tpGive _ hp _ _)

theorem Stage.offers_tpOffer (theta : Int) : Stage.Offers p s (s.tpOffer p theta) := by
  have hgive := s.offers_tpGive hp theta none
  refine iteInduction (fun _ => iteInduction (fun _ => ?_) fun _ => s.offers_countWithheld) fun _ => iteInduction (fun _ => ?_) fun _ => hgive
  · exact s.offers_countWithheld.trans ((Stage.served_rateToI _).offers hp)
  · split
    · exact hgive
    · exact iteInduction (fun _ => hgive) fun _ => s.offers_tpJump hp theta

/-- An offset is published, whether it is delivered or not. -/
theorem Stage.offset_tpOffset (theta : Int) :
    (s.tpOffset p theta).regN p 0x314 = toBits 32 (max (-2147483647) (min 2147483647 (Int.fdiv theta 256))) := by
  obtain ⟨-, hreg, -⟩ := Stage.offers_tpOffer (s.setN p 0x314 (toBits 32 (clampI (-2147483647) 2147483647 (Int.fdiv theta 256)))) hp theta
  rw [Stage.tpOffset_eq, Stage.regN_congr hreg, Stage.regN_setN_same, Nat.mod_eq_of_lt (toBits_lt 32 _), clampI_eq _ (by decide)]

theorem Stage.tp_tpOffset (theta : Int) : ∃ d j, (s.tpOffset p theta).tp p = { s.tp p with delivered := d, jumps := j } := by
  obtain ⟨-, -, htp⟩ := Stage.offers_tpOffer (s.setN p 0x314 (toBits 32 (clampI (-2147483647) 2147483647 (Int.fdiv theta 256)))) hp theta
  rw [Stage.tpOffset_eq]
  exact htp

theorem Stage.keeps_tpOffset (theta : Int) : Keeps [p, pDatum] [.tports, .datum] s (s.tpOffset p theta) := by
  obtain ⟨hk, -, -⟩ := Stage.offers_tpOffer (s.setN p 0x314 (toBits 32 (clampI (-2147483647) 2147483647 (Int.fdiv theta 256)))) hp theta
  rw [Stage.tpOffset_eq]
  exact (s.keeps_portReg p _ (by decide) (by decide)).comp hk

end
end
end Sys2Proof.Machine
end

section
/-!
PROOF. Measurements of the mean path delay and the messages of PTP (R264 to R270), and the statement O49.
-/
namespace Sys2Proof.Machine

/-! ### A measurement of the mean path delay (R270) -/

section
variable (s : Stage) {p : Nat}

theorem Stage.tpPath_idle (d : Int) (h : s.tpState p ≠ tpSlave) : s.tpPath p d = s := if_pos h

/-- The first measurement is taken as it is. -/
theorem Stage.tpPath_first (d : Int) (h : s.tpState p = tpSlave) (hd : (s.tp p).dbar = none) :
    s.tpPath p d = s.setTp p { s.tp p with dbar := some d } := by
  refine (if_neg (not_not.mpr h)).trans ?_
  dsimp only
  rw [hd]

/-- A measurement may change the port and the servo, and leaves the last time frame of the partner. -/
def Stage.Paths (p : Nat) (s t : Stage) : Prop := Keeps [p, pDatum] [.tports, .datum] s t ∧ (t.tp p).peer = (s.tp p).peer

theorem Stage.Paths.trans {s t u : Stage} (h : Stage.Paths p s t) (h' : Stage.Paths p t u) : Stage.Paths p s u := ⟨h.1.comp h'.1, h'.2.trans h.2⟩

theorem Stage.Served.paths {s t : Stage} (h : s.Served t) : Stage.Paths p s t := by
  obtain ⟨hk, -⟩ := h
  have htports : t.tports = s.tports := hk.2.2 .tports (by simp)
  refine ⟨hk.mono (by simp) (by simp), ?_⟩
  rw [Stage.tp, htports]
  rfl

theorem Stage.paths_setTp {v : TimePort} (hv : v.peer = (s.tp p).peer) : Stage.Paths p s (s.setTp p v) :=
  ⟨s.keeps_setTp p v, (congrArg TimePort.peer (s.tp_setTp_same p v)).trans hv⟩

/-- A path step of `d` is published, and takes the servo of the port to SLEW (R270). -/
def Stage.pathStep (s : Stage) (p : Nat) (d : Int) : Stage :=
  let t := ((s.setN pDatum 0x0CC (nsWord d)).setN pDatum 0x0D0 p).raise pDatum 5
  if t.tpInUse p then t.enterSlew 2 else t

theorem Stage.served_pathStep (d : Int) : s.Served (s.pathStep p d) := by
  have hpub := (s.served_setN (o := 0x0CC) (nsWord d) (by decide) (by decide)).trans (Stage.served_setN _ (o := 0x0D0) p (by decide) (by decide))
  refine (hpub.trans (Stage.served_raise _ (b := 5) (by decide))).trans ?_
  exact iteInduction (fun _ => Stage.served_enterSlew _ 2) fun _ => .refl _

/-- The servo rests at I while a step of the path of its port is not sure (R270). -/
theorem Stage.served_restIf (c : Bool) : s.Served (if c then s.rateToI else s) := iteInduction (fun _ => s.served_rateToI) fun _ => .refl s

theorem Stage.paths_tpPath (d : Int) : Stage.Paths p s (s.tpPath p d) := by
  unfold Stage.tpPath
  refine iteInduction (fun _ => (Stage.Served.refl s).paths) fun _ => ?_
  dsimp only
  split
  · exact s.paths_setTp rfl
  · split
    · exact s.paths_setTp rfl
    · split
      · refine Stage.Paths.trans ?_ (Stage.served_pathStep _ _).paths
        exact s.paths_setTp rfl
      · refine Stage.Paths.trans ?_ (Stage.served_restIf _ _).paths
        exact s.paths_setTp rfl

theorem Stage.keeps_tpPath (d : Int) : Keeps [p, pDatum] [.tports, .datum] s (s.tpPath p d) := (s.paths_tpPath d).1

end
end Sys2Proof.Machine
end

section
/-!
PROOF. The messages of PTP (R264 to R268): what a port makes of each, and the statement O49.
-/
namespace Sys2Proof.Machine

/-! ### A port with a link as a block -/

/-- Only DATUM has the page of DATUM (R548). -/
theorem Live.page_ne_datum {s : State} {k : PageKind} {i : Nat} (h : Live s k i) (hk : k ≠ .datum) : k.page i ≠ pDatum := by
  obtain ⟨-, hpage, -⟩ := h
  intro he
  have hd : pageOf pDatum = some (.datum, 0) := by decide
  rw [he, hd] at hpage
  cases hpage
  exact hk rfl

theorem LiveNet.page_ne {s : State} {n : Nat} (h : LiveNet s n) : pNet n ≠ pDatum := Live.page_ne_datum h.1 (by decide)

section
variable {s : State} {c : Instr} {n : Nat} {f : Stage → Stage} {x : Stage} {P : Stage → Prop}

/-- A command of a port with a link ends as what the port does. -/
theorem done_port (hc : exec c s = s.act fun t => t.netPort n f) (h : LiveNet s n) (hf : f s.stage = x) (hp : P (s.stage.ends x)) : Done c s P :=
  done_act hc h.1.1 (by rwa [Stage.netPort_live s n f h, hf])

theorem Stage.ptpWith_takes {s : Stage} {p : Nat} {m : PtpMsg} (f : Stage → Stage) (he : s.tpEn p = true) (hm : s.ptpMatch p m = true) :
    s.ptpWith p m f = f s := by
  rw [Stage.ptpWith, if_neg (by simp [he]), if_pos hm]

/-- A message that the port takes ends as what the port makes of it (R264). -/
theorem done_message {m : PtpMsg} (hc : exec c s = s.act fun t => t.netPort n fun u => u.ptpWith (pNet n) m f) (h : TakesPtp s n m) (hf : f s.stage = x)
    (hp : P (s.stage.ends x)) : Done c s P := by
  obtain ⟨hlive, he, hm⟩ := h
  exact done_port hc hlive ((Stage.ptpWith_takes f he hm).trans hf) hp

/-- One of which the port makes nothing leaves everything as it is. -/
theorem done_message_idle {m : PtpMsg} (hc : exec c s = s.act fun t => t.netPort n fun u => u.ptpWith (pNet n) m f) (h : TakesPtp s n m)
    (hf : f s.stage = s.stage) : Done c s (Keeps [] [] s.stage) :=
  done_message hc h hf (Keeps.refl _).ends

/-- A message of another domain or profile is counted as discarded (R264). -/
theorem done_message_discarded {m : PtpMsg} (hc : exec c s = s.act fun t => t.netPort n fun u => u.ptpWith (pNet n) m f) (h : LiveNet s n)
    (he : s.stage.tpEn (pNet n) = true) (hm : s.stage.ptpMatch (pNet n) m = false) :
    Done c s (fun t => t.fld (pNet n) 0x31C 15 0 = min 0xFFFF (s.stage.fld (pNet n) 0x31C 15 0 + 1) ∧ t.tp (pNet n) = s.stage.tp (pNet n)
      ∧ t.datum = s.stage.datum) := by
  have hcount : s.stage.ptpWith (pNet n) m f = s.stage.countDiscard (pNet n) := by simp [Stage.ptpWith, he, hm]
  have hlt := bits_lt (s.stage.regN (pNet n) 0x31C) 15 0
  have hfld : (s.stage.countDiscard (pNet n)).fld (pNet n) 0x31C 15 0 = min 0xFFFF (s.stage.fld (pNet n) 0x31C 15 0 + 1) := by
    rw [Stage.countDiscard, Stage.fld_setFld_same _ _ _ _ _ _ (by decide) (by decide), satInc]
    change s.stage.fld (pNet n) 0x31C 15 0 < _ at hlt
    split <;> omega
  refine done_port hc h hcount ?_
  rw [Stage.ends_fld _ _ _ _ (by decide) (by decide), Stage.ends_tp, Stage.ends_datum]
  exact ⟨hfld, rfl, rfl⟩

theorem frame_port {ps : List Nat} {xs : List Part} (hc : ∀ s, exec c s = s.act fun t => t.netPort n f) (hf : ∀ s, Keeps ps xs s (f s)) :
    Frame [c] ps xs :=
  frame_block hc fun s => iteInduction (fun _ => hf s) fun _ => (Keeps.refl s).mono (by simp) (by simp)

end

/-! ### What the port makes of a message -/

section
variable (s : Stage) {p : Nat}

/-- A complete Sync is remembered and its offset published (R267). -/
theorem Stage.syncOffset_last (hp : p ≠ pDatum) (t1 t2 c : Int) :
    ((s.syncOffset p t1 t2 c).tp p).last = some (t1, t2, c) ∧ ((s.syncOffset p t1 t2 c).tp p).sync = none := by
  obtain ⟨d, j, htp⟩ := Stage.tp_tpOffset (s.setTp p { s.tp p with sync := none, last := some (t1, t2, c) }) hp
    (t2 - t1 - c - (s.tp p).dbar.getD 0 - s.asymmetry p)
  have heq : (s.syncOffset p t1 t2 c).tp p = _ := htp
  rw [heq, Stage.tp_setTp_same]
  exact ⟨rfl, rfl⟩

theorem Stage.syncOffset_published (hp : p ≠ pDatum) (t1 t2 c : Int) : (s.syncOffset p t1 t2 c).regN p 0x314
    = toBits 32 (max (-2147483647) (min 2147483647 (Int.fdiv (t2 - t1 - c - (s.tp p).dbar.getD 0 - s.asymmetry p) 256))) :=
  Stage.offset_tpOffset _ hp _

/-- The first measurement of a port in SLAVE (R270). -/
theorem Stage.tp_tpPath_first {v : TimePort} (d : Int) (h : s.tpState p = tpSlave) (hd : v.dbar = none) :
    ((s.setTp p v).tpPath p d).tp p = { v with dbar := some d } := by
  rw [(s.setTp p v).tpPath_first d h (by rw [Stage.tp_setTp_same, hd]), Stage.tp_setTp_same, Stage.tp_setTp_same]

/-- A message of port `p` with a time-stamp, whose FRAC goes to the correctionField (R266). -/
def Stage.stamped (s : Stage) (p seq : Nat) (stamp corr : Int) (twoStep : Bool) : PtpMsg :=
  let (sec, ns, frac) := stampOf stamp
  ⟨s.fld pDatum 0x080 31 24, if s.tpProfile p = 2 then 1 else 0, seq, corr + frac, sec, ns, twoStep⟩

theorem Stage.mem_ptpOut (kind : PtpKind) (seq : Nat) (stamp corr : Int) (twoStep : Bool) :
    Out.ptp p kind (s.stamped p seq stamp corr twoStep) ∈ (s.ptpOut p kind seq stamp corr twoStep).outs := List.mem_cons_self ..

/-- What has left the part stays so. -/
theorem Stage.ptpOut_keeps {o : Out} (h : o ∈ s.outs) (kind : PtpKind) (seq : Nat) (stamp corr : Int) (twoStep : Bool) :
    o ∈ (s.ptpOut p kind seq stamp corr twoStep).outs := List.mem_cons_of_mem _ h

end

section
variable {s : State} {n : Nat} {m : PtpMsg} (h : TakesPtp s n m) {r : Nat}
include h

theorem syncRx_twoStep (hst : s.stage.tpState (pNet n) = tpSlave) (ht : m.twoStep = true) :
    Done (.syncRx n r m) s (fun t => (t.tp (pNet n)).sync = some (m.seq, s.stage.rxStamp (pNet n) r, m.corr)) := by
  refine done_message rfl h ((if_neg (not_not.mpr hst)).trans (if_pos ht)) ?_
  rw [Stage.ends_tp, Stage.tp_setTp_same]

theorem syncRx_oneStep (hst : s.stage.tpState (pNet n) = tpSlave) (ht : m.twoStep = false) :
    Done (.syncRx n r m) s (fun t => (t.tp (pNet n)).last = some (s.stage.origin m, s.stage.rxStamp (pNet n) r, m.corr)
      ∧ (t.tp (pNet n)).sync = none ∧ t.regN (pNet n) 0x314 = toBits 32 (max (-2147483647) (min 2147483647 (Int.fdiv (s.stage.rxStamp (pNet n) r
        - s.stage.origin m - m.corr - (s.stage.tp (pNet n)).dbar.getD 0 - s.stage.asymmetry (pNet n)) 256)))) := by
  refine done_message rfl h ((if_neg (not_not.mpr hst)).trans (if_neg (by simp [ht]))) ?_
  have hp := h.1.page_ne
  obtain ⟨hlast, hsync⟩ := s.stage.syncOffset_last hp (s.stage.origin m) (s.stage.rxStamp (pNet n) r) m.corr
  rw [Stage.ends_tp, Stage.ends_regN _ _ (by decide) (by decide), hlast, hsync, Stage.syncOffset_published _ hp]
  exact ⟨rfl, rfl, rfl⟩

theorem followUpRx_completes {t2 c : Int} (hst : s.stage.tpState (pNet n) = tpSlave) (hs : (s.stage.tp (pNet n)).sync = some (m.seq, t2, c)) :
    Done (.followUpRx n m) s (fun t => (t.tp (pNet n)).last = some (s.stage.origin m, t2, c + m.corr) ∧ (t.tp (pNet n)).sync = none
      ∧ t.regN (pNet n) 0x314 = toBits 32 (max (-2147483647) (min 2147483647 (Int.fdiv (t2 - s.stage.origin m - (c + m.corr)
        - (s.stage.tp (pNet n)).dbar.getD 0 - s.stage.asymmetry (pNet n)) 256)))) := by
  refine done_message (x := s.stage.syncOffset (pNet n) (s.stage.origin m) t2 (c + m.corr)) rfl h ((if_neg (not_not.mpr hst)).trans ?_) ?_
  · rw [hs]
    exact if_pos rfl
  have hp := h.1.page_ne
  obtain ⟨hlast, hsync⟩ := s.stage.syncOffset_last hp (s.stage.origin m) t2 (c + m.corr)
  rw [Stage.ends_tp, Stage.ends_regN _ _ (by decide) (by decide), hlast, hsync, Stage.syncOffset_published _ hp]
  exact ⟨rfl, rfl, rfl⟩

theorem followUpRx_other (hst : s.stage.tpState (pNet n) = tpSlave) (hs : ∀ q t2 c, (s.stage.tp (pNet n)).sync = some (q, t2, c) → q ≠ m.seq) :
    Done (.followUpRx n m) s (fun t => Keeps [] [] s.stage t) := by
  refine done_message_idle rfl h ((if_neg (not_not.mpr hst)).trans ?_)
  cases hsync : (s.stage.tp (pNet n)).sync with
  | none => rfl
  | some e =>
    obtain ⟨q, t2, c⟩ := e
    exact if_neg (hs q t2 c hsync)

theorem syncRx_idle (hst : s.stage.tpState (pNet n) ≠ tpSlave) : Done (.syncRx n r m) s (fun t => Keeps [] [] s.stage t) :=
  done_message_idle rfl h (if_pos hst)

theorem followUpRx_idle (hst : s.stage.tpState (pNet n) ≠ tpSlave) : Done (.followUpRx n m) s (fun t => Keeps [] [] s.stage t) :=
  done_message_idle rfl h (if_pos hst)

theorem delayRespRx_measures {t3 t1 t2 c : Int} (hst : s.stage.tpState (pNet n) = tpSlave) (hreq : (s.stage.tp (pNet n)).req = some (m.seq, t3))
    (hlast : (s.stage.tp (pNet n)).last = some (t1, t2, c)) (hprof : s.stage.tpProfile (pNet n) = 0) (hd : (s.stage.tp (pNet n)).dbar = none) :
    Done (.delayRespRx n m) s (fun t => (t.tp (pNet n)).req = none
      ∧ (t.tp (pNet n)).dbar = some (Int.fdiv ((t2 - t1 - c) + (s.stage.origin m - t3 - m.corr)) 2)) := by
  refine done_message (x := (s.stage.setTp (pNet n) { s.stage.tp (pNet n) with req := none }).tpPath (pNet n)
    (Int.fdiv ((t2 - t1 - c) + (s.stage.origin m - t3 - m.corr)) 2)) rfl h ?_ ?_
  · dsimp only
    rw [hreq, hlast]
    exact if_pos ⟨rfl, hst, hprof⟩
  · rw [Stage.ends_tp, s.stage.tp_tpPath_first _ hst]
    exacts [⟨rfl, rfl⟩, hd]

theorem pdelayRespRx_measures {t1 : Int} (hst : s.stage.tpState (pNet n) = tpSlave) (hreq : (s.stage.tp (pNet n)).req = some (m.seq, t1))
    (ht : m.twoStep = false) (hd : (s.stage.tp (pNet n)).dbar = none) : Done (.pdelayRespRx n r m) s (fun t => (t.tp (pNet n)).req = none
      ∧ (t.tp (pNet n)).dbar = some (Int.fdiv (s.stage.rxStamp (pNet n) r - t1 - m.corr) 2)) := by
  refine done_message (x := (s.stage.setTp (pNet n) { s.stage.tp (pNet n) with req := none }).tpPath (pNet n)
    (Int.fdiv (s.stage.rxStamp (pNet n) r - t1 - m.corr) 2)) rfl h ?_ ?_
  · dsimp only
    rw [hreq]
    exact (if_neg (not_not.mpr rfl)).trans (if_neg (by simp [ht]))
  · rw [Stage.ends_tp, s.stage.tp_tpPath_first _ hst]
    exacts [⟨rfl, rfl⟩, hd]

theorem pdelayRespRx_waits {t1 : Int} (hreq : (s.stage.tp (pNet n)).req = some (m.seq, t1)) (ht : m.twoStep = true) :
    Done (.pdelayRespRx n r m) s (fun t => (t.tp (pNet n)).presp = some (m.seq, s.stage.origin m, s.stage.rxStamp (pNet n) r, m.corr)) := by
  refine done_message (x := s.stage.setTp (pNet n) { s.stage.tp (pNet n) with
    presp := some (m.seq, s.stage.origin m, s.stage.rxStamp (pNet n) r, m.corr) }) rfl h ?_ ?_
  · dsimp only
    rw [hreq]
    exact (if_neg (not_not.mpr rfl)).trans (if_pos ht)
  · rw [Stage.ends_tp, Stage.tp_setTp_same]

theorem pdelayRespFollowUpRx_measures {t1 t2 t4 c : Int} (hst : s.stage.tpState (pNet n) = tpSlave)
    (hreq : (s.stage.tp (pNet n)).req = some (m.seq, t1)) (hresp : (s.stage.tp (pNet n)).presp = some (m.seq, t2, t4, c))
    (hd : (s.stage.tp (pNet n)).dbar = none) : Done (.pdelayRespFollowUpRx n m) s (fun t => (t.tp (pNet n)).req = none ∧ (t.tp (pNet n)).presp = none
      ∧ (t.tp (pNet n)).dbar = some (Int.fdiv ((t4 - t1) - (s.stage.origin m - t2) - c - m.corr) 2)) := by
  refine done_message (x := (s.stage.setTp (pNet n) { s.stage.tp (pNet n) with req := none, presp := none }).tpPath (pNet n)
    (Int.fdiv ((t4 - t1) - (s.stage.origin m - t2) - c - m.corr) 2)) rfl h ?_ ?_
  · dsimp only
    rw [hreq, hresp]
    exact if_pos ⟨rfl, rfl⟩
  · rw [Stage.ends_tp, s.stage.tp_tpPath_first _ hst]
    exacts [⟨rfl, rfl, rfl⟩, hd]

theorem delayReqRx_answers (hst : s.stage.tpState (pNet n) = tpMaster) (hprof : s.stage.tpProfile (pNet n) = 0) :
    Done (.delayReqRx n r m) s (fun t => ∃ x, Out.ptp (pNet n) .delayResp x ∈ t.outs ∧ x.seq = m.seq
      ∧ x.sec = (s.stage.rxStamp (pNet n) r).toNat / unitsPerSec % 2 ^ 48 ∧ x.ns = (s.stage.rxStamp (pNet n) r).toNat / unit % 1000000000
      ∧ x.corr = m.corr - ((s.stage.rxStamp (pNet n) r).toNat % unit : Nat)) := by
  refine done_message rfl h (if_pos ⟨hst, hprof⟩) ⟨_, Stage.ends_outs _ _ (Stage.mem_ptpOut ..), rfl, rfl, rfl, ?_⟩
  dsimp only [Stage.stamped, stampOf]
  omega

theorem pdelayReqRx_oneStep {r' : Nat} (ho : s.stage.tpOneStep (pNet n) = true) :
    Done (.pdelayReqRx n r r' m) s (fun t => Out.ptp (pNet n) .pdelayResp
      { m with corr := m.corr + (s.stage.txStamp (pNet n) r' - s.stage.rxStamp (pNet n) r), sec := 0, ns := 0, twoStep := false } ∈ t.outs) :=
  done_message rfl h (if_pos ho) (Stage.ends_outs _ _ (List.mem_cons_self ..))

theorem pdelayReqRx_twoStep {r' : Nat} (ho : s.stage.tpOneStep (pNet n) = false) :
    Done (.pdelayReqRx n r r' m) s (fun t => ∃ x y, Out.ptp (pNet n) .pdelayResp x ∈ t.outs ∧ Out.ptp (pNet n) .pdelayRespFollowUp y ∈ t.outs
      ∧ x.seq = m.seq ∧ x.twoStep = true ∧ y.seq = m.seq) := by
  exact done_message rfl h (if_neg (by simp [ho])) ⟨_, _, Stage.ends_outs _ _ (Stage.ptpOut_keeps _ (Stage.mem_ptpOut ..) ..),
    Stage.ends_outs _ _ (Stage.mem_ptpOut ..), rfl, rfl, rfl⟩

end
end Sys2Proof.Machine
end

section
/-!
PROOF. What a port sends (R268), what PTP may change, and the statement O49.
-/
namespace Sys2Proof.Machine

/-! ### Sync, Delay_Req and Pdelay_Req sent -/

/-- The port once its next Sync is numbered. -/
def Stage.syncNumbered (s : Stage) (p : Nat) : Stage := s.setTp p { s.tp p with seqSync := ((s.tp p).seqSync + 1) % 65536 }

/-- A message of port `p` without a time-stamp. -/
def Stage.unstamped (s : Stage) (p seq : Nat) (twoStep : Bool) : PtpMsg :=
  ⟨s.fld pDatum 0x080 31 24, if s.tpProfile p = 2 then 1 else 0, seq, 0, 0, 0, twoStep⟩

/-- The port once its next request is numbered and remembered. -/
def Stage.reqNumbered (s : Stage) (p r : Nat) : Stage :=
  let q := ((s.tp p).seqReq + 1) % 65536
  s.setTp p { s.tp p with seqReq := q, req := some (q, s.txStamp p r), presp := none }

section
variable (s : Stage) {p r : Nat}

theorem Stage.syncSend_oneStep (he : s.tpEn p = true) (hst : s.tpState p = tpMaster) (ho : s.tpOneStep p = true) :
    s.syncSend p r = (s.syncNumbered p).ptpOut p .sync (((s.tp p).seqSync + 1) % 65536) (s.txStamp p r) 0 false :=
  (if_pos (by simp [he, hst])).trans (if_pos ho)

theorem Stage.syncSend_twoStep (he : s.tpEn p = true) (hst : s.tpState p = tpMaster) (ho : s.tpOneStep p = false) :
    s.syncSend p r = ((s.syncNumbered p).emit (.ptp p .sync (s.unstamped p (((s.tp p).seqSync + 1) % 65536) true))).ptpOut p .followUp
      (((s.tp p).seqSync + 1) % 65536) (s.txStamp p r) 0 false :=
  (if_pos (by simp [he, hst])).trans (if_neg (Bool.eq_false_iff.mp ho))

theorem Stage.syncSend_idle (hst : s.tpState p ≠ tpMaster) : s.syncSend p r = s := if_neg (by simp [hst])

theorem Stage.delayReqSend_slave (he : s.tpEn p = true) (hst : s.tpState p = tpSlave) : s.delayReqSend p r
    = (s.reqNumbered p r).emit (.ptp p (if s.tpProfile p = 0 then .delayReq else .pdelayReq) (s.unstamped p (((s.tp p).seqReq + 1) % 65536) false)) := by
  have hkind : (if (s.tpProfile p != 0) = true then PtpKind.pdelayReq else .delayReq) = if s.tpProfile p = 0 then .delayReq else .pdelayReq := by
    by_cases hprof : s.tpProfile p = 0 <;> simp [hprof]
  rw [← hkind]
  exact if_pos (by simp [he, hst, tpSlave])

end

section
variable {s : State} {n r : Nat} (h : LiveNet s n) (he : s.stage.tpEn (pNet n) = true)
include h he

theorem ptpSyncSend_sends (hst : s.stage.tpState (pNet n) = tpMaster) :
    Done (.ptpSyncSend n r) s (fun t => (t.tp (pNet n)).seqSync = ((s.stage.tp (pNet n)).seqSync + 1) % 65536
      ∧ (∃ x, Out.ptp (pNet n) .sync x ∈ t.outs ∧ x.seq = (t.tp (pNet n)).seqSync ∧ x.twoStep = !s.stage.tpOneStep (pNet n))
      ∧ (s.stage.tpOneStep (pNet n) = false → ∃ x, Out.ptp (pNet n) .followUp x ∈ t.outs ∧ x.seq = (t.tp (pNet n)).seqSync)) := by
  have hseq : ((s.stage.syncNumbered (pNet n)).tp (pNet n)).seqSync = ((s.stage.tp (pNet n)).seqSync + 1) % 65536 :=
    congrArg TimePort.seqSync (s.stage.tp_setTp_same _ _)
  cases ho : s.stage.tpOneStep (pNet n) with
  | true =>
    refine done_port rfl h (s.stage.syncSend_oneStep he hst ho) ?_
    rw [Stage.ends_tp]
    exact ⟨hseq, ⟨_, Stage.ends_outs _ _ (Stage.mem_ptpOut ..), hseq.symm, rfl⟩, fun hc => absurd hc.symm Bool.false_ne_true⟩
  | false =>
    refine done_port rfl h (s.stage.syncSend_twoStep he hst ho) ?_
    rw [Stage.ends_tp]
    exact ⟨hseq, ⟨_, Stage.ends_outs _ _ (Stage.ptpOut_keeps _ (List.mem_cons_self ..) ..), hseq.symm, rfl⟩,
      fun _ => ⟨_, Stage.ends_outs _ _ (Stage.mem_ptpOut ..), hseq.symm⟩⟩

omit he in
theorem ptpSyncSend_idle (hst : s.stage.tpState (pNet n) ≠ tpMaster) : Done (.ptpSyncSend n r) s (fun t => Keeps [] [] s.stage t) :=
  done_port rfl h (s.stage.syncSend_idle hst) (Keeps.refl _).ends

theorem ptpDelayReqSend_sends (hst : s.stage.tpState (pNet n) = tpSlave) :
    Done (.ptpDelayReqSend n r) s (fun t => (t.tp (pNet n)).req = some (((s.stage.tp (pNet n)).seqReq + 1) % 65536, s.stage.txStamp (pNet n) r)
      ∧ (t.tp (pNet n)).presp = none
      ∧ ∃ x, Out.ptp (pNet n) (if s.stage.tpProfile (pNet n) = 0 then .delayReq else .pdelayReq) x ∈ t.outs ∧ x.seq = (t.tp (pNet n)).seqReq) := by
  have htp : (s.stage.reqNumbered (pNet n) r).tp (pNet n) = _ := s.stage.tp_setTp_same _ _
  refine done_port rfl h (s.stage.delayReqSend_slave he hst) ?_
  rw [Stage.ends_tp]
  exact ⟨congrArg TimePort.req htp, congrArg TimePort.presp htp, _, Stage.ends_outs _ _ (List.mem_cons_self ..), (congrArg TimePort.seqReq htp).symm⟩

end

/-! ### Frames -/

section
variable (s : Stage) {p : Nat} (m : PtpMsg)

theorem Stage.keeps_ptpOut (kind : PtpKind) (seq : Nat) (stamp corr : Int) (twoStep : Bool) :
    Keeps [p, pDatum] [.tports, .datum] s (s.ptpOut p kind seq stamp corr twoStep) := s.keeps_portOut p _

theorem Stage.keeps_ptpWith {f : Stage → Stage} (hf : Keeps [p, pDatum] [.tports, .datum] s (f s)) :
    Keeps [p, pDatum] [.tports, .datum] s (s.ptpWith p m f) :=
  iteInduction (fun _ => s.keeps_port p) fun _ => iteInduction (fun _ => hf) fun _ => s.keeps_portReg p _ (by decide) (by decide)

theorem Stage.keeps_setTpPath (v : TimePort) (d : Int) : Keeps [p, pDatum] [.tports, .datum] s ((s.setTp p v).tpPath p d) :=
  (s.keeps_setTp p v).comp (Stage.keeps_tpPath _ d)

theorem Stage.keeps_delayReqRx (r : Nat) : Keeps [p, pDatum] [.tports, .datum] s (s.delayReqRx p r m) :=
  s.keeps_ptpWith m (iteInduction (fun _ => s.keeps_ptpOut _ _ _ _ _) fun _ => s.keeps_port p)

theorem Stage.keeps_delayRespRx : Keeps [p, pDatum] [.tports, .datum] s (s.delayRespRx p m) := by
  refine s.keeps_ptpWith m ?_
  dsimp only
  split
  · exact iteInduction (fun _ => s.keeps_setTpPath _ _) fun _ => s.keeps_port p
  · exact s.keeps_port p

theorem Stage.keeps_pdelayReqRx (r r' : Nat) : Keeps [p, pDatum] [.tports, .datum] s (s.pdelayReqRx p r r' m) :=
  s.keeps_ptpWith m (iteInduction (fun _ => s.keeps_portOut p _) fun _ => (s.keeps_ptpOut _ _ _ _ _).comp (Stage.keeps_ptpOut _ _ _ _ _ _))

theorem Stage.keeps_pdelayRespRx (r : Nat) : Keeps [p, pDatum] [.tports, .datum] s (s.pdelayRespRx p r m) := by
  refine s.keeps_ptpWith m ?_
  dsimp only
  split
  · exact s.keeps_port p
  · exact iteInduction (fun _ => s.keeps_port p) fun _ => iteInduction (fun _ => s.keeps_setTp p _) fun _ => s.keeps_setTpPath _ _

theorem Stage.keeps_pdelayFollowUpRx : Keeps [p, pDatum] [.tports, .datum] s (s.pdelayFollowUpRx p m) := by
  refine s.keeps_ptpWith m ?_
  dsimp only
  split
  · exact iteInduction (fun _ => s.keeps_setTpPath _ _) fun _ => s.keeps_port p
  · exact s.keeps_port p

theorem Stage.keeps_syncSend (r : Nat) : Keeps [p, pDatum] [.tports, .datum] s (s.syncSend p r) := by
  refine iteInduction (fun _ => Keeps.comp (t := s.syncNumbered p) (s.keeps_setTp p _) ?_) fun _ => s.keeps_port p
  exact iteInduction (fun _ => Stage.keeps_ptpOut _ _ _ _ _ _) fun _ => (Stage.keeps_portOut _ p _).comp (Stage.keeps_ptpOut _ _ _ _ _ _)

theorem Stage.keeps_delayReqSend (r : Nat) : Keeps [p, pDatum] [.tports, .datum] s (s.delayReqSend p r) :=
  iteInduction (fun _ => (s.keeps_setTp p _).comp (Stage.keeps_portOut _ p _)) fun _ => s.keeps_port p

variable (hp : p ≠ pDatum)
include hp

theorem Stage.keeps_syncOffset (t1 t2 c : Int) : Keeps [p, pDatum] [.tports, .datum] s (s.syncOffset p t1 t2 c) :=
  (s.keeps_setTp p _).comp (Stage.keeps_tpOffset _ hp _)

theorem Stage.keeps_syncRx (r : Nat) : Keeps [p, pDatum] [.tports, .datum] s (s.syncRx p r m) :=
  s.keeps_ptpWith m <| iteInduction (fun _ => s.keeps_port p) fun _ => iteInduction (fun _ => s.keeps_setTp p _) fun _ => s.keeps_syncOffset hp _ _ _

theorem Stage.keeps_followUpRx : Keeps [p, pDatum] [.tports, .datum] s (s.followUpRx p m) := by
  refine s.keeps_ptpWith m (iteInduction (fun _ => s.keeps_port p) fun _ => ?_)
  split
  · exact s.keeps_port p
  · exact iteInduction (fun _ => s.keeps_syncOffset hp _ _ _) fun _ => s.keeps_port p

end

theorem ptpMessages_frame {n : Nat} (hn : n < 8) (m : PtpMsg) (r r' : Nat) :
    Frame [.syncRx n r m, .followUpRx n m, .delayReqRx n r m, .delayRespRx n m, .pdelayReqRx n r r' m, .pdelayRespRx n r m,
      .pdelayRespFollowUpRx n m, .ptpSyncSend n r, .ptpDelayReqSend n r] [pNet n, pDatum] [.tports, .datum] :=
  have hp : pNet n ≠ pDatum := by unfold pNet pDatum; omega
  frame_cons (frame_port (f := fun t => t.syncRx (pNet n) r m) (fun _ => rfl) fun s => s.keeps_syncRx m hp r) <|
  frame_cons (frame_port (f := fun t => t.followUpRx (pNet n) m) (fun _ => rfl) fun s => s.keeps_followUpRx m hp) <|
  frame_cons (frame_port (f := fun t => t.delayReqRx (pNet n) r m) (fun _ => rfl) fun s => s.keeps_delayReqRx m r) <|
  frame_cons (frame_port (f := fun t => t.delayRespRx (pNet n) m) (fun _ => rfl) fun s => s.keeps_delayRespRx m) <|
  frame_cons (frame_port (f := fun t => t.pdelayReqRx (pNet n) r r' m) (fun _ => rfl) fun s => s.keeps_pdelayReqRx m r r') <|
  frame_cons (frame_port (f := fun t => t.pdelayRespRx (pNet n) r m) (fun _ => rfl) fun s => s.keeps_pdelayRespRx m r) <|
  frame_cons (frame_port (f := fun t => t.pdelayFollowUpRx (pNet n) m) (fun _ => rfl) fun s => s.keeps_pdelayFollowUpRx m) <|
  frame_cons (frame_port (f := fun t => t.syncSend (pNet n) r) (fun _ => rfl) fun s => s.keeps_syncSend r) <|
  frame_port (f := fun t => t.delayReqSend (pNet n) r) (fun _ => rfl) fun s => s.keeps_delayReqSend r

/-- Each message of PTP that comes to an enabled port goes through the same test (R264). -/
theorem messages_discarded {s : State} {n : Nat} {m : PtpMsg} (h : LiveNet s n) (he : s.stage.tpEn (pNet n) = true)
    (hm : s.stage.ptpMatch (pNet n) m = false) (r r' : Nat) :
    ∀ c ∈ [Instr.syncRx n r m, .followUpRx n m, .delayReqRx n r m, .delayRespRx n m, .pdelayReqRx n r r' m, .pdelayRespRx n r m,
        .pdelayRespFollowUpRx n m],
      Done c s (fun t => t.fld (pNet n) 0x31C 15 0 = min 0xFFFF (s.stage.fld (pNet n) 0x31C 15 0 + 1) ∧ t.tp (pNet n) = s.stage.tp (pNet n)
        ∧ t.datum = s.stage.datum) := by
  simp only [List.forall_mem_cons, List.not_mem_nil, false_imp_iff, implies_true, and_true]
  exact ⟨done_message_discarded rfl h he hm, done_message_discarded rfl h he hm, done_message_discarded rfl h he hm,
    done_message_discarded rfl h he hm, done_message_discarded rfl h he hm, done_message_discarded rfl h he hm, done_message_discarded rfl h he hm⟩

/-- Settles O49, by what a port makes of each message and sends, and the frame of the time ports and the servo. -/
theorem ptpMessages : Obligations.PtpMessages := by
  unfold Obligations.PtpMessages
  rintro s n _ m rfl
  refine ⟨messages_discarded, fun h r => ⟨fun hst => ?_, fun hst => ⟨syncRx_idle h hst, followUpRx_idle h hst⟩, fun t1 => pdelayRespRx_waits h,
    delayReqRx_answers h, fun r' => pdelayReqRx_oneStep h, fun r' => pdelayReqRx_twoStep h⟩,
    fun h he r => ⟨ptpSyncSend_sends h he, ptpSyncSend_idle h, ptpDelayReqSend_sends h he⟩, fun r r' hn => ptpMessages_frame hn m r r'⟩
  exact ⟨syncRx_twoStep h hst, syncRx_oneStep h hst, fun t2 c => followUpRx_completes h hst, followUpRx_other h hst,
    fun t3 t1 t2 c => delayRespRx_measures h hst, fun t1 => pdelayRespRx_measures h hst, fun t1 t2 t4 c => pdelayRespFollowUpRx_measures h hst⟩

end Sys2Proof.Machine
end

section
/-!
PROOF. Writes of a time port's registers and the time frames of Islos (R269 to R273, R287, R288, R418), and the statement O50.
-/
namespace Sys2Proof.Machine

/-! ### TP_CTRL, ASYMMETRY and TP_LAT_ADJ (R269, R288) -/

section
variable {s : Stage} {p old : Nat}

theorem Stage.tpCtrlWritten_other (h : s.tpState p ≠ tpSlave) : s.tpCtrlWritten p old = s.setTp p { s.tp p with held := [], jumps := 0 } := if_pos h

theorem Stage.tpCtrlWritten_enters (h : s.tpState p = tpSlave) (ho : bits old 6 4 ≠ tpSlave) : s.tpCtrlWritten p old
    = s.setTp p { s.tp p with dbar := none, held := [], jumps := 0, delivered := none, sync := none, last := none } :=
  (if_neg (not_not.mpr h)).trans (if_pos ho)

theorem Stage.tpCtrlWritten_stays (h : s.tpState p = tpSlave) (ho : bits old 6 4 = tpSlave) : s.tpCtrlWritten p old = s :=
  (if_neg (not_not.mpr h)).trans (if_neg (not_not.mpr ho))

/-- The effect of TP_CTRL leaves the registers. -/
theorem Stage.tpCtrlWritten_reg (q x : Nat) : (s.tpCtrlWritten p old).reg q x = s.reg q x :=
  iteInduction (motive := fun t : Stage => t.reg q x = s.reg q x) (fun _ => rfl) fun _ =>
    iteInduction (motive := fun t : Stage => t.reg q x = s.reg q x) (fun _ => rfl) fun _ => rfl

theorem Stage.asymWritten_eq : s.asymWritten p = { s with datum := { s.datum with asym := s.datum.asym || s.tpInUse p } } := by
  unfold Stage.asymWritten
  cases h : s.tpInUse p with
  | true => rw [if_pos rfl, Bool.or_true]
  | false => rw [if_neg Bool.false_ne_true, Bool.or_false]

/-- A register other than TP_CTRL and DATUM_CTRL leaves the sources of the servo as they are. -/
theorem Stage.tpInUse_congr {t : Stage} (hst : ∀ q, t.reg q 0x300 = s.reg q 0x300) (hsrc : t.reg pDatum 0x080 = s.reg pDatum 0x080)
    (hd : t.datum = s.datum) : t.tpInUse p = s.tpInUse p := by
  have hstate : t.tpState = s.tpState := funext fun q => Stage.fld_congr (hst q) 6 4
  have hsource : t.tpSource p = s.tpSource p := by rw [Stage.tpSource, Stage.tpSource, hstate, Stage.fld_congr hsrc]
  rw [Stage.tpInUse, Stage.tpInUse, hsource, hd]

theorem Stage.tp_wrote (s : Stage) (k : PageKind) (i off n p : Nat) : (s.wrote k i off n).tp p = s.tp p := by
  obtain ⟨_, h⟩ := s.wrote_frame k i off n
  rw [h]
  rfl

end

section
variable {s : State} {m : Master} {k : PageKind} {i v : Nat} (hk : k = .net ∨ k = .link)
include hk

theorem tpCtrlWrite_sets (h : Passes s m k i 0x300 v) : Done (.tpCtrlWrite m (k.page i) v) s (fun t => Written s k i 0x300 v t
    ∧ (t.tpState (k.page i) ≠ tpSlave → t.tp (k.page i) = { s.stage.tp (k.page i) with held := [], jumps := 0 })
    ∧ (t.tpState (k.page i) = tpSlave → s.stage.tpState (k.page i) ≠ tpSlave → (t.tp (k.page i)).dbar = none ∧ (t.tp (k.page i)).held = [])
    ∧ (t.tpState (k.page i) = tpSlave → s.stage.tpState (k.page i) = tpSlave → t.tp (k.page i) = s.stage.tp (k.page i))) := by
  have hplain : plainReg k 0x300 = true := by rcases hk with rfl | rfl <;> rfl
  have heffect : ∀ x : Stage, x.written k i 0x300 (s.stage.regN (k.page i) 0x300) (regWord k i 0x300 v)
      = x.tpCtrlWritten (k.page i) (s.stage.regN (k.page i) 0x300) := by rcases hk with rfl | rfl <;> exact fun _ => rfl
  refine done_passes h hplain rfl ?_
  rw [heffect]
  set x := s.stage.wrote k i 0x300 v with hx
  set p := k.page i with hp
  have hreg := x.tpCtrlWritten_reg (p := p) (old := s.stage.regN p 0x300) p 0x300
  have hstate : (s.stage.ends ((x.tpCtrlWritten p (s.stage.regN p 0x300)).respond .okay)).tpState p = x.tpState p :=
    (Stage.ends_fld _ _ _ _ (by decide) (by decide)).trans (Stage.fld_congr hreg 6 4)
  have htp : x.tp p = s.stage.tp p := s.stage.tp_wrote ..
  have hend : (s.stage.ends ((x.tpCtrlWritten p (s.stage.regN p 0x300)).respond .okay)).tp p = (x.tpCtrlWritten p (s.stage.regN p 0x300)).tp p :=
    Stage.ends_tp _ _ p
  rw [hstate, hend]
  refine ⟨written_of_kept h hplain hreg, fun hst => ?_, fun hst ho => ?_, fun hst ho => ?_⟩
  · rw [Stage.tpCtrlWritten_other hst, Stage.tp_setTp_same, htp]
  · rw [Stage.tpCtrlWritten_enters hst ho, Stage.tp_setTp_same]
    exact ⟨rfl, rfl⟩
  · rw [Stage.tpCtrlWritten_stays hst ho, htp]

theorem asymmetryWrite_marks (adj : Bool) (h : Passes s m k i (if adj then 0x30C else 0x308) v) :
    Done (.asymmetryWrite m (k.page i) adj v) s (fun t => Written s k i (if adj then 0x30C else 0x308) v t
      ∧ t.datum = { s.stage.datum with asym := s.stage.datum.asym || s.stage.tpInUse (k.page i) }) := by
  generalize hoff : (if adj then 0x30C else 0x308) = off at h ⊢
  have hplain : plainReg k off = true := by rcases hk with rfl | rfl <;> cases adj <;> subst hoff <;> rfl
  have heffect : ∀ x : Stage, x.written k i off (s.stage.regN (k.page i) off) (regWord k i off v) = x.asymWritten (k.page i) := by
    rcases hk with rfl | rfl <;> cases adj <;> subst hoff <;> exact fun _ => rfl
  have hne : ∀ q y, y < 4096 → y ≠ 0x308 → y ≠ 0x30C → (s.stage.wrote k i off v).reg q y = s.stage.reg q y := by
    intro q y hy h8 hC
    refine s.stage.reg_store_other _ ?_
    cases adj <;> subst hoff <;> simp only [if_true, if_false, Bool.false_eq_true] <;> omega
  have hexec : exec (.asymmetryWrite m (k.page i) adj v) s = s.act fun t => t.access m (k.page i) off v := by rw [← hoff]; rfl
  refine done_passes h hplain hexec ?_
  have huse : (s.stage.wrote k i off v).tpInUse (k.page i) = s.stage.tpInUse (k.page i) :=
    Stage.tpInUse_congr (fun q => hne q 0x300 (by decide) (by decide) (by decide)) (hne _ 0x080 (by decide) (by decide) (by decide)) (s.stage.datum_wrote ..)
  rw [heffect, Stage.asymWritten_eq, huse]
  refine ⟨written_of_kept h hplain rfl, ?_⟩
  rw [Stage.ends_datum, ← s.stage.datum_wrote k i off v]
  rfl

end

/-! ### Time frames (R272, R418) -/

section
variable (s : Stage) {p r : Nat}

/-- The port once a frame is remembered. -/
def Stage.frameSeen (s : Stage) (p r : Nat) (dep : Int) : Stage := s.setTp p { s.tp p with peer := some (dep, s.rxStamp p r) }

/-- The part once the frame has measured the path, where it brings an instant of this end. -/
def Stage.framePath (s : Stage) (p r : Nat) (dep od oa : Int) : Stage :=
  if od = 0 then s.frameSeen p r dep else (s.frameSeen p r dep).tpPath p (Int.fdiv ((s.rxStamp p r - dep) + (oa - od)) 2)

theorem Stage.timeFrameSend_on (he : s.tpEn p = true) : s.timeFrameSend p r = (s.setTp p { s.tp p with req := some (0, s.txStamp p r) }).emit
    (.timeFrame p (s.txStamp p r) ((s.tp p).peer.getD (0, 0)).1 ((s.tp p).peer.getD (0, 0)).2) := if_pos he

theorem Stage.timeFrameRx_other (dep od oa : Int) (he : s.tpEn p = true) (hst : s.tpState p ≠ tpSlave) :
    s.timeFrameRx p r dep od oa = s.frameSeen p r dep := (if_pos he).trans (if_neg hst)

theorem Stage.timeFrameRx_slave (dep od oa : Int) (he : s.tpEn p = true) (hst : s.tpState p = tpSlave) : s.timeFrameRx p r dep od oa
    = (s.framePath p r dep od oa).tpOffset p (s.rxStamp p r - dep - ((s.framePath p r dep od oa).tp p).dbar.getD 0
      - (s.framePath p r dep od oa).asymmetry p) := (if_pos he).trans (if_pos hst)

theorem Stage.paths_framePath (dep od oa : Int) : Stage.Paths p (s.frameSeen p r dep) (s.framePath p r dep od oa) :=
  iteInduction (fun _ => (Stage.Served.refl _).paths) fun _ => Stage.paths_tpPath _ _

theorem Stage.peer_framePath (dep od oa : Int) : ((s.framePath p r dep od oa).tp p).peer = some (dep, s.rxStamp p r) :=
  (s.paths_framePath dep od oa).2.trans (congrArg TimePort.peer (s.tp_setTp_same p _))

theorem Stage.dbar_framePath {dep od oa : Int} (hst : s.tpState p = tpSlave) (hod : od ≠ 0) (hd : (s.tp p).dbar = none) :
    ((s.framePath p r dep od oa).tp p).dbar = some (Int.fdiv ((s.rxStamp p r - dep) + (oa - od)) 2) := by
  have hfirst : s.framePath p r dep od oa = (s.frameSeen p r dep).tpPath p (Int.fdiv ((s.rxStamp p r - dep) + (oa - od)) 2) := if_neg hod
  rw [hfirst, Stage.frameSeen, s.tp_tpPath_first _ hst]
  exact hd

theorem Stage.keeps_timeFrameSend : Keeps [p, pDatum] [.tports, .datum] s (s.timeFrameSend p r) :=
  iteInduction (fun _ => (s.keeps_setTp p _).comp (Stage.keeps_portOut _ p _)) fun _ => s.keeps_port p

theorem Stage.keeps_timeFrameRx (hp : p ≠ pDatum) (dep od oa : Int) : Keeps [p, pDatum] [.tports, .datum] s (s.timeFrameRx p r dep od oa) := by
  refine iteInduction (fun _ => Keeps.comp (t := s.frameSeen p r dep) (s.keeps_setTp p _) ?_) fun _ => s.keeps_port p
  refine iteInduction (fun _ => ?_) fun _ => Stage.keeps_port _ p
  exact (s.paths_framePath dep od oa).1.comp (Stage.keeps_tpOffset _ hp _)

end

section
variable {s : State} {n r : Nat} (h : Live s .link n) (he : s.stage.tpEn (pLink n) = true)
include h he

theorem timeFrameSend_leaves : Done (.timeFrameSend n r) s (fun t => Out.timeFrame (pLink n) (s.stage.txStamp (pLink n) r)
    (((s.stage.tp (pLink n)).peer.getD (0, 0)).1) (((s.stage.tp (pLink n)).peer.getD (0, 0)).2) ∈ t.outs
    ∧ (t.tp (pLink n)).req = some (0, s.stage.txStamp (pLink n) r)) := by
  refine done_block (f := fun t => t.timeFrameSend (pLink n) r) rfl h ?_
  rw [s.stage.timeFrameSend_on he, Stage.ends_tp]
  exact ⟨Stage.ends_outs _ _ (List.mem_cons_self ..), congrArg TimePort.req (s.stage.tp_setTp_same _ _)⟩

theorem timeFrameRx_remembered (dep od oa : Int) : Done (.timeFrameRx n r dep od oa) s (fun t =>
    (t.tp (pLink n)).peer = some (dep, s.stage.rxStamp (pLink n) r)
    ∧ (s.stage.tpState (pLink n) ≠ tpSlave → t.datum = s.stage.datum)
    ∧ (s.stage.tpState (pLink n) = tpSlave → od ≠ 0 → (s.stage.tp (pLink n)).dbar = none →
        (t.tp (pLink n)).dbar = some (Int.fdiv ((s.stage.rxStamp (pLink n) r - dep) + (oa - od)) 2))) := by
  refine done_block (f := fun t => t.timeFrameRx (pLink n) r dep od oa) rfl h ?_
  rw [Stage.ends_tp, Stage.ends_datum]
  have hp : pLink n ≠ pDatum := h.page_ne_datum (by decide)
  by_cases hst : s.stage.tpState (pLink n) = tpSlave
  · obtain ⟨d, j, htp⟩ := Stage.tp_tpOffset (s.stage.framePath (pLink n) r dep od oa) hp (s.stage.rxStamp (pLink n) r - dep
      - ((s.stage.framePath (pLink n) r dep od oa).tp (pLink n)).dbar.getD 0 - (s.stage.framePath (pLink n) r dep od oa).asymmetry (pLink n))
    rw [s.stage.timeFrameRx_slave dep od oa he hst, htp]
    exact ⟨s.stage.peer_framePath dep od oa, fun hne => absurd hst hne, fun hst hod hd => s.stage.dbar_framePath hst hod hd⟩
  · rw [s.stage.timeFrameRx_other dep od oa he hst]
    exact ⟨congrArg TimePort.peer (s.stage.tp_setTp_same _ _), fun _ => rfl, fun hs => absurd hs hst⟩

end

theorem timeFrames_frame {n : Nat} (hn : n < 4) (r : Nat) (dep od oa : Int) :
    Frame [.timeFrameSend n r, .timeFrameRx n r dep od oa] [pLink n, pDatum] [.tports, .datum] :=
  have hp : pLink n ≠ pDatum := by unfold pLink pDatum; omega
  frame_cons (frame_block (f := fun t => t.timeFrameSend (pLink n) r) (fun _ => rfl) fun s => s.keeps_timeFrameSend) <|
  frame_block (f := fun t => t.timeFrameRx (pLink n) r dep od oa) (fun _ => rfl) fun s => s.keeps_timeFrameRx hp dep od oa

/-- Settles O50, by the effects of the three registers and what a time frame leaves of the port. -/
theorem timePorts : Obligations.TimePorts := by
  unfold Obligations.TimePorts
  exact ⟨fun s m k i v hk => ⟨tpCtrlWrite_sets hk, fun adj => asymmetryWrite_marks hk adj⟩,
    fun s n r h he => ⟨timeFrameSend_leaves h he, timeFrameRx_remembered h he⟩, fun n r dep od oa hn => timeFrames_frame hn r dep od oa⟩

end Sys2Proof.Machine
end

section
/-!
PROOF. The audio frames of a link (R405, R410, R414): a block is sent in all the groups of TX_COUNT only while they fit the link, which the transmitter
judges as it sends; the statement O53 leaves this out.
-/
namespace Sys2Proof.Machine

/-- Link 0 has one lane up at 1.25 Gbaud and 128 transmit channels, two groups, which fit it at 48 kHz; the engine rate is 192 kHz, and LINK_STAT does not
show SHED yet. -/
def crowdedLink : Stage :=
  let powered := ({} : Stage).setN pPower 0x090 0xFFFF
  let fast := powered.setN 0 0x088 5
  let up := (fast.setLaneState 0 lnUp).setFld (pLink 0) 0x084 1 0 3
  up.setFld (pLink 0) 0x088 28 16 128

/-- An audio frame of group `g`. -/
def Out.isGroup (g : Nat) : Out → Bool
  | .audio _ h _ _ _ _ => h == g
  | _ => false

theorem live_crowdedLink : Live { stage := crowdedLink } .link 0 := ⟨by decide, by decide, by decide⟩

/-- What the statement asks of the link and its block, and that group 1 is one of its groups. -/
theorem crowdedLink_sends : 2 ≤ crowdedLink.linkState 0 ∧ 0 % crowdedLink.blockOf 0 = 0
    ∧ (∀ j, j < crowdedLink.blockOf 0 → (crowdedLink.handedAt (0 + j)).isSome = true) ∧ crowdedLink.flag (pLink 0) 0x084 19 = false
    ∧ 1 < groupsOf (crowdedLink.txCount 0) := by decide

/-- Group 1 does not fit at 192 kHz, and is not sent (R414). -/
theorem crowdedLink_sheds : (crowdedLink.ends (crowdedLink.audioSend 0 0)).outs.any (Out.isGroup 1) = false := by decide +kernel

/-- Refutes O53: its clause on the frames of a block takes the SHED bit as it stands before the send, but R414 has the transmitter judge the fit when it
sends; after a rise of the engine rate a link whose channels have stopped fitting sends the groups that fit alone. -/
theorem not_links : ¬ Obligations.Links := by
  unfold Obligations.Links
  rintro ⟨-, hlive, -⟩
  obtain ⟨haudio, -⟩ := hlive _ 0 live_crowdedLink
  obtain ⟨hup, hblock, hhanded, hshed, hgroup⟩ := crowdedLink_sends
  obtain ⟨t, ht, -, silent, held, vals, hout, -⟩ := haudio 0 hup hblock hhanded hshed 1 hgroup
  have hstage : t.stage = crowdedLink.ends (crowdedLink.audioSend 0 0) := by
    have hexec : exec (.audioBlockSend 0 0) { stage := crowdedLink } = State.act { stage := crowdedLink } fun u => u.block .link 0 (·.audioSend 0 0) := rfl
    rw [hexec, State.act_up _ _ live_crowdedLink.1, Stage.block_live _ .link 0 _ live_crowdedLink] at ht
    cases ht
    rfl
  rw [hstage] at hout
  have hsent := List.any_eq_true.mpr ⟨_, hout, (rfl : Out.isGroup 1 (.audio 0 1 (0 % 2 ^ 32) silent held vals) = true)⟩
  rw [crowdedLink_sheds] at hsent
  exact Bool.false_ne_true hsent

end Sys2Proof.Machine
end

section
/-!
PROOF. Tableaux (R308 to R317, R323, R324): what a capture records, the triggers that lead to one, the extended copy and the acknowledgement; the
statement O41.
-/
namespace Sys2Proof.Machine

/-! ### What a frame says of the ring and of a page -/

section
variable {ps : List Nat} {xs : List Part} {s t : Stage} (h : Keeps ps xs s t)
include h

theorem Keeps.reg {p o : Nat} (hp : p ∉ ps) (ho : o < 4096) (hn : o ≠ 0x014) : t.reg p o = s.reg p o := h.1 p o hp ho hn

theorem Keeps.part {x : Part} (hx : x ∉ xs) : x.same s t := h.2.2 x hx

/-- A frame without SYS, the waiting records and the errors of memory keeps the ring. -/
theorem Keeps.sameRing (hp : 0 ∉ ps) (hr : Part.ring ∉ xs) (he : Part.ecc ∉ xs) : s.SameRing t :=
  ⟨fun _ ho hn => h.reg hp ho hn, (h.part hr).1, h.part he⟩

end

theorem Stage.keeps_complete (s : Stage) (p : Nat) (c : Cmd) (st : Nat) (w : Word) : Keeps [0] [.ring, .mem] s (s.complete p c st w) :=
  s.keeps_putRecord _

/-! ### A capture (R309, R311) -/

theorem pTab_mem_allPages : pTab ∈ allPages := by decide

/-- Every page of a list has been given `v`. -/
theorem Tab.get_foldl_put {α : Type} [DecidableEq α] (d v : α) {k : Nat} : ∀ (l : List Nat) (t : Tab α), k ∈ l ∨ Tab.get d t k = v →
    Tab.get d (l.foldl (fun x p => Tab.put d x p v) t) k = v := by
  intro l
  induction l with
  | nil => exact fun t h => h.resolve_left List.not_mem_nil
  | cons p l ih =>
    intro t h
    refine ih _ ?_
    by_cases hk : k = p
    · exact .inr (hk ▸ Tab.get_put_self d v t p)
    · refine h.imp (fun hm => (List.mem_cons.mp hm).resolve_left hk) fun hv => ?_
      rw [Tab.get_put_other d d v t hk, hv]

section
variable (s : Stage)

/-- TABLEAU_ID of the next capture (R309). -/
def Stage.nextTab : Nat := (Tab.get 0 s.tab.ids pTab + 1) % 2 ^ 32

theorem Stage.nextTab_congr {s u : Stage} (h : u.tab = s.tab) : u.nextTab = s.nextTab := by rw [Stage.nextTab, Stage.nextTab, h]

/-- The extended copy is asked for while one is in progress (R314). -/
def Stage.extBusy : Bool := s.flag pTab 0x080 4 && s.tab.ext.isSome

/-- The powered blocks capture in sample `n` (R309, R312). -/
def Stage.tabCaptured (n : Nat) : Stage :=
  { s.draw.2 with tab := { s.tab with
      last := some s.datum.raw
      ids := (allPages.filter s.powered).foldl (fun x p => Tab.put 0 x p s.nextTab) s.tab.ids
      snaps := (allPages.filter s.powered).foldl (fun x p => Tab.put [] x p (s.draw.2.snapOf s.draw.1 n p)) s.tab.snaps
      ext := if s.flag pTab 0x080 4 && !s.tab.ext.isSome then some (s.nextTab, s.draw.2.extWords s.draw.1) else s.tab.ext } }

/-- The registers of a capture at `t` in sample `n` by source `src` (R311). -/
def Stage.tabStamped (t n src : Nat) (busy : Bool) : Stage :=
  ((((s.setN pTab 0x088 (t % 65536)).setN pTab 0x08C (t / 65536 % 1000000000)).set64 pTab 0x090 (t / unitsPerSec)).set64 pTab 0x098 n).setN
    pTab 0x084 (src * 16 + (if busy then 4 else 0) + 1)

/-- The capture event, before it that of a copy that is not made (R310, R314). -/
def Stage.tabRaised (busy : Bool) : Stage := (if busy then (s.bump pTab 0x0A8).raise pTab 2 else s).raise pTab 0

/-- A capture is made of these three, and announced where TABLEAU_OUT is enabled. -/
theorem Stage.tabTake_eq (t n src : Nat) : s.tabTake t n src =
    (let x := ((s.tabCaptured n).tabStamped t n src s.extBusy).tabRaised s.extBusy
     if x.flag pTab 0x080 2 then x.emit (.tableauOut (10 * x.fld pTab 0x0B0 7 0)) else x) := rfl

theorem Stage.ids_tabCaptured (n : Nat) (hp : s.powered pTab = true) : Tab.get 0 (s.tabCaptured n).tab.ids pTab = s.nextTab :=
  Tab.get_foldl_put 0 s.nextTab _ _ (.inl (List.mem_filter.mpr ⟨pTab_mem_allPages, hp⟩))

theorem Stage.tab_tabRaised (busy : Bool) : (s.tabRaised busy).tab = s.tab := by cases busy <;> rfl

theorem Stage.reg_tabRaised {busy : Bool} {o : Nat} (h : o < 0x0A8) (hn : o ≠ 0x014) : (s.tabRaised busy).reg pTab o = s.reg pTab o := by
  cases busy with
  | false => exact s.reg_raise_other _ (by omega)
  | true =>
    exact ((Stage.reg_raise_other _ _ (by omega)).trans (Stage.reg_raise_other _ _ (by omega))).trans (s.reg_bump_other (by omega))

theorem Stage.stat_tabStamped (t n src : Nat) (busy : Bool) :
    (s.tabStamped t n src busy).regN pTab 0x084 = (src * 16 + (if busy then 4 else 0) + 1) % 2 ^ 32 := Stage.regN_setN_same ..

theorem Stage.index_tabStamped (t n src : Nat) (busy : Bool) : (s.tabStamped t n src busy).reg64 pTab 0x098 = n % 2 ^ 64 := by
  have hlo : (s.tabStamped t n src busy).regN pTab 0x098 = n % 2 ^ 32 :=
    (Stage.regN_setN_other _ _ (by decide)).trans ((Stage.regN_setN_other _ _ (by decide)).trans (Stage.regN_setN_same ..))
  have hhi : (s.tabStamped t n src busy).regN pTab 0x09C = n / 2 ^ 32 % 2 ^ 32 :=
    (Stage.regN_setN_other _ _ (by decide)).trans (Stage.regN_setN_same ..)
  rw [Stage.reg64, hlo, hhi]
  omega

/-! ### What triggers stay within -/

/-- From `s` to `t` a tableau trigger may have been taken: registers of TABLEAU, its captures and draws may have changed. -/
def Stage.Triggered (s t : Stage) : Prop := Keeps [pTab] [.tab, .free] s t

theorem Stage.triggered_setN {o : Nat} (n : Nat) (ho : o < 4096) (hn : o ≠ 0x014) : s.Triggered (s.setN pTab o n) :=
  (s.keeps_setN n ho hn).mono (by simp) (by simp)

theorem Stage.triggered_set64 {o : Nat} (n : Nat) (ho : o + 4 < 4096) (hn : o ≠ 0x014) (hn' : o + 4 ≠ 0x014) : s.Triggered (s.set64 pTab o n) :=
  (s.triggered_setN n (by omega) hn).comp (Stage.triggered_setN _ _ ho hn')

theorem Stage.triggered_raise {b : Nat} (hb : b < 32) : s.Triggered (s.raise pTab b) := (s.keeps_raise pTab hb).mono (by simp) (by simp)

theorem Stage.triggered_tabCaptured (n : Nat) : s.Triggered (s.tabCaptured n) := by
  refine ⟨fun _ _ _ _ _ => rfl, fun _ _ h => h, fun x hx => ?_⟩
  cases x with
  | tab | free => simp at hx
  | _ => simp [Part.same, Stage.tabCaptured, Stage.draw]

theorem Stage.triggered_tabStamped (t n src : Nat) (busy : Bool) : s.Triggered (s.tabStamped t n src busy) :=
  ((((s.triggered_setN _ (by decide) (by decide)).comp (Stage.triggered_setN _ _ (by decide) (by decide))).comp
    (Stage.triggered_set64 _ _ (by decide) (by decide) (by decide))).comp (Stage.triggered_set64 _ _ (by decide) (by decide) (by decide))).comp
      (Stage.triggered_setN _ _ (by decide) (by decide))

theorem Stage.triggered_tabRaised (busy : Bool) : s.Triggered (s.tabRaised busy) := by
  cases busy with
  | false => exact s.triggered_raise (by decide)
  | true =>
    exact ((s.triggered_setN _ (by decide) (by decide)).comp (Stage.triggered_raise _ (by decide))).comp (Stage.triggered_raise _ (by decide))

theorem Stage.triggered_emit (o : Out) : s.Triggered (s.emit o) := (s.keeps_emit o).mono (by simp) (by simp)

theorem Stage.triggered_tabTake (t n src : Nat) : s.Triggered (s.tabTake t n src) := by
  have hbody := ((s.triggered_tabCaptured n).comp (Stage.triggered_tabStamped _ t n src s.extBusy)).comp (Stage.triggered_tabRaised _ s.extBusy)
  rw [Stage.tabTake_eq]
  exact iteInduction (fun _ => hbody.comp (Stage.triggered_emit _ _)) fun _ => hbody

/-! ### What a capture leaves (R309 to R311) -/

section
variable {s}

/-- What stands after a capture in sample `n` by source `src`. -/
structure Stage.Taken (s : Stage) (n src : Nat) (u : Stage) : Prop where
  triggered : s.Triggered u
  id : Tab.get 0 u.tab.ids pTab = s.nextTab
  last : u.tab.last = some s.datum.raw
  timed : u.tab.timed = s.tab.timed
  msgs : u.tab.msgs = s.tab.msgs
  stat : ∃ copy, (copy = 0 ∨ copy = 4) ∧ u.regN pTab 0x084 = (src * 16 + copy + 1) % 2 ^ 32
  index : u.reg64 pTab 0x098 = n % 2 ^ 64
  event : Raises pTab 0 u

theorem Stage.taken_tabTake (t n src : Nat) (hp : s.powered pTab = true) : s.Taken n src (s.tabTake t n src) := by
  set x := ((s.tabCaptured n).tabStamped t n src s.extBusy).tabRaised s.extBusy
  have hcases : s.tabTake t n src = x ∨ ∃ o, s.tabTake t n src = x.emit o := by
    rw [Stage.tabTake_eq]
    exact iteInduction (motive := fun y => y = x ∨ ∃ o, y = x.emit o) (fun _ => .inr ⟨_, rfl⟩) fun _ => .inl rfl
  have htab : (s.tabTake t n src).tab = (s.tabCaptured n).tab := by
    rcases hcases with h | ⟨o, h⟩ <;> rw [h] <;> exact Stage.tab_tabRaised _ _
  have hreg : ∀ p o, (s.tabTake t n src).reg p o = x.reg p o := fun p o => by
    rcases hcases with h | ⟨_, h⟩
    · rw [h]
    · rw [h]; rfl
  have hstamp : ∀ o, o < 0x0A8 → o ≠ 0x014 →
      (s.tabTake t n src).reg pTab o = ((s.tabCaptured n).tabStamped t n src s.extBusy).reg pTab o := fun o ho hn =>
    (hreg pTab o).trans (Stage.reg_tabRaised _ ho hn)
  refine ⟨s.triggered_tabTake t n src, ?_, ?_, ?_, ?_, ⟨if s.extBusy then 4 else 0, ?_, ?_⟩, ?_, ?_⟩
  · rw [htab, s.ids_tabCaptured n hp]
  · rw [htab]; rfl
  · rw [htab]; rfl
  · rw [htab]; rfl
  · cases s.extBusy <;> simp
  · rw [Stage.regN_congr (hstamp 0x084 (by decide) (by decide)), Stage.stat_tabStamped]
  · rw [Stage.reg64_congr (hstamp 0x098 (by decide) (by decide)) (hstamp 0x09C (by decide) (by decide)), Stage.index_tabStamped]
  · exact (Stage.flag_congr (hreg pTab 0x014) 0).trans (Stage.raise_sets _ pTab 0 (by decide))

theorem Stage.Taken.unread {n src : Nat} {u : Stage} (h : s.Taken n src u) : u.flag pTab 0x084 0 = true := by
  obtain ⟨copy, hcopy, hstat⟩ := h.stat
  rw [Stage.flag, hstat, bit, beq_iff_eq]
  omega

theorem Stage.Taken.source {n src : Nat} {u : Stage} (h : s.Taken n src u) (hsrc : src < 16) : u.fld pTab 0x084 7 4 = src := by
  obtain ⟨copy, hcopy, hstat⟩ := h.stat
  rw [Stage.fld, hstat, bits]
  omega

end

/-! ### A trigger (R310) -/

section
variable {s} (t n src : Nat)

theorem Stage.tabTrigger_captured (h : s.tabOut = .captured) : s.tabTrigger t n src = (.captured, s.tabTake t n src) := by
  rw [Stage.tabTrigger, h]

theorem Stage.tabTrigger_merged (h : s.tabOut = .merged) : s.tabTrigger t n src = (.merged, s.bump pTab 0x0A4) := by
  rw [Stage.tabTrigger, h]

theorem Stage.tabTrigger_kept (h : s.tabOut = .kept) : s.tabTrigger t n src = (.kept, (s.bump pTab 0x0A4).raise pTab 3) := by
  rw [Stage.tabTrigger, h]

theorem Stage.triggered_missed : s.Triggered (s.bump pTab 0x0A4) := s.triggered_setN _ (by decide) (by decide)

theorem Stage.triggered_kept : s.Triggered ((s.bump pTab 0x0A4).raise pTab 3) := s.triggered_missed.comp (Stage.triggered_raise _ (by decide))

theorem Stage.triggered_tabTrigger : s.Triggered (s.tabTrigger t n src).2 := by
  cases h : s.tabOut with
  | captured => exact Stage.tabTrigger_captured t n src h ▸ s.triggered_tabTake t n src
  | merged => exact Stage.tabTrigger_merged t n src h ▸ s.triggered_missed
  | kept => exact Stage.tabTrigger_kept t n src h ▸ s.triggered_kept

/-- A trigger that captures nothing is counted, and a dropped one raises its event (R310). -/
theorem Stage.tabTrigger_missed (h : s.tabOut ≠ .captured) : (s.tabTrigger t n src).2.tab = s.tab
    ∧ (s.tabTrigger t n src).2.regN pTab 0x0A4 = min 0xFFFFFFFF (s.regN pTab 0x0A4 + 1)
    ∧ (s.tabOut = .kept → Raises pTab 3 (s.tabTrigger t n src).2) := by
  cases ho : s.tabOut with
  | captured => exact absurd ho h
  | merged =>
    rw [Stage.tabTrigger_merged t n src ho]
    exact ⟨rfl, s.regN_bump_same _ _, nofun⟩
  | kept =>
    rw [Stage.tabTrigger_kept t n src ho]
    exact ⟨rfl, (Stage.regN_congr (Stage.reg_raise_other _ _ (by decide))).trans (s.regN_bump_same _ _), fun _ => Stage.raise_sets _ pTab 3 (by decide)⟩

end

/-! ### TABLEAU_IN (R308) -/

theorem Stage.tabEdge_off {r : Nat} {rising : Bool} (h : s.flag pTab 0x080 0 = false ∨ rising = s.flag pTab 0x080 1) :
    s.tabEdge r rising = s.tick r := by
  have hoff : ((s.tick r).flag pTab 0x080 0 && (rising != (s.tick r).flag pTab 0x080 1)) = false := by
    change (s.flag pTab 0x080 0 && (rising != s.flag pTab 0x080 1)) = false
    rcases h with h | h <;> simp [h]
  rw [Stage.tabEdge, hoff]
  rfl

theorem Stage.tabEdge_on {r : Nat} {rising : Bool} (h : s.flag pTab 0x080 0 = true) (h' : rising ≠ s.flag pTab 0x080 1) :
    s.tabEdge r rising = ((s.tick r).tabTrigger (s.tick r).now (s.tick r).datum.index 1).2 := by
  have hon : ((s.tick r).flag pTab 0x080 0 && (rising != (s.tick r).flag pTab 0x080 1)) = true := by
    change (s.flag pTab 0x080 0 && (rising != s.flag pTab 0x080 1)) = true
    simpa [h] using h'
  rw [Stage.tabEdge, hon]
  rfl

theorem Stage.keeps_tabEdge (r : Nat) (rising : Bool) : Keeps [pTab] [.tab, .datum, .free] s (s.tabEdge r rising) := by
  have htick : Keeps [pTab] [.tab, .datum, .free] s (s.tick r) := (s.keeps_datum _).mono (by simp) (by simp)
  unfold Stage.tabEdge
  exact iteInduction (fun _ => htick.comp ((Stage.triggered_tabTrigger _ _ _).mono (by simp) (by simp))) fun _ => htick

end

section
variable {s : State} {r : Nat} {rising : Bool} (hup : s.stage.dieUp = true)
include hup

theorem tableauInEdge_off (h : s.stage.flag pTab 0x080 0 = false ∨ rising = s.stage.flag pTab 0x080 1) :
    Done (.tableauInEdge r rising) s (fun t => t.tab = s.stage.tab ∧ t.datum.raw = max s.stage.datum.raw r) := by
  refine done_act (f := fun s => s.tabEdge r rising) rfl hup ?_
  rw [s.stage.tabEdge_off h, Stage.ends_tab, Stage.ends_datum]
  exact ⟨rfl, rfl⟩

variable (hon : s.stage.flag pTab 0x080 0 = true) (hedge : rising ≠ s.stage.flag pTab 0x080 1)
include hon hedge

theorem tableauInEdge_captures (hp : s.stage.powered pTab = true) (h : (s.stage.tick r).tabOut = .captured) :
    Done (.tableauInEdge r rising) s (fun t => Tab.get 0 t.tab.ids pTab = s.stage.nextTab ∧ t.tab.last = some (max s.stage.datum.raw r)
      ∧ t.flag pTab 0x084 0 = true ∧ t.fld pTab 0x084 7 4 = 1 ∧ t.reg64 pTab 0x098 = s.stage.datum.index % 2 ^ 64 ∧ Raises pTab 0 t) := by
  have htaken := Stage.taken_tabTake (s := s.stage.tick r) (s.stage.tick r).now (s.stage.tick r).datum.index 1 hp
  refine done_act (f := fun s => s.tabEdge r rising) rfl hup ?_
  rw [s.stage.tabEdge_on hon hedge, Stage.tabTrigger_captured _ _ _ h, Stage.ends_tab, Stage.ends_flag _ _ _ (by decide) (by decide),
    Stage.ends_fld _ _ _ _ (by decide) (by decide), Stage.ends_reg64 _ _ (by decide) (by decide) (by decide)]
  exact ⟨htaken.id, htaken.last, htaken.unread, htaken.source (by decide), htaken.index, Stage.ends_event _ _ htaken.event⟩

theorem tableauInEdge_misses (h : (s.stage.tick r).tabOut ≠ .captured) :
    Done (.tableauInEdge r rising) s (fun t => t.tab = s.stage.tab ∧ t.regN pTab 0x0A4 = min 0xFFFFFFFF (s.stage.regN pTab 0x0A4 + 1)
      ∧ ((s.stage.tick r).tabOut = .kept → Raises pTab 3 t)) := by
  obtain ⟨htab, hcount, hevent⟩ := Stage.tabTrigger_missed (s.stage.tick r).now (s.stage.tick r).datum.index 1 h
  refine done_act (f := fun s => s.tabEdge r rising) rfl hup ?_
  rw [s.stage.tabEdge_on hon hedge, Stage.ends_tab, Stage.ends_regN _ _ (by decide) (by decide)]
  exact ⟨htab, hcount, fun hk => Stage.ends_event _ _ (hevent hk)⟩

end

/-! ### The TRIGGER command (R316, R324) -/

section
variable {s : Stage} {c : Cmd}

/-- A command's trigger and the record it completes with. -/
theorem Stage.tabCommand_captured (t : Nat) (h : s.tabOut = .captured) (hp : s.powered pTab = true) :
    s.tabCommand c t = (s.tabTake t s.datum.index 2).complete pTab c stDone (Word.ofNat (Tab.get 0 s.tab.ids pTab + 1)) := by
  have hid : Word.ofNat (Tab.get 0 (s.tabTake t s.datum.index 2).tab.ids pTab) = Word.ofNat (Tab.get 0 s.tab.ids pTab + 1) := by
    rw [(s.taken_tabTake t s.datum.index 2 hp).id]
    exact BitVec.eq_of_toNat_eq (by simp [Stage.nextTab])
  rw [Stage.tabCommand, Stage.tabTrigger_captured _ _ _ h, ← hid]

theorem Stage.tabCommand_merged (t : Nat) (h : s.tabOut = .merged) :
    s.tabCommand c t = (s.bump pTab 0x0A4).complete pTab c stDone (Word.ofNat (Tab.get 0 s.tab.ids pTab)) := by
  rw [Stage.tabCommand, Stage.tabTrigger_merged _ _ _ h]
  rfl

theorem Stage.tabCommand_kept (t : Nat) (h : s.tabOut = .kept) :
    s.tabCommand c t = ((s.bump pTab 0x0A4).raise pTab 3).complete pTab c stRefused 0#32 := by
  rw [Stage.tabCommand, Stage.tabTrigger_kept _ _ _ h]

theorem Stage.keeps_tabCommand (t : Nat) : Keeps [0, pTab] [.tab, .free, .ring, .mem] s (s.tabCommand c t) := by
  have htrig : Keeps [0, pTab] [.tab, .free, .ring, .mem] s (s.tabTrigger t s.datum.index 2).2 :=
    (s.triggered_tabTrigger t s.datum.index 2).mono (by simp) (by simp)
  unfold Stage.tabCommand
  generalize s.tabTrigger t s.datum.index 2 = x at htrig ⊢
  obtain ⟨o, u⟩ := x
  cases o <;> exact htrig.comp ((Stage.keeps_complete _ _ _ _ _).mono (by simp) (by simp))

variable (hcode : c.code = 1)
include hcode

theorem Stage.tabCmd_now (ht : bit c.a0.toNat 0 = false) (hl : ∀ n, n < 4 → s.flag pTab 0x080 (8 + n) = false) :
    s.tabCmd c = s.tabCommand c s.now := by
  have hlinks : ((upTo 4).filter fun n => s.flag pTab 0x080 (8 + n)) = [] :=
    List.filter_eq_nil_iff.mpr fun n hn => by simp [hl n (mem_upTo.mp hn)]
  simp [Stage.tabCmd, hcode, ht, hlinks]

variable (ht : bit c.a0.toNat 0 = true)
include ht

theorem Stage.tabCmd_refused (h : s.tab.timed.isSome = true ∨ 1000000000 ≤ bits c.a2.toNat 29 0) :
    s.tabCmd c = s.complete pTab c stRefused 0#32 := by
  simp [Stage.tabCmd, hcode, ht, h]

variable (hn : s.tab.timed = none) (hns : bits c.a2.toNat 29 0 < 1000000000)
include hn hns

theorem Stage.tabCmd_expired (h : s.datumArg c.a1.toNat c.a2.toNat < s.now) : s.tabCmd c = s.complete pTab c stExpired 0#32 := by
  simp [Stage.tabCmd, hcode, ht, hn, Nat.not_le.mpr hns, h]

theorem Stage.tabCmd_waits (h : s.now ≤ s.datumArg c.a1.toNat c.a2.toNat) :
    s.tabCmd c = { s with tab := { s.tab with timed := some (s.datumArg c.a1.toNat c.a2.toNat, c) } } := by
  simp [Stage.tabCmd, hcode, ht, hn, Nat.not_le.mpr hns, Nat.not_lt.mpr h]

end

/-! ### The arguments of a command -/

section
variable (s : Stage) (m : Master) (p code : Nat) (x y z : Word)

theorem argKey_ne {p : Nat} {m : Master} {i j : Nat} (h : i ≠ j) : argKey p m i ≠ argKey p m j := by
  unfold argKey
  omega

theorem Stage.issuedCmd_args : (s.issuedCmd m p code [x, y, z]).a0 = x ∧ (s.issuedCmd m p code [x, y, z]).a1 = y
    ∧ (s.issuedCmd m p code [x, y, z]).a2 = z := by
  refine ⟨?_, ?_, Tab.get_put_self ..⟩
  · exact (Tab.get_put_other 0#32 0#32 z _ (argKey_ne (i := 0) (j := 2) (by decide))).trans
      ((Tab.get_put_other 0#32 0#32 y _ (argKey_ne (i := 0) (j := 1) (by decide))).trans (Tab.get_put_self ..))
  · exact (Tab.get_put_other 0#32 0#32 z _ (argKey_ne (i := 1) (j := 2) (by decide))).trans (Tab.get_put_self ..)

end

/-- What a field of a word argument reads. -/
theorem bits_toNat_ofNat (n : Nat) {hi lo : Nat} (h : hi < 32) (hl : lo ≤ hi) : bits (Word.ofNat n).toNat hi lo = bits n hi lo := by
  rw [Word.toNat_ofNat]
  refine Nat.eq_of_testBit_eq fun i => ?_
  simp only [bits, Nat.testBit_mod_two_pow, Nat.testBit_div_two_pow]
  by_cases hi' : i < hi + 1 - lo
  · rw [decide_eq_true (show i + lo < 32 by omega), Bool.true_and]
  · rw [decide_eq_false hi', Bool.false_and, Bool.false_and]

theorem bit_toNat_ofNat (n : Nat) {i : Nat} (h : i < 32) : bit (Word.ofNat n).toNat i = bit n i := by
  rw [bit_eq_bits, bit_eq_bits, bits_toNat_ofNat n h (Nat.le_refl i)]

/-- What a command is issued in has the tableau, the datum and every register as they were. -/
theorem Stage.Issued.tabState {s u : Stage} (h : s.Issued u) : u.tab = s.tab ∧ u.tabOut = s.tabOut ∧ u.now = s.now
    ∧ (∀ a b, u.datumArg a b = s.datumArg a b) ∧ ∀ p o i, u.flag p o i = s.flag p o i := by
  obtain ⟨_, _, _, _, rfl⟩ := h
  exact ⟨rfl, rfl, rfl, fun _ _ => rfl, fun _ _ _ => rfl⟩

section
variable {s : Stage} {m : Master} {a0 a1 a2 : Nat} {c : Cmd}
  (hc : c = s.issuedCmd m pTab 1 [Word.ofNat a0, Word.ofNat a1, Word.ofNat a2])
include hc

theorem trigger_code : c.code = 1 := hc ▸ rfl

/-- The TIMED bit as the command holds it. -/
theorem trigger_timed : bit c.a0.toNat 0 = bit a0 0 := by
  obtain ⟨ha0, -⟩ := s.issuedCmd_args m pTab 1 (Word.ofNat a0) (Word.ofNat a1) (Word.ofNat a2)
  rw [hc, ha0, bit_toNat_ofNat a0 (by decide)]

theorem trigger_nanoseconds : bits c.a2.toNat 29 0 = bits a2 29 0 := by
  obtain ⟨-, -, ha2⟩ := s.issuedCmd_args m pTab 1 (Word.ofNat a0) (Word.ofNat a1) (Word.ofNat a2)
  rw [hc, ha2, bits_toNat_ofNat a2 (by decide) (by decide)]

theorem trigger_datum {u : Stage} (hu : s.Issued u) : u.datumArg c.a1.toNat c.a2.toNat = s.datumArg (a1 % 2 ^ 32) (a2 % 2 ^ 32) := by
  obtain ⟨-, ha1, ha2⟩ := s.issuedCmd_args m pTab 1 (Word.ofNat a0) (Word.ofNat a1) (Word.ofNat a2)
  obtain ⟨-, -, -, harg, -⟩ := hu.tabState
  rw [harg, hc, ha1, ha2, Word.toNat_ofNat, Word.toNat_ofNat]

end

/-! ### A TRIGGER on an idle page -/

/-- The part with its response set. -/
def Stage.withBus (s : Stage) (b : BusOut) : Stage := { s with bus := b }

theorem Stage.tab_ends_withBus (s t : Stage) (b : BusOut) : (s.ends (t.withBus b)).tab = t.tab := Stage.ends_tab ..

theorem Stage.reg_ends_withBus (s t : Stage) (b : BusOut) {p o : Nat} (ho : o < 4096) (hn : o ≠ 0x014) :
    (s.ends (t.withBus b)).reg p o = t.reg p o := Stage.ends_reg _ _ ho hn

theorem Recorded.ends_withBus {x t : Stage} {p : Nat} {c : Cmd} {st : Nat} {w : Word} (h : Recorded x p c st w t) (s : Stage) (b : BusOut) :
    Recorded x p c st w (s.ends (t.withBus b)) :=
  Recorded.ends (t := t.withBus b) (h.congr rfl rfl rfl) s

/-- A completed command of TABLEAU leaves its record, and the tableau as it stood. -/
theorem Stage.tab_completed {x v : Stage} (hx : RingFree x) (hv : x.SameRing v) (c : Cmd) {st : Nat} (w : Word) (hst : st < 256) :
    (v.complete pTab c st w).tab = v.tab ∧ (∀ o, o < 4096 → o ≠ 0x014 → (v.complete pTab c st w).reg pTab o = v.reg pTab o)
      ∧ Recorded x pTab c st w (v.complete pTab c st w) :=
  have hkeep := v.keeps_complete pTab c st w
  ⟨hkeep.part (x := .tab) (by decide), fun _ ho hn => hkeep.reg (by decide) ho hn, Stage.recorded_complete hx hv pTab c w hst⟩

section
variable {s : State} {m : Master} {a0 a1 a2 : Nat} {c : Cmd} (h : Ready s pTab)
  (hc : c = s.stage.issuedCmd m pTab 1 [Word.ofNat a0, Word.ofNat a1, Word.ofNat a2])
include h hc

/-- It starts at once, in a state that differs in the commands and the response alone. -/
theorem done_trigger {P : Stage → Prop}
    (hp : ∀ u, s.stage.Issued u → P (s.stage.ends ((u.tabCmd c).withBus { resp := .okay, data := [] }))) : Done (.trigger m a0 a1 a2) s P := by
  refine done_act (f := fun s => s.cmdWith m pTab 1 [Word.ofNat a0, Word.ofNat a1, Word.ofNat a2]) rfl h.1 ?_
  rw [h.cmdWith m (by decide) _ (k := .tableau) (i := 0) rfl (by decide)]
  exact hc ▸ hp _ (h.issued m (by decide) _)

theorem trigger_waits (ht : bit a0 0 = true) (hn : s.stage.tab.timed = none) (hns : bits a2 29 0 < 1000000000) {d : Nat}
    (hd : d = s.stage.datumArg (a1 % 2 ^ 32) (a2 % 2 ^ 32)) (hlate : s.stage.now ≤ d) :
    Done (.trigger m a0 a1 a2) s (fun t => t.tab = { s.stage.tab with timed := some (d, c) }) := by
  refine done_trigger h hc fun u hu => ?_
  obtain ⟨htab, -, hnow, -⟩ := hu.tabState
  have hdatum := (trigger_datum hc hu).trans hd.symm
  rw [Stage.tabCmd_waits (trigger_code hc) ((trigger_timed hc).trans ht) (by rw [htab, hn])
    (by rwa [trigger_nanoseconds hc]) (by rwa [hdatum, hnow]), Stage.tab_ends_withBus, hdatum, htab]

variable (hring : RingFree s.stage)
include hring

section
variable (ht : bit a0 0 = false) (hl : ∀ n, n < 4 → s.stage.flag pTab 0x080 (8 + n) = false)
include ht hl

/-- One that names no datum, with no link to tell, is taken at its acceptance: `y` is what the trigger leaves. -/
theorem trigger_now {P : Stage → Prop} {st : Nat} (hst : st < 256) {w : Word} {f : Stage → Stage}
    (hf : ∀ u, s.stage.Issued u → u.Triggered (f u) ∧ u.tabCommand c u.now = (f u).complete pTab c st w)
    (hp : ∀ u t, s.stage.Issued u → t.tab = (f u).tab → (∀ o, o < 4096 → o ≠ 0x014 → t.reg pTab o = (f u).reg pTab o) →
      Recorded s.stage pTab c st w t → P t) : Done (.trigger m a0 a1 a2) s P := by
  refine done_trigger h hc fun u hu => ?_
  obtain ⟨-, -, -, -, hflag⟩ := hu.tabState
  obtain ⟨hkeep, hcomplete⟩ := hf u hu
  obtain ⟨htab, hreg, hrec⟩ := Stage.tab_completed hring (hu.sameRing.trans (hkeep.sameRing (by decide) (by decide) (by decide))) c w hst
  rw [Stage.tabCmd_now (trigger_code hc) ((trigger_timed hc).trans ht) fun n hn => (hflag ..).trans (hl n hn), hcomplete]
  exact hp u _ hu ((Stage.tab_ends_withBus ..).trans htab) (fun o ho hn => (Stage.reg_ends_withBus _ _ _ ho hn).trans (hreg o ho hn))
    (hrec.ends_withBus _ _)

theorem trigger_captures (hp : s.stage.powered pTab = true) (ho : s.stage.tabOut = .captured) : Done (.trigger m a0 a1 a2) s (fun t =>
    Tab.get 0 t.tab.ids pTab = s.stage.nextTab ∧ t.flag pTab 0x084 0 = true ∧ t.fld pTab 0x084 7 4 = 2
      ∧ Recorded s.stage pTab c stDone (Word.ofNat (Tab.get 0 s.stage.tab.ids pTab + 1)) t) := by
  refine trigger_now h hc hring ht hl (st := stDone) (by decide)
    (w := Word.ofNat (Tab.get 0 s.stage.tab.ids pTab + 1)) (f := fun u => u.tabTake u.now u.datum.index 2) (fun u hu => ?_)
    fun u t hu htab hreg hrec => ?_
  · obtain ⟨hsame, hout, -⟩ := hu.tabState
    exact ⟨u.triggered_tabTake .., hsame ▸ Stage.tabCommand_captured _ (hout.trans ho) ((hu.powered pTab).trans hp)⟩
  · obtain ⟨hsame, -⟩ := hu.tabState
    have htaken := Stage.taken_tabTake u.now u.datum.index 2 ((hu.powered pTab).trans hp)
    rw [htab, Stage.flag_congr (hreg 0x084 (by decide) (by decide)), Stage.fld_congr (hreg 0x084 (by decide) (by decide))]
    exact ⟨htaken.id.trans (Stage.nextTab_congr hsame), htaken.unread, htaken.source (by decide), hrec⟩

theorem trigger_merges (ho : s.stage.tabOut = .merged) : Done (.trigger m a0 a1 a2) s (fun t => t.tab = s.stage.tab
    ∧ Recorded s.stage pTab c stDone (Word.ofNat (Tab.get 0 s.stage.tab.ids pTab)) t) := by
  refine trigger_now h hc hring ht hl (st := stDone) (by decide) (f := fun u => u.bump pTab 0x0A4) (fun u hu => ?_)
    fun u t hu htab _ hrec => ⟨htab.trans hu.tabState.1, hrec⟩
  obtain ⟨hsame, hout, -⟩ := hu.tabState
  exact ⟨u.triggered_missed, hsame ▸ Stage.tabCommand_merged _ (hout.trans ho)⟩

theorem trigger_drops (ho : s.stage.tabOut = .kept) : Done (.trigger m a0 a1 a2) s (fun t => t.tab = s.stage.tab
    ∧ Recorded s.stage pTab c stRefused 0#32 t) := by
  refine trigger_now h hc hring ht hl (st := stRefused) (by decide) (f := fun u => (u.bump pTab 0x0A4).raise pTab 3) (fun u hu => ?_)
    fun u t hu htab _ hrec => ⟨htab.trans hu.tabState.1, hrec⟩
  obtain ⟨-, hout, -⟩ := hu.tabState
  exact ⟨u.triggered_kept, Stage.tabCommand_kept _ (hout.trans ho)⟩

end

/-- One that completes at once leaves the tableau as it is. -/
theorem trigger_completes {st : Nat} (hst : st < 256) (hcmd : ∀ u, s.stage.Issued u → u.tabCmd c = u.complete pTab c st 0#32) :
    Done (.trigger m a0 a1 a2) s (fun t => t.tab = s.stage.tab ∧ Recorded s.stage pTab c st 0#32 t) := by
  refine done_trigger h hc fun u hu => ?_
  obtain ⟨hsame, -⟩ := hu.tabState
  obtain ⟨htab, -, hrec⟩ := Stage.tab_completed hring hu.sameRing c (st := st) 0#32 hst
  rw [hcmd u hu, Stage.tab_ends_withBus, htab]
  exact ⟨hsame, hrec.ends_withBus _ _⟩

variable (ht : bit a0 0 = true)
include ht

theorem trigger_refused (hr : s.stage.tab.timed.isSome = true ∨ 1000000000 ≤ bits a2 29 0) :
    Done (.trigger m a0 a1 a2) s (fun t => t.tab = s.stage.tab ∧ Recorded s.stage pTab c stRefused 0#32 t) := by
  refine trigger_completes h hc hring (by decide) fun u hu => ?_
  obtain ⟨hsame, -⟩ := hu.tabState
  exact Stage.tabCmd_refused (trigger_code hc) ((trigger_timed hc).trans ht) (by rwa [hsame, trigger_nanoseconds hc])

theorem trigger_expires (hn : s.stage.tab.timed = none) (hns : bits a2 29 0 < 1000000000)
    (hlate : s.stage.datumArg (a1 % 2 ^ 32) (a2 % 2 ^ 32) < s.stage.now) :
    Done (.trigger m a0 a1 a2) s (fun t => t.tab = s.stage.tab ∧ Recorded s.stage pTab c stExpired 0#32 t) := by
  refine trigger_completes h hc hring (by decide) fun u hu => ?_
  obtain ⟨hsame, -, hnow, -⟩ := hu.tabState
  exact Stage.tabCmd_expired (trigger_code hc) ((trigger_timed hc).trans ht) (by rw [hsame, hn]) (by rwa [trigger_nanoseconds hc])
    (by rwa [trigger_datum hc hu, hnow])

end

/-! ### The datum of a timed trigger (R316, R317) -/

section
variable (s : Stage)

theorem Stage.keeps_tab (x : TabSt) : Keeps [] [.tab] s { s with tab := x } :=
  keeps_of_part rfl fun x hx => by cases x <;> simp_all [Part.same]

/-- The timed trigger captures once its datum has come. -/
def Stage.tabTimedDue : Stage :=
  match s.tab.timed with
  | some (t, c) => if t ≤ s.now then { s with tab := { s.tab with timed := none } }.tabCommand c t else s
  | none => s

/-- The messages due by `now` capture. -/
def Stage.tabMsgsDue (now : Nat) : Stage :=
  (s.tab.msgs.filter (· ≤ now)).foldl (fun s t => (s.tabTrigger t s.datum.index 4).2)
    { s with tab := { s.tab with msgs := s.tab.msgs.filter fun t => !decide (t ≤ now) } }

theorem Stage.tabTimed_eq : s.tabTimed = s.tabTimedDue.tabMsgsDue s.now := rfl

theorem Stage.tabMsgsDue_nil (now : Nat) (h : s.tab.msgs = []) : s.tabMsgsDue now = s := by
  have hs : ({ s with tab := { s.tab with msgs := [] } } : Stage) = s := by rw [← h]
  rw [Stage.tabMsgsDue, h]
  exact hs

theorem Stage.keeps_tabMsgsDue (now : Nat) : Keeps [0, pTab] [.tab, .free, .ring, .mem] s (s.tabMsgsDue now) :=
  ((s.keeps_tab _).mono (by simp) (by simp)).comp
    (keeps_foldl (fun t d _ => (t.triggered_tabTrigger d t.datum.index 4).mono (by simp) (by simp)) _)

theorem Stage.keeps_tabTimedDue : Keeps [0, pTab] [.tab, .free, .ring, .mem] s s.tabTimedDue := by
  have hself : Keeps [0, pTab] [.tab, .free, .ring, .mem] s s := (Keeps.refl s).mono (by simp) (by simp)
  unfold Stage.tabTimedDue
  split
  · exact iteInduction (fun _ => ((s.keeps_tab _).mono (by simp) (by simp)).comp (Stage.keeps_tabCommand _)) fun _ => hself
  · exact hself

theorem Stage.keeps_tabTimed : Keeps [0, pTab] [.tab, .free, .ring, .mem] s s.tabTimed :=
  s.keeps_tabTimedDue.comp (Stage.keeps_tabMsgsDue _ _)

variable {s} {d : Nat} {c : Cmd} (hs : s.tab.timed = some (d, c)) (hm : s.tab.msgs = [])
include hs hm

theorem Stage.tabTimed_early (h : s.now < d) : s.tabTimed = s := by
  have hdue : s.tabTimedDue = s := by
    rw [Stage.tabTimedDue, hs]
    exact if_neg (Nat.not_le.mpr h)
  rw [Stage.tabTimed_eq, hdue, Stage.tabMsgsDue_nil _ _ hm]

theorem Stage.tabTimed_captured (h : d ≤ s.now) (ho : s.tabOut = .captured) (hp : s.powered pTab = true) :
    s.tabTimed = (({ s with tab := { s.tab with timed := none } } : Stage).tabTake d s.datum.index 2).complete pTab c stDone
      (Word.ofNat (Tab.get 0 s.tab.ids pTab + 1)) := by
  have hcommand := Stage.tabCommand_captured (s := { s with tab := { s.tab with timed := none } }) (c := c) d ho hp
  have htaken := Stage.taken_tabTake (s := { s with tab := { s.tab with timed := none } }) d s.datum.index 2 hp
  have hdue : s.tabTimedDue = ({ s with tab := { s.tab with timed := none } } : Stage).tabCommand c d := by
    rw [Stage.tabTimedDue, hs]
    exact if_pos h
  have hmsgs : s.tabTimedDue.tab.msgs = [] := by
    rw [hdue, hcommand, (Stage.keeps_complete _ _ _ _ _).part (x := .tab) (by decide), htaken.msgs, hm]
  rw [Stage.tabTimed_eq, Stage.tabMsgsDue_nil _ _ hmsgs, hdue, hcommand]

end

section
variable {s : State} {r d : Nat} {c : Cmd} (hup : s.stage.dieUp = true) (hs : s.stage.tab.timed = some (d, c)) (hm : s.stage.tab.msgs = [])
include hup hs hm

theorem tableauTimedCapture_early (h : (s.stage.tick r).now < d) : Done (.tableauTimedCapture r) s (fun t => t.tab = s.stage.tab) := by
  refine done_act (f := fun s => (s.tick r).tabTimed) rfl hup ?_
  rw [Stage.tabTimed_early (s := s.stage.tick r) hs hm h, Stage.ends_tab]
  rfl

theorem tableauTimedCapture_captures (hp : s.stage.powered pTab = true) (h : d ≤ (s.stage.tick r).now) (ho : (s.stage.tick r).tabOut = .captured)
    (hring : RingFree s.stage) : Done (.tableauTimedCapture r) s (fun t => t.tab.timed = none ∧ Tab.get 0 t.tab.ids pTab = s.stage.nextTab
      ∧ Recorded s.stage pTab c stDone (Word.ofNat (Tab.get 0 s.stage.tab.ids pTab + 1)) t) := by
  set x : Stage := { s.stage.tick r with tab := { s.stage.tab with timed := none } }
  have htaken := Stage.taken_tabTake (s := x) d s.stage.datum.index 2 hp
  have hsame : s.stage.SameRing x := ⟨fun _ _ _ => rfl, rfl, rfl⟩
  obtain ⟨htab, -, hrec⟩ := Stage.tab_completed hring (hsame.trans (htaken.triggered.sameRing (by decide) (by decide) (by decide))) c
    (st := stDone) (Word.ofNat (Tab.get 0 s.stage.tab.ids pTab + 1)) (by decide)
  refine done_act (f := fun s => (s.tick r).tabTimed) rfl hup ?_
  rw [Stage.tabTimed_captured (s := s.stage.tick r) hs hm h ho hp]
  rw [Stage.ends_tab]
  refine ⟨(congrArg TabSt.timed htab).trans htaken.timed, (congrArg (fun y : TabSt => Tab.get 0 y.ids pTab) htab).trans htaken.id, hrec.ends _⟩

end

/-! ### The extended copy (R313, R314) -/

/-- Words laid one by one into the tableau memory: a word that the table lists reads as listed, and another as before. -/
theorem Stage.rd32_laid {i : Nat} : ∀ (w : Tab Word) (s : Stage) {b : Nat}, Tab.risingFrom b w = true → s.lost (tabMem + 4 * i) = false →
    (w.foldl (fun s (e : Nat × Word) => s.wr32 (tabMem + 4 * e.1) e.2) s).rd32 (tabMem + 4 * i)
      = (Tab.find w i).getD (s.rd32 (tabMem + 4 * i)) := by
  intro w
  induction w with
  | nil => exact fun _ _ _ _ => rfl
  | cons e w ih =>
    obtain ⟨j, v⟩ := e
    intro s b hr hl
    simp only [Tab.risingFrom, Bool.and_eq_true] at hr
    rw [List.foldl_cons, ih _ hr.2 ((Stage.lost_congr (Stage.wr32_ecc ..) _).trans hl), Tab.find]
    by_cases hj : j = i
    · have hlater : Tab.find w i = none := Tab.find_of_risingFrom_gt w hr.2 (by omega)
      rw [hlater, if_pos hj, hj]
      exact Stage.rd32_wr32_held v (by unfold tabMem; omega) hl
    · rw [if_neg hj, Stage.rd32_wr32_other _ _ (by omega)]

section
variable (s : Stage)

/-- The copy is no longer in progress, and the tableau memory holds no error. -/
def Stage.extCleared : Stage :=
  { s with tab := { s.tab with ext := none }, ecc := Tab.keep (fun w => !decide (tabMem / 32 ≤ w ∧ w < (tabMem + 0x40000) / 32)) s.ecc }

/-- The words of the copy are laid over zeros. -/
def Stage.extLaid (w : Tab Word) : Stage := w.foldl (fun s (e : Nat × Word) => s.wr32 (tabMem + 4 * e.1) e.2) (s.extCleared.zeroMem tabMem 0x40000)

theorem Stage.extDone_none (h : s.tab.ext = none) : s.extDone = s := by rw [Stage.extDone, h]

theorem Stage.extDone_some {id : Nat} {w : Tab Word} (h : s.tab.ext = some (id, w)) :
    s.extDone = ((s.extLaid w).setN pTab 0x0AC id).raise pTab 1 := by
  rw [Stage.extDone, h]
  rfl

theorem Stage.extLaid_frame (w : Tab Word) : ∃ m, s.extLaid w = { s.extCleared with mem := m } := by
  refine List.foldlRecOn (motive := fun t : Stage => ∃ m, t = { s.extCleared with mem := m }) w _ ⟨_, rfl⟩ ?_
  rintro _ ⟨m, rfl⟩ e -
  exact Stage.wr32_frame _ _ _

theorem Stage.keeps_extLaid (w : Tab Word) : Keeps [] [.tab, .ecc, .mem] s (s.extLaid w) := by
  obtain ⟨m, h⟩ := s.extLaid_frame w
  rw [h]
  refine ⟨fun _ _ _ _ _ => rfl, fun _ _ h => h, fun x hx => ?_⟩
  cases x with
  | tab | ecc | mem => simp at hx
  | _ => simp [Part.same, Stage.extCleared]

theorem Stage.keeps_extDone : Keeps [pTab] [.tab, .mem, .ecc] s s.extDone := by
  cases h : s.tab.ext with
  | none =>
    rw [s.extDone_none h]
    exact (Keeps.refl s).mono (by simp) (by simp)
  | some e =>
    have hset : Keeps [pTab] [.tab, .mem, .ecc] (s.extLaid e.2) ((s.extLaid e.2).setN pTab 0x0AC e.1) :=
      (Stage.keeps_setN _ _ (by decide) (by decide)).mono (by simp) (by simp)
    rw [s.extDone_some h]
    exact ((s.keeps_extLaid e.2).mono (by simp) (by simp)).comp (hset.comp ((Stage.keeps_raise _ _ (by decide)).mono (by simp) (by simp)))

/-- The tableau memory is sound before the copy is laid. -/
theorem Stage.lost_extCleared {i : Nat} (hi : i < 0x10000) : (s.extCleared.zeroMem tabMem 0x40000).lost (tabMem + 4 * i) = false := by
  have hflips : (s.extCleared.zeroMem tabMem 0x40000).flips (tabMem + 4 * i) = 0 := by
    refine Tab.get_unlisted _ _ fun e he => ?_
    have hkept : e.1 < tabMem / 32 ∨ (tabMem + 0x40000) / 32 ≤ e.1 := by simpa using (List.mem_filter.mp he).2
    unfold tabMem at hkept ⊢
    omega
  rw [Stage.lost, hflips]
  rfl

/-- It reads zero there. -/
theorem Stage.rd32_extCleared {i : Nat} (hi : i < 0x10000) : (s.extCleared.zeroMem tabMem 0x40000).rd32 (tabMem + 4 * i) = 0#32 := by
  have hbyte : ∀ j, j < 4 → (s.extCleared.zeroMem tabMem 0x40000).rd8 (tabMem + 4 * i + j) = 0#8 := fun j hj => by
    refine Stage.rd8_unlisted _ fun e he => ?_
    have hkept : e.1 < tabMem ∨ tabMem + 0x40000 ≤ e.1 := by simpa using (List.mem_filter.mp he).2
    omega
  have hbytes : (s.extCleared.zeroMem tabMem 0x40000).rdBytes (tabMem + 4 * i) 4 = (upTo 4).map fun _ => 0#8 :=
    List.map_congr_left fun j hj => hbyte j (mem_upTo.mp hj)
  rw [Stage.rd32, Stage.rdN, hbytes]
  rfl

theorem Stage.rd32_extLaid {w : Tab Word} (hw : Tab.wf (fun _ => 0#32) w = true) {i : Nat} (hi : i < 0x10000) :
    (s.extLaid w).rd32 (tabMem + 4 * i) = Tab.get 0#32 w i := by
  simp only [Tab.wf, Bool.and_eq_true] at hw
  rw [Stage.extLaid, Stage.rd32_laid w _ hw.1 (s.lost_extCleared hi), s.rd32_extCleared hi]
  rfl

end

theorem tableauExtDone_idle {s : State} (hup : s.stage.dieUp = true) (h : s.stage.tab.ext = none) :
    Done .tableauExtDone s (fun t => Keeps [] [] s.stage t) :=
  done_act (f := Stage.extDone) rfl hup ((s.stage.extDone_none h).symm ▸ (Keeps.refl _).ends)

theorem tableauExtDone_copies {s : State} (hup : s.stage.dieUp = true) {id : Nat} {w : Tab Word} (h : s.stage.tab.ext = some (id, w))
    (hw : Tab.wf (fun _ => 0#32) w = true) : Done .tableauExtDone s (fun t => t.tab = { s.stage.tab with ext := none }
      ∧ t.regN pTab 0x0AC = id % 2 ^ 32 ∧ Raises pTab 1 t ∧ ∀ i, i < 0x10000 → t.rd32 (tabMem + 4 * i) = Tab.get 0#32 w i) := by
  obtain ⟨m, hframe⟩ := s.stage.extLaid_frame w
  have htab : (s.stage.extLaid w).tab = { s.stage.tab with ext := none } := by rw [hframe]; rfl
  refine done_act (f := Stage.extDone) rfl hup ?_
  rw [s.stage.extDone_some h, Stage.ends_tab, Stage.ends_regN _ _ (by decide) (by decide)]
  refine ⟨htab, ?_, Stage.ends_event _ _ (Stage.raise_sets _ _ _ (by decide)), fun i hi => ?_⟩
  · exact (Stage.regN_congr (Stage.reg_raise_other _ _ (by decide))).trans (Stage.regN_setN_same ..)
  · rw [Stage.rd32_ends]
    exact s.stage.rd32_extLaid hw hi

/-! ### TAB_ACK (R310) -/

theorem Stage.written_tabAck (s : Stage) (old : Nat) {v : Nat} (h : bit v 0 = true) :
    s.written .tableau 0 0x0A0 old v = s.setFlag pTab 0x084 0 false := by
  have hw : s.written .tableau 0 0x0A0 old v = if bit v 0 then s.setFlag pTab 0x084 0 false else s := rfl
  rw [hw, if_pos h]

theorem tableauAck_clears {s : State} {m : Master} (h : Passes s m .tableau 0 0x0A0 1) :
    Done (.tableauAck m) s (fun t => t.bus.resp = .okay ∧ t.flag pTab 0x084 0 = false ∧ t.tab = s.stage.tab) := by
  obtain ⟨r, hw⟩ := s.stage.wrote_frame .tableau 0 0x0A0 1
  have hbit : bit (regWord .tableau 0 0x0A0 1) 0 = true := by decide
  refine done_passes h rfl rfl ?_
  rw [Stage.written_tabAck _ _ hbit, Stage.ends_respond_resp, Stage.ends_flag _ _ _ (by decide) (by decide), Stage.ends_tab]
  refine ⟨rfl, Stage.flag_setFlag_same _ pTab 0x084 0 false (by decide), ?_⟩
  rw [hw]
  rfl

/-- Settles O41, by what a capture leaves (`Stage.taken_tabTake`), the ways a TRIGGER goes (`trigger_captures` to `trigger_waits`), the datum of
a timed one (`Stage.tabTimed_captured`) and the words laid by the extended copy (`Stage.rd32_laid`). -/
theorem tableaux : Obligations.Tableaux := by
  refine ⟨fun r e => frame_act (f := fun s => s.tabEdge r e) (fun _ => rfl) fun s => s.keeps_tabEdge r e,
    fun r => frame_act (f := fun s => (s.tick r).tabTimed) (fun _ => rfl) fun s => ?_,
    frame_act (f := Stage.extDone) (fun _ => rfl) Stage.keeps_extDone, fun s hup hp => ⟨fun r rising => ⟨?_, fun hon hedge => ⟨?_, ?_⟩⟩,
      fun m a0 a1 a2 c h hc hring => ⟨fun ht hl => ⟨?_, ?_, ?_⟩, fun ht => ⟨?_, fun hn hns d hd => ⟨?_, ?_⟩⟩⟩,
      fun r d c hs => ⟨fun hd ho hm hring => ?_, fun hd hm => ?_⟩, fun id w he hw => ?_, fun he => ?_, fun m h => ?_⟩⟩
  · exact ((s.keeps_datum _).mono (by simp) (by simp)).comp ((Stage.keeps_tabTimed _).mono (by simp) (by simp))
  · exact tableauInEdge_off hup
  · exact tableauInEdge_captures hup hon hedge hp
  · exact tableauInEdge_misses hup hon hedge
  · exact trigger_captures h hc hring ht hl hp
  · exact trigger_merges h hc hring ht hl
  · exact trigger_drops h hc hring ht hl
  · exact trigger_refused h hc hring ht
  · exact fun hlate => trigger_expires h hc hring ht hn hns (hd ▸ hlate)
  · exact trigger_waits h hc ht hn hns hd
  · exact tableauTimedCapture_captures hup hs hm hp hd ho hring
  · exact tableauTimedCapture_early hup hs hm hd
  · exact tableauExtDone_copies hup he hw
  · exact tableauExtDone_idle hup he
  · exact tableauAck_clears h

end Sys2Proof.Machine
end

section
/-!
PROOF. Triggers that reach a record's link (R295, R299, R304, R459, R684): statements O39 and O57 fail in their frames, for a trigger that the source
of a catch-up places forwards a record on the link its state names, whatever number that is.
-/
namespace Sys2Proof.Machine

theorem laneBase_stat_lt (i : Nat) : laneBase i + 4 < 4096 ∧ laneBase i + 4 ≠ 0x014 := by
  unfold laneBase
  split <;> omega

theorem Stage.ends_laneStat (s t : Stage) (i hi lo : Nat) : (s.ends t).laneStat i hi lo = t.laneStat i hi lo :=
  Stage.ends_fld s t hi lo (laneBase_stat_lt i).1 (laneBase_stat_lt i).2

/-- A frame that does not name a lane's page keeps LANE_STAT. -/
theorem Keeps.laneStat {ps : List Nat} {xs : List Part} {s t : Stage} (h : Keeps ps xs s t) {i : Nat} (hp : lanePage i ∉ ps) (hi lo : Nat) :
    t.laneStat i hi lo = s.laneStat i hi lo := by
  obtain ⟨hlt, hne⟩ := laneBase_stat_lt i
  exact Stage.fld_congr (h.1 _ _ hp hlt hne) hi lo

/-- The part of `straySource` with its only cue the standby, and CUE_GO enabled for a rising edge; the source's link is 4, whose first lane would be
NET_LANE_0. -/
def strayStandby : Stage := (straySource.setFlag pPrompt 0x080 2 true).setN pPrompt 0x084 0x80000000

/-- The edge places the standby, and the record it forwards wakes NET_LANE_0. -/
theorem cueGoEdge_wakes_netLane :
    (strayStandby.cueGoEdge 0 true).laneStat 16 27 27 = 0 ∧ strayStandby.laneStat 16 27 27 = 1 := by
  decide +kernel

/-- Refutes O39: its frame of CUE_GO names no register of a NET page, but the source of a catch-up in TRIANGULATE forwards the trigger that the
edge places on its `source.link` (R459, R684), and in a state where that is 4 the send wakes NET_LANE_0 (`cueGoEdge_wakes_netLane`). No REQUEST
makes such a state, as members stand on links 0 and 1 (R453), but the frame speaks of every state. -/
theorem not_cueTriggers : ¬ Obligations.CueTriggers := by
  rintro ⟨hframe, -⟩
  obtain ⟨-, hkeeps⟩ := hframe 0 true (.cueGoEdge 0 true) (List.mem_singleton_self _) { stage := strayStandby } _
    (State.act_up { stage := strayStandby } (fun s => s.cueGoEdge 0 true) rfl)
  have hkept : (strayStandby.cueGoEdge 0 true).laneStat 16 27 27 = strayStandby.laneStat 16 27 27 :=
    (Stage.ends_laneStat ..).symm.trans (hkeeps.laneStat (by decide) 27 27)
  obtain ⟨hwoken, hidle⟩ := cueGoEdge_wakes_netLane
  exact Nat.zero_ne_one (hwoken.symm.trans (hkept.trans hidle))

/-- A datagram GO for cue 0 that came on port 0. -/
def strayGo : CdgMsg := { port := 0, mac := 0, vid := 0, ip := 0, udp := 0, slot := 0, seq := 1, code := 1, body := [0#8, 0#8, 0#8, 0#8] }

/-- The part of `straySource` with that datagram waiting and triggers by datagram enabled; the source's link is 6, whose first lane would be lane 24,
beyond the last NET page. -/
def strayChannel : Stage :=
  { (((straySource.setFlag pPrompt 0x080 5 true).setFlag (pLink 6) 0x084 18 true).setLaneStat 24 27 27 1)
    with red := { source := some { link := 6 } }, net := { cdg := [strayGo] } }

theorem live_strayChannel : Live { stage := strayChannel } .net 0 := ⟨by decide +kernel, by decide +kernel, by decide +kernel⟩

theorem strayLane_unnamed : lanePage 24 ∉ [0, pPrompt, 0x260] ++ (upTo 8).map pNet := by decide

/-- The datagram places its cue, and the record it forwards wakes lane 24. -/
theorem cdgGo_wakes_lane : strayChannel.cdgGo.laneStat 24 27 27 = 0 ∧ strayChannel.laneStat 24 27 27 = 1 := by
  decide +kernel

/-- Refutes O57: its frame of a datagram's GO names the lanes of the links and of the eight NET pages, but the source of a catch-up in TRIANGULATE
forwards the trigger it places on its `source.link` (R445, R459, R684), and in a state where that is 6 the send writes where a lane 24 would
stand (`cdgGo_wakes_lane`). No REQUEST makes such a state (R453), but the frame speaks of every state. -/
theorem not_controlDatagrams : ¬ Obligations.ControlDatagrams := by
  rintro ⟨-, -, -, -, hframe⟩
  have hexec : exec .cdgGo { stage := strayChannel } = .next { stage := strayChannel.ends strayChannel.cdgGo } := by
    rw [← Stage.block_live _ .net 0 Stage.cdgGo live_strayChannel]
    exact State.act_up { stage := strayChannel } (fun s => s.block .net 0 Stage.cdgGo) live_strayChannel.1
  obtain ⟨-, hgo⟩ := hframe { stage := strayChannel } _ strayGo [] rfl (by decide)
  have hkept : (strayChannel.ends strayChannel.cdgGo).laneStat 24 27 27 = strayChannel.laneStat 24 27 27 :=
    (hgo .cdgGo (by simp) hexec).laneStat strayLane_unnamed 27 27
  rw [Stage.ends_laneStat] at hkept
  obtain ⟨hwoken, hidle⟩ := cdgGo_wakes_lane
  exact Nat.zero_ne_one (hwoken.symm.trans (hkept.trans hidle))

end Sys2Proof.Machine
end

section
/-!
PROOF. The frames of a serial port (R333 to R346): what a fault, a frame received and a frame sent leave of the port, of its clock group and of the
registers that set it up.
-/
namespace Sys2Proof.Machine

/-! ### What a port, a direction and a clock group read after an update -/

section
variable (s : Stage) {p : Nat}

@[simp] theorem Stage.port_putPort_same (v : PortSt) : (s.putPort p v).port p = v := Tab.get_put_self ..

theorem Stage.port_putPort_other {q : Nat} (v : PortSt) (h : q ≠ p) : (s.putPort p v).port q = s.port q := Tab.get_put_other _ _ _ _ h

@[simp] theorem Stage.cg_putCg_same (v : ClkGroup) : (s.putCg p v).cg p = v := Tab.get_put_self ..

@[simp] theorem Stage.dir_putDir_same (tx : Bool) (d : PortDir) : (s.putDir p tx d).dir p tx = d := by
  cases tx <;> simp [Stage.putDir, Stage.dir]

theorem Stage.dir_putDir_other {a b : Bool} (d : PortDir) (h : a ≠ b) : (s.putDir p a d).dir p b = s.dir p b := by
  cases a <;> cases b <;> simp_all [Stage.putDir, Stage.dir]

theorem Stage.dir_congr {t : Stage} (h : t.port p = s.port p) (tx : Bool) : t.dir p tx = s.dir p tx := by rw [Stage.dir, Stage.dir, h]

/-- A direction is none of what else a port holds. -/
theorem Stage.port_putDir (tx : Bool) (d : PortDir) :
    (s.putDir p tx d).port p = { s.port p with rx := if tx then (s.port p).rx else d, tx := if tx then d else (s.port p).tx } := by
  cases tx <;> exact s.port_putPort_same _

@[simp] theorem Stage.ends_port (t : Stage) (q : Nat) : (s.ends t).port q = t.port q := by rw [Stage.port, Stage.ends_ports]; rfl

@[simp] theorem Stage.ends_cg (t : Stage) (g : Nat) : (s.ends t).cg g = t.cg g := by rw [Stage.cg, Stage.ends_groups]; rfl

@[simp] theorem Stage.ends_dir (t : Stage) (tx : Bool) : (s.ends t).dir p tx = t.dir p tx := Stage.dir_congr _ (s.ends_port t p) tx

theorem Stage.keeps_ports (l : Tab PortSt) (g : Tab ClkGroup) : Keeps [] [.ports] s { s with ports := l, groups := g } :=
  keeps_of_part rfl fun x hx => by cases x <;> simp_all [Part.same]

end

/-! ### The registers that set a port up -/

/-- From `s` to `t` no register has changed but events and the status and fault counts of PORT `p`. -/
def Stage.SameSetup (p : Nat) (s t : Stage) : Prop :=
  ∀ q x, x < 4096 → x ≠ 0x014 → (q = pPort p → x ≠ 0x084 ∧ x ≠ 0x0D0 ∧ x ≠ 0x0D4) → t.reg q x = s.reg q x

section
variable {p : Nat} {s t : Stage} (h : Stage.SameSetup p s t)
include h

theorem Stage.SameSetup.trans {u : Stage} (h' : Stage.SameSetup p t u) : Stage.SameSetup p s u :=
  fun q x hx hn ho => (h' q x hx hn ho).trans (h q x hx hn ho)

theorem Stage.SameSetup.portGroup (q : Nat) : t.portGroup q = s.portGroup q := Stage.fld_congr (h _ _ (by decide) (by decide) fun _ => by decide) 26 24

theorem Stage.SameSetup.cgCfg (g : Nat) : t.cgCfg g = s.cgCfg g := Stage.regN_congr (h _ _ (by decide) (by decide) fun _ => by decide)

theorem Stage.SameSetup.psi : t.psi p = s.psi p :=
  congrArg (fun n => sext 8 n) (Stage.regN_congr (h (pPort p) 0x09C (by decide) (by decide) fun _ => by decide))

theorem Stage.SameSetup.fs : t.fs = s.fs := congrArg fsOf (Stage.fld_congr (h _ _ (by decide) (by decide) fun _ => by decide) 2 0)

theorem Stage.SameSetup.portM (hp : p < 32) : t.portM p = s.portM p := by
  have hpage : 0x2E0 ≠ pPort p := by unfold pPort; omega
  have hdomain : t.portDomain p = s.portDomain p := by rw [Stage.portDomain, h.portGroup, h.cgCfg]; rfl
  have hfast : t.fld 0x2E0 0x084 1 0 = s.fld 0x2E0 0x084 1 0 := Stage.fld_congr (h _ _ (by decide) (by decide) fun he => absurd he hpage) 1 0
  rw [Stage.portM, Stage.portM, hdomain, Stage.fastM, Stage.fastM, hfast]

/-- The frame nearest to a datum is the same. -/
theorem Stage.SameSetup.frameNear (hp : p < 32) (z d : Int) : t.frameNear p z d = s.frameNear p z d := by
  rw [Stage.frameNear, Stage.frameNear, h.portM hp, h.fs]

end

/-! ### A port that goes on with its frames -/

/-- From `s` to `t` PORT `p` has gone on with a frame: at most its status, its fault counts and what it holds of its directions have changed, and no
port has had an edge. -/
structure Stage.Streams (p : Nat) (s t : Stage) : Prop where
  keeps : Keeps [pPort p] [.ports] s t
  setup : Stage.SameSetup p s t
  groups : t.groups = s.groups
  edge : ∀ q, (t.port q).edge = (s.port q).edge

section
variable {p : Nat} {s t : Stage}

theorem Stage.Streams.refl (s : Stage) : Stage.Streams p s s := ⟨(Keeps.refl s).mono (by simp) (by simp), fun _ _ _ _ _ => rfl, rfl, fun _ => rfl⟩

theorem Stage.Streams.trans {u : Stage} (h : Stage.Streams p s t) (h' : Stage.Streams p t u) : Stage.Streams p s u :=
  ⟨h.keeps.comp h'.keeps, h.setup.trans h'.setup, h'.groups.trans h.groups, fun q => (h'.edge q).trans (h.edge q)⟩

theorem Stage.Streams.cg (h : Stage.Streams p s t) (g : Nat) : t.cg g = s.cg g := by rw [Stage.cg, Stage.cg, h.groups]

end

section
variable {p : Nat} (s : Stage)

theorem Stage.streams_putPort {v : PortSt} (h : v.edge = (s.port p).edge) : Stage.Streams p s (s.putPort p v) := by
  refine ⟨(s.keeps_ports _ s.groups).mono (by simp) (by simp), fun _ _ _ _ _ => rfl, rfl, fun q => ?_⟩
  by_cases hq : q = p
  · subst hq
    rw [Stage.port_putPort_same, h]
  · rw [Stage.port_putPort_other _ _ hq]

theorem Stage.streams_putDir (tx : Bool) (d : PortDir) : Stage.Streams p s (s.putDir p tx d) := s.streams_putPort (by cases tx <;> rfl)

/-- The status and the fault counts of the port change. -/
theorem Stage.streams_setN {o : Nat} (n : Nat) (h : o = 0x084 ∨ o = 0x0D0 ∨ o = 0x0D4) : Stage.Streams p s (s.setN (pPort p) o n) := by
  refine ⟨(s.keeps_setN (o := o) n (by omega) (by omega)).mono (by simp) (by simp), fun q x hx _ ho => s.reg_setN_other n ?_, rfl, fun _ => rfl⟩
  by_cases hq : q = pPort p
  · have := ho hq
    omega
  · exact address_ne hx (by omega) hq

theorem Stage.streams_raise (q : Nat) {b : Nat} (hb : b < 32) : Stage.Streams p s (s.raise q b) :=
  ⟨(s.keeps_raise q hb).mono (by simp) (by simp), fun _ _ hx hn _ => s.reg_raise_other b (by omega), rfl, fun _ => rfl⟩

theorem Stage.streams_emit (o : Out) : Stage.Streams p s (s.emit o) :=
  ⟨(s.keeps_emit o).mono (by simp) (by simp), fun _ _ _ _ _ => rfl, rfl, fun _ => rfl⟩

/-- A fault of a direction begins its fade (R345, R346). -/
theorem Stage.streams_portFault (tx : Bool) (f cause : Nat) : Stage.Streams p s (s.portFault p tx f cause) := by
  unfold Stage.portFault
  dsimp only
  split
  · exact .refl s
  · split
    · exact s.streams_putDir tx _
    · exact (((s.streams_putDir tx _).trans (Stage.streams_setN _ _ (.inl rfl))).trans (Stage.streams_setN _ _ (by cases tx <;> decide))).trans
        (Stage.streams_raise _ _ (by split <;> decide))

theorem Stage.streams_portFaults (f cause : Nat) : Stage.Streams p s (s.portFaults p f cause) :=
  (s.streams_portFault false f cause).trans (Stage.streams_portFault _ true f cause)

/-- A frame received whole is kept for its presentation (R341). -/
theorem Stage.streams_rxGood (e : Nat) (slots : List Nat) : Stage.Streams p s (s.rxGood p e slots) := by
  unfold Stage.rxGood
  dsimp only
  split
  · exact iteInduction (fun _ => s.streams_putPort rfl) fun _ => .refl s
  · exact .refl s

theorem Stage.streams_frameClose (bclks : Nat) (slots : List Nat) : Stage.Streams p s (s.frameClose p bclks slots) := by
  unfold Stage.frameClose
  split
  · exact .refl s
  · dsimp only
    split
    · exact (s.streams_portFault false _ 3).trans (iteInduction (fun _ => Stage.streams_putDir _ false _) fun _ => .refl _)
    · exact s.streams_rxGood _ slots

theorem Stage.streams_dirFrame (f : Nat) (tx : Bool) : Stage.Streams p s (s.dirFrame p f tx) := by
  unfold Stage.dirFrame
  dsimp only
  split
  · split
    · split
      · exact (s.streams_putDir tx _).trans
          (iteInduction (fun _ => (Stage.streams_putDir _ tx _).trans (Stage.streams_raise _ _ (by decide))) fun _ => .refl _)
      · exact .refl s
    · exact s.streams_putDir tx _
  · exact .refl s

theorem Stage.streams_txFrame (f : Nat) (h : Handed) : Stage.Streams p s (s.txFrame p f h) := by
  unfold Stage.txFrame
  extract_lets d mask n active quiet vals value slots u
  have hu : Stage.Streams p s u := iteInduction (fun _ => s.streams_putDir true _) fun _ => .refl s
  exact (hu.trans (u.streams_setN _ (.inl rfl))).trans (Stage.streams_emit _ _)

theorem Stage.streams_txEdge (f : Nat) : Stage.Streams p s (s.txEdge p f) := by
  unfold Stage.txEdge
  split
  · exact .refl s
  · dsimp only
    split
    · exact (s.streams_dirFrame f true).trans (Stage.streams_txFrame _ f _)
    · exact (s.streams_portFault true f 5).trans (Stage.streams_txFrame _ f _)

end

end Sys2Proof.Machine
end

section
/-!
PROOF. FSYNC edges and frame windows (R330, R340 to R346): an edge in the parts it goes through, what an edge and a missing one leave of the port, and
the frames of both.
-/
namespace Sys2Proof.Machine

/-! ### The parts of an edge (R340, R344, R345) -/

/-- The part when an edge comes at raw `r`, with what the output patch has handed on. -/
def Stage.edgeAt (s : Stage) (r : Nat) (done : Option Nat) : Stage :=
  match done with
  | some d => (s.tick r).outDone d
  | none => s.tick r

/-- A master group that does not drive its clock outputs has no edges. -/
def Stage.undriven (s : Stage) (g : Nat) : Bool := cgMaster (s.cgCfg g) && !s.cgDrives g

/-- The clock group of the port takes the datum of the edge. -/
def Stage.edgeStamped (s : Stage) (p r : Nat) : Stage :=
  if s.undriven (s.portGroup p) then s else s.cgEdge (s.portGroup p) (s.datum.at r).toNat

/-- A direction has locked to no frame. -/
def Stage.dirIdle (s : Stage) (p : Nat) (tx : Bool) : Bool := decide ((s.dir p tx).st ≤ 1) && (s.dir p tx).live.isNone

/-- The port has lost its alignment at frame `f`. -/
def Stage.frameLost (s : Stage) (p f cause : Nat) : Stage :=
  (s.portFaults p f cause).putPort p { (s.portFaults p f cause).port p with edge := none }

/-- Frame `f` begins with an edge at datum `d`; the first of a block is stamped (R343). -/
def Stage.frameBegun (s : Stage) (p f d : Nat) : Stage :=
  let s := s.putPort p { s.port p with edge := some f }
  if f % s.portM p = 0 ∧ f / s.portM p % 32 = 0 then s.putPort p { s.port p with blkAt := (d, f / s.portM p), blkSet := true, rxCount := 1 }
  else s.putPort p { s.port p with rxCount := (s.port p).rxCount + 1 }

/-- The directions carry frame `f`, `rx` and `tx` telling which of them wait for the phase. -/
def Stage.frameCarried (s : Stage) (p f : Nat) (rx tx : Bool) : Stage :=
  let s := if rx then s else s.dirFrame p f false
  if tx then s else s.txEdge p f

/-- The frame that an edge at datum `d` may follow with. -/
def Stage.nextFrame (s : Stage) (p f : Nat) : Nat :=
  match (s.port p).edge with
  | some e => e + 1
  | none => f

/-- An edge at datum `d` is assigned to the frame nearest to it, or has slipped. -/
def Stage.frameAssigned (s : Stage) (p : Nat) (d : Int) (rx tx : Bool) : Stage :=
  match s.frameNear p (s.psi p) d with
  | (f, inWin, _) =>
    if !inWin || decide (f < s.nextFrame p f) then s.frameLost p (s.nextFrame p f) 2
    else ((if s.nextFrame p f < f then s.portFaults p (s.nextFrame p f) 1 else s).frameBegun p f d.toNat).frameCarried p f rx tx

/-- What an edge is to a port that runs: `learning` that its phase is not known. -/
def Stage.edgeTaken (s : Stage) (p bclks : Nat) (slots : List Nat) (d : Int) (learning : Bool) : Stage :=
  let t := s.frameClose p bclks slots
  let u := if learning then t.learn p d else t
  if learning && t.dirIdle p false && t.dirIdle p true then u.putPort p { u.port p with edge := none }
  else u.frameAssigned p d (learning && t.dirIdle p false) (learning && t.dirIdle p true)

/-- An edge in its parts: `t` is the part when it comes, `u` once its clock group has taken it. -/
theorem Stage.fsyncEdge_eq {s t u : Stage} {p r : Nat} {done : Option Nat} (ht : s.edgeAt r done = t) (hu : t.edgeStamped p r = u) (bclks : Nat)
    (slots : List Nat) : s.fsyncEdge p r bclks slots done =
      if (cgMaster (t.cgCfg (t.portGroup p)) && !u.cgDrives (t.portGroup p)) || !u.portOn p || (u.port p).barred then u
      else u.edgeTaken p bclks slots (t.datum.at r) ((u.port p).learning && !cgMaster (t.cgCfg (t.portGroup p))) := by
  subst ht hu
  cases done <;> rfl

/-! ### What the parts of an edge leave -/

section
variable (s : Stage) {p : Nat}

theorem Stage.keeps_putPort (v : PortSt) : Keeps [pPort p] [.ports] s (s.putPort p v) := (s.keeps_ports _ s.groups).mono (by simp) (by simp)

theorem Stage.keeps_cgEdge (g d : Nat) : Keeps [] [.ports] s (s.cgEdge g d) :=
  iteInduction (fun _ => (Keeps.refl s).mono (by simp) (by simp)) fun _ => s.keeps_ports s.ports _

/-- Done points of the output patch and its block (R31). -/
theorem Stage.keeps_outDone (d : Nat) : Keeps [] [.blocks, .patch] s (s.outDone d) := by
  unfold Stage.outDone
  split
  · exact (Keeps.refl s).mono (by simp) (by simp)
  · exact ⟨fun _ _ _ _ _ => rfl, fun _ _ h => h, fun x hx => by cases x <;> simp_all [Part.same]⟩

theorem Stage.keeps_edgeAt (r : Nat) (done : Option Nat) : Keeps [] [.datum, .blocks, .patch] s (s.edgeAt r done) := by
  have htick : Keeps [] [.datum] s (s.tick r) := s.keeps_datum _
  cases done with
  | none => exact htick.mono (by simp) (by simp)
  | some d => exact htick.trans (Stage.keeps_outDone _ d)

theorem Stage.keeps_edgeStamped (r : Nat) : Keeps [] [.ports] s (s.edgeStamped p r) :=
  iteInduction (fun _ => (Keeps.refl s).mono (by simp) (by simp)) fun _ => s.keeps_cgEdge _ _

theorem Stage.keeps_learn (d : Int) : Keeps [pPort p] [.ports] s (s.learn p d) :=
  iteInduction (fun _ => s.keeps_putPort _) fun _ => (s.keeps_putPort _).comp ((Stage.keeps_setN _ _ (by decide) (by decide)).mono (by simp) (by simp))

theorem Stage.keeps_frameLost (f cause : Nat) : Keeps [pPort p] [.ports] s (s.frameLost p f cause) :=
  (s.streams_portFaults f cause).keeps.comp (Stage.keeps_putPort _ _)

theorem Stage.keeps_frameBegun (f d : Nat) : Keeps [pPort p] [.ports] s (s.frameBegun p f d) :=
  (s.keeps_putPort _).comp (iteInduction (fun _ => Stage.keeps_putPort _ _) fun _ => Stage.keeps_putPort _ _)

theorem Stage.streams_frameCarried (f : Nat) (rx tx : Bool) : Stage.Streams p s (s.frameCarried p f rx tx) :=
  Stage.Streams.trans (t := if rx then s else s.dirFrame p f false) (iteInduction (fun _ => .refl s) fun _ => s.streams_dirFrame f false)
    (iteInduction (fun _ => .refl _) fun _ => Stage.streams_txEdge _ f)

theorem Stage.keeps_frameAssigned (d : Int) (rx tx : Bool) : Keeps [pPort p] [.ports] s (s.frameAssigned p d rx tx) := by
  unfold Stage.frameAssigned
  split
  have hskip : ∀ f : Nat, Keeps [pPort p] [.ports] s (if s.nextFrame p f < f then s.portFaults p (s.nextFrame p f) 1 else s) := fun _ =>
    iteInduction (fun _ => (s.streams_portFaults _ 1).keeps) fun _ => (Stage.Streams.refl s).keeps
  refine iteInduction (fun _ => s.keeps_frameLost _ 2) fun _ => ?_
  exact ((hskip _).comp (Stage.keeps_frameBegun _ _ _)).comp (Stage.streams_frameCarried _ _ _ _).keeps

theorem Stage.keeps_edgeTaken (bclks : Nat) (slots : List Nat) (d : Int) (learning : Bool) :
    Keeps [pPort p] [.ports] s (s.edgeTaken p bclks slots d learning) := by
  have hclose := (s.streams_frameClose (p := p) bclks slots).keeps
  have hlearn : ∀ t : Stage, Keeps [pPort p] [.ports] t (if learning then t.learn p d else t) := fun t =>
    iteInduction (fun _ => t.keeps_learn d) fun _ => (Stage.Streams.refl t).keeps
  exact (hclose.comp (hlearn _)).comp (iteInduction (fun _ => Stage.keeps_putPort _ _) fun _ => Stage.keeps_frameAssigned _ _ _ _)

theorem Stage.keeps_fsyncEdge (r bclks : Nat) (slots : List Nat) (done : Option Nat) :
    Keeps [pPort p] [.datum, .free, .blocks, .ports, .patch] s (s.fsyncEdge p r bclks slots done) := by
  rw [Stage.fsyncEdge_eq rfl rfl]
  refine Keeps.comp (t := (s.edgeAt r done).edgeStamped p r) ?_ ?_
  · exact ((s.keeps_edgeAt r done).trans (Stage.keeps_edgeStamped _ r)).mono (by simp) (by simp)
  · exact iteInduction (fun _ => (Keeps.refl _).mono (by simp) (by simp)) fun _ => (Stage.keeps_edgeTaken _ _ _ _ _).mono (by simp) (by simp)

/-- A frame of the FOREIGN domain changes at most the datum, the count of draws and the clock group (R235, R349). -/
theorem Stage.keeps_foreignEdge (r : Nat) : Keeps [pPort p] [.datum, .free, .blocks, .ports, .patch] s (s.foreignEdge p r) := by
  have htick : Keeps [] [.datum] s (s.tick r) := s.keeps_datum _
  unfold Stage.foreignEdge
  extract_lets t g u mask drive
  refine Keeps.comp (t := t) (htick.mono (by simp) (by simp)) (iteInduction (fun _ => (Keeps.refl _).mono (by simp) (by simp)) fun _ => ?_)
  refine Keeps.comp (t := u) ((t.keeps_cgEdge g _).mono (by simp) (by simp)) (iteInduction (fun _ => (Keeps.refl _).mono (by simp) (by simp)) fun _ => ?_)
  split
  rename_i slots v hv
  have hdraw : ∀ w : Stage, Keeps [] [.free] w w.draw.2 := fun w => keeps_of_part rfl fun x hx => by cases x <;> simp_all [Part.same, Stage.draw]
  have hslots : Keeps [] [.free] u v := by
    rw [show v = (slots, v).2 from rfl, ← hv]
    refine List.foldlRecOn (motive := fun a : List SlotOut × Stage => Keeps [] [.free] u a.2) _ _ ((Keeps.refl u).mono (by simp) (by simp)) ?_
    rintro ⟨l, w⟩ hw i -
    dsimp only
    split
    · exact hw
    · split
      · split
        · exact hw.comp (hdraw w)
        · exact hw
      · exact hw
  exact (hslots.trans (v.keeps_emit _)).mono (by simp) (by simp)

end

end Sys2Proof.Machine
end

section
/-!
PROOF. What edges, frame windows, ramps and fades come to (R340, R341, R345, R346), as commands of a port.
-/
namespace Sys2Proof.Machine

/-! ### Edges (R340, R344) -/

section
variable (s : Stage) {p : Nat}

theorem Stage.edgeAt_frame (r : Nat) (done : Option Nat) : ∃ b x, s.edgeAt r done = { s.tick r with blocks := b, patch := x } := by
  cases done with
  | none => exact ⟨_, _, rfl⟩
  | some d =>
    change ∃ b x, (s.tick r).outDone d = _
    unfold Stage.outDone
    split
    · exact ⟨_, _, rfl⟩
    · exact ⟨_, _, rfl⟩

/-- An edge of a group is its last, and starts or stops nothing. -/
theorem Stage.cgEdge_frame (g d : Nat) : ∃ l, s.cgEdge g d = { s with groups := l }
    ∧ ((s.cgEdge g d).cg g).last = some d ∧ ((s.cgEdge g d).cg g).stopped = (s.cg g).stopped := by
  unfold Stage.cgEdge
  dsimp only
  split
  · rename_i h
    exact ⟨_, rfl, h, rfl⟩
  · refine ⟨_, rfl, ?_⟩
    rw [Stage.cg_putCg_same]
    exact ⟨rfl, rfl⟩

theorem Stage.edgeStamped_frame (r : Nat) : ∃ l, s.edgeStamped p r = { s with groups := l } := by
  unfold Stage.edgeStamped
  split
  · exact ⟨_, rfl⟩
  · obtain ⟨l, h, -⟩ := s.cgEdge_frame (s.portGroup p) (s.datum.at r).toNat
    exact ⟨l, h⟩

/-- The clock of a port that runs is there, and its phase known. -/
def Stage.clocked (s : Stage) (p : Nat) : Prop :=
  (cgMaster (s.cgCfg (s.portGroup p)) = true ∧ s.cgDrives (s.portGroup p) = true)
    ∨ (cgMaster (s.cgCfg (s.portGroup p)) = false ∧ (s.port p).learning = false)

/-- An edge of a port that runs, whose phase is known, is assigned at once; its group has taken it. -/
theorem Stage.fsyncEdge_runs (r bclks : Nat) (slots : List Nat) (done : Option Nat) (hon : s.portOn p = true) (hbar : (s.port p).barred = false)
    (hclock : s.clocked p) : ∃ b x l, s.fsyncEdge p r bclks slots done
        = (({ s.tick r with blocks := b, patch := x, groups := l } : Stage).frameClose p bclks slots).frameAssigned p ((s.tick r).datum.at r) false false
      ∧ (({ s.tick r with blocks := b, patch := x, groups := l } : Stage).cg (s.portGroup p)).last = some ((s.tick r).datum.at r).toNat := by
  obtain ⟨b, x, ht⟩ := s.edgeAt_frame r done
  obtain ⟨l, hedge, hlast, hstopped⟩ := Stage.cgEdge_frame ({ s.tick r with blocks := b, patch := x } : Stage) (s.portGroup p) ((s.tick r).datum.at r).toNat
  refine ⟨b, x, l, ?_, hedge ▸ hlast⟩
  have hdriven : s.undriven (s.portGroup p) = false := by
    rcases hclock with ⟨-, hdrive⟩ | ⟨hslave, -⟩
    · rw [Stage.undriven, hdrive, Bool.not_true, Bool.and_false]
    · rw [Stage.undriven, hslave, Bool.false_and]
  have hu : Stage.edgeStamped { s.tick r with blocks := b, patch := x } p r = { s.tick r with blocks := b, patch := x, groups := l } :=
    (if_neg (Bool.eq_false_iff.mp hdriven)).trans hedge
  have hdrives : Stage.cgDrives { s.tick r with blocks := b, patch := x, groups := l } (s.portGroup p) = s.cgDrives (s.portGroup p) := by
    rw [Stage.cgDrives, ← hedge, hstopped, hedge]
    rfl
  have hlearn : ((s.port p).learning && !cgMaster (s.cgCfg (s.portGroup p))) = false := by
    rcases hclock with ⟨hmaster, -⟩ | ⟨-, hknown⟩
    · rw [hmaster, Bool.not_true, Bool.and_false]
    · rw [hknown, Bool.false_and]
  have hgo : ((cgMaster (s.cgCfg (s.portGroup p)) && !s.cgDrives (s.portGroup p)) || !s.portOn p || (s.port p).barred) = false := by
    rw [hon, hbar, Bool.or_false, Bool.not_true, Bool.or_false]
    exact hdriven
  rw [Stage.fsyncEdge_eq ht hu, if_neg]
  · exact congrArg (Stage.edgeTaken _ p bclks slots _) hlearn
  · refine Bool.eq_false_iff.mp (Eq.trans ?_ hgo)
    exact congrArg (fun d => (cgMaster (s.cgCfg (s.portGroup p)) && !d) || !s.portOn p || (s.port p).barred) hdrives

/-- The edge of a frame that begins stands in the window of the next frame. -/
theorem Stage.frameAssigned_begins {e : Nat} {d o : Int} (he : (s.port p).edge = some e) (hn : s.frameNear p (s.psi p) d = (e + 1, true, o)) :
    s.frameAssigned p d false false = (s.frameBegun p (e + 1) d.toNat).frameCarried p (e + 1) false false := by
  have hnext : s.nextFrame p (e + 1) = e + 1 := by rw [Stage.nextFrame, he]
  rw [Stage.frameAssigned, hn]
  dsimp only
  rw [hnext, if_neg (by simp), if_neg (Nat.lt_irrefl _)]

/-- An edge outside the window of its frame, or of one that has been, is a slip (R344). -/
theorem Stage.frameAssigned_slips {e f : Nat} {w : Bool} {d o : Int} (he : (s.port p).edge = some e) (hn : s.frameNear p (s.psi p) d = (f, w, o))
    (hslip : w = false ∨ f ≤ e) : s.frameAssigned p d false false = s.frameLost p (e + 1) 2 := by
  have hnext : s.nextFrame p f = e + 1 := by rw [Stage.nextFrame, he]
  rw [Stage.frameAssigned, hn]
  dsimp only
  rw [hnext, if_pos]
  rcases hslip with rfl | hf
  · rfl
  · simp [Nat.lt_succ_of_le hf]

theorem Stage.edge_frameLost (f cause : Nat) : ((s.frameLost p f cause).port p).edge = none := by rw [Stage.frameLost, Stage.port_putPort_same]

theorem Stage.edge_frameBegun (f d : Nat) : ((s.frameBegun p f d).port p).edge = some f := by
  unfold Stage.frameBegun
  dsimp only
  split
  all_goals rw [Stage.port_putPort_same, Stage.port_putPort_same]

theorem Stage.groups_frameBegun (f d : Nat) : (s.frameBegun p f d).groups = s.groups := by
  unfold Stage.frameBegun
  dsimp only
  split <;> rfl

end

/-- The PORT pages end with PORT31 (R548). -/
theorem pageOf_port_le {q i : Nat} (h : pageOf q = some (.port, i)) : q ≤ 0x21F := by
  unfold pageOf at h
  repeat
    rw [ite_eq_iff] at h
    rcases h with ⟨hc, h⟩ | ⟨-, h⟩
    · simp at h <;> omega
  cases h

section
variable {s : State} {p r bclks : Nat} {slots : List Nat} (h : Live s .port p)
include h

theorem Live.port_lt : p < 32 := by
  have hlast := pageOf_port_le h.2.1
  simp only [PageKind.page] at hlast
  omega

/-- An edge on a port that is not of the FOREIGN domain ends as the port takes it. -/
theorem done_fsyncEdge {done : Option Nat} {P : Stage → Prop} (hd : s.stage.portDomain p ≠ 2)
    (hp : P (s.stage.ends (s.stage.fsyncEdge p r bclks slots done))) : Done (.fsyncEdge p r bclks slots done) s P :=
  done_block (f := fun t => t.frameEdge p r bclks slots done) rfl h (by rwa [Stage.frameEdge, if_neg hd])

section
variable {done : Option Nat} {e f : Nat} {w : Bool} {o : Int} (hd : s.stage.portDomain p ≠ 2) (hon : s.stage.portOn p = true)
  (hbar : (s.stage.port p).barred = false) (he : (s.stage.port p).edge = some e) (hclock : s.stage.clocked p)
  (hn : s.stage.frameNear p (s.stage.psi p) ((s.stage.tick r).datum.at r) = (f, w, o))
include hd hon hbar he hclock hn

/-- Once the frame before is closed, the edge is judged by the same window (R340). -/
theorem done_assignedEdge {P : Stage → Prop} (hp : ∀ t : Stage, (t.port p).edge = some e → t.frameNear p (t.psi p) ((s.stage.tick r).datum.at r) = (f, w, o) →
      (t.cg (s.stage.portGroup p)).last = some ((s.stage.tick r).datum.at r).toNat →
      P (s.stage.ends (t.frameAssigned p ((s.stage.tick r).datum.at r) false false))) : Done (.fsyncEdge p r bclks slots done) s P := by
  obtain ⟨b, x, l, hrun, hlast⟩ := s.stage.fsyncEdge_runs r bclks slots done hon hbar hclock
  have hclose := Stage.streams_frameClose (p := p) { s.stage.tick r with blocks := b, patch := x, groups := l } bclks slots
  refine done_fsyncEdge h hd (hrun ▸ hp _ ((hclose.edge p).trans he) ?_ (by rwa [hclose.cg]))
  rw [hclose.setup.psi, hclose.setup.frameNear h.port_lt]
  exact hn

theorem fsyncEdge_follows (hf : f = e + 1) (hw : w = true) : Done (.fsyncEdge p r bclks slots done) s (fun t => (t.port p).edge = some (e + 1)
    ∧ (t.cg (s.stage.portGroup p)).last = some ((s.stage.tick r).datum.at r).toNat) := by
  subst hf hw
  refine done_assignedEdge h hd hon hbar he hclock hn fun t hedge hnear hlast => ?_
  have hcarry := (t.frameBegun p (e + 1) ((s.stage.tick r).datum.at r).toNat).streams_frameCarried (p := p) (e + 1) false false
  rw [t.frameAssigned_begins hedge hnear, Stage.ends_port, Stage.ends_cg, hcarry.edge, hcarry.cg, Stage.edge_frameBegun, Stage.cg, Stage.groups_frameBegun]
  exact ⟨rfl, hlast⟩

theorem fsyncEdge_slips (hslip : w = false ∨ f ≤ e) : Done (.fsyncEdge p r bclks slots done) s (fun t => (t.port p).edge = none) := by
  refine done_assignedEdge h hd hon hbar he hclock hn fun t hedge hnear _ => ?_
  rw [t.frameAssigned_slips hedge hnear hslip, Stage.ends_port, Stage.edge_frameLost]

end

/-- An edge on a port that does not run is one of its clock group alone. -/
theorem fsyncEdge_unheeded (hd : s.stage.portDomain p ≠ 2) (hoff : s.stage.portOn p = false ∨ (s.stage.port p).barred = true) :
    Done (.fsyncEdge p r bclks slots none) s
      (fun t => t.datum = (s.stage.tick r).datum ∧ t.ports = s.stage.ports ∧ Keeps [] [.datum, .ports] s.stage t) := by
  obtain ⟨l, hl⟩ := Stage.edgeStamped_frame (p := p) (s.stage.tick r) r
  refine done_fsyncEdge h hd ?_
  rw [Stage.fsyncEdge_eq (s := s.stage) (t := s.stage.tick r) (done := none) rfl hl, if_pos]
  · rw [Stage.ends_datum, Stage.ends_ports]
    refine ⟨rfl, rfl, Keeps.ends ?_⟩
    exact ((s.stage.keeps_datum _).trans (Stage.keeps_ports _ s.stage.ports l)).mono (by simp) (by simp)
  · change (_ || !s.stage.portOn p || (s.stage.port p).barred) = true
    rcases hoff with hoff | hoff <;> rw [hoff] <;> simp

end

end Sys2Proof.Machine
end

section
/-!
PROOF. Frame windows, lost clocks, ramps and fades of a port (R330, R345, R346), and what the events of a port may change.
-/
namespace Sys2Proof.Machine

/-! ### Frame windows (R345) -/

section
variable {s : Stage} {p r bclks : Nat} {slots : List Nat}

/-- How far beyond the middle of the window of frame `e + 1` the datum of raw `r` lies, on the scale of `Stage.frameNear` (R340). -/
def Stage.pastFrame (s : Stage) (p r e : Nat) : Int :=
  256 * (s.portM p : Int) * (s.tick r).datum.at r * s.fs - s.psi p * s.portM p * unitsPerSec - 256 * (e + 1) * unitsPerSec

theorem Stage.windowEnd_unaligned (h : (s.port p).edge = none) : s.windowEnd p r bclks slots = s.tick r := by
  have hedge : ((s.tick r).port p).edge = none := h
  rw [Stage.windowEnd, hedge]

theorem Stage.windowEnd_open {e : Nat} (h : (s.port p).edge = some e) (hw : s.pastFrame p r e ≤ 96 * unitsPerSec) :
    s.windowEnd p r bclks slots = s.tick r := by
  have hedge : ((s.tick r).port p).edge = some e := h
  rw [Stage.windowEnd, hedge]
  exact if_pos hw

theorem Stage.windowEnd_missing {e : Nat} (h : (s.port p).edge = some e) (hw : 96 * unitsPerSec < s.pastFrame p r e) :
    s.windowEnd p r bclks slots = ((s.tick r).frameClose p bclks slots).frameLost p (e + 1) 1 := by
  have hedge : ((s.tick r).port p).edge = some e := h
  rw [Stage.windowEnd, hedge]
  exact if_neg (Int.not_le.mpr hw)

end

section
variable {s : State} {p r bclks : Nat} {slots : List Nat} (h : Live s .port p)
include h

theorem done_frameWindowEnd {P : Stage → Prop} (hp : P (s.stage.ends (s.stage.windowEnd p r bclks slots))) : Done (.frameWindowEnd p r bclks slots) s P :=
  done_block (f := fun t => t.windowEnd p r bclks slots) rfl h hp

/-- A command that finds nothing to do but the time moves on the datum alone. -/
theorem done_ticks {c : Instr} {f : Stage → Stage} (hc : exec c s = s.act fun t => t.block .port p f) (hf : f s.stage = s.stage.tick r) :
    Done c s (fun t => t.datum = (s.stage.tick r).datum ∧ Keeps [] [.datum] s.stage t) := by
  refine done_block hc h ?_
  rw [hf, Stage.ends_datum]
  exact ⟨rfl, (s.stage.keeps_datum _).ends⟩

theorem frameWindowEnd_unaligned (he : (s.stage.port p).edge = none) :
    Done (.frameWindowEnd p r bclks slots) s (fun t => t.datum = (s.stage.tick r).datum ∧ Keeps [] [.datum] s.stage t) :=
  done_ticks h (f := fun t => t.windowEnd p r bclks slots) rfl (Stage.windowEnd_unaligned he)

theorem frameWindowEnd_open {e : Nat} (he : (s.stage.port p).edge = some e) (hw : s.stage.pastFrame p r e ≤ 96 * unitsPerSec) :
    Done (.frameWindowEnd p r bclks slots) s (fun t => t.ports = s.stage.ports) := by
  refine done_frameWindowEnd h ?_
  rw [Stage.windowEnd_open he hw, Stage.ends_ports, Stage.tick_ports]

theorem frameWindowEnd_missing {e : Nat} (he : (s.stage.port p).edge = some e) (hw : 96 * unitsPerSec < s.stage.pastFrame p r e) :
    Done (.frameWindowEnd p r bclks slots) s (fun t => (t.port p).edge = none) := by
  refine done_frameWindowEnd h ?_
  rw [Stage.windowEnd_missing he hw, Stage.ends_port, Stage.edge_frameLost]

end

/-! ### Lost clocks (R328, R330) -/

/-- The frame that a port without its clock would have begun. -/
def Stage.unclockedFrame (s : Stage) (p : Nat) : Nat :=
  match (s.port p).edge with
  | some e => e + 1
  | none => (s.frameNear p (s.psi p) s.now).1

/-- A port takes a CLOCK fault, and its alignment and the phases it has learnt are gone. -/
def Stage.unclocked (s : Stage) (p : Nat) : Stage :=
  (s.portFaults p (s.unclockedFrame p) 4).putPort p { (s.portFaults p (s.unclockedFrame p) 4).port p with edge := none, phases := [] }

/-- A slave group loses CLK_OK, with its event. -/
def Stage.clkCleared (s : Stage) (g : Nat) : Stage := (s.putCg g { s.cg g with last := none, edges := [] }).raise (pPort g) 7

/-- Four frame periods have passed at raw `r` since datum `d`. -/
def Stage.clkSilent (s : Stage) (g d r : Nat) : Prop :=
  d * s.cgFrameRate (s.cgCfg g) (s.fld (pPort g) 0x0C4 17 0) + 4 * unitsPerSec ≤ (s.tick r).now * s.cgFrameRate (s.cgCfg g) (s.fld (pPort g) 0x0C4 17 0)

section
variable (s : Stage) {g : Nat}

theorem Stage.clockFault_eq : s.clockFault g = (s.portsOn g).foldl Stage.unclocked s := rfl

theorem Stage.edge_unclocked_same (p : Nat) : ((s.unclocked p).port p).edge = none := by rw [Stage.unclocked, Stage.port_putPort_same]

theorem Stage.edge_unclocked_stays (p : Nat) {q : Nat} (h : (s.port q).edge = none) : ((s.unclocked p).port q).edge = none := by
  by_cases hq : q = p
  · exact hq ▸ s.edge_unclocked_same q
  · rw [Stage.unclocked, Stage.port_putPort_other _ _ hq, (s.streams_portFaults _ 4).edge, h]

theorem Stage.groups_unclocked (p : Nat) : (s.unclocked p).groups = s.groups := (s.streams_portFaults (p := p) (s.unclockedFrame p) 4).groups

theorem Stage.keeps_unclocked (p : Nat) : Keeps [pPort p] [.ports] s (s.unclocked p) :=
  (s.streams_portFaults _ 4).keeps.comp (Stage.keeps_putPort _ _)

/-- Every port of the group loses its alignment. -/
theorem Stage.edge_clockFault {q : Nat} (hq : q < 32) (hg : s.portGroup q = g) : ((s.clockFault g).port q).edge = none := by
  have hmem : q ∈ s.portsOn g := List.mem_filter.mpr ⟨mem_upTo.mpr hq, by simpa using hg⟩
  rw [s.clockFault_eq]
  exact foldl_settles (p := fun t : Stage => (t.port q).edge = none) hmem (fun t => t.edge_unclocked_same q) (fun p _ t ht => t.edge_unclocked_stays p ht) s

theorem Stage.groups_clockFault : (s.clockFault g).groups = s.groups := by
  rw [s.clockFault_eq]
  exact foldl_keeps Stage.groups s fun t p _ => t.groups_unclocked p

theorem Stage.keeps_clockFault : Keeps ((upTo 32).map pPort) [.ports] s (s.clockFault g) := by
  rw [s.clockFault_eq]
  refine keeps_foldl (fun t p hp => (t.keeps_unclocked p).mono ?_ (by simp)) s
  exact List.cons_subset.mpr ⟨List.mem_map_of_mem (List.mem_filter.mp hp).1, List.nil_subset _⟩

theorem Stage.keeps_clkCleared : Keeps [] [.ports] s (s.clkCleared g) :=
  ((s.keeps_ports s.ports _).trans (Stage.keeps_raise _ _ (by decide))).mono (by simp) (by simp)

theorem Stage.clkLost_idle {r : Nat} (h : cgMaster (s.cgCfg g) = true ∨ (s.cg g).last = none) : s.clkLost g r = s.tick r := by
  have hmaster : cgMaster ((s.tick r).cgCfg g) = cgMaster (s.cgCfg g) := rfl
  have hlast : ((s.tick r).cg g).last = (s.cg g).last := rfl
  rw [Stage.clkLost, hmaster, hlast]
  rcases h with h | h
  · rw [h]; rfl
  · rw [h]; exact ite_self _

theorem Stage.clkLost_clears {d r : Nat} (hm : cgMaster (s.cgCfg g) = false) (hl : (s.cg g).last = some d) (hr : s.clkSilent g d r) :
    s.clkLost g r = ((s.tick r).clkCleared g).clockFault g := by
  have hmaster : cgMaster ((s.tick r).cgCfg g) = false := hm
  have hlast : ((s.tick r).cg g).last = some d := hl
  have hrate : (s.tick r).cgFrameRate ((s.tick r).cgCfg g) ((s.tick r).fld (pPort g) 0x0C4 17 0)
      = s.cgFrameRate (s.cgCfg g) (s.fld (pPort g) 0x0C4 17 0) := rfl
  rw [Stage.clkLost, hmaster, hlast]
  dsimp only
  rw [hrate, if_neg (Nat.not_lt.mpr hr)]
  rfl

theorem Stage.keeps_clkLost (r : Nat) : Keeps ((upTo 32).map pPort) [.datum, .ports] s (s.clkLost g r) := by
  have htick : Keeps ((upTo 32).map pPort) [.datum, .ports] s (s.tick r) := (s.keeps_datum _).mono (by simp) (by simp)
  unfold Stage.clkLost
  dsimp only
  split
  · exact htick
  · split
    · exact htick
    · refine iteInduction (fun _ => htick) fun _ => ?_
      exact htick.comp (((Stage.keeps_clkCleared _).mono (by simp) (by simp)).comp ((Stage.keeps_clockFault _).mono (by simp) (by simp)))

end

section
variable {s : State} {g r : Nat} (h : Live s .port g)
include h

theorem clkLost_idle (hi : cgMaster (s.stage.cgCfg g) = true ∨ (s.stage.cg g).last = none) :
    Done (.clkLost g r) s (fun t => t.datum = (s.stage.tick r).datum ∧ Keeps [] [.datum] s.stage t) :=
  done_ticks h (f := fun t => t.clkLost g r) rfl (s.stage.clkLost_idle hi)

theorem clkLost_clears {d : Nat} (hm : cgMaster (s.stage.cgCfg g) = false) (hl : (s.stage.cg g).last = some d) (hr : s.stage.clkSilent g d r) :
    Done (.clkLost g r) s (fun t => (t.cg g).last = none ∧ Raises (pPort g) 7 t
      ∧ ∀ q, q < 32 → s.stage.portGroup q = g → (t.port q).edge = none) := by
  refine done_block (f := fun t => t.clkLost g r) rfl h ?_
  rw [s.stage.clkLost_clears hm hl hr]
  set t := (s.stage.tick r).clkCleared g with ht
  have hgroup : ∀ q, t.portGroup q = s.stage.portGroup q := fun q => Stage.fld_congr (Stage.reg_raise_other _ _ (by omega)) 26 24
  have hevent : t.flag (pPort g) 0x014 7 = true := Stage.raise_sets _ _ _ (by decide)
  refine ⟨?_, Stage.ends_event _ _ (t.keeps_clockFault.2.1 _ _ hevent), fun q hq hg => ?_⟩
  · rw [Stage.ends_cg, Stage.cg, t.groups_clockFault]
    exact congrArg ClkGroup.last (Stage.cg_putCg_same (s.stage.tick r) _)
  · rw [Stage.ends_port, t.edge_clockFault hq ((hgroup q).trans hg)]

end

/-! ### Ramps and fades (R346) -/

section
variable (s : Stage) {p r : Nat} {tx : Bool}

/-- A direction in ACQUIRE holds nothing; a port of a slave group learns its phase afresh (R340). -/
theorem Stage.enterAcq_acquires : (s.enterAcq p tx).dir p tx = { st := 1 }
    ∧ (cgMaster (s.cgCfg (s.portGroup p)) = false → ((s.enterAcq p tx).port p).learning = true ∧ ((s.enterAcq p tx).port p).phases = []) := by
  unfold Stage.enterAcq
  extract_lets t src u
  have hu : u.dir p tx = { st := 1 } := by
    cases tx with
    | true => exact s.dir_putDir_same true _
    | false => exact (congrArg PortSt.rx (t.port_putPort_same _)).trans (s.dir_putDir_same false _)
  have hmaster : cgMaster (u.cgCfg (u.portGroup p)) = cgMaster (s.cgCfg (s.portGroup p)) := by cases tx <;> rfl
  rw [hmaster]
  split
  · rename_i hm
    exact ⟨hu, fun hs => absurd (hm.symm.trans hs) (by decide)⟩
  · rw [Stage.dir, Stage.port_putPort_same]
    exact ⟨hu, fun _ => ⟨rfl, rfl⟩⟩

theorem Stage.keeps_enterAcq : Keeps [pPort p] [.ports] s (s.enterAcq p tx) := by
  unfold Stage.enterAcq
  extract_lets t src u
  have hu : Keeps [pPort p] [.ports] s u :=
    (s.streams_putDir tx _).keeps.comp (iteInduction (fun _ => (Stage.Streams.refl t).keeps) fun _ => t.keeps_putPort _)
  exact hu.comp (iteInduction (fun _ => (u.keeps_setN _ (by decide) (by decide)).mono (by simp) (by simp)) fun _ => u.keeps_putPort _)

theorem Stage.portRampEnd_eq {f n : Nat} (hst : (s.dir p tx).st = 2) (hl : (s.dir p tx).live = some (f, n)) : s.portRampEnd p tx r
    = if (s.tick r).dirReached p tx (f + n) r then (s.tick r).putDir p tx { s.dir p tx with st := 3 } else s.tick r := by
  have hdir : (s.tick r).dir p tx = s.dir p tx := rfl
  rw [Stage.portRampEnd, hdir, hst, hl]
  simp only [hl]

theorem Stage.portFadeEnd_eq {f st n : Nat} (hf : (s.dir p tx).fade = some (f, st, n)) : s.portFadeEnd p tx r
    = if (s.tick r).dirReached p tx (f + (n + 1 - st)) r then (s.tick r).enterAcq p tx else s.tick r := by
  have hdir : ((s.tick r).dir p tx).fade = some (f, st, n) := hf
  rw [Stage.portFadeEnd, hdir]

theorem Stage.keeps_portRampEnd : Keeps [pPort p] [.datum, .ports] s (s.portRampEnd p tx r) := by
  have htick : Keeps [pPort p] [.datum, .ports] s (s.tick r) := (s.keeps_datum _).mono (by simp) (by simp)
  unfold Stage.portRampEnd
  dsimp only
  split
  · exact iteInduction (fun _ => htick.comp ((Stage.streams_putDir _ tx _).keeps.mono (by simp) (by simp))) fun _ => htick
  · exact htick

theorem Stage.keeps_portFadeEnd : Keeps [pPort p] [.datum, .ports] s (s.portFadeEnd p tx r) := by
  have htick : Keeps [pPort p] [.datum, .ports] s (s.tick r) := (s.keeps_datum _).mono (by simp) (by simp)
  unfold Stage.portFadeEnd
  dsimp only
  split
  · exact iteInduction (fun _ => htick.comp ((Stage.keeps_enterAcq _).mono (by simp) (by simp))) fun _ => htick
  · exact htick

theorem Stage.keeps_windowEnd (bclks : Nat) (slots : List Nat) : Keeps [pPort p] [.datum, .ports] s (s.windowEnd p r bclks slots) := by
  have htick : Keeps [pPort p] [.datum, .ports] s (s.tick r) := (s.keeps_datum _).mono (by simp) (by simp)
  cases hedge : (s.port p).edge with
  | none => exact Stage.windowEnd_unaligned hedge ▸ htick
  | some e =>
    by_cases hw : s.pastFrame p r e ≤ 96 * unitsPerSec
    · exact Stage.windowEnd_open hedge hw ▸ htick
    · rw [Stage.windowEnd_missing hedge (Int.not_le.mp hw)]
      exact htick.comp (((Stage.streams_frameClose _ bclks slots).keeps.comp (Stage.keeps_frameLost _ _ 1)).mono (by simp) (by simp))

end

section
variable {s : State} {p r f n : Nat} {tx : Bool} (h : Live s .port p)
include h

theorem portRampEnd_runs (hst : (s.stage.dir p tx).st = 2) (hl : (s.stage.dir p tx).live = some (f, n)) :
    ((s.stage.tick r).dirReached p tx (f + n) r = true → Done (.portRampEnd p tx r) s (fun t => t.dir p tx = { s.stage.dir p tx with st := 3 }))
    ∧ ((s.stage.tick r).dirReached p tx (f + n) r = false → Done (.portRampEnd p tx r) s (fun t => t.dir p tx = s.stage.dir p tx)) := by
  refine ⟨fun hr => ?_, fun hr => ?_⟩
  all_goals
    refine done_block (f := fun t => t.portRampEnd p tx r) rfl h ?_
    rw [s.stage.portRampEnd_eq hst hl, hr, Stage.ends_dir]
  · exact Stage.dir_putDir_same _ _ _
  · rfl

theorem portFadeEnd_acquires {st : Nat} (hf : (s.stage.dir p tx).fade = some (f, st, n)) :
    ((s.stage.tick r).dirReached p tx (f + (n + 1 - st)) r = true → Done (.portFadeEnd p tx r) s (fun t => t.dir p tx = { st := 1 }
      ∧ (cgMaster (s.stage.cgCfg (s.stage.portGroup p)) = false → (t.port p).learning = true ∧ (t.port p).phases = [])))
    ∧ ((s.stage.tick r).dirReached p tx (f + (n + 1 - st)) r = false → Done (.portFadeEnd p tx r) s (fun t => t.dir p tx = s.stage.dir p tx)) := by
  refine ⟨fun hr => ?_, fun hr => ?_⟩
  all_goals
    refine done_block (f := fun t => t.portFadeEnd p tx r) rfl h ?_
    rw [s.stage.portFadeEnd_eq hf, hr, Stage.ends_dir]
  · rw [Stage.ends_port]
    exact (s.stage.tick r).enterAcq_acquires
  · rfl

end

/-! ### What the events of a port may change -/

theorem fsyncEdge_frame (p r bclks : Nat) (slots : List Nat) (done : Option Nat) :
    Frame [.fsyncEdge p r bclks slots done] [pPort p] [.datum, .free, .blocks, .ports, .patch] :=
  frame_block (f := fun t => t.frameEdge p r bclks slots done) (fun _ => rfl) fun s =>
    iteInduction (fun _ => s.keeps_foreignEdge r) fun _ => s.keeps_fsyncEdge r bclks slots done

theorem portEvents_frame (p r bclks : Nat) (slots : List Nat) (tx : Bool) :
    Frame [.frameWindowEnd p r bclks slots, .portRampEnd p tx r, .portFadeEnd p tx r] [pPort p] [.datum, .ports] :=
  frame_cons (frame_block (f := fun t => t.windowEnd p r bclks slots) (fun _ => rfl) fun s => s.keeps_windowEnd bclks slots) <|
  frame_cons (frame_block (f := fun t => t.portRampEnd p tx r) (fun _ => rfl) fun s => s.keeps_portRampEnd) <|
  frame_block (f := fun t => t.portFadeEnd p tx r) (fun _ => rfl) fun s => s.keeps_portFadeEnd

theorem clkLost_frame (g r : Nat) : Frame [.clkLost g r] ((upTo 32).map pPort) [.datum, .ports] :=
  frame_block (f := fun t => t.clkLost g r) (fun _ => rfl) fun s => s.keeps_clkLost r

end Sys2Proof.Machine
end

section
/-!
PROOF. Registers of the clock groups and the master clocks (R328, R330, R332): what a write of CG_CFG, CG_RATE and MCLK_CFG that passes its tests
leaves.
-/
namespace Sys2Proof.Machine

/-- A bit that a register takes as it is written reads as written. -/
theorem RegDef.bit_merge_masked (d : RegDef) (old n : Nat) {i : Nat} (hi : i < 32) (hd : bit d.rw i = true) : bit (d.merge old (d.masked n)) i = bit n i := by
  rw [d.bit_merge _ _ hi, if_pos hd, d.bit_masked _ hi, hd, Bool.true_or, Bool.and_true]

theorem bits_setBit_below (n i hi lo : Nat) (b : Bool) (h : hi < i) (hl : lo ≤ hi + 1) : bits (setBit n i b) hi lo = bits n hi lo :=
  bits_setBits_below n i i _ hi lo (Nat.le_succ i) h hl

/-! ### CG_CFG and CG_RATE (R328, R330) -/

/-- A master clock has a frequency within its limit. -/
def Stage.mclkFits (s : Stage) (n : Nat) : Bool :=
  match s.mclkFreq n with
  | some f => decide (f ≤ 49152000)
  | none => false

section
variable (s : Stage)

theorem Stage.mclkJudge_eq (n : Nat) (w : Bool) : s.mclkJudge n w = (s.setFlag (pPort n) 0x0CC 30 (s.flag (pPort n) 0x0CC 31 && s.mclkFits n)).raiseIf
    (s.flag (pPort n) 0x0CC 31 && !s.mclkFits n && (s.flag (pPort n) 0x0CC 30 || w)) (pPort n) 9 := rfl

/-- A master clock is judged in MCLK_CFG and the events of its page. -/
theorem Stage.reg_mclkJudge_other (n : Nat) (w : Bool) {q x : Nat} (hx : x < 4096) (hc : q = pPort n → x ≠ 0x0CC) (hn : x ≠ 0x014) :
    (s.mclkJudge n w).reg q x = s.reg q x := by
  have hne : q * 4096 + x ≠ pPort n * 4096 + 0x0CC := by
    by_cases hq : q = pPort n
    · have := hc hq
      omega
    · exact address_ne hx (by decide) hq
  have hev : ∀ y, q * 4096 + x ≠ y * 4096 + 0x014 := fun y => by clear hc hne; omega
  rw [s.mclkJudge_eq, Stage.reg_raiseIf_other _ _ _ (hev _), Stage.reg_setFlag_other _ _ _ hne]

theorem Stage.reg_mclkJudgeAll_other {q x : Nat} (hx : x < 4096) (hc : x ≠ 0x0CC) (hn : x ≠ 0x014) : s.mclkJudgeAll.reg q x = s.reg q x := by
  unfold Stage.mclkJudgeAll
  exact Stage.reg_foldl _ _ _ fun t n _ => t.reg_mclkJudge_other n false hx (fun _ => hc) hn

theorem Stage.groups_mclkJudgeAll : s.mclkJudgeAll.groups = s.groups := by
  unfold Stage.mclkJudgeAll
  exact foldl_keeps Stage.groups s fun t n _ => by rw [t.mclkJudge_eq, Stage.raiseIf_groups, Stage.setFlag_groups]

end

theorem cgCfgWrite_restarts {s : State} {m : Master} {g v : Nat} (rate : Bool) (h : Passes s m .port g (if rate then 0x0C4 else 0x0C0) v) :
    Done (.cgCfgWrite m g rate v) s (fun t => Written s .port g (if rate then 0x0C4 else 0x0C0) v t ∧ t.cg g = {}) := by
  have hplain : plainReg .port (if rate then 0x0C4 else 0x0C0) = true := by cases rate <;> rfl
  have heff : ∀ (x : Stage) (old w : Nat), x.written .port g (if rate then 0x0C4 else 0x0C0) old w = x.cgWritten g := fun x old w => by cases rate <;> rfl
  refine done_passes h hplain rfl ?_
  rw [heff]
  set x := s.stage.wrote .port g (if rate then 0x0C4 else 0x0C0) v
  refine ⟨written_of_kept h hplain ?_, ?_⟩
  · exact Stage.reg_mclkJudgeAll_other (x.putCg g {}) (by split <;> decide) (by split <;> decide) (by split <;> decide)
  · have hgroups : (x.putCg g {}).mclkJudgeAll.cg g = (x.putCg g {}).cg g := by
      rw [Stage.cg, Stage.groups_mclkJudgeAll, Stage.cg]
    exact (Stage.ends_cg ..).trans (hgroups.trans (x.cg_putCg_same {}))

/-! ### MCLK_CFG (R332) -/

section
variable (s : Stage) {n : Nat}

theorem Stage.mclkFits_iff : s.mclkFits n = true ↔ ∃ f, s.mclkFreq n = some f ∧ f ≤ 49152000 := by
  unfold Stage.mclkFits
  cases s.mclkFreq n with
  | none => simp
  | some f => simp

/-- The frequency depends on the low bits of MCLK_CFG and on other registers. -/
theorem Stage.mclkFreq_congr {s t : Stage} (hreg : ∀ q x, x < 4096 → x ≠ 0x014 → x ≠ 0x0CC → t.reg q x = s.reg q x)
    (hlow : ∀ hi lo, hi < 30 → lo ≤ hi → t.fld (pPort n) 0x0CC hi lo = s.fld (pPort n) 0x0CC hi lo) : t.mclkFreq n = s.mclkFreq n := by
  have hfld : ∀ q x hi lo, x < 4096 → x ≠ 0x014 → x ≠ 0x0CC → t.fld q x hi lo = s.fld q x hi lo := fun q x hi lo hx hn hc =>
    Stage.fld_congr (hreg q x hx hn hc) hi lo
  have hmult : bits (t.regN (pPort n) 0x0CC) 1 0 = bits (s.regN (pPort n) 0x0CC) 1 0 := hlow 1 0 (by decide) (by decide)
  have hsrc : bits (t.regN (pPort n) 0x0CC) 19 16 = bits (s.regN (pPort n) 0x0CC) 19 16 := hlow 19 16 (by decide) (by decide)
  have hgroup : bits (t.regN (pPort n) 0x0CC) 18 16 = bits (s.regN (pPort n) 0x0CC) 18 16 := hlow 18 16 (by decide) (by decide)
  have hcode : t.rateCode = s.rateCode := hfld _ _ _ _ (by decide) (by decide) (by decide)
  have hcfg : ∀ g, t.cgCfg g = s.cgCfg g := fun g => Stage.regN_congr (hreg _ _ (by decide) (by decide) (by decide))
  have hrate : ∀ v r, t.cgFrameRate v r = s.cgFrameRate v r := fun v r => by
    rw [Stage.cgFrameRate, Stage.cgFrameRate, Stage.fs, Stage.fs, hcode, Stage.fastM, Stage.fastM, hfld _ _ _ _ (by decide) (by decide) (by decide)]
  simp only [Stage.mclkFreq, hmult, hsrc, hgroup, hcode, hcfg, hrate, hfld _ 0x0C4 17 0 (by decide) (by decide) (by decide)]

theorem Stage.mclkFreq_ends (t : Stage) : (s.ends t).mclkFreq n = t.mclkFreq n :=
  Stage.mclkFreq_congr (fun _ _ hx hn _ => s.ends_reg t hx hn) fun hi lo _ _ => s.ends_fld t hi lo (by decide) (by decide)

theorem Stage.fld_mclkJudge_low (w : Bool) {hi lo : Nat} (h : hi < 30) (hl : lo ≤ hi) :
    (s.mclkJudge n w).fld (pPort n) 0x0CC hi lo = s.fld (pPort n) 0x0CC hi lo := by
  rw [s.mclkJudge_eq, Stage.fld_congr (Stage.reg_raiseIf_other _ _ _ (by omega)), Stage.fld, Stage.regN_setFlag_same _ _ _ _ _ (by decide),
    bits_setBit_below _ _ _ _ _ h (by omega)]
  rfl

theorem Stage.mclkFreq_mclkJudge (w : Bool) : (s.mclkJudge n w).mclkFreq n = s.mclkFreq n :=
  Stage.mclkFreq_congr (fun _ _ hx hn hc => s.reg_mclkJudge_other n w hx (fun _ => hc) hn) fun _ _ h hl => s.fld_mclkJudge_low w h hl

/-- EN stays as it is, and RUN follows it within the limit. -/
theorem Stage.flag_mclkJudge (w : Bool) : (s.mclkJudge n w).flag (pPort n) 0x0CC 31 = s.flag (pPort n) 0x0CC 31
    ∧ (s.mclkJudge n w).flag (pPort n) 0x0CC 30 = (s.flag (pPort n) 0x0CC 31 && s.mclkFits n) := by
  have hevent : ∀ (u : Stage) c i, (u.raiseIf c (pPort n) 9).flag (pPort n) 0x0CC i = u.flag (pPort n) 0x0CC i := fun u c i =>
    Stage.flag_congr (Stage.reg_raiseIf_other _ _ _ (by omega)) i
  rw [s.mclkJudge_eq, hevent, hevent, Stage.flag_setFlag_bit _ _ _ _ (by decide) (by decide), Stage.flag_setFlag_same _ _ _ _ _ (by decide)]
  exact ⟨rfl, rfl⟩

/-- A clock that a write asks for beyond the limit raises MCLK_RANGE. -/
theorem Stage.mclkJudge_raises (hen : s.flag (pPort n) 0x0CC 31 = true) (hfit : s.mclkFits n = false) :
    (s.mclkJudge n true).flag (pPort n) 0x014 9 = true := by
  rw [s.mclkJudge_eq, hen, hfit, Bool.or_true]
  exact Stage.raise_sets _ _ _ (by decide)

end

/-- MCLK_CFG stands on the first four PORT pages (R332). -/
theorem mclk_row {n : Nat} (h : (regDef .port n 0x0CC).isSome = true) : rowOf .port n 0x0CC = { off := 0x0CC, rst := 0, rw := 0x800F0003 } := by
  have hn : n < 4 := by
    by_contra hn
    simp [regDef, commonDefs, pageDefs, portDefs, enableRW, hn] at h
  interval_cases n <;> rfl

theorem mclkCfgWrite_judges {s : State} {m : Master} {n v : Nat} (h : Passes s m .port n 0x0CC v) : Done (.mclkCfgWrite m n v) s (fun t =>
    t.bus.resp = .okay ∧ t.flag (pPort n) 0x0CC 31 = bit v 31
      ∧ (t.flag (pPort n) 0x0CC 30 = true ↔ bit v 31 = true ∧ ∃ f, t.mclkFreq n = some f ∧ f ≤ 49152000)
      ∧ (bit v 31 = true → t.flag (pPort n) 0x0CC 30 = false → Raises (pPort n) 9 t)) := by
  refine done_passes h rfl rfl ?_
  have heff : ∀ (x : Stage) (old w : Nat), x.written .port n 0x0CC old w = x.mclkJudge n true := fun _ _ _ => rfl
  rw [heff]
  have hen : (s.stage.wrote .port n 0x0CC v).flag (pPort n) 0x0CC 31 = bit v 31 := by
    refine (congrArg (bit · 31) (Stage.regN_wrote h)).trans ?_
    exact RegDef.bit_merge_masked _ _ _ (by decide) (by rw [mclk_row h.2.1]; decide)
  generalize s.stage.wrote .port n 0x0CC v = x at hen ⊢
  obtain ⟨h31, h30⟩ := x.flag_mclkJudge (n := n) true
  have hflag : ∀ i, (s.stage.ends ((x.mclkJudge n true).respond .okay)).flag (pPort n) 0x0CC i = (x.mclkJudge n true).flag (pPort n) 0x0CC i := fun i =>
    Stage.ends_flag _ _ i (by decide) (by decide)
  have hfreq : (s.stage.ends ((x.mclkJudge n true).respond .okay)).mclkFreq n = x.mclkFreq n :=
    (Stage.mclkFreq_ends _ _).trans (x.mclkFreq_mclkJudge true)
  rw [hflag, hflag, hfreq, h31, h30, hen, ← x.mclkFits_iff, Bool.and_eq_true]
  refine ⟨Stage.ends_respond_resp _ _ _, rfl, Iff.rfl, fun hv hr => Stage.ends_event _ _ (x.mclkJudge_raises (hen.trans hv) ?_)⟩
  rwa [hv, Bool.true_and] at hr

end Sys2Proof.Machine
end

section
/-!
PROOF. PORT_CFG, PDM_CLK_CFG and BLK_FRAC (R333, R343, R346, R362): a direction that is not to run is off, a PDM clock runs as its EN asks, and a read
latches the block set.
-/
namespace Sys2Proof.Machine

/-! ### PORT_CFG (R333, R346) -/

section
variable (s : Stage) {p : Nat}

/-- From `s` to `t` the other direction of PORT `p` than `tx` is the same, and so is whether the port may run. -/
def Stage.Beside (p : Nat) (tx : Bool) (s t : Stage) : Prop := t.dir p (!tx) = s.dir p (!tx) ∧ (t.port p).barred = (s.port p).barred

theorem Stage.Beside.trans {t u : Stage} {tx : Bool} {s : Stage} (h : Stage.Beside p tx s t) (h' : Stage.Beside p tx t u) : Stage.Beside p tx s u :=
  ⟨h'.1.trans h.1, h'.2.trans h.2⟩

theorem Stage.beside_putDir (tx : Bool) (d : PortDir) : Stage.Beside p tx s (s.putDir p tx d) :=
  ⟨s.dir_putDir_other d (by cases tx <;> decide), by rw [Stage.port_putDir]⟩

theorem Stage.beside_putPort (tx : Bool) {v : PortSt} (hr : v.rx = (s.port p).rx) (ht : v.tx = (s.port p).tx) (hb : v.barred = (s.port p).barred) :
    Stage.Beside p tx s (s.putPort p v) := by
  rw [Stage.Beside, Stage.dir, Stage.dir, Stage.port_putPort_same, hr, ht]
  exact ⟨rfl, hb⟩

theorem Stage.beside_enterAcq (tx : Bool) : Stage.Beside p tx s (s.enterAcq p tx) := by
  unfold Stage.enterAcq
  extract_lets t src u
  have hu : Stage.Beside p tx s u :=
    (s.beside_putDir tx _).trans (iteInduction (fun _ => ⟨rfl, rfl⟩) fun _ => t.beside_putPort tx rfl rfl rfl)
  exact hu.trans (iteInduction (fun _ => ⟨rfl, rfl⟩) fun _ => u.beside_putPort tx rfl rfl rfl)

theorem Stage.beside_dirFollow (tx : Bool) : Stage.Beside p tx s (Stage.dirFollow p s tx) := by
  unfold Stage.dirFollow
  refine iteInduction (fun _ => iteInduction (fun _ => s.beside_enterAcq tx) fun _ => ⟨rfl, rfl⟩) fun _ => ?_
  exact (s.beside_putDir tx {}).trans (iteInduction (fun _ => ⟨rfl, rfl⟩) fun _ => Stage.beside_putPort _ tx rfl rfl rfl)

theorem Stage.dirWanted_dirFollow (tx b : Bool) : (Stage.dirFollow p s tx).dirWanted p b = s.dirWanted p b := by
  have hflag : ∀ x i, x < 0x084 → (Stage.dirFollow p s tx).flag (pPort p) x i = s.flag (pPort p) x i := fun x i hx =>
    Stage.flag_congr (s.reg_dirFollow p tx hx) i
  rw [Stage.dirWanted, Stage.portOn, hflag _ _ (by decide), hflag _ _ (by decide), (s.beside_dirFollow tx).2]
  rfl

theorem Stage.dirFollow_stops {tx : Bool} (h : s.dirWanted p tx = false) : (Stage.dirFollow p s tx).dir p tx = {} := by
  unfold Stage.dirFollow
  rw [h, Bool.false_and, if_neg (by decide)]
  cases tx with
  | true => exact s.dir_putDir_same true {}
  | false => exact congrArg PortSt.rx ((Stage.port_putPort_same _ _).trans rfl) |>.trans (s.dir_putDir_same false {})

/-- A direction that is not to run is off. -/
theorem Stage.portFollow_stops {tx : Bool} (h : (s.portFollow p).dirWanted p tx = false) : (s.portFollow p).dir p tx = {} := by
  have hfollow : s.portFollow p = Stage.dirFollow p (Stage.dirFollow p s false) true := rfl
  rw [hfollow, Stage.dirWanted_dirFollow] at h
  rw [hfollow]
  cases tx with
  | true => exact Stage.dirFollow_stops _ h
  | false =>
    rw [Stage.dirWanted_dirFollow] at h
    exact (Stage.beside_dirFollow _ true).1.trans (s.dirFollow_stops h)

end

theorem portCfgWrite_stops {s : State} {m : Master} {p v : Nat} (h : Passes s m .port p 0x080 v) : Done (.portCfgWrite m p v) s (fun t =>
    Written s .port p 0x080 v t ∧ ∀ tx : Bool, t.dirWanted p tx = false → t.dir p tx = {}) := by
  refine done_passes h rfl rfl ?_
  have heff : ∀ (x : Stage) (old w : Nat), x.written .port p 0x080 old w = x.portFollow p := fun _ _ _ => rfl
  rw [heff]
  generalize hx : s.stage.wrote .port p 0x080 v = x
  refine ⟨written_of_kept h rfl ?_, fun tx hoff => ?_⟩
  · rw [hx]
    exact Stage.reg_foldl _ _ x fun t tx _ => Stage.reg_dirFollow p t tx (by decide)
  · set t := (x.portFollow p).respond .okay
    have hwanted : (s.stage.ends t).dirWanted p tx = t.dirWanted p tx := by
      rw [Stage.dirWanted, Stage.portOn, Stage.ends_flag _ _ _ (by decide) (by decide), Stage.ends_flag _ _ _ (by decide) (by decide), Stage.ends_port]
      rfl
    exact (Stage.ends_dir ..).trans (x.portFollow_stops (hwanted.symm.trans hoff))

/-! ### PDM_CLK_CFG (R362) -/

theorem Stage.regs_decClear (s : Stage) (c k i : Nat) : (s.decClear c k i).regs = s.regs := by
  unfold Stage.decClear
  dsimp only
  exact iteInduction (motive := fun t : Stage => t.regs = s.regs) (fun _ => rfl) fun _ =>
    iteInduction (motive := fun t : Stage => t.regs = s.regs) (fun _ => rfl) fun _ => rfl

/-- EN stays as it is, and RUN is EN. -/
theorem Stage.flag_pdmWritten (s : Stage) (k : Nat) : (s.pdmWritten k).flag pDecim (0x0B0 + 4 * k) 31 = s.flag pDecim (0x0B0 + 4 * k) 31
    ∧ (s.pdmWritten k).pdmRun k = s.flag pDecim (0x0B0 + 4 * k) 31 := by
  unfold Stage.pdmWritten
  extract_lets off was run t
  have hregs : ∀ u : Stage, u.regs = t.regs → u.flag pDecim off 31 = run ∧ u.pdmRun k = run := fun u hu => by
    have hflag : ∀ i, u.flag pDecim off i = t.flag pDecim off i := Stage.flag_congr (by rw [Stage.reg, hu]; rfl)
    rw [Stage.pdmRun, hflag, hflag]
    exact ⟨Stage.flag_setFlag_bit _ _ _ _ (by decide) (by decide), Stage.flag_setFlag_same _ _ _ _ _ (by decide)⟩
  refine hregs _ (iteInduction (motive := fun u : Stage => u.regs = t.regs) (fun _ => ?_) fun _ => rfl)
  exact foldl_keeps Stage.regs t fun u c _ => iteInduction (motive := fun w : Stage => w.regs = u.regs) (fun _ => u.regs_decClear c _ 0) fun _ => rfl

/-- The four PDM clocks have one row. -/
theorem rw_pdmClkCfg {k : Nat} (hk : k < 4) : (rowOf .decim 0 (0x0B0 + 4 * k)).rw = 0x80000007 := by
  interval_cases k <;> rfl

theorem Stage.written_pdmClkCfg (s : Stage) {k : Nat} (hk : k < 4) (old w : Nat) : s.written .decim 0 (0x0B0 + 4 * k) old w = s.pdmWritten k := by
  interval_cases k <;> rfl

theorem pdmClkCfgWrite_runs {s : State} {m : Master} {k v : Nat} (hk : k < 4) (h : Passes s m .decim 0 (0x0B0 + 4 * k) v) :
    Done (.pdmClkCfgWrite m k v) s (fun t => t.bus.resp = .okay ∧ t.flag pDecim (0x0B0 + 4 * k) 31 = bit v 31 ∧ t.pdmRun k = bit v 31) := by
  have hexec : exec (.pdmClkCfgWrite m k v) s = s.act fun t => t.access m (PageKind.decim.page 0) (0x0B0 + 4 * k) v := by
    conv_rhs => rw [← Nat.mod_eq_of_lt hk]
    rfl
  refine done_passes h (plainReg_of_range (by decide) (by decide) (by omega) (by omega)) hexec ?_
  have hen : (s.stage.wrote .decim 0 (0x0B0 + 4 * k) v).flag pDecim (0x0B0 + 4 * k) 31 = bit v 31 := by
    refine (congrArg (bit · 31) (Stage.regN_wrote h)).trans ?_
    exact RegDef.bit_merge_masked _ _ _ (by decide) (by rw [rw_pdmClkCfg hk]; decide)
  rw [Stage.written_pdmClkCfg _ hk]
  generalize s.stage.wrote .decim 0 (0x0B0 + 4 * k) v = x at hen ⊢
  obtain ⟨h31, h30⟩ := x.flag_pdmWritten k
  have hflag : ∀ i, (s.stage.ends ((x.pdmWritten k).respond .okay)).flag pDecim (0x0B0 + 4 * k) i = (x.pdmWritten k).flag pDecim (0x0B0 + 4 * k) i :=
    fun i => Stage.ends_flag _ _ i (by omega) (by omega)
  exact ⟨Stage.ends_respond_resp _ _ _, (hflag 31).trans (h31.trans hen), (hflag 30).trans (h30.trans hen)⟩

/-! ### BLK_FRAC (R343) -/

theorem blkFracRead_latches {s : State} {m : Master} {p : Nat} (h : Live s .port p) : Done (.blkFracRead m p) s (fun t =>
    t.bus.resp = .okay ∧ (t.port p).blkLatch = (s.stage.port p).blkAt ∧ Keeps [] [.bus, .ports] s.stage t) := by
  refine done_read (k := .port) (i := p) (m := m) (off := 0x0A8) h rfl ?_
  have heff : s.stage.readEffect .port p 0x0A8 = s.stage.blkLatch p := rfl
  rw [heff]
  set w := Word.ofNat ((s.stage.blkLatch p).readReg m (PageKind.port.page p) 0x0A8)
  refine ⟨by rw [Stage.ends_bus]; rfl, ?_, ?_⟩
  · rw [Stage.ends_port]
    exact congrArg PortSt.blkLatch (s.stage.port_putPort_same (p := p) _)
  · have hlatch : Keeps [] [.ports] s.stage (s.stage.blkLatch p) := s.stage.keeps_ports _ s.stage.groups
    exact ((hlatch.trans (Stage.keeps_answer _ w)).mono (by simp) (by simp)).ends

end Sys2Proof.Machine
end

section
/-!
PROOF. SYNC (R368, R373): a command that joins the waiting changes, waits for its datum, has expired or is refused.
-/
namespace Sys2Proof.Machine

/-! ### What a SYNC reads -/

/-- From `s` to `t` all that a SYNC reads is the same, and so is the ring. -/
structure Stage.SameSync (s t : Stage) : Prop where
  datum : t.datum = s.datum
  waiting : t.waiting = s.waiting
  syncs : t.syncs = s.syncs
  dueNow : t.dueNow = s.dueNow
  ring : s.SameRing t

section
variable {s t : Stage}

theorem Stage.SameSync.refl (s : Stage) : s.SameSync s := ⟨rfl, rfl, rfl, rfl, fun _ _ _ => rfl, rfl, rfl⟩

theorem Stage.SameSync.trans {u : Stage} (h : s.SameSync t) (h' : t.SameSync u) : s.SameSync u :=
  ⟨h'.datum.trans h.datum, h'.waiting.trans h.waiting, h'.syncs.trans h.syncs, h'.dueNow.trans h.dueNow, h.ring.trans h'.ring⟩

section
variable (h : s.SameSync t)
include h

theorem Stage.SameSync.now : t.now = s.now := by rw [Stage.now, h.datum]; rfl

theorem Stage.SameSync.datumOf (a b : Nat) : t.datumOf a b = s.datumOf a b := by rw [Stage.datumOf, h.now]; rfl

theorem Stage.SameSync.places : t.places = s.places := by rw [Stage.places, h.waiting]; rfl

theorem Stage.SameSync.timedSyncs : t.timedSyncs = s.timedSyncs := by rw [Stage.timedSyncs, h.syncs]; rfl

end

theorem Stage.Issued.sameSync (h : s.Issued t) : s.SameSync t := by
  have hring := h.sameRing
  obtain ⟨_, _, _, _, rfl⟩ := h
  exact ⟨rfl, rfl, rfl, rfl, hring⟩

/-- A message to a link changes at most the status of its lanes. -/
theorem Stage.reg_forward_other (s : Stage) (b : Nat) (r : FwdRec) {q x : Nat} (h : ∀ i, q * 4096 + x ≠ lanePage i * 4096 + (laneBase i + 4)) :
    (s.forward b r).reg q x = s.reg q x := by
  have hwake : ∀ n, (s.linkWake n).reg q x = s.reg q x := fun n => Stage.reg_foldl _ _ s fun t k _ => by
    split
    · exact t.reg_setFld_other _ _ _ (h _)
    · rfl
  unfold Stage.forward Stage.ctlSend
  split
  · split
    · obtain ⟨l, o, hp⟩ := Stage.ctlPump_frame _ 32 ((s.linkWake _).putLink _ _)
      exact (congrArg (·.reg q x) hp).trans (hwake _)
    · rfl
  · rfl

theorem Stage.sameSync_forward (s : Stage) (b : Nat) (r : FwdRec) : s.SameSync (s.forward b r) := by
  have hdelay : (s.forward b r).fld 0x2A0 0x088 7 0 = s.fld 0x2A0 0x088 7 0 := Stage.fld_congr (s.reg_forward_other b r fun i => by
    unfold lanePage laneBase
    split <;> omega) 7 0
  have hring := s.sameRing_forward b r
  obtain ⟨_, _, _, hf⟩ := s.sent_forward b r
  refine ⟨by rw [hf], by rw [hf], by rw [hf], ?_, hring⟩
  have hmode : (s.forward b r).mode = s.mode := Stage.fld_congr (hring.1 0x0E0 (by decide) (by decide)) 3 0
  have hdatum : (s.forward b r).datum = s.datum := by rw [hf]
  rw [Stage.dueNow, Stage.dueNow, Stage.applyDelay, Stage.applyDelay, hdelay, hmode, hdatum]

theorem Stage.sameSync_syncForward (s : Stage) (c : Cmd) : s.SameSync (s.syncForward c) := by
  unfold Stage.syncForward
  exact iteInduction (fun _ => iteInduction (fun _ => s.sameSync_forward _ _) fun _ => .refl s) fun _ =>
    iteInduction (fun _ => s.sameSync_forward _ _) fun _ => .refl s

end

/-! ### The command -/

section
variable (s : Stage) {c : Cmd}

/-- A SYNC of the next boundary joins the waiting changes. -/
theorem Stage.syncCmd_joins (hb : bit c.a0.toNat 31 = false) (hp : s.places < 4096) : ∃ n, s.syncCmd c = { s with
    waiting := s.waiting ++ [{ due := s.dueNow, cls := c.cls, kind := .sync (bits c.a0.toNat 15 0) (some c), ord := s.order }], order := n } := by
  unfold Stage.syncCmd
  dsimp only
  rw [if_neg (by rw [hb]; decide), if_neg (by omega)]
  exact ⟨_, rfl⟩

section
variable (hb : bit c.a0.toNat 31 = true)
include hb

theorem Stage.syncCmd_outOfRange (hn : 1000000000 ≤ bits c.a2.toNat 29 0) : s.syncCmd c = s.complete pDecim c stRefused 0#32 := by
  unfold Stage.syncCmd
  dsimp only
  rw [if_pos hb, if_pos hn]

variable (hn : bits c.a2.toNat 29 0 < 1000000000)
include hn

theorem Stage.syncCmd_expired (ht : s.datumOf c.a1.toNat (bits c.a2.toNat 29 0) < s.now) : s.syncCmd c = s.complete pDecim c stExpired 0#32 := by
  unfold Stage.syncCmd
  dsimp only
  rw [if_pos hb, if_neg (by omega), if_pos ht]

variable (ht : s.now ≤ s.datumOf c.a1.toNat (bits c.a2.toNat 29 0))
include ht

theorem Stage.syncCmd_timed (hw : s.timedSyncs < 16) : s.syncCmd c = { s with
    syncs := s.syncs ++ [{ mask := bits c.a0.toNat 15 0, datum := s.datumOf c.a1.toNat (bits c.a2.toNat 29 0), cmd := some c }] } := by
  unfold Stage.syncCmd Stage.syncAt
  dsimp only
  rw [if_pos hb, if_neg (by omega), if_neg (by omega), if_neg (show ¬ 16 ≤ s.timedSyncs by omega)]
  rfl

theorem Stage.syncCmd_full (hw : 16 ≤ s.timedSyncs) : s.syncCmd c = s.complete pDecim c stRefused 0#32 := by
  unfold Stage.syncCmd Stage.syncAt
  dsimp only
  rw [if_pos hb, if_neg (by omega), if_neg (by omega), if_pos hw]
  rfl

end

end

/-! ### A SYNC on an idle page -/

section
variable {s : State} {m : Master} {a0 a1 a2 : Nat} {c : Cmd} (h : Ready s pDecim)
  (hc : c = s.stage.issuedCmd m pDecim 1 [Word.ofNat a0, Word.ofNat a1, Word.ofNat a2])
include h hc

/-- It starts at once, in a state that differs in nothing it reads. -/
theorem done_sync {P : Stage → Prop}
    (hp : ∀ v, s.stage.SameSync v → P (s.stage.ends ((v.syncCmd c).withBus { resp := .okay, data := [] }))) : Done (.sync m a0 a1 a2) s P := by
  refine done_act (f := fun s => s.cmdWith m pDecim 1 [Word.ofNat a0, Word.ofNat a1, Word.ofNat a2]) rfl h.1 ?_
  rw [h.cmdWith m (by decide) _ (k := .decim) (i := 0) rfl (by decide), ← hc]
  set u := s.stage.issued m pDecim 1 [Word.ofNat a0, Word.ofNat a1, Word.ofNat a2]
  have hu : s.stage.Issued u := h.issued m (by decide) _
  have hrun : u.runCmd .decim 0 c = (u.syncForward c).syncCmd c := if_pos (by rw [hc]; rfl)
  rw [hrun]
  exact hp _ (hu.sameSync.trans (u.sameSync_syncForward c))

omit h in
/-- The arguments as the command holds them. -/
theorem sync_args : bit c.a0.toNat 31 = bit a0 31 ∧ bits c.a0.toNat 15 0 = a0 % 65536 ∧ bits c.a2.toNat 29 0 = bits a2 29 0 ∧ c.cls = m.cls := by
  obtain ⟨ha0, -, ha2⟩ := s.stage.issuedCmd_args m pDecim 1 (Word.ofNat a0) (Word.ofNat a1) (Word.ofNat a2)
  rw [hc, ha0, ha2, bit_toNat_ofNat a0 (by decide), bits_toNat_ofNat a0 (by decide) (by decide), bits_toNat_ofNat a2 (by decide) (by decide)]
  exact ⟨rfl, congrArg (· % 65536) (Nat.div_one a0), rfl, rfl⟩

omit h in
/-- The datum that its arguments name. -/
theorem sync_datum {at0 : Nat} (hat : at0 = s.stage.datumOf (a1 % 2 ^ 32) (a2 % 2 ^ 30)) {v : Stage} (hv : s.stage.SameSync v) :
    v.datumOf c.a1.toNat (bits c.a2.toNat 29 0) = at0 := by
  obtain ⟨-, ha1, ha2⟩ := s.stage.issuedCmd_args m pDecim 1 (Word.ofNat a0) (Word.ofNat a1) (Word.ofNat a2)
  have hns : bits a2 29 0 = a2 % 2 ^ 30 := congrArg (· % 2 ^ 30) (Nat.div_one a2)
  rw [hv.datumOf, hc, ha1, ha2, Word.toNat_ofNat, bits_toNat_ofNat a2 (by decide) (by decide), hns, hat]

theorem sync_joins (hb : bit a0 31 = false) (hp : s.stage.places < 4096) : Done (.sync m a0 a1 a2) s (fun t => ∃ o, t.waiting = s.stage.waiting
    ++ [{ due := s.stage.dueNow, cls := m.cls, kind := .sync (a0 % 65536) (some c), ord := o }]) := by
  obtain ⟨hbit, hmask, -, hcls⟩ := sync_args hc
  refine done_sync h hc fun v hv => ⟨v.order, ?_⟩
  obtain ⟨_, hrun⟩ := v.syncCmd_joins (hbit.trans hb) (hv.places ▸ hp)
  rw [Stage.ends_waiting, hrun, hmask, hcls, hv.waiting, hv.dueNow]
  rfl

section
variable (hring : RingFree s.stage)
include hring

/-- One that completes as it starts leaves its record, and the SYNCs that wait as they are. -/
theorem sync_completes {st : Nat} (hst : st < 256) (hrun : ∀ v, s.stage.SameSync v → v.syncCmd c = v.complete pDecim c st 0#32) :
    Done (.sync m a0 a1 a2) s (fun t => t.syncs = s.stage.syncs ∧ Recorded s.stage pDecim c st 0#32 t) := by
  refine done_sync h hc fun v hv => ?_
  rw [hrun v hv]
  have hsyncs : (v.complete pDecim c st 0#32).syncs = v.syncs := by
    obtain ⟨_, _, _, _, hf⟩ := v.complete_frame pDecim c st 0#32
    rw [hf]
  exact ⟨(Stage.ends_syncs ..).trans (hsyncs.trans hv.syncs), (Stage.recorded_complete hring hv.ring pDecim c 0#32 hst).ends_withBus _ _⟩

end

section
variable {at0 : Nat} (hat : at0 = s.stage.datumOf (a1 % 2 ^ 32) (a2 % 2 ^ 30)) (hb : bit a0 31 = true)
include hat hb

theorem sync_waits (hns : bits a2 29 0 < 1000000000) (hlate : s.stage.now ≤ at0) (hfew : s.stage.timedSyncs < 16) :
    Done (.sync m a0 a1 a2) s (fun t => t.syncs = s.stage.syncs ++ [{ mask := a0 % 65536, datum := at0, cmd := some c }]) := by
  obtain ⟨hbit, hmask, hnano, -⟩ := sync_args hc
  refine done_sync h hc fun v hv => ?_
  have hdatum := sync_datum hc hat hv
  rw [v.syncCmd_timed (hbit.trans hb) (hnano ▸ hns) (by rwa [hdatum, hv.now]) (hv.timedSyncs ▸ hfew), Stage.ends_syncs, hdatum, hmask, ← hv.syncs]
  rfl

variable (hring : RingFree s.stage)
include hring

theorem sync_expires (hns : bits a2 29 0 < 1000000000) (hlate : at0 < s.stage.now) :
    Done (.sync m a0 a1 a2) s (fun t => t.syncs = s.stage.syncs ∧ Recorded s.stage pDecim c stExpired 0#32 t) := by
  obtain ⟨hbit, -, hnano, -⟩ := sync_args hc
  exact sync_completes h hc hring (by decide) fun v hv =>
    v.syncCmd_expired (hbit.trans hb) (hnano ▸ hns) (by rwa [sync_datum hc hat hv, hv.now])

theorem sync_refused (hno : 1000000000 ≤ bits a2 29 0 ∨ (s.stage.now ≤ at0 ∧ 16 ≤ s.stage.timedSyncs)) :
    Done (.sync m a0 a1 a2) s (fun t => t.syncs = s.stage.syncs ∧ Recorded s.stage pDecim c stRefused 0#32 t) := by
  obtain ⟨hbit, -, hnano, -⟩ := sync_args hc
  refine sync_completes h hc hring (by decide) fun v hv => ?_
  by_cases hns : bits a2 29 0 < 1000000000
  · obtain ⟨hlate, hfull⟩ := hno.resolve_left (by omega)
    exact v.syncCmd_full (hbit.trans hb) (hnano ▸ hns) (by rwa [sync_datum hc hat hv, hv.now]) (hv.timedSyncs ▸ hfull)
  · exact v.syncCmd_outOfRange (hbit.trans hb) (by omega)

end

end

end Sys2Proof.Machine
end

section
/-!
PROOF. The instant of a timed SYNC (R368), and the statement of the ports and the decimators.
-/
namespace Sys2Proof.Machine

/-! ### SYNCs that come about -/

/-- From `s` to `t` SYNCs have come about: none has begun to wait, and where no channel is in use none is left to complete. -/
structure Stage.SyncsFired (s t : Stage) : Prop where
  datum : t.datum = s.datum
  waits : ∀ x ∈ t.syncs, x.fired = false → x ∈ s.syncs
  unused : s.decs = [] → t.decs = [] ∧ t.syncs = s.syncs

theorem Stage.SyncsFired.refl (s : Stage) : s.SyncsFired s := ⟨rfl, fun _ hx _ => hx, fun h => ⟨h, rfl⟩⟩

theorem Stage.SyncsFired.trans {s t u : Stage} (h : s.SyncsFired t) (h' : t.SyncsFired u) : s.SyncsFired u :=
  ⟨h'.datum.trans h.datum, fun x hx hf => h.waits x (h'.waits x hx hf) hf, fun hd =>
    have ⟨htd, hts⟩ := h.unused hd
    have ⟨hud, hus⟩ := h'.unused htd
    ⟨hud, hus.trans hts⟩⟩

section
variable (s : Stage)

theorem Stage.decClear_frame (c k i : Nat) : ∃ d, s.decClear c k i = { s with decs := d } := by
  unfold Stage.decClear
  dsimp only
  split
  · exact ⟨_, rfl⟩
  · split
    · exact ⟨_, rfl⟩
    · exact ⟨_, rfl⟩

theorem Stage.syncDone_frame (cmd : Option Cmd) (n : Nat) :
    ∃ r m l h, s.syncDone cmd n = { s with regs := r, mem := m, recStore := l, recHeld := h } := by
  cases cmd with
  | none => exact ⟨_, _, _, _, rfl⟩
  | some c =>
    obtain ⟨_, _, _, _, h⟩ := Stage.complete_frame ((s.setFld pDecim 0x0D0 31 16 (satInc 0xFFFF (s.fld pDecim 0x0D0 31 16))).raise pDecim 3)
      pDecim c stDone (Word.ofNat n)
    exact ⟨_, _, _, _, h⟩

theorem Stage.syncsFired_syncDone (cmd : Option Cmd) (n : Nat) : s.SyncsFired (s.syncDone cmd n) := by
  obtain ⟨_, _, _, _, h⟩ := s.syncDone_frame cmd n
  rw [h]
  exact ⟨rfl, fun _ hx _ => hx, fun hd => ⟨hd, rfl⟩⟩

/-- The channels of a SYNC's groups are cleared at their inputs, one after the other. -/
def Stage.syncCleared (mask t : Nat) : Stage :=
  (s.syncChannels mask).foldl (fun s c => s.decClear c (s.inputAt c t).1 (s.inputAt c t).2) s

theorem Stage.syncCleared_frame (mask t : Nat) : ∃ d, s.syncCleared mask t = { s with decs := d } := by
  refine List.foldlRecOn (motive := fun u : Stage => ∃ d, u = { s with decs := d }) (s.syncChannels mask) _ ⟨s.decs, rfl⟩ ?_
  rintro _ ⟨d, rfl⟩ c -
  exact Stage.decClear_frame { s with decs := d } ..

/-- The SYNC that its cleared channels leave to complete. -/
def Stage.syncLeft (mask t : Nat) (cmd : Option Cmd) : SyncReq :=
  let l := s.syncChannels mask
  { mask := mask, datum := t, cmd := cmd, fired := true, doneAt := l.foldl (fun m c => max m (s.inputAt c t).1) s.datum.index + 1, count := l.length }

theorem Stage.syncFire_eq (mask t : Nat) (cmd : Option Cmd) : s.syncFire mask t cmd = if s.syncChannels mask = [] then s.syncDone cmd 0
    else { s.syncCleared mask t with syncs := (s.syncCleared mask t).syncs ++ [s.syncLeft mask t cmd] } := rfl

theorem Stage.syncsFired_syncFire (mask t : Nat) (cmd : Option Cmd) : s.SyncsFired (s.syncFire mask t cmd) := by
  rw [s.syncFire_eq]
  split
  · exact s.syncsFired_syncDone cmd 0
  · rename_i hsome
    obtain ⟨_, h⟩ := s.syncCleared_frame mask t
    rw [h]
    refine ⟨rfl, fun x hx hf => ?_, fun hd => absurd (by rw [Stage.syncChannels, Stage.decsUsed, hd]; rfl) hsome⟩
    rcases List.mem_append.mp hx with hold | hnew
    · exact hold
    · rw [List.mem_singleton.mp hnew] at hf
      cases hf

/-- A SYNC that comes about changes DECIM, its channels and the completion ring. -/
theorem Stage.keeps_syncDone (cmd : Option Cmd) (n : Nat) : Keeps [0, pDecim] [.decs, .ring, .mem] s (s.syncDone cmd n) := by
  have hcount : ∀ v, Keeps [0, pDecim] [.decs, .ring, .mem] s ((s.setN pDecim 0x0D0 v).raise pDecim 3) := fun v =>
    ((s.keeps_setN v (by decide) (by decide)).trans (Stage.keeps_raise _ pDecim (by decide))).mono (by simp) (by simp)
  cases cmd with
  | none => exact hcount _
  | some c => exact (hcount _).comp ((Stage.keeps_complete _ pDecim c stDone _).mono (by simp) (by simp))

theorem Stage.keeps_decs (d : Tab DecSt) (l : List SyncReq) : Keeps [] [.decs] s { s with decs := d, syncs := l } :=
  keeps_of_part rfl fun x hx => by cases x <;> simp_all [Part.same]

theorem Stage.keeps_syncFire (mask t : Nat) (cmd : Option Cmd) : Keeps [0, pDecim] [.decs, .ring, .mem] s (s.syncFire mask t cmd) := by
  rw [s.syncFire_eq]
  refine iteInduction (fun _ => s.keeps_syncDone cmd 0) fun _ => ?_
  obtain ⟨d, h⟩ := s.syncCleared_frame mask t
  rw [h]
  exact (s.keeps_decs d _).mono (by simp) (by simp)

/-! ### The instant of a timed SYNC -/

/-- The timed SYNCs whose instant has come no longer wait. -/
def Stage.dueSyncsTaken : Stage := { s with syncs := s.syncs.filter fun x => x.fired || !decide (x.datum ≤ s.now) }

/-- Those SYNCs come about. -/
def Stage.syncsFire : Stage :=
  (s.syncs.filter fun x => !x.fired && decide (x.datum ≤ s.now)).foldl (fun s x => s.syncFire x.mask x.datum x.cmd) s.dueSyncsTaken

theorem Stage.syncInstant_eq (r : Nat) : s.syncInstant r = (s.tick r).syncsFire := rfl

theorem Stage.syncsFired_syncsFire : s.dueSyncsTaken.SyncsFired s.syncsFire :=
  List.foldlRecOn (motive := s.dueSyncsTaken.SyncsFired) _ _ (.refl _) fun t ht x _ => ht.trans (t.syncsFired_syncFire x.mask x.datum x.cmd)

/-- What still waits lies after the datum. -/
theorem Stage.waits_dueSyncsTaken {x : SyncReq} (hx : x ∈ s.dueSyncsTaken.syncs) (hf : x.fired = false) : s.now < x.datum := by
  obtain ⟨-, hkeep⟩ := List.mem_filter.mp hx
  rw [hf, Bool.false_or, Bool.not_eq_true', decide_eq_false_iff_not] at hkeep
  omega

theorem Stage.keeps_syncInstant (r : Nat) : Keeps [0, pDecim] [.datum, .decs, .ring, .mem] s (s.syncInstant r) := by
  have htick : Keeps [] [.datum] s (s.tick r) := s.keeps_datum _
  have hdue : Keeps [] [.decs] (s.tick r) (s.tick r).dueSyncsTaken := (s.tick r).keeps_decs _ _
  have hfire : Keeps [0, pDecim] [.decs, .ring, .mem] (s.tick r).dueSyncsTaken (s.tick r).syncsFire := keeps_foldl (fun t x _ => t.keeps_syncFire ..) _
  exact ((htick.trans hdue).trans hfire).mono (by simp) (by simp)

end

theorem syncInstant_fires {s : State} (r : Nat) (h : s.stage.dieUp = true) : Done (.syncInstant r) s (fun t => t.datum = (s.stage.tick r).datum
    ∧ (∀ x ∈ t.syncs, x.fired = false → (s.stage.tick r).now < x.datum)
    ∧ (s.stage.decs = [] → t.decs = [] ∧ ∀ x ∈ t.syncs, x ∈ s.stage.syncs)) := by
  refine done_act (f := fun t => t.syncInstant r) rfl h ?_
  rw [Stage.syncInstant_eq, Stage.ends_datum, Stage.ends_syncs, Stage.ends_decs]
  obtain ⟨hdatum, hwaits, hunused⟩ := (s.stage.tick r).syncsFired_syncsFire
  refine ⟨hdatum, fun x hx hf => Stage.waits_dueSyncsTaken _ (hwaits x hx hf) hf, fun hd => ?_⟩
  obtain ⟨hdecs, hsyncs⟩ := hunused hd
  exact ⟨hdecs, fun x hx => (List.mem_filter.mp (hsyncs ▸ hx)).1⟩

theorem syncInstant_frame (r : Nat) : Frame [.syncInstant r] [0, pDecim] [.datum, .decs, .ring, .mem] :=
  frame_act (f := fun t => t.syncInstant r) (fun _ => rfl) fun s => s.keeps_syncInstant r

/-! ### The ports and the decimators -/

/-- Settles O51, by the writes of the ports' registers, the events of a port and of a clock group, and the SYNCs that wait and come about. -/
theorem portsAndDecimators : Obligations.PortsAndDecimators := by
  unfold Obligations.PortsAndDecimators
  refine ⟨fun s m p v => ?_, fun s p r bclks slots h => ?_, fun s m a0 a1 a2 at0 c h hring hc hat => ?_, fun s r h => syncInstant_fires r h,
    fun p r bclks slots done tx _ => ⟨fsyncEdge_frame p r bclks slots done, portEvents_frame p r bclks slots tx⟩,
    fun p r => clkLost_frame p r, fun r => syncInstant_frame r⟩
  · exact ⟨fun rate h => cgCfgWrite_restarts rate h, fun h => mclkCfgWrite_judges h, fun h => portCfgWrite_stops h,
      fun k hk h => pdmClkCfgWrite_runs hk h, fun h => blkFracRead_latches h⟩
  · refine ⟨fun done e hd hon hbar he hclock f w o hn => ?_, fun hd hoff => fsyncEdge_unheeded h hd hoff, fun he => frameWindowEnd_unaligned h he,
      fun e he => ⟨fun hw => frameWindowEnd_open h he hw, fun hw => frameWindowEnd_missing h he hw⟩,
      fun d hm hl hr => clkLost_clears h hm hl hr, fun hi => clkLost_idle h hi,
      fun tx f0 n hst hl => portRampEnd_runs h hst hl, fun tx f st n hf => portFadeEnd_acquires h hf⟩
    exact ⟨fun hf hw => fsyncEdge_follows h hd hon hbar he hclock hn hf hw, fun hslip => fsyncEdge_slips h hd hon hbar he hclock hn hslip⟩
  · exact ⟨fun hb hp => sync_joins h hc hb hp, fun hb hns hlate => sync_expires h hc hat hb hring hns hlate,
      fun hb hns hlate hfew => sync_waits h hc hat hb hns hlate hfew, fun hb hno => sync_refused h hc hat hb hring hno⟩

end Sys2Proof.Machine
end
